-- ==== Sys2Proof/Word.lean ====
section
/-! DEFINITION. The plain word types of the model and the sparse map that holds every indexed collection of the
device: a list of (key, value) pairs, keys rising, no entry equal to the value an absent key reads as. -/

namespace Sys2Proof

/-- One byte. -/
abbrev Byte := BitVec 8

/-- A 64-bit register, counter or instruction word. -/
abbrev Word := BitVec 64

/-- A sparse collection keyed by a number; what an absent key reads as is given at each read. -/
abbrev SMap (ν : Type) := List (Nat × ν)

/-- The value at key `k`, or `d` where the map lists none. -/
def SMap.get {ν : Type} (d : ν) : SMap ν → Nat → ν
  | [], _ => d
  | (k', v) :: m, k => if k' = k then v else SMap.get d m k

/-- Insert before the first larger key. -/
def SMap.insert {ν : Type} (k : Nat) (v : ν) : SMap ν → SMap ν
  | [] => [(k, v)]
  | (k', v') :: m => if k < k' then (k, v) :: (k', v') :: m else (k', v') :: SMap.insert k v m

/-- Remove every entry with key `k`. -/
def SMap.erase {ν : Type} (m : SMap ν) (k : Nat) : SMap ν :=
  m.filter (fun p => p.1 != k)

/-- Write `v` at key `k`; writing the default `d` removes the entry, so equal maps are equal lists. -/
def SMap.set {ν : Type} [DecidableEq ν] (d : ν) (m : SMap ν) (k : Nat) (v : ν) : SMap ν :=
  if v = d then SMap.erase m k else SMap.insert k v (SMap.erase m k)

/-- The canonical form: keys strictly rising and no entry equal to the default. -/
def SMap.wf {ν : Type} [DecidableEq ν] (d : ν) (m : SMap ν) : Bool :=
  decide ((m.map Prod.fst).Pairwise (· < ·)) && m.all (fun p => p.2 != d)

/-- A map written anew in canonical form: the first entry of a key stands. -/
def SMap.canon {ν : Type} [DecidableEq ν] (d : ν) (m : SMap ν) : SMap ν :=
  m.foldr (fun p acc => SMap.set d acc p.1 p.2) []

end Sys2Proof
end

