-- ==== Sys2Proof/Syntax.lean ====
section
/-! DEFINITION. The commands the device takes: one constructor for each row of spec/opcode_table.json. The table gives
the rows no operands; the operands here are what the rule of each row needs from outside the device (log entry 3).
Index conventions: matrix core g = 2n + c of MCc on MDn (R118); physical ETV-D core d = 64n + c of RDn (R223); cluster
and cluster queue k = 4n + k (R239); fabric link l = 16k + l of EDk (R302); die index as in R427. -/

namespace Sys2Proof

/-- A register requester of R11: one PCIe function, one host core, or Caldera. -/
inductive Req where
  | pf (port : Nat)
  | vf (port b : Nat)
  | hc (h : Nat)
  | caldera
  deriving DecidableEq, Repr

/-- What a register access names: a BAR0 offset (R27), a host-core system register (Table 14-2), the SR-IOV and ATS
controls of a port (R199, R415), or an offset in BAR2 of VF b, which holds its MSI-X table and pending bits (07, Basin
registers). -/
inductive RegAddr where
  | bar0 (off : Nat)
  | sys (h num : Nat)
  | sriov (port : Nat)
  | ats (port fn : Nat)
  | vfBar2 (b off : Nat)
  deriving DecidableEq, Repr

/-- A requester of memory (R31 to R33); a matrix core accesses it for the command in its context `c`. -/
inductive Master where
  | pf (port : Nat)
  | hc (h : Nat)
  | core (g c : Nat)
  | dsp (d : Nat)
  | caldera
  deriving DecidableEq, Repr

/-- Where a memory error lies: the 64-bit word at an address, a word of a line that the command of dispatch order `seq` has
staged in a core's Sinter, a word of a remote-read cache line, or one of the three copies of a line's poison bit (R155, R157). -/
inductive EccLoc where
  | mem (addr : Nat)
  | sinter (g seq item word : Nat)
  | cache (die line word : Nat)
  | poisonBit (line copy : Nat)
  deriving DecidableEq, Repr

/-- A memory error that has arisen by the time of a command, if any: the bits in error of the code word at a place, data bits
and check bits (16 of store, the low 8 elsewhere). Whatever next reads the word finds it (R155, R156). -/
inductive Ecc where
  | clean
  | flip (loc : EccLoc) (data : BitVec 64) (check : BitVec 16)
  deriving DecidableEq, Repr

/-- A unit of the four-level hierarchy (Table 1-3); block and tile are numbered inside their region (Table 12-6). -/
inductive FUnit where
  | region (d : Nat)
  | router (d : Nat)
  | block (d k : Nat)
  | tile (d k u : Nat)
  deriving DecidableEq, Repr

/-- An IEEE 802.1Q tag (R287). -/
structure VTag where
  vid : Nat
  pcp : Nat
  dei : Bool
  deriving DecidableEq, Repr

/-- One O-RAN U-plane section: its sectionId, first PRB and the bytes of its PRBs in order (R274, R281, R283). -/
structure Section where
  id : Nat := 0
  startPrb : Nat
  prbs : List (List Byte)
  deriving DecidableEq, Repr

/-- The eCPRI part of a frame as R272, R273 and R279 name its fields. -/
structure Ecpri where
  rev : Nat
  concat : Bool
  msgType : Nat
  eaxc : Nat
  seqId : Nat
  ebit : Bool
  dataDirection : Nat
  payloadVersion : Nat
  extension : Bool
  frameId : Nat
  subframeId : Nat
  slotId : Nat
  symbolId : Nat
  sections : List Section
  raw : List Byte
  /-- The subsequence of SEQ_ID (R272). -/
  subSeq : Nat := 0
  deriving DecidableEq, Repr

/-- A received or sent Ethernet frame (R270, R271); `len` counts from destination address to FCS, `data` holds the bytes
after the EtherType and before the FCS, and `ecpri` their reading where the EtherType is 0xAEFE. -/
structure Frame where
  dst : Nat
  src : Nat
  tag : Option VTag
  etype : Nat
  len : Nat
  fcsOk : Bool
  ecpri : Option Ecpri
  data : List Byte := []
  deriving DecidableEq, Repr

/-- A fabric packet (Table 10-2) with its payload lines and their poison. -/
structure Packet where
  ty : Nat
  status : Nat := 0
  hops : Nat := 0
  poison : Bool := false
  mc : Bool := false
  lvl : Nat := 3
  dst : Nat := 0
  src : Nat := 0
  tag : Nat := 0
  gen : Nat := 0
  ftid : Nat := 0
  job : Nat := 0
  addr : Nat := 0
  plen : Nat := 0
  mlen : Nat := 0
  res : Nat := 0
  seg : Nat := 0
  payload : List Byte := []
  /-- The poison of each 64-byte payload line; lines it does not list are clean. -/
  payPoison : List Bool := []
  deriving DecidableEq, Repr

/-- What training finds at the other end of a link (R305, R332, R404). -/
structure Partner where
  sysid : Nat
  plink : Nat
  native : Nat
  lm : Nat
  deriving DecidableEq, Repr

/-- A 1PPS edge (R42): the step of 0.8 ns of the reference period in which it arrives, 0 to 7, and its direction. -/
structure PpsEdge where
  sub : Nat
  rising : Bool
  deriving DecidableEq, Repr

/-- A fault met by a pass in one physical column (R92 to R94): what it adds to the column's new SUM and to its residue, and whether it
turns a minimum or maximum selection. -/
structure ColFault where
  pcol : Nat
  sum : Int := 0
  res : Nat := 0
  select : Bool := false
  deriving DecidableEq, Repr

/-- I3C common command codes the device supports (R440). -/
inductive Ccc where
  | entdaa (addr : Nat)
  | setdasa (addr : Nat)
  | rstdaa
  | getpid
  | getbcr
  | getdcr
  | getstatus
  | enec (mask : Nat)
  | disec (mask : Nat)
  | rstact (action : Nat)
  | other (code : Nat)
  deriving DecidableEq, Repr

/-- One carrier's sample statistics of the tick frame just ended (R267): carrier, idle samples, all samples, sum of
re² + im² over the idle ones. -/
structure NoiseStat where
  car : Nat
  idle : Nat
  total : Nat
  sum : Nat
  deriving DecidableEq, Repr

/-- A clock of a die and how far a count of 1 µs finds it from its set frequency, in ppm (R374): 0 array, 1 radio, 2 host core. -/
structure ClockDev where
  clk : Nat
  ppm : Nat
  deriving DecidableEq, Repr

/-- Successive samples of a rail, in units of 0.25 mV, the latest last (R374, Table 15-15). -/
structure RailRun where
  rail : Nat
  samples : List Nat
  deriving DecidableEq, Repr

/-- A sync word as a GFSK receiver took it, and the counter time in ns of its last sample (R265). -/
structure GfskSync where
  word : BitVec 32
  time : Nat
  deriving DecidableEq, Repr

/-- The commands, one constructor for each row of the table, in the table's order. -/
inductive Instr where
  /-- R8: a register write; `wide` is a 64-bit access. -/
  | registerWrite (r : Req) (a : RegAddr) (wide : Bool) (v : Word)
  /-- R11: a whole read of a register (64 bits of it, or its 32). -/
  | registerReadClear (r : Req) (a : RegAddr)
  /-- R11. -/
  | lowHalfRead (r : Req) (a : RegAddr)
  /-- R11; `a` names the 64-bit register whose upper half is read. -/
  | highHalfRead (r : Req) (a : RegAddr)
  /-- R461. -/
  | lowHalfWrite (r : Req) (a : RegAddr) (v : BitVec 32)
  /-- R461. -/
  | highHalfWrite (r : Req) (a : RegAddr) (v : BitVec 32)
  /-- R32; `ofs` is the offset in the BAR2 window, `ext` what host memory would hold. -/
  | bar2Read (port ofs len : Nat) (e : Ecc)
  /-- R32. -/
  | bar2Write (port ofs : Nat) (data : List Byte) (poison : Bool) (e : Ecc)
  /-- R30. -/
  | bar2BaseWrite (port : Nat) (v : Word)
  /-- R16; `past` names the blocked loads (core, context) whose packets had passed the router. -/
  | routerFence (d : Nat) (past : List (Nat × Nat))
  /-- R17. -/
  | routeChange
  /-- R21. -/
  | regionFence (d : Nat)
  /-- R21, R390. -/
  | blockFence (d k : Nat)
  /-- R23; `lvl` is the level (0 to 3) whose handler releases. -/
  | fenceRelease (u : FUnit) (lvl : Nat)
  /-- R26. -/
  | calderaMismatch
  /-- R26. -/
  | calderaResume
  /-- R35. -/
  | diePowerOff (d : Nat)
  /-- R35. -/
  | diePowerOn (d : Nat)
  /-- R38, R39. -/
  | tmbIncrWrite (v : Word)
  /-- R40. -/
  | tmbStepWrite (v : Word)
  /-- R41. -/
  | tmbNowRead (r : Req)
  /-- R41. -/
  | tmbNowFracRead (r : Req)
  /-- R42; `sub` is the edge's place inside the reference period in units of 0.8 ns. -/
  | ppsEdge (e : PpsEdge)
  /-- R43; the bytes of one message as received. -/
  | todMessage (bytes : List Byte)
  /-- R44. -/
  | ppsMiss
  /-- R48. -/
  | tick
  /-- R51: a write of GEY_CTRL with RUN 1. -/
  | tickGeneratorStart (v : BitVec 32)
  /-- R51: a write of GEY_CTRL with RUN 0. -/
  | tickGeneratorStopRequest (v : BitVec 32)
  /-- R51. -/
  | tickGeneratorStop
  /-- R52: a write of GEY_CTRL that may change PERIOD_NEXT or APPLY_SFN. -/
  | periodChangeRequest (v : BitVec 32)
  /-- R52. -/
  | periodChange
  /-- R51. -/
  | frameOfsWrite (v : BitVec 32)
  /-- R54. -/
  | fumaroleWrite (v : BitVec 32)
  /-- R55. -/
  | fumaroleApply
  /-- R58: a write of TMB_TRIGn_CTRL with ARM 1. -/
  | trigArm (n : Nat) (v : BitVec 32)
  /-- R58: a write of TMB_TRIGn_CTRL with ARM 0. -/
  | trigDisarm (n : Nat) (v : BitVec 32)
  /-- R57. -/
  | trigEdge (n : Nat)
  /-- R58. -/
  | trigPulseEnd (n : Nat)
  /-- R62; 0: counters differ, 1: heartbeat missing, 2: ED0 fenced. -/
  | timebaseTakeover (cause : Nat)
  /-- R64. -/
  | refLoss
  /-- R64. -/
  | refReturn
  /-- R66; `miss` lists the physical columns whose residue check fails. -/
  | passCommit (g a : Nat) (faults : List ColFault)
  /-- R67. -/
  | weightLoadEnd (g : Nat)
  /-- R97. -/
  | columnMapOut (g a : Nat)
  /-- R95. -/
  | missCountClear (g a col : Nat)
  /-- R99. -/
  | arrInjectArm (g a : Nat) (v : BitVec 32)
  /-- R101. -/
  | scrubEnd (g : Nat)
  /-- R116: the ETV-M instruction rows issue the next instruction of context `c` of core `g`. -/
  | nop (g c : Nat)
  | j (g c : Nat)
  | jal (g c : Nat)
  | jr (g c : Nat)
  | beq (g c : Nat)
  | bne (g c : Nat)
  | blt (g c : Nat)
  | bge (g c : Nat)
  | dbnz (g c : Nat)
  | scalarOp (g c : Nat)
  | mul (g c : Nat)
  | li (g c : Nat)
  | ld (g c : Nat)
  | st (g c : Nat)
  | rdsys (g c : Nat)
  | sdld (g c : Nat)
  | sdset (g c : Nat)
  | scopy (g c : Nat)
  | swait (g c : Nat)
  /-- R120; `ext` is what an address outside the device's own memories returns (host memory, register space). -/
  | loadReturn (g c : Nat) (ext : List Byte) (poison : Bool)
  /-- R116; `sd` is the descriptor whose stream ends. -/
  | streamEnd (g c sd : Nat)
  | wload (g c : Nat)
  | wswap (g c : Nat)
  | astream (g c : Nat)
  | accflush (g c : Nat)
  | accinit (g c : Nat)
  /-- R127, R362; `miss`: a residue or duplicate check of the vector unit fails. -/
  | vop (g c : Nat) (miss : Bool)
  | vld (g c : Nat)
  | vst (g c : Nat)
  | vred (g c : Nat) (miss : Bool)
  | vimg (g c : Nat)
  | vtopk (g c : Nat) (miss : Bool)
  | vdigest (g c : Nat)
  | signal (g c : Nat)
  | wait (g c : Nat)
  /-- R143. -/
  | semaphoreGrant (g c : Nat)
  | tickwait (g c : Nat)
  /-- R144. -/
  | tickwaitRelease (g c : Nat)
  | fbar (g c : Nat)
  | commit (g c : Nat)
  | cabort (g c : Nat)
  | fload (g c : Nat)
  | fstore (g c : Nat)
  | fatom (g c : Nat)
  | finv (g c : Nat)
  | fsend (g c : Nat)
  | frecv (g c : Nat)
  /-- R146. -/
  | frecvMessageReserve (g c : Nat)
  /-- R130. -/
  | dispatch (g q : Nat)
  /-- R137. -/
  | commitPoint (g c : Nat)
  /-- R140. -/
  | drainEnd (g : Nat)
  /-- R185; a `g` of 24 + k names cluster k (R239). -/
  | completionRecordWrite (g q : Nat)
  /-- R131. -/
  | budgetExceeded (g c : Nat)
  /-- R142. -/
  | radioRsvWrite (g : Nat) (v : BitVec 32)
  /-- R142. -/
  | radioRsvApply (g : Nat)
  /-- R143. -/
  | semSignalWrite (g : Nat) (v : BitVec 32)
  /-- R143. -/
  | semOwnerWrite (g n : Nat) (v : BitVec 32)
  /-- R156. -/
  | memoryRead (m : Master) (addr len : Nat) (e : Ecc)
  /-- R158. -/
  | memoryWrite (m : Master) (addr : Nat) (data : List Byte) (poison : Bool) (e : Ecc)
  /-- R153. -/
  | refresh (n ch bg : Nat)
  /-- R167; `addr` is the device physical address of the code word patrolled. -/
  | patrolRead (loc : EccLoc) (e : Ecc) (overtaken lastOfPeriod : Bool)
  /-- R169, R379. -/
  | bankGroupSparing (n ch bg : Nat)
  /-- R169. -/
  | sparingCopyEnd (n : Nat)
  /-- R163. -/
  | pageAssign (n : Nat) (v : Word)
  /-- R163. -/
  | pageRelease (n : Nat) (v : Word)
  /-- R163. -/
  | pageZeroingEnd (n : Nat)
  /-- R164. -/
  | deferredPageRelease (n page : Nat)
  /-- R163. -/
  | sramGranuleAssign (n gr : Nat) (v : BitVec 32)
  /-- R163. -/
  | sramGranuleRelease (n gr : Nat) (v : BitVec 32)
  /-- R163. -/
  | sramZeroingEnd (n gr : Nat)
  /-- R166. -/
  | keyGenerate (n : Nat) (v : BitVec 32)
  /-- R166. -/
  | keyLoad (n : Nat) (v : BitVec 32)
  /-- R166. -/
  | keyDestroy (n : Nat) (v : BitVec 32)
  /-- R166. -/
  | keyOpEnd (n : Nat)
  /-- R175. -/
  | tickProgramRead (g : Nat)
  /-- R178. -/
  | windowStart (g : Nat)
  /-- R178. -/
  | handBack (g : Nat)
  /-- R183; `q` is the flattened queue index, `cq`: the write is to CQ_HEAD and not to TAIL. -/
  | doorbellWrite (q : Nat) (cq : Bool) (v : BitVec 32)
  /-- R184. -/
  | queueEnable (q : Nat) (v : BitVec 32)
  /-- R184. -/
  | queueDisable (q : Nat) (v : BitVec 32)
  /-- R182. -/
  | queueBasinWrite (q : Nat) (v : BitVec 32)
  /-- R195. -/
  | acctSnapshot (v : BitVec 32)
  /-- R194. -/
  | storeBsAccrual
  /-- R201. -/
  | basinCreate (v : BitVec 32)
  /-- R203. -/
  | basinOpen (v : BitVec 32)
  /-- R218. -/
  | basinReset (v : BitVec 32)
  /-- R218. -/
  | basinResetEnd (b : Nat)
  /-- R220. -/
  | basinRemove (v : BitVec 32)
  /-- R220. -/
  | basinRemovalEnd (b : Nat)
  /-- R199: a write of VF Enable and NumVFs. -/
  | vfDisable (port : Nat) (vfe : Bool) (numVfs : Nat)
  /-- R218. -/
  | vfFlr (port b : Nat)
  /-- R210; `ofs` is the byte offset in the page of basin `b`. -/
  | mailboxWrite (r : Req) (b ofs : Nat) (data : List Byte)
  /-- R211. -/
  | upDoorbell (r : Req) (b slot : Nat) (ctl : Word)
  /-- R211, R213; `fault`: in ring mode, a write of the ring faults. -/
  | downDoorbell (r : Req) (b slot : Nat) (ctl : Word) (fault : Bool)
  /-- R213; `line`: the control line as host memory holds it; `entries`: the up ring's entries from UP_HEAD on;
  `fault`: a read or write of the ring faults. -/
  | ringPoll (b : Nat) (line : List Byte) (entries : List (List Byte)) (fault : Bool)
  /-- R214. -/
  | modeWrite (b : Nat) (v : BitVec 32)
  /-- R214. -/
  | modeChange (b : Nat)
  /-- R207. -/
  | hostCoreOwnerWrite (h : Nat) (v : BitVec 32)
  /-- R207. -/
  | hostCoreClearEnd (h : Nat)
  /-- R224; pair 0 or 1 of RDn. -/
  | dspSpareMap (n pair : Nat)
  /-- R231: the ETV-D instruction rows issue the next instruction of physical core `d`. -/
  | dspNop (d : Nat)
  | dspJ (d : Nat)
  | jsr (d : Nat)
  | rts (d : Nat)
  | bCc (d : Nat)
  | loop (d : Nat)
  | dspEnd (d : Nat)
  | dspTickwait (d : Nat)
  | dspTickwaitRelease (d : Nat)
  /-- R231, R364; `miss`: a lane residue or register parity check fails. -/
  | cmac (d : Nat) (miss : Bool)
  | cmpy (d : Nat) (miss : Bool)
  | rmac (d : Nat) (miss : Bool)
  | cpow (d : Nat) (miss : Bool)
  | xop (d : Nat) (miss : Bool)
  | aop (d : Nat) (miss : Bool)
  | cmp (d : Nat) (miss : Bool)
  | mvr (d : Nat) (miss : Bool)
  | mva (d : Nat) (miss : Bool)
  | nrm (d : Nat) (miss : Bool)
  | rcp (d : Nat) (miss : Bool)
  | bcast (d : Nat) (miss : Bool)
  | dspLi (d : Nat)
  | addi (d : Nat)
  | mvix (d : Nat)
  | dma (d : Nat)
  /-- R235; `ext` as in loadReturn. -/
  | dmaEnd (d ch : Nat)
  | dwait (d : Nat)
  | eng (d : Nat)
  | msig (d : Nat)
  | rti (d : Nat)
  | ilvl (d : Nat)
  | iclr (d : Nat)
  /-- R237. -/
  | interruptEntry (d : Nat)
  /-- R235. -/
  | dspTimerExpire (d : Nat)
  /-- R235. -/
  | dspTimerWrite (d : Nat) (v : Word)
  /-- R235. -/
  | dspDoorbellWrite (d : Nat) (v : BitVec 32)
  /-- R240; cluster `k`, its queue `q`, logical position `p`. -/
  | dspTaskDispatch (k q p : Nat)
  /-- R240. -/
  | dspTaskLoadEnd (d : Nat)
  /-- R240. -/
  | dspOutputCopyEnd (d : Nat)
  /-- R239. -/
  | dspTaskBudgetExceeded (d : Nat)
  /-- R242. -/
  | dspTickProgramRead (k : Nat)
  /-- R249; radio die `n`, engine `e`; `bad` lists the blocks whose self-check fails (R366). -/
  | ldpcDecodeJob (n e : Nat) (bad : List Nat)
  /-- R250. -/
  | ldpcEncodeJob (n e : Nat) (bad : List Nat)
  /-- R251. -/
  | polarJob (n e : Nat) (bad : Bool)
  /-- R252. -/
  | engineJobEnd (n e : Nat)
  /-- R254. -/
  | crcArm (n u : Nat) (v : Word)
  /-- R254. -/
  | crcDisarm (n u : Nat) (v : Word)
  /-- R255; the bits of the frame in stream order. -/
  | crcFrameEnd (n u : Nat) (bits : List Bool) (poison complete : Bool)
  /-- R256. -/
  | crcRunWrite (n u : Nat) (v : Word)
  /-- R258. -/
  | safetyMessage (n u : Nat) (bytes : List Byte)
  /-- R258. -/
  | safetyTimeout (n u : Nat)
  /-- R260. -/
  | eqChange (n j : Nat)
  /-- R265. -/
  | gfskFrameReceived (n b car : Nat) (sync : GfskSync) (frame : List Byte) (rssi fofs : Int)
  /-- R266. -/
  | gfskTxRecord (n b : Nat)
  /-- R267. -/
  | gfskNoiseReport (n b : Nat) (stats : List NoiseStat)
  /-- R270; device port index 0 to 15. -/
  | frameReceive (p : Nat) (fr : Frame)
  /-- R281; flow `f` of edge die `k`, symbol count `nsym`. -/
  | symbolDone (k f : Nat) (nsym : Int)
  /-- R283. -/
  | downlinkReadyCheck (k f : Nat) (nsym : Int)
  /-- R283. -/
  | downlinkSend (k f : Nat) (nsym : Int)
  /-- R284; slot count `sc`. -/
  | cplaneReadyCheck (k f : Nat) (sc : Int)
  /-- R284. -/
  | cplaneSend (k f : Nat) (sc : Int)
  /-- R285. -/
  | gfskDownlinkSend (k f : Nat)
  /-- R291; key (address, VID). -/
  | macAgeRemoval (k addr vid : Nat)
  /-- R290. -/
  | macPin (k : Nat)
  /-- R290. -/
  | macDelete (k : Nat)
  /-- R290. -/
  | macRead (k : Nat)
  /-- R291. -/
  | macFlushAll (k : Nat)
  /-- R291. -/
  | macFlushPort (k : Nat)
  /-- R291. -/
  | macFlushEnd (k : Nat)
  /-- R293; switch port 0 to 4 of edge die `k`. -/
  | egressTransmit (k p : Nat)
  /-- R294. -/
  | shaperWrite (k p q : Nat) (v : Word)
  /-- R295; 64-bit word `w` of policer `i`. -/
  | policerWrite (k i w : Nat) (v : Word)
  /-- R305. -/
  | linkEnable (l : Nat) (v : BitVec 32)
  /-- R305. -/
  | linkRetrain (l : Nat) (v : BitVec 32)
  /-- R305. -/
  | linkTrainingEnd (l : Nat) (p : Partner)
  /-- R303; `ack` is the sequence the partner acknowledges. -/
  | flitReceive (l seq ack : Nat) (crcOk : Bool)
  /-- R303. -/
  | replayRequest (l seq : Nat)
  /-- R304; 0: replays, 1: no valid flit, 2: loss of light, 3: fence. -/
  | linkDown (l cause : Nat)
  /-- R311. -/
  | fabricRdl (l : Nat) (p : Packet)
  /-- R311. -/
  | fabricRds (l : Nat) (p : Packet)
  /-- R316. -/
  | fabricWr (l : Nat) (p : Packet) (e : Ecc)
  /-- R316. -/
  | fabricAtom (l : Nat) (p : Packet) (e : Ecc)
  /-- R323. -/
  | fabricMsg (l : Nat) (p : Packet)
  /-- R328. -/
  | fabricBarr (p : Packet)
  /-- R329. -/
  | fabricBrel (p : Packet)
  /-- R317. -/
  | fabricData (p : Packet)
  /-- R317. -/
  | fabricAck (p : Packet)
  /-- R319; the transaction tag. -/
  | requestUnanswered (tag : Nat)
  /-- R322. -/
  | jobTeardown (v : Word)
  /-- R322. -/
  | jobTableRemove (v : Word)
  /-- R324. -/
  | messageRetry (tag : Nat)
  /-- R329. -/
  | barrierReleaseApply (b : Nat)
  /-- R330. -/
  | barrierTimeout (b : Nat)
  /-- R318; `pod`: a FAB_PODRTp entry. -/
  | routeWrite (pod : Bool) (i : Nat) (v : Word)
  /-- R310. -/
  | ftidWrite (b : Nat) (v : BitVec 32)
  /-- R339. -/
  | detModeEnable (v : BitVec 32)
  /-- R339. -/
  | detModeEntry
  /-- R341. -/
  | detModeDisable (v : BitVec 32)
  /-- R341; 1: junction, 2: rail current, 3: die or package power. -/
  | detModeLoss (cause : Nat)
  /-- R342. -/
  | obsidianEnable (v : Word)
  /-- R346. -/
  | obsidianDisable (v : Word)
  /-- R346; `fromEvent`: a fault event and not a write. -/
  | obsidianFreeze (fromEvent : Bool)
  /-- R346. -/
  | obsidianFrozen
  /-- R344. -/
  | obsidianMark (v : Word)
  /-- R347; `agrees`: the comparison of a compared record holds. -/
  | replayRecordApply (agrees : Bool)
  /-- R347. -/
  | tickSet (v : Word)
  /-- R349. -/
  | lockstepEnable (v : Word)
  /-- R350. -/
  | lockrec (p : Packet)
  /-- R351. -/
  | locksig (p : Packet)
  /-- R351. -/
  | signatureIntervalEnd
  /-- R351. -/
  | lostsig
  /-- R354. -/
  | digestClear (g k : Nat)
  /-- R363. -/
  | sequencerMismatch (g : Nat)
  /-- R365; `again`: the flit failed on this hop before, the resent one too. -/
  | bridgeFlitResend (d : Nat) (again : Bool)
  /-- R368. -/
  | slotControlMiss (n : Nat)
  /-- R369; monitor `i` of RDn. -/
  | deadlineMarginCheck (n i : Nat)
  /-- R369. -/
  | deadlineCheck (n i : Nat)
  /-- R372. -/
  | tickMissing (d : Nat)
  /-- R373. -/
  | timingStop
  /-- R373. -/
  | tstopClear
  /-- R374. -/
  | clockFault (d : Nat) (clk : ClockDev)
  /-- R374. -/
  | railFault (r : RailRun)
  /-- R375. -/
  | heartbeatMiss (d : Nat)
  /-- R376. -/
  | watchdogExpiry
  /-- R380; region window of die `d`. -/
  | faultInject (d : Nat) (v : BitVec 32)
  /-- R382. -/
  | journalWrite
  /-- R446. -/
  | mainRailsLost
  /-- R384. -/
  | aonLow
  /-- R384. -/
  | alertClear (v : BitVec 32)
  /-- R386. -/
  | journalPresentation
  /-- R392. -/
  | rungClear
  /-- R397. -/
  | linkseq (l : Nat) (seq : Nat)
  /-- R397. -/
  | linkseqTimeout (l : Nat)
  /-- R400; device `dev` reports link `l` in state `st` with change number `sq`. -/
  | lstate (dev l st sq : Nat)
  /-- R400. -/
  | lview (dev : Nat) (states : List Nat)
  /-- R400. -/
  | lviewSend
  /-- R402. -/
  | voteCast (v : BitVec 32)
  /-- R402. -/
  | vote (slot target num : Nat)
  /-- R405. -/
  | testFence (v : Word)
  /-- R407. -/
  | testRun (v : Word)
  /-- R407. -/
  | testRunEnd (cycles status : Nat)
  /-- R408. -/
  | testReturn (v : Word)
  /-- R408. -/
  | testRelease (v : Word)
  /-- R395. -/
  | warmReset
  /-- R437. -/
  | powerCycleRequest
  /-- R416. -/
  | pcieConventionalReset (port : Nat)
  /-- R416. -/
  | pfFlr (port : Nat)
  /-- R415. -/
  | atsInvalidation (port fn page count : Nat)
  /-- R415. -/
  | atsInvalidationDone (port : Nat)
  /-- R418; a load (`data` empty) or a store; `refused`: the host refuses the translation (R415). -/
  | hostCoreAccess (h addr len : Nat) (store : Bool) (data : List Byte) (refused : Bool) (e : Ecc)
  /-- R418. -/
  | hostCoreStart (h : Nat) (v : Word)
  /-- R418. -/
  | hostCoreHalt (h : Nat) (v : Word)
  /-- R419. -/
  | hcTimecmpWrite (h : Nat) (v : Word)
  /-- R420. -/
  | hcTimerExpire (h : Nat)
  /-- R420. -/
  | hcInterruptAck (h : Nat) (mask : Word)
  /-- R419. -/
  | hsRandRead (h : Nat)
  /-- R419. -/
  | eventServiceTake (h : Nat)
  /-- R426. -/
  | d2hFlagRaise (h k : Nat)
  /-- R422. -/
  | pairEnable (p : Nat) (v : BitVec 32)
  /-- R423. -/
  | pairMismatch (p : Nat)
  /-- R425. -/
  | hcDoorbell (h : Nat) (v : BitVec 32)
  /-- R424. -/
  | netqTransmit (k : Nat)
  /-- R428; server 0 Caldera, 1 host core; `hostRefuses`: the record write faults at the host (R431). -/
  | eventCompletion (k : Nat) (v : BitVec 32) (hostRefuses : Bool)
  /-- R430. -/
  | eventQueueHeadWrite (q : Nat) (v : BitVec 32)
  /-- R431. -/
  | evcEnable (v : BitVec 32)
  /-- R431. -/
  | evcDisable (v : BitVec 32)
  /-- R433. -/
  | powerUp
  /-- R444; step 1 to 8 of Table 15-3. -/
  | pgInput (step : Nat) (high : Bool)
  /-- R447; group 1 to 5. -/
  | dieRelease (grp : Nat)
  /-- R433. -/
  | meminitEnd
  /-- R434; `hdrOk`, `sigOk` as found in `image`; `readOk`: the host read succeeded. -/
  | fwLoad (v : Word)
  /-- R435. -/
  | fwStage (v : Word)
  /-- R434; the image as read from host memory. -/
  | fwVerifyEnd (image : List Byte) (readOk : Bool)
  /-- R436. -/
  | fwReady
  /-- R437. -/
  | fwReadyTimeout
  /-- R439. -/
  | calUserWrite (i : Nat) (v : Word)
  /-- R440. -/
  | i3cCcc (c : Ccc)
  /-- R441. -/
  | i3cPrivateWrite (bytes : List Byte)
  /-- R441. -/
  | i3cPrivateRead (len : Nat)
  /-- R449; watts over the window. -/
  | pkgPowerWindow (watts : Nat)
  /-- R453; `watts` over 100 µs, `mxLimit`: VDD_MX at its current limit. -/
  | throttleStep (n watts : Nat) (mxLimit : Bool)
  /-- R453. -/
  | throttleStepUp (n : Nat)
  /-- R450. -/
  | arrayClockGate (g a : Nat)
  /-- R455. -/
  | thermalFault (d : Nat)
  /-- R455. -/
  | criticalTemperature (d : Nat)
  /-- R270. -/
  | fronthaulLinkChange (p : Nat) (link fec : Bool)
  /-- R404. -/
  | lightReturn (l : Nat)
  /-- R385. -/
  | vddAonLoss
  /-- R459. -/
  | bkpActiveChange (high : Bool)
  /-- R376. -/
  | watchdogService
  /-- R375. -/
  | regionHeartbeat (d : Nat)
  /-- R452; raw readings of the die's two sensors in 1/16 °C. -/
  | thermalSensorSample (d : Nat) (raw0 raw1 : Int)
  /-- R450. -/
  | dspCoreClockGate (d : Nat)
  deriving DecidableEq, Repr

end Sys2Proof
end

