-- ==== Sys2Proof/Config.lean ====
section
/-! DEFINITION. What one device fixes and the spec does not: fuse contents, the tables and codes the spec takes from
other standards by name, and the free values of results the spec leaves open. None has a body, so no proof can see a
value of it (log entries 5 to 12). -/

namespace Sys2Proof.Config

/-- A fresh value for each result the spec leaves open; the argument is the state's counter `free` (log entry 5). -/
opaque freeValue : Nat → Nat

/-- PKG_SERIAL, from fuses (Table 14-14). -/
opaque serial : Nat

/-- FACTORY of calibration item i, 16 bits, from fuses (R438). -/
opaque calFactory : Nat → Nat

/-- The fused minimum RELEASE of a firmware image (R434). -/
opaque minRelease : Nat

/-- Fused public key of a firmware image (`pkg` false) or of a test package (R434, R406). -/
opaque fusedKey : Bool → Nat → List Byte

/-- Ed25519 verification (RFC 8032) of a signature over a message under a public key (R434, R406). -/
opaque ed25519Verify : List Byte → List Byte → List Byte → Bool

/-- What the error code makes of an error it need not detect: three or more symbols of a store word (`store`), three or more bits
of another word. Detected where it answers none; otherwise the data bits that the word delivers wrong (R155; log entry 161). -/
opaque eccMiss (store : Bool) (pattern : Nat) : Option Nat

/-- A key drawn by a store controller's hardware random source (R166): store die and draw number. -/
opaque randomKey : Nat → Nat → Nat

/-- The hardware random source of the host cores (Table 14-2, HS_RAND). -/
opaque random64 : Nat → Nat

/-- The entries (row, column, shift) of an LDPC base graph of 3GPP TS 38.212 for a lifting size (R248). -/
opaque ldpcGraph : Nat → Nat → List (Nat × Nat × Nat)

/-- LDPC encoding of 3GPP TS 38.212 for a base graph and lifting size: the N bits sent for K bits, fillers 0 (R248). -/
opaque ldpcEncode : Nat → Nat → List Bool → List Bool

/-- The paths of list decoding by the polar code of 3GPP TS 38.212, rate matching undone, the likeliest first: KIND, N, list
size, number of bits K and the soft values; each path's K bits, CRC included (R251). -/
opaque polarPaths (kind n list k : Nat) (llr : List Int) : List (List Bool)

/-- Polar coding and rate matching of 3GPP TS 38.212, the channel interleaver of UCI included: KIND, N, E and the K bits, CRC
included (R251). -/
opaque polarCode (kind n e : Nat) (l : List Bool) : List Bool

/-- The byte a host memory gives at an address to a stream that reads it, by the free-value counter at the read (log entry 188). -/
opaque hostByte : Nat → Nat → Byte

/-- A link in training goes on to its next state in a reference period (R305; log entry 181). -/
opaque trainStep (l clk : Nat) : Bool

/-- The set point of VDD_MX in mV over 580, for the array clocks and temperatures of the matrix dies (R443, R454; log entry 187). -/
opaque mxSetPoint (clocks temps : List Nat) : Nat

/-- Bits of the running frame that have passed a CRC unit, by unit and reference period, up to the frame's length (R256; log entry 174). -/
opaque crcPassed (u clk : Nat) : Nat

/-- The carrier of its radio die whose samples a GFSK flow carries, by edge die and flow, modulo 512 (R285; log entry 171). -/
opaque gfskCarrier (k f : Nat) : Nat

/-- The CI16 samples of a GFSK frame, 8 for each symbol: its symbols, h × 64 and BT 0.3 (R262; log entry 105). -/
opaque gfskWave (symbols : List Int) (h : Nat) (bt : Bool) : List Byte

/-- The 32-bit result of a vector compare that holds (true) or does not: R127 names the operations and gives no result
encoding (log entry 44). -/
opaque cmpResult : Bool → Nat

end Sys2Proof.Config
end

