-- ==== Sys2Proof/Machine/RegMap.lean ====
section
/-! DEFINITION. The register map: one kind for each register the spec describes, its place in BAR0 (R27, R28, R105,
R269, R298, R335), its width, and its fields with access type (R8) and reset value. Taken from the register tables
of the spec. MSI-X entries, SR-IOV and ATS control stand here too (R199, R415, R417). -/

namespace Sys2Proof.Machine

/-- Register kinds; an instance of a kind is named by its flattened index. -/
inductive RegKind where
  | PKG_ID | PKG_DIE_EN | PKG_DIE_FENCE | PKG_BAR2_BASE | PKG_SERIAL | PKG_RESET | PKG_BOOT | PKG_FW_ADDR
  | PKG_FW_CMD | PKG_ACCT_SNAP | PKG_ACCT_DATA | BSN_CMD | BSN_HC_OWNERh | BSN_STATEb | BSN_HMW_BASEb | BSN_HMW_LIMITb
  | BSN_RINGb | BSN_STALEb | BSN_MBXb | PKG_OBS_CTRL | PKG_OBS_RING | PKG_OBS_OLD | PKG_OBS_KEY | PKG_OBS_MARK
  | PKG_OBS_STATUS | PKG_LOCK_CTRL | PKG_LOCK_KEY | PKG_LOCK_CNT | PWR_DET_CTRL | PWR_DET_QUOTAc | PWR_PKG_LIMIT
  | PWR_LEND | PWR_STATUS | PWR_DIEd | PWR_RAILr | PKG_HC_CTRLh | PKG_HC_PAIRp | PKG_HC_DBELLh | PKG_D2H_ADDRb
  | PKG_D2H_WORDb | CAL_ITEMi | TMB_CTRL | TMB_STATUS | TMB_INCR | TMB_NOW | TMB_NOW_FRAC | TMB_STEP | TMB_PPS_CAP
  | TMB_TOD_SEC | TMB_TRIGn_CTRL | TMB_TRIGn_START | TMB_TRIGn_SHAPE | GEY_CTRL | GEY_FRAME_OFS | GEY_FUMAROLE
  | GEY_TICK | GEY_POS | GEY_TICK_SET | EVC_CTRL | EVC_STATUS | EVC_STRAY_CNT | EVC_Qq_BASE | EVC_Qq_HEAD
  | EVC_Qq_TAIL | EVC_CPL_TIMEk | EVC_CPLk | EVC_SRCn | FLT_STATUS | FLT_CTRL | FLT_ALERT | FLT_JRNL | FLT_JRNL_TORN
  | FLT_TEST_CMD | FLT_TEST_PKG | FLT_TEST_BUF | FLT_TEST_RES | FLT_TEST_EXP | FLT_RG_STATUS | FLT_RG_CNT
  | FLT_RG_LAST | FLT_RG_CNT2 | FLT_INJECT | FLT_DLM_BASE | FLT_DLM_CNT | FLT_SCTL | FLT_CFW_BASE | MXC_ARR_STATUS
  | MXC_ARR_SPAREs | MXC_ARR_RESCNT | MXC_ARR_LASTMISS | MXC_ARR_INJECT | MXC_SEQ_STATUS | MXC_SEQ_ERR
  | MXC_CTXc_STATE | MXC_SEMn | MXC_SEM_SIGNAL | MXC_DIGk | MXC_Qq_CTRL | MXC_Qq_RING | MXC_Qq_CRING | MXC_Qq_DBL
  | MXC_Qq_STATUS | MXC_Qq_CNT | MXC_TPROG_BASE | MXC_TPROG_STATUS | MXC_TPROG_LAST | MXC_CORE_KILLS | SNT_CTRL
  | SNT_STATUS | SNT_CNT | STR_CTRL | STR_STATUS | STR_ECC_CNT | STR_ECC_LAST | STR_SRAM_ECC_CNT | STR_PAGE_CMD
  | STR_KEY_CMD | STR_KEY_DATA | STR_SRAM_OWNERg | STR_PAGE_OWNERp | RDP_CORE_STATUS | RDP_CORE_IRQ | RDP_CORE_TIMER
  | RDP_CORE_DBELL | RDP_CLk_TPROG | RDP_CLk_TSTAT | RDP_SPARE | RDP_CELL_CFGj | CRC_Uu_CTRL | CRC_Uu_INIT
  | CRC_Uu_RUN | CRC_Uu_SAFE | GFK_Bb_RXRING | GFK_Bb_TXRING | GFK_Bb_NOISE | GFK_Bb_CARc_CFG | GFK_Bb_CARc_SYNC
  | GFK_Bb_CARc_CNT | FHL_Pp_CTRL | FHL_Pp_STATUS | FHL_Pp_MAC | FHL_Pp_POLMAP | FHL_Pp_SHq | FHL_Pp_CNT
  | FHL_SW_CTRL | FHL_SW_STATUS | FHL_MAC_KEY | FHL_MAC_OP | FHL_POLi | FHL_VLANv | FHL_FCNTf | FHL_FLOWf
  | PKG_NETQ_RX | PKG_NETQ_TX | FAB_ID | FAB_CTRL | FAB_HOPC | FAB_TEARDOWN | FAB_DEAD | FAB_BAR_BASE | FAB_CNT
  | FAB_MEMB | FAB_QUORUM | FAB_VOTE | FAB_EXPELw | FAB_FTIDb | FAB_MCGg | FAB_ROUTEi | FAB_PODRTp | FAB_MQn
  | FAB_Ll_CTRL | FAB_Ll_STATUS | FAB_Ll_CNT | FAB_Ll_DTR | HS_TIMECMP | HS_IP | HS_IE | HS_TVAL | HS_EVSRV
  | HS_EVDATA | MSIX_PF | MSIX_PBA | MSIX_VF | MSIX_VFPBA | CFG_SRIOV | CFG_ATS
  deriving DecidableEq, Repr

/-- Access types of Table 0-5 (R8). -/
inductive Acc where
  | ro | rw | rw1c | wo | rc
  deriving DecidableEq, Repr

/-- One field of a register: its bits, access type and reset value. -/
structure FieldInfo where
  hi : Nat
  lo : Nat
  acc : Acc
  reset : Nat
  deriving DecidableEq, Repr

/-- Where instances of a register lie in BAR0: a base, the (stride, count) of each index from the outermost in,
and the flattened index of the first instance. -/
structure Shape where
  base : Nat
  dims : List (Nat × Nat)
  ix0 : Nat
  deriving DecidableEq, Repr

/-- A named field of a register kind. -/
structure Field where
  kind : RegKind
  hi : Nat
  lo : Nat
  deriving DecidableEq, Repr

/-- Number of a register kind, its part of a register's key. -/
def RegKind.code (k : RegKind) : Nat := k.ctorIdx

/-- Width of a register in bits. -/
def RegKind.width : RegKind → Nat
  | .HS_IP | .HS_IE => 8
  | .PKG_DIE_EN | .PKG_RESET | .PKG_BOOT | .PKG_ACCT_SNAP | .BSN_CMD | .BSN_HC_OWNERh => 32
  | .BSN_STATEb | .PWR_DET_CTRL | .PWR_PKG_LIMIT | .PWR_LEND | .PKG_HC_PAIRp | .PKG_HC_DBELLh => 32
  | .TMB_CTRL | .TMB_STATUS | .TMB_NOW_FRAC | .TMB_TRIGn_CTRL | .GEY_CTRL | .GEY_FRAME_OFS => 32
  | .GEY_FUMAROLE | .GEY_POS | .EVC_CTRL | .EVC_STRAY_CNT | .EVC_Qq_HEAD | .EVC_Qq_TAIL => 32
  | .EVC_CPLk | .EVC_SRCn | .FLT_CTRL | .FLT_ALERT | .FLT_JRNL_TORN | .FLT_INJECT => 32
  | .MXC_ARR_STATUS | .MXC_ARR_SPAREs | .MXC_ARR_INJECT | .MXC_SEQ_STATUS | .MXC_SEMn | .MXC_SEM_SIGNAL => 32
  | .MXC_Qq_CTRL | .SNT_CTRL | .STR_CTRL | .STR_KEY_CMD | .STR_SRAM_OWNERg | .STR_PAGE_OWNERp => 32
  | .RDP_CORE_IRQ | .RDP_CORE_DBELL | .RDP_SPARE | .RDP_CELL_CFGj | .GFK_Bb_CARc_SYNC | .FHL_Pp_CTRL => 32
  | .FHL_Pp_STATUS | .FHL_SW_CTRL | .FHL_MAC_OP | .FHL_VLANv | .FAB_CTRL | .FAB_VOTE => 32
  | .FAB_FTIDb | .FAB_MCGg | .FAB_Ll_CTRL | .HS_EVSRV | .CFG_SRIOV | .CFG_ATS => 32
  | .FLT_TEST_RES | .FHL_FCNTf | .FAB_MQn | .MSIX_PF | .MSIX_VF => 128
  | .MXC_DIGk | .FHL_POLi | .FHL_FLOWf => 256
  | _ => 64

/-- The places of a register kind in BAR0. -/
def RegKind.shapes : RegKind → List Shape
  | .PKG_ID => [⟨0, [], 0⟩]
  | .PKG_DIE_EN => [⟨8, [], 0⟩]
  | .PKG_DIE_FENCE => [⟨0x10, [], 0⟩]
  | .PKG_BAR2_BASE => [⟨0x20, [], 0⟩]
  | .PKG_SERIAL => [⟨0x28, [], 0⟩]
  | .PKG_RESET => [⟨0x100, [], 0⟩]
  | .PKG_BOOT => [⟨0x108, [], 0⟩]
  | .PKG_FW_ADDR => [⟨0x110, [], 0⟩]
  | .PKG_FW_CMD => [⟨0x118, [], 0⟩]
  | .PKG_ACCT_SNAP => [⟨0x1000, [], 0⟩]
  | .PKG_ACCT_DATA => [⟨0x1040, [(8, 9)], 0⟩]
  | .BSN_CMD => [⟨0x2000, [], 0⟩]
  | .BSN_HC_OWNERh => [⟨0x3000, [(4, 64)], 0⟩]
  | .BSN_STATEb => [⟨0x4000, [(0x40, 256)], 0⟩]
  | .BSN_HMW_BASEb => [⟨0x4008, [(0x40, 256)], 0⟩]
  | .BSN_HMW_LIMITb => [⟨0x4010, [(0x40, 256)], 0⟩]
  | .BSN_RINGb => [⟨0x4018, [(0x40, 256)], 0⟩]
  | .BSN_STALEb => [⟨0x4020, [(0x40, 256)], 0⟩]
  | .BSN_MBXb => [⟨0x4028, [(0x40, 256)], 0⟩]
  | .PKG_OBS_CTRL => [⟨0x8000, [], 0⟩]
  | .PKG_OBS_RING => [⟨0x8008, [], 0⟩]
  | .PKG_OBS_OLD => [⟨0x8010, [], 0⟩]
  | .PKG_OBS_KEY => [⟨0x8018, [], 0⟩]
  | .PKG_OBS_MARK => [⟨0x8020, [], 0⟩]
  | .PKG_OBS_STATUS => [⟨0x8028, [], 0⟩]
  | .PKG_LOCK_CTRL => [⟨0x8040, [], 0⟩]
  | .PKG_LOCK_KEY => [⟨0x8048, [], 0⟩]
  | .PKG_LOCK_CNT => [⟨0x8050, [], 0⟩]
  | .PWR_DET_CTRL => [⟨0x9000, [], 0⟩]
  | .PWR_DET_QUOTAc => [⟨0x9100, [(8, 24)], 0⟩]
  | .PWR_PKG_LIMIT => [⟨0x9800, [], 0⟩]
  | .PWR_LEND => [⟨0x9808, [], 0⟩]
  | .PWR_STATUS => [⟨0x9810, [], 0⟩]
  | .PWR_DIEd => [⟨0x9900, [(8, 32)], 0⟩]
  | .PWR_RAILr => [⟨0x9a00, [(8, 9)], 0⟩]
  | .PKG_HC_CTRLh => [⟨0xa000, [(8, 64)], 0⟩]
  | .PKG_HC_PAIRp => [⟨0xa400, [(4, 32)], 0⟩]
  | .PKG_HC_DBELLh => [⟨0xa800, [(4, 64)], 0⟩]
  | .PKG_D2H_ADDRb => [⟨0xb000, [(8, 256)], 0⟩]
  | .PKG_D2H_WORDb => [⟨0xb800, [(8, 256)], 0⟩]
  | .CAL_ITEMi => [⟨0xc000, [(8, 256)], 0⟩]
  | .TMB_CTRL => [⟨0x100000, [], 0⟩]
  | .TMB_STATUS => [⟨0x100004, [], 0⟩]
  | .TMB_INCR => [⟨0x100008, [], 0⟩]
  | .TMB_NOW => [⟨0x100010, [], 0⟩]
  | .TMB_NOW_FRAC => [⟨0x100018, [], 0⟩]
  | .TMB_STEP => [⟨0x100020, [], 0⟩]
  | .TMB_PPS_CAP => [⟨0x100028, [], 0⟩]
  | .TMB_TOD_SEC => [⟨0x100030, [], 0⟩]
  | .TMB_TRIGn_CTRL => [⟨0x100100, [(0x20, 4)], 0⟩]
  | .TMB_TRIGn_START => [⟨0x100108, [(0x20, 4)], 0⟩]
  | .TMB_TRIGn_SHAPE => [⟨0x100110, [(0x20, 4)], 0⟩]
  | .GEY_CTRL => [⟨0x108000, [], 0⟩]
  | .GEY_FRAME_OFS => [⟨0x108004, [], 0⟩]
  | .GEY_FUMAROLE => [⟨0x108008, [], 0⟩]
  | .GEY_TICK => [⟨0x108010, [], 0⟩]
  | .GEY_POS => [⟨0x108018, [], 0⟩]
  | .GEY_TICK_SET => [⟨0x108020, [], 0⟩]
  | .EVC_CTRL => [⟨0x200000, [], 0⟩]
  | .EVC_STATUS => [⟨0x200008, [], 0⟩]
  | .EVC_STRAY_CNT => [⟨0x200010, [], 0⟩]
  | .EVC_Qq_BASE => [⟨0x200100, [(0x20, 2)], 0⟩]
  | .EVC_Qq_HEAD => [⟨0x200108, [(0x20, 2)], 0⟩]
  | .EVC_Qq_TAIL => [⟨0x200110, [(0x20, 2)], 0⟩]
  | .EVC_CPL_TIMEk => [⟨0x200200, [(0x10, 2)], 0⟩]
  | .EVC_CPLk => [⟨0x200208, [(0x10, 2)], 0⟩]
  | .EVC_SRCn => [⟨0x201000, [(4, 4096)], 0⟩]
  | .FLT_STATUS => [⟨0x300000, [], 0⟩]
  | .FLT_CTRL => [⟨0x300008, [], 0⟩]
  | .FLT_ALERT => [⟨0x300010, [], 0⟩]
  | .FLT_JRNL => [⟨0x300018, [], 0⟩]
  | .FLT_JRNL_TORN => [⟨0x300020, [], 0⟩]
  | .FLT_TEST_CMD => [⟨0x300100, [], 0⟩]
  | .FLT_TEST_PKG => [⟨0x300108, [], 0⟩]
  | .FLT_TEST_BUF => [⟨0x300110, [], 0⟩]
  | .FLT_TEST_RES => [⟨0x300118, [], 0⟩]
  | .FLT_TEST_EXP => [⟨0x300128, [], 0⟩]
  | .FLT_RG_STATUS => [⟨0x10a0000, [(0x100000, 12)], 0⟩, ⟨0x10b0000, [(0x100000, 12)], 12⟩, ⟨0x20a0000, [(0x100000, 4)], 24⟩, ⟨0x24c0000, [(0x100000, 4)], 28⟩]
  | .FLT_RG_CNT => [⟨0x10a0008, [(0x100000, 12)], 0⟩, ⟨0x10b0008, [(0x100000, 12)], 12⟩, ⟨0x20a0008, [(0x100000, 4)], 24⟩, ⟨0x24c0008, [(0x100000, 4)], 28⟩]
  | .FLT_RG_LAST => [⟨0x10a0010, [(0x100000, 12)], 0⟩, ⟨0x10b0010, [(0x100000, 12)], 12⟩, ⟨0x20a0010, [(0x100000, 4)], 24⟩, ⟨0x24c0010, [(0x100000, 4)], 28⟩]
  | .FLT_RG_CNT2 => [⟨0x10a0018, [(0x100000, 12)], 0⟩, ⟨0x10b0018, [(0x100000, 12)], 12⟩, ⟨0x20a0018, [(0x100000, 4)], 24⟩, ⟨0x24c0018, [(0x100000, 4)], 28⟩]
  | .FLT_INJECT => [⟨0x10a0020, [(0x100000, 12)], 0⟩, ⟨0x10b0020, [(0x100000, 12)], 12⟩, ⟨0x20a0020, [(0x100000, 4)], 24⟩, ⟨0x24c0020, [(0x100000, 4)], 28⟩]
  | .FLT_DLM_BASE => [⟨0x20a0100, [(0x100000, 4)], 0⟩]
  | .FLT_DLM_CNT => [⟨0x20a0108, [(0x100000, 4)], 0⟩]
  | .FLT_SCTL => [⟨0x20a0110, [(0x100000, 4)], 0⟩]
  | .FLT_CFW_BASE => [⟨0x20a0118, [(0x100000, 4)], 0⟩]
  | .MXC_ARR_STATUS => [⟨0x1030000, [(0x100000, 12), (0x30000, 2), (0x100, 4)], 0⟩]
  | .MXC_ARR_SPAREs => [⟨0x1030010, [(0x100000, 12), (0x30000, 2), (0x100, 4), (4, 8)], 0⟩]
  | .MXC_ARR_RESCNT => [⟨0x1030040, [(0x100000, 12), (0x30000, 2), (0x100, 4)], 0⟩]
  | .MXC_ARR_LASTMISS => [⟨0x1030048, [(0x100000, 12), (0x30000, 2), (0x100, 4)], 0⟩]
  | .MXC_ARR_INJECT => [⟨0x1030050, [(0x100000, 12), (0x30000, 2), (0x100, 4)], 0⟩]
  | .MXC_SEQ_STATUS => [⟨0x1010000, [(0x100000, 12), (0x30000, 2)], 0⟩]
  | .MXC_SEQ_ERR => [⟨0x1010008, [(0x100000, 12), (0x30000, 2)], 0⟩]
  | .MXC_CTXc_STATE => [⟨0x1010100, [(0x100000, 12), (0x30000, 2), (0x40, 4)], 0⟩]
  | .MXC_SEMn => [⟨0x1018000, [(0x100000, 12), (0x30000, 2), (4, 4096)], 0⟩]
  | .MXC_SEM_SIGNAL => [⟨0x101c000, [(0x100000, 12), (0x30000, 2)], 0⟩]
  | .MXC_DIGk => [⟨0x101d000, [(0x100000, 12), (0x30000, 2), (0x20, 16)], 0⟩]
  | .MXC_Qq_CTRL => [⟨0x1020000, [(0x100000, 12), (0x30000, 2), (0x100, 8)], 0⟩, ⟨0x2040000, [(0x100000, 4), (0x1000, 4), (0x100, 8)], 192⟩, ⟨0x2050000, [(0x100000, 4), (0x100, 18)], 320⟩]
  | .MXC_Qq_RING => [⟨0x1020008, [(0x100000, 12), (0x30000, 2), (0x100, 8)], 0⟩, ⟨0x2040008, [(0x100000, 4), (0x1000, 4), (0x100, 8)], 192⟩, ⟨0x2050008, [(0x100000, 4), (0x100, 18)], 320⟩]
  | .MXC_Qq_CRING => [⟨0x1020010, [(0x100000, 12), (0x30000, 2), (0x100, 8)], 0⟩, ⟨0x2040010, [(0x100000, 4), (0x1000, 4), (0x100, 8)], 192⟩, ⟨0x2050010, [(0x100000, 4), (0x100, 18)], 320⟩]
  | .MXC_Qq_DBL => [⟨0x1020018, [(0x100000, 12), (0x30000, 2), (0x100, 8)], 0⟩, ⟨0x2040018, [(0x100000, 4), (0x1000, 4), (0x100, 8)], 192⟩, ⟨0x2050018, [(0x100000, 4), (0x100, 18)], 320⟩]
  | .MXC_Qq_STATUS => [⟨0x1020020, [(0x100000, 12), (0x30000, 2), (0x100, 8)], 0⟩, ⟨0x2040020, [(0x100000, 4), (0x1000, 4), (0x100, 8)], 192⟩, ⟨0x2050020, [(0x100000, 4), (0x100, 18)], 320⟩]
  | .MXC_Qq_CNT => [⟨0x1020028, [(0x100000, 12), (0x30000, 2), (0x100, 8)], 0⟩, ⟨0x2040028, [(0x100000, 4), (0x1000, 4), (0x100, 8)], 192⟩, ⟨0x2050028, [(0x100000, 4), (0x100, 18)], 320⟩]
  | .MXC_TPROG_BASE => [⟨0x1020800, [(0x100000, 12), (0x30000, 2)], 0⟩]
  | .MXC_TPROG_STATUS => [⟨0x1020808, [(0x100000, 12), (0x30000, 2)], 0⟩]
  | .MXC_TPROG_LAST => [⟨0x1020810, [(0x100000, 12), (0x30000, 2)], 0⟩]
  | .MXC_CORE_KILLS => [⟨0x1020818, [(0x100000, 12), (0x30000, 2)], 0⟩]
  | .SNT_CTRL => [⟨0x1070000, [(0x100000, 12), (0x8000, 2)], 0⟩]
  | .SNT_STATUS => [⟨0x1070008, [(0x100000, 12), (0x8000, 2)], 0⟩]
  | .SNT_CNT => [⟨0x1070010, [(0x100000, 12), (0x8000, 2)], 0⟩]
  | .STR_CTRL => [⟨0x1080000, [(0x100000, 12)], 0⟩]
  | .STR_STATUS => [⟨0x1080008, [(0x100000, 12)], 0⟩]
  | .STR_ECC_CNT => [⟨0x1080010, [(0x100000, 12)], 0⟩]
  | .STR_ECC_LAST => [⟨0x1080018, [(0x100000, 12)], 0⟩]
  | .STR_SRAM_ECC_CNT => [⟨0x1080030, [(0x100000, 12)], 0⟩]
  | .STR_PAGE_CMD => [⟨0x1080100, [(0x100000, 12)], 0⟩]
  | .STR_KEY_CMD => [⟨0x1080200, [(0x100000, 12)], 0⟩]
  | .STR_KEY_DATA => [⟨0x1080220, [(0x100000, 12), (8, 8)], 0⟩]
  | .STR_SRAM_OWNERg => [⟨0x1081000, [(0x100000, 12), (4, 128)], 0⟩]
  | .STR_PAGE_OWNERp => [⟨0x1090000, [(0x100000, 12), (4, 12288)], 0⟩]
  | .RDP_CORE_STATUS => [⟨0x2000000, [(0x100000, 4), (0x1000, 64)], 0⟩]
  | .RDP_CORE_IRQ => [⟨0x2000008, [(0x100000, 4), (0x1000, 64)], 0⟩]
  | .RDP_CORE_TIMER => [⟨0x2000010, [(0x100000, 4), (0x1000, 64)], 0⟩]
  | .RDP_CORE_DBELL => [⟨0x2000018, [(0x100000, 4), (0x1000, 64)], 0⟩]
  | .RDP_CLk_TPROG => [⟨0x2040800, [(0x100000, 4), (0x1000, 4)], 0⟩]
  | .RDP_CLk_TSTAT => [⟨0x2040808, [(0x100000, 4), (0x1000, 4)], 0⟩]
  | .RDP_SPARE => [⟨0x205f000, [(0x100000, 4)], 0⟩]
  | .RDP_CELL_CFGj => [⟨0x2060000, [(0x100000, 4), (4, 96)], 0⟩]
  | .CRC_Uu_CTRL => [⟨0x2080000, [(0x100000, 4), (0x100, 16)], 0⟩]
  | .CRC_Uu_INIT => [⟨0x2080008, [(0x100000, 4), (0x100, 16)], 0⟩]
  | .CRC_Uu_RUN => [⟨0x2080010, [(0x100000, 4), (0x100, 16)], 0⟩]
  | .CRC_Uu_SAFE => [⟨0x2080018, [(0x100000, 4), (0x100, 16)], 0⟩]
  | .GFK_Bb_RXRING => [⟨0x2090000, [(0x100000, 4), (0x4000, 4)], 0⟩]
  | .GFK_Bb_TXRING => [⟨0x2090008, [(0x100000, 4), (0x4000, 4)], 0⟩]
  | .GFK_Bb_NOISE => [⟨0x2090010, [(0x100000, 4), (0x4000, 4)], 0⟩]
  | .GFK_Bb_CARc_CFG => [⟨0x2091000, [(0x100000, 4), (0x4000, 4), (0x20, 128)], 0⟩]
  | .GFK_Bb_CARc_SYNC => [⟨0x2091008, [(0x100000, 4), (0x4000, 4), (0x20, 128)], 0⟩]
  | .GFK_Bb_CARc_CNT => [⟨0x2091010, [(0x100000, 4), (0x4000, 4), (0x20, 128)], 0⟩]
  | .FHL_Pp_CTRL => [⟨0x2440000, [(0x100000, 4), (0x1000, 4)], 0⟩]
  | .FHL_Pp_STATUS => [⟨0x2440004, [(0x100000, 4), (0x1000, 4)], 0⟩]
  | .FHL_Pp_MAC => [⟨0x2440008, [(0x100000, 4), (0x1000, 4)], 0⟩]
  | .FHL_Pp_POLMAP => [⟨0x2440010, [(0x100000, 4), (0x1000, 4)], 0⟩]
  | .FHL_Pp_SHq => [⟨0x2440040, [(0x100000, 4), (0x1000, 4), (8, 7)], 0⟩]
  | .FHL_Pp_CNT => [⟨0x2440100, [(0x100000, 4), (0x1000, 4), (8, 11)], 0⟩]
  | .FHL_SW_CTRL => [⟨0x2444000, [(0x100000, 4)], 0⟩]
  | .FHL_SW_STATUS => [⟨0x2444008, [(0x100000, 4)], 0⟩]
  | .FHL_MAC_KEY => [⟨0x2444010, [(0x100000, 4)], 0⟩]
  | .FHL_MAC_OP => [⟨0x2444018, [(0x100000, 4)], 0⟩]
  | .FHL_POLi => [⟨0x2445000, [(0x100000, 4), (0x20, 64)], 0⟩]
  | .FHL_VLANv => [⟨0x2448000, [(0x100000, 4), (4, 4096)], 0⟩]
  | .FHL_FCNTf => [⟨0x2450000, [(0x100000, 4), (0x10, 4096)], 0⟩]
  | .FHL_FLOWf => [⟨0x2460000, [(0x100000, 4), (0x20, 4096)], 0⟩]
  | .PKG_NETQ_RX => [⟨0x2480000, [(0x100000, 4)], 0⟩]
  | .PKG_NETQ_TX => [⟨0x2480008, [(0x100000, 4)], 0⟩]
  | .FAB_ID => [⟨0x2400000, [], 0⟩]
  | .FAB_CTRL => [⟨0x2400008, [], 0⟩]
  | .FAB_HOPC => [⟨0x2400010, [], 0⟩]
  | .FAB_TEARDOWN => [⟨0x2400040, [], 0⟩]
  | .FAB_DEAD => [⟨0x2400048, [], 0⟩]
  | .FAB_BAR_BASE => [⟨0x2400050, [], 0⟩]
  | .FAB_CNT => [⟨0x2400060, [], 0⟩]
  | .FAB_MEMB => [⟨0x2400080, [], 0⟩]
  | .FAB_QUORUM => [⟨0x2400088, [], 0⟩]
  | .FAB_VOTE => [⟨0x2400090, [], 0⟩]
  | .FAB_EXPELw => [⟨0x24000c0, [(8, 8)], 0⟩]
  | .FAB_FTIDb => [⟨0x2401000, [(4, 256)], 0⟩]
  | .FAB_MCGg => [⟨0x2404000, [(0x100, 64), (4, 64)], 0⟩]
  | .FAB_ROUTEi => [⟨0x2410000, [(0x10, 512)], 0⟩]
  | .FAB_PODRTp => [⟨0x2414000, [(8, 16)], 0⟩]
  | .FAB_MQn => [⟨0x2420000, [(0x20, 4096)], 0⟩]
  | .FAB_Ll_CTRL => [⟨0x2408000, [(0x100000, 4), (0x100, 16)], 0⟩]
  | .FAB_Ll_STATUS => [⟨0x2408008, [(0x100000, 4), (0x100, 16)], 0⟩]
  | .FAB_Ll_CNT => [⟨0x2408010, [(0x100000, 4), (0x100, 16)], 0⟩]
  | .FAB_Ll_DTR => [⟨0x2408018, [(0x100000, 4), (0x100, 16)], 0⟩]
  | .MSIX_PF => [⟨0xf0000, [(0x10, 2)], 0⟩]
  | .MSIX_PBA => [⟨0xf8000, [], 0⟩]
  | _ => []

/-- The fields of a register kind; bits in no field are reserved (R10). -/
def RegKind.fields : RegKind → List FieldInfo
  | .PKG_ID =>
    [⟨15, 0, .ro, 0x1f5d⟩, ⟨31, 16, .ro, 0x320⟩, ⟨39, 32, .ro, 0xa1⟩, ⟨47, 40, .ro, 1⟩]
  | .PKG_DIE_EN =>
    [⟨11, 0, .ro, 0xfff⟩, ⟨15, 12, .ro, 0xf⟩, ⟨27, 16, .ro, 0xfff⟩, ⟨31, 28, .ro, 0xf⟩]
  | .PKG_DIE_FENCE =>
    [⟨11, 0, .ro, 0⟩, ⟨15, 12, .ro, 0⟩, ⟨27, 16, .ro, 0⟩, ⟨31, 28, .ro, 0⟩, ⟨43, 32, .ro, 0⟩, ⟨47, 44, .ro, 0⟩, ⟨59, 48, .ro, 0⟩, ⟨63, 60, .ro, 0⟩]
  | .PKG_BAR2_BASE => [⟨47, 36, .rw, 0⟩]
  | .PKG_SERIAL => [⟨63, 0, .ro, 0⟩]
  | .PKG_RESET => [⟨0, 0, .wo, 0⟩, ⟨1, 1, .rw1c, 0⟩]
  | .PKG_BOOT => [⟨2, 0, .ro, 0⟩, ⟨3, 3, .wo, 0⟩, ⟨4, 4, .rw1c, 0⟩, ⟨5, 5, .ro, 0⟩]
  | .PKG_FW_ADDR => [⟨63, 0, .rw, 0⟩]
  | .PKG_FW_CMD =>
    [⟨25, 0, .rw, 0⟩, ⟨26, 26, .rw, 0⟩, ⟨27, 27, .wo, 0⟩, ⟨28, 28, .ro, 0⟩, ⟨29, 29, .ro, 0⟩, ⟨32, 30, .ro, 0⟩]
  | .PKG_ACCT_SNAP => [⟨7, 0, .rw, 0⟩, ⟨8, 8, .wo, 0⟩, ⟨9, 9, .ro, 0⟩]
  | .PKG_ACCT_DATA => [⟨63, 0, .ro, 0⟩]
  | .BSN_CMD =>
    [⟨7, 0, .rw, 0⟩, ⟨8, 8, .rw, 0⟩, ⟨11, 9, .rw, 0⟩, ⟨12, 12, .wo, 0⟩, ⟨13, 13, .ro, 0⟩, ⟨17, 14, .ro, 0⟩, ⟨25, 18, .ro, 0⟩]
  | .BSN_HC_OWNERh => [⟨7, 0, .rw, 0⟩, ⟨8, 8, .ro, 0⟩, ⟨9, 9, .rw1c, 0⟩]
  | .BSN_STATEb =>
    [⟨2, 0, .ro, 0⟩, ⟨3, 3, .ro, 0⟩, ⟨15, 4, .ro, 0⟩, ⟨16, 16, .rw, 0⟩, ⟨17, 17, .ro, 0⟩, ⟨18, 18, .rw1c, 0⟩, ⟨29, 19, .rw, 0⟩]
  | .BSN_HMW_BASEb => [⟨47, 12, .rw, 0⟩]
  | .BSN_HMW_LIMITb => [⟨47, 12, .rw, 0⟩]
  | .BSN_RINGb => [⟨47, 6, .rw, 0⟩, ⟨51, 48, .rw, 4⟩, ⟨63, 52, .rw, 0xa⟩]
  | .BSN_STALEb => [⟨15, 0, .rc, 0⟩, ⟨31, 16, .rc, 0⟩, ⟨47, 32, .rc, 0⟩, ⟨63, 48, .rc, 0⟩]
  | .BSN_MBXb => [⟨15, 0, .rc, 0⟩, ⟨31, 16, .rc, 0⟩, ⟨47, 32, .rc, 0⟩]
  | .PKG_OBS_CTRL =>
    [⟨0, 0, .rw, 0⟩, ⟨2, 1, .rw, 0⟩, ⟨3, 3, .rw, 0⟩, ⟨4, 4, .rw, 0⟩, ⟨5, 5, .rw, 0⟩, ⟨6, 6, .rw, 1⟩, ⟨7, 7, .wo, 0⟩, ⟨15, 8, .rw, 0x10⟩, ⟨31, 16, .rw, 0xffff⟩]
  | .PKG_OBS_RING => [⟨5, 0, .rw, 0x14⟩, ⟨47, 20, .rw, 0⟩]
  | .PKG_OBS_OLD => [⟨63, 0, .rw, 0⟩]
  | .PKG_OBS_KEY => [⟨63, 0, .rw, 0⟩]
  | .PKG_OBS_MARK => [⟨63, 0, .wo, 0⟩]
  | .PKG_OBS_STATUS =>
    [⟨0, 0, .ro, 0⟩, ⟨1, 1, .ro, 0⟩, ⟨4, 2, .ro, 0⟩, ⟨5, 5, .rw1c, 0⟩, ⟨63, 32, .rc, 0⟩]
  | .PKG_LOCK_CTRL =>
    [⟨0, 0, .rw, 0⟩, ⟨1, 1, .rw, 0⟩, ⟨2, 2, .rw, 0⟩, ⟨6, 3, .rw, 1⟩, ⟨9, 7, .rw, 3⟩, ⟨22, 10, .rw, 0⟩, ⟨23, 23, .rw1c, 0⟩, ⟨24, 24, .rw1c, 0⟩, ⟨41, 32, .ro, 0⟩, ⟨63, 42, .ro, 0⟩]
  | .PKG_LOCK_KEY => [⟨63, 0, .rw, 0⟩]
  | .PKG_LOCK_CNT => [⟨31, 0, .rc, 0⟩, ⟨63, 32, .rc, 0⟩]
  | .PWR_DET_CTRL => [⟨0, 0, .rw, 0⟩, ⟨2, 1, .ro, 0⟩, ⟨4, 3, .ro, 0⟩, ⟨16, 5, .rw, 0x7d0⟩]
  | .PWR_DET_QUOTAc => [⟨21, 0, .rw, 0x3fffff⟩, ⟨53, 32, .ro, 0⟩]
  | .PWR_PKG_LIMIT => [⟨11, 0, .rw, 0x960⟩, ⟨12, 12, .rw1c, 0⟩]
  | .PWR_LEND => [⟨0, 0, .rw, 1⟩, ⟨16, 1, .rw, 0x1000⟩]
  | .PWR_STATUS =>
    [⟨11, 0, .ro, 0⟩, ⟨12, 12, .ro, 0⟩, ⟨13, 13, .ro, 0⟩, ⟨14, 14, .ro, 0⟩, ⟨63, 32, .ro, 0⟩]
  | .PWR_DIEd =>
    [⟨15, 0, .ro, 0⟩, ⟨18, 16, .ro, 0⟩, ⟨19, 19, .ro, 0⟩, ⟨20, 20, .rw1c, 0⟩, ⟨43, 32, .ro, 0x41a⟩]
  | .PWR_RAILr =>
    [⟨15, 0, .ro, 0⟩, ⟨31, 16, .ro, 0⟩, ⟨32, 32, .ro, 0⟩, ⟨33, 33, .rw1c, 0⟩, ⟨43, 34, .ro, 0x2a8⟩]
  | .PKG_HC_CTRLh => [⟨0, 0, .rw, 0⟩, ⟨1, 1, .ro, 1⟩, ⟨31, 16, .rc, 0⟩, ⟨63, 32, .rw, 0⟩]
  | .PKG_HC_PAIRp => [⟨0, 0, .rw, 0⟩, ⟨5, 1, .rw, 0⟩, ⟨6, 6, .rw, 0⟩, ⟨8, 7, .ro, 0⟩]
  | .PKG_HC_DBELLh => [⟨31, 0, .rw1c, 0⟩]
  | .PKG_D2H_ADDRb => [⟨0, 0, .rw, 0⟩, ⟨47, 3, .rw, 0⟩]
  | .PKG_D2H_WORDb => [⟨63, 0, .ro, 0⟩]
  | .CAL_ITEMi => [⟨15, 0, .ro, 0⟩, ⟨31, 16, .rw, 0⟩, ⟨47, 32, .ro, 0⟩, ⟨48, 48, .rw1c, 0⟩]
  | .TMB_CTRL => [⟨0, 0, .rw, 0⟩, ⟨1, 1, .rw, 0⟩, ⟨2, 2, .rw, 0⟩]
  | .TMB_STATUS =>
    [⟨1, 0, .ro, 0⟩, ⟨2, 2, .ro, 0⟩, ⟨3, 3, .rw1c, 0⟩, ⟨4, 4, .rw1c, 0⟩, ⟨5, 5, .rw1c, 0⟩, ⟨6, 6, .ro, 0⟩, ⟨7, 7, .ro, 0⟩, ⟨31, 16, .rc, 0⟩]
  | .TMB_INCR => [⟨39, 0, .rw, 0x666666666⟩]
  | .TMB_NOW => [⟨63, 0, .ro, 0⟩]
  | .TMB_NOW_FRAC => [⟨31, 0, .ro, 0⟩]
  | .TMB_STEP => [⟨63, 0, .wo, 0⟩]
  | .TMB_PPS_CAP => [⟨63, 0, .ro, 0⟩]
  | .TMB_TOD_SEC => [⟨61, 0, .ro, 0⟩, ⟨62, 62, .ro, 0⟩, ⟨63, 63, .ro, 0⟩]
  | .TMB_TRIGn_CTRL =>
    [⟨0, 0, .rw, 0⟩, ⟨1, 1, .rw, 0⟩, ⟨2, 2, .rw, 0⟩, ⟨3, 3, .rw1c, 0⟩, ⟨31, 16, .rw, 0⟩]
  | .TMB_TRIGn_START => [⟨63, 0, .rw, 0⟩]
  | .TMB_TRIGn_SHAPE => [⟨31, 0, .rw, 0⟩, ⟨63, 32, .rw, 0⟩]
  | .GEY_CTRL =>
    [⟨0, 0, .rw, 0⟩, ⟨1, 1, .rw, 0⟩, ⟨3, 2, .ro, 1⟩, ⟨5, 4, .rw, 1⟩, ⟨6, 6, .ro, 0⟩, ⟨7, 7, .ro, 0⟩, ⟨25, 16, .rw, 0⟩]
  | .GEY_FRAME_OFS => [⟨23, 0, .rw, 0⟩]
  | .GEY_FUMAROLE => [⟨9, 0, .rw, 0x12c⟩, ⟨10, 10, .rw1c, 0⟩]
  | .GEY_TICK => [⟨63, 0, .ro, 0⟩]
  | .GEY_POS => [⟨9, 0, .ro, 0⟩, ⟨17, 10, .ro, 0⟩]
  | .GEY_TICK_SET => [⟨63, 0, .wo, 0⟩]
  | .EVC_CTRL => [⟨0, 0, .rw, 0⟩, ⟨1, 1, .rw, 0⟩, ⟨7, 2, .rw, 0⟩, ⟨13, 8, .rw, 0⟩]
  | .EVC_STATUS =>
    [⟨0, 0, .ro, 0⟩, ⟨1, 1, .ro, 0⟩, ⟨2, 2, .rw1c, 0⟩, ⟨3, 3, .ro, 0⟩, ⟨4, 4, .ro, 0⟩, ⟨63, 32, .rc, 0⟩]
  | .EVC_STRAY_CNT => [⟨31, 0, .rc, 0⟩]
  | .EVC_Qq_BASE => [⟨47, 4, .rw, 0⟩, ⟨52, 48, .rw, 0xa⟩]
  | .EVC_Qq_HEAD => [⟨31, 0, .rw, 0⟩]
  | .EVC_Qq_TAIL => [⟨31, 0, .ro, 0⟩]
  | .EVC_CPL_TIMEk => [⟨63, 0, .wo, 0⟩]
  | .EVC_CPLk => [⟨11, 0, .wo, 0⟩, ⟨14, 12, .wo, 0⟩]
  | .EVC_SRCn => [⟨0, 0, .ro, 0⟩, ⟨1, 1, .ro, 0⟩, ⟨3, 2, .rw, 1⟩, ⟨6, 4, .ro, 0⟩, ⟨31, 16, .ro, 0⟩]
  | .FLT_STATUS =>
    [⟨2, 0, .ro, 0⟩, ⟨3, 3, .ro, 0⟩, ⟨4, 4, .ro, 0⟩, ⟨5, 5, .rw1c, 0⟩, ⟨31, 16, .rc, 0⟩, ⟨63, 32, .rc, 0⟩]
  | .FLT_CTRL => [⟨0, 0, .wo, 0⟩, ⟨1, 1, .wo, 0⟩, ⟨11, 2, .rw, 0x64⟩]
  | .FLT_ALERT => [⟨6, 0, .rw1c, 0⟩]
  | .FLT_JRNL => [⟨31, 0, .ro, 0⟩, ⟨63, 32, .ro, 0⟩]
  | .FLT_JRNL_TORN => [⟨15, 0, .rc, 0⟩]
  | .FLT_TEST_CMD =>
    [⟨15, 0, .rw, 0⟩, ⟨17, 16, .rw, 0⟩, ⟨18, 18, .wo, 0⟩, ⟨19, 19, .ro, 0⟩, ⟨23, 20, .ro, 0⟩, ⟨25, 24, .ro, 0⟩]
  | .FLT_TEST_PKG => [⟨47, 0, .rw, 0⟩]
  | .FLT_TEST_BUF => [⟨47, 0, .rw, 0⟩]
  | .FLT_TEST_RES => [⟨63, 0, .ro, 0⟩, ⟨95, 64, .ro, 0⟩, ⟨99, 96, .ro, 3⟩]
  | .FLT_TEST_EXP => [⟨63, 0, .rw, 0⟩]
  | .FLT_RG_STATUS => [⟨15, 0, .ro, 0⟩, ⟨16, 16, .ro, 0⟩, ⟨17, 17, .ro, 0⟩, ⟨18, 18, .rw1c, 0⟩]
  | .FLT_RG_CNT =>
    [⟨15, 0, .rc, 0⟩, ⟨31, 16, .rc, 0⟩, ⟨43, 32, .rc, 0⟩, ⟨51, 44, .rc, 0⟩, ⟨63, 52, .rc, 0⟩]
  | .FLT_RG_LAST =>
    [⟨7, 0, .ro, 0⟩, ⟨23, 8, .ro, 0⟩, ⟨25, 24, .ro, 0⟩, ⟨26, 26, .ro, 0⟩, ⟨63, 27, .ro, 0⟩]
  | .FLT_RG_CNT2 => [⟨15, 0, .rc, 0⟩, ⟨31, 16, .rc, 0⟩]
  | .FLT_INJECT => [⟨7, 0, .rw, 0⟩, ⟨23, 8, .rw, 0⟩, ⟨24, 24, .rw, 0⟩]
  | .FLT_DLM_BASE => [⟨0, 0, .rw, 0⟩, ⟨47, 13, .rw, 0⟩]
  | .FLT_DLM_CNT => [⟨15, 0, .rc, 0⟩, ⟨31, 16, .rc, 0⟩]
  | .FLT_SCTL => [⟨0, 0, .rw, 0⟩, ⟨20, 1, .rw, 0x4e20⟩, ⟨47, 32, .rc, 0⟩]
  | .FLT_CFW_BASE => [⟨47, 12, .rw, 0⟩]
  | .MXC_ARR_STATUS =>
    [⟨0, 0, .ro, 0⟩, ⟨1, 1, .ro, 0⟩, ⟨5, 2, .ro, 0⟩, ⟨6, 6, .ro, 0⟩, ⟨7, 7, .ro, 0⟩, ⟨8, 8, .ro, 0⟩, ⟨9, 9, .rw1c, 0⟩]
  | .MXC_ARR_SPAREs => [⟨9, 0, .ro, 0⟩, ⟨10, 10, .ro, 0⟩, ⟨11, 11, .ro, 0⟩]
  | .MXC_ARR_RESCNT => [⟨15, 0, .rc, 0⟩, ⟨31, 16, .rc, 0⟩, ⟨47, 32, .rc, 0⟩]
  | .MXC_ARR_LASTMISS =>
    [⟨9, 0, .ro, 0⟩, ⟨12, 10, .ro, 0⟩, ⟨13, 13, .ro, 0⟩, ⟨14, 14, .ro, 0⟩, ⟨35, 16, .ro, 0⟩, ⟨63, 36, .ro, 0⟩]
  | .MXC_ARR_INJECT => [⟨9, 0, .rw, 0⟩, ⟨11, 10, .rw, 0⟩, ⟨12, 12, .rw, 0⟩]
  | .MXC_SEQ_STATUS =>
    [⟨7, 0, .ro, 0⟩, ⟨11, 8, .ro, 0⟩, ⟨12, 12, .ro, 0⟩, ⟨13, 13, .ro, 0⟩, ⟨14, 14, .ro, 0⟩]
  | .MXC_SEQ_ERR => [⟨15, 0, .rc, 0⟩, ⟨31, 16, .ro, 0⟩, ⟨34, 32, .ro, 0⟩, ⟨51, 36, .rc, 0⟩]
  | .MXC_CTXc_STATE =>
    [⟨1, 0, .ro, 0⟩, ⟨4, 2, .ro, 0⟩, ⟨7, 5, .ro, 0⟩, ⟨23, 8, .ro, 0⟩, ⟨35, 24, .ro, 0⟩, ⟨47, 36, .ro, 0⟩, ⟨55, 48, .ro, 0⟩]
  | .MXC_SEMn => [⟨7, 0, .ro, 0⟩, ⟨15, 8, .ro, 0⟩, ⟨23, 16, .rw, 0⟩, ⟨24, 24, .rw1c, 0⟩]
  | .MXC_SEM_SIGNAL => [⟨11, 0, .wo, 0⟩, ⟨19, 12, .wo, 0⟩]
  | .MXC_DIGk =>
    [⟨63, 0, .ro, 0⟩, ⟨111, 64, .ro, 0⟩, ⟨112, 112, .ro, 0⟩, ⟨191, 128, .rw, 0⟩, ⟨199, 192, .rw, 0⟩, ⟨200, 200, .wo, 0⟩]
  | .MXC_Qq_CTRL => [⟨0, 0, .rw, 0⟩, ⟨8, 1, .rw, 0⟩, ⟨13, 9, .rw, 4⟩, ⟨24, 14, .rw, 0⟩]
  | .MXC_Qq_RING => [⟨47, 0, .rw, 0⟩]
  | .MXC_Qq_CRING => [⟨47, 0, .rw, 0⟩]
  | .MXC_Qq_DBL => [⟨47, 0, .rw, 0⟩]
  | .MXC_Qq_STATUS => [⟨31, 0, .ro, 0⟩, ⟨35, 32, .ro, 0⟩, ⟨36, 36, .ro, 0⟩]
  | .MXC_Qq_CNT => [⟨31, 0, .rc, 0⟩, ⟨63, 32, .rc, 0⟩]
  | .MXC_TPROG_BASE => [⟨0, 0, .rw, 0⟩, ⟨1, 1, .rw, 0⟩, ⟨47, 16, .rw, 0⟩]
  | .MXC_TPROG_STATUS => [⟨15, 0, .rc, 0⟩, ⟨31, 16, .rc, 0⟩, ⟨47, 32, .rc, 0⟩, ⟨63, 48, .rc, 0⟩]
  | .MXC_TPROG_LAST => [⟨63, 0, .ro, 0⟩]
  | .MXC_CORE_KILLS => [⟨31, 0, .rc, 0⟩, ⟨63, 32, .rc, 0⟩]
  | .SNT_CTRL => [⟨9, 0, .rw, 0x100⟩]
  | .SNT_STATUS =>
    [⟨10, 0, .ro, 0⟩, ⟨21, 11, .ro, 0⟩, ⟨32, 22, .ro, 0⟩, ⟨41, 33, .ro, 0⟩, ⟨51, 42, .ro, 0x100⟩]
  | .SNT_CNT => [⟨31, 0, .rc, 0⟩, ⟨63, 32, .rc, 0⟩]
  | .STR_CTRL => [⟨0, 0, .rw, 1⟩, ⟨2, 1, .rw, 0⟩]
  | .STR_STATUS =>
    [⟨15, 0, .ro, 0⟩, ⟨16, 16, .ro, 0⟩, ⟨20, 17, .ro, 0⟩, ⟨23, 21, .ro, 0⟩, ⟨63, 32, .ro, 0⟩]
  | .STR_ECC_CNT => [⟨31, 0, .rc, 0⟩, ⟨47, 32, .rc, 0⟩, ⟨63, 48, .rc, 0⟩]
  | .STR_ECC_LAST =>
    [⟨28, 0, .ro, 0⟩, ⟨32, 29, .ro, 0⟩, ⟨35, 33, .ro, 0⟩, ⟨36, 36, .ro, 0⟩, ⟨37, 37, .rw1c, 0⟩]
  | .STR_SRAM_ECC_CNT => [⟨31, 0, .rc, 0⟩, ⟨47, 32, .rc, 0⟩, ⟨63, 48, .rc, 0⟩]
  | .STR_PAGE_CMD =>
    [⟨13, 0, .rw, 0⟩, ⟨27, 14, .rw, 0⟩, ⟨35, 28, .rw, 0⟩, ⟨37, 36, .rw, 0⟩, ⟨38, 38, .wo, 0⟩, ⟨39, 39, .ro, 0⟩, ⟨40, 40, .rw1c, 0⟩]
  | .STR_KEY_CMD =>
    [⟨7, 0, .rw, 0⟩, ⟨9, 8, .rw, 0⟩, ⟨10, 10, .wo, 0⟩, ⟨11, 11, .ro, 0⟩, ⟨12, 12, .ro, 0⟩, ⟨13, 13, .rw1c, 0⟩]
  | .STR_KEY_DATA => [⟨63, 0, .wo, 0⟩]
  | .STR_SRAM_OWNERg => [⟨7, 0, .rw, 0⟩, ⟨9, 8, .rw, 0⟩]
  | .STR_PAGE_OWNERp => [⟨7, 0, .ro, 0⟩, ⟨9, 8, .ro, 0⟩]
  | .RDP_CORE_STATUS =>
    [⟨1, 0, .ro, 0⟩, ⟨2, 2, .ro, 1⟩, ⟨10, 3, .ro, 0⟩, ⟨13, 11, .ro, 0⟩, ⟨14, 14, .ro, 0⟩, ⟨15, 15, .ro, 0⟩, ⟨16, 16, .ro, 0⟩, ⟨47, 32, .rc, 0⟩, ⟨55, 48, .ro, 0⟩]
  | .RDP_CORE_IRQ =>
    [⟨2, 0, .rw, 0⟩, ⟨5, 3, .rw, 0⟩, ⟨8, 6, .rw, 0⟩, ⟨11, 9, .rw, 0⟩, ⟨14, 12, .rw, 0⟩, ⟨17, 15, .rw, 0⟩, ⟨20, 18, .rw, 0⟩, ⟨23, 21, .rw, 0⟩]
  | .RDP_CORE_TIMER => [⟨63, 0, .rw, 0⟩]
  | .RDP_CORE_DBELL => [⟨0, 0, .wo, 0⟩]
  | .RDP_CLk_TPROG => [⟨0, 0, .rw, 0⟩, ⟨47, 14, .rw, 0⟩]
  | .RDP_CLk_TSTAT => [⟨15, 0, .rc, 0⟩, ⟨31, 16, .rc, 0⟩, ⟨47, 32, .rc, 0⟩, ⟨63, 48, .rc, 0⟩]
  | .RDP_SPARE => [⟨5, 0, .ro, 0⟩, ⟨6, 6, .ro, 0⟩, ⟨13, 8, .ro, 0⟩, ⟨14, 14, .ro, 0⟩]
  | .RDP_CELL_CFGj => [⟨0, 0, .rw, 0⟩, ⟨1, 1, .rw, 0⟩, ⟨3, 2, .rw, 3⟩]
  | .CRC_Uu_CTRL =>
    [⟨2, 0, .rw, 0⟩, ⟨4, 3, .rw, 0⟩, ⟨9, 5, .rw, 0⟩, ⟨15, 10, .rw, 0⟩, ⟨17, 16, .rw, 0⟩, ⟨18, 18, .rw, 0⟩, ⟨19, 19, .rw, 0⟩, ⟨20, 20, .rw, 0⟩, ⟨21, 21, .ro, 0⟩, ⟨23, 22, .ro, 0⟩, ⟨47, 32, .rw, 0⟩]
  | .CRC_Uu_INIT => [⟨31, 0, .rw, 0⟩, ⟨63, 32, .rw, 0⟩]
  | .CRC_Uu_RUN => [⟨31, 0, .rw, 0⟩, ⟨63, 32, .rw, 0⟩]
  | .CRC_Uu_SAFE =>
    [⟨15, 0, .rw, 0⟩, ⟨23, 16, .ro, 0⟩, ⟨27, 24, .rw, 0⟩, ⟨47, 32, .rw, 0⟩, ⟨55, 48, .rc, 0⟩, ⟨63, 56, .rc, 0⟩]
  | .GFK_Bb_RXRING => [⟨47, 6, .rw, 0⟩, ⟨51, 48, .rw, 4⟩]
  | .GFK_Bb_TXRING => [⟨47, 6, .rw, 0⟩, ⟨51, 48, .rw, 4⟩]
  | .GFK_Bb_NOISE => [⟨47, 6, .rw, 0⟩, ⟨51, 48, .rw, 4⟩]
  | .GFK_Bb_CARc_CFG =>
    [⟨0, 0, .rw, 0⟩, ⟨1, 1, .rw, 0⟩, ⟨2, 2, .rw, 0⟩, ⟨3, 3, .rw, 0⟩, ⟨10, 4, .rw, 0x20⟩, ⟨29, 11, .rw, 0xc350⟩, ⟨30, 30, .rw, 0⟩, ⟨32, 31, .rw, 0⟩, ⟨36, 33, .rw, 4⟩]
  | .GFK_Bb_CARc_SYNC => [⟨31, 0, .rw, 0⟩]
  | .GFK_Bb_CARc_CNT => [⟨15, 0, .rc, 0⟩, ⟨31, 16, .rc, 0⟩, ⟨47, 32, .rc, 0⟩, ⟨63, 48, .rc, 0⟩]
  | .FHL_Pp_CTRL => [⟨0, 0, .rw, 0⟩, ⟨12, 1, .rw, 1⟩]
  | .FHL_Pp_STATUS => [⟨0, 0, .ro, 0⟩, ⟨1, 1, .ro, 0⟩, ⟨2, 2, .ro, 0⟩]
  | .FHL_Pp_MAC => [⟨47, 0, .rw, 0⟩]
  | .FHL_Pp_POLMAP =>
    [⟨5, 0, .rw, 0⟩, ⟨13, 8, .rw, 0⟩, ⟨21, 16, .rw, 0⟩, ⟨29, 24, .rw, 0⟩, ⟨37, 32, .rw, 0⟩, ⟨45, 40, .rw, 0⟩, ⟨53, 48, .rw, 0⟩, ⟨61, 56, .rw, 0⟩, ⟨6, 6, .rw, 0⟩, ⟨14, 14, .rw, 0⟩, ⟨22, 22, .rw, 0⟩, ⟨30, 30, .rw, 0⟩, ⟨38, 38, .rw, 0⟩, ⟨46, 46, .rw, 0⟩, ⟨54, 54, .rw, 0⟩, ⟨62, 62, .rw, 0⟩]
  | .FHL_Pp_SHq => [⟨18, 0, .rw, 0x61a80⟩, ⟨19, 19, .rw, 0⟩, ⟨43, 20, .rw, 0x10000⟩]
  | .FHL_Pp_CNT => [⟨63, 0, .rc, 0⟩]
  | .FHL_SW_CTRL => [⟨11, 0, .rw, 0x12c⟩, ⟨12, 12, .rw, 1⟩]
  | .FHL_SW_STATUS =>
    [⟨14, 0, .ro, 0⟩, ⟨15, 15, .ro, 0⟩, ⟨31, 16, .rc, 0⟩, ⟨47, 32, .rc, 0⟩, ⟨48, 48, .rw1c, 0⟩, ⟨49, 49, .rw1c, 0⟩]
  | .FHL_MAC_KEY => [⟨47, 0, .rw, 0⟩, ⟨59, 48, .rw, 0⟩, ⟨62, 60, .rw, 0⟩]
  | .FHL_MAC_OP =>
    [⟨2, 0, .rw, 0⟩, ⟨3, 3, .wo, 0⟩, ⟨4, 4, .ro, 0⟩, ⟨5, 5, .rw1c, 0⟩, ⟨6, 6, .ro, 0⟩, ⟨7, 7, .ro, 0⟩]
  | .FHL_POLi =>
    [⟨0, 0, .rw, 0⟩, ⟨1, 1, .rw, 0⟩, ⟨2, 2, .rw, 0⟩, ⟨3, 3, .rw, 0⟩, ⟨50, 32, .rw, 0⟩, ⟨82, 64, .rw, 0⟩, ⟨119, 96, .rw, 0⟩, ⟨151, 128, .rw, 0⟩, ⟨191, 160, .rc, 0⟩, ⟨223, 192, .rc, 0⟩, ⟨255, 224, .rc, 0⟩]
  | .FHL_VLANv => [⟨4, 0, .rw, 0⟩, ⟨9, 5, .rw, 0⟩]
  | .FHL_FCNTf =>
    [⟨31, 0, .rc, 0⟩, ⟨47, 32, .rc, 0⟩, ⟨63, 48, .rc, 0⟩, ⟨79, 64, .rc, 0⟩, ⟨95, 80, .rc, 0⟩, ⟨111, 96, .rc, 0⟩]
  | .FHL_FLOWf =>
    [⟨15, 0, .rw, 0⟩, ⟨16, 16, .rw, 0⟩, ⟨17, 17, .rw, 0⟩, ⟨19, 18, .rw, 0⟩, ⟨21, 20, .rw, 0⟩, ⟨23, 22, .rw, 0⟩, ⟨25, 24, .rw, 0⟩, ⟨27, 26, .rw, 0⟩, ⟨31, 28, .rw, 0⟩, ⟨43, 32, .rw, 0⟩, ⟨46, 44, .rw, 0⟩, ⟨95, 48, .rw, 0⟩, ⟨127, 96, .rw, 0⟩, ⟨159, 128, .rw, 0⟩, ⟨184, 160, .rw, 0⟩, ⟨200, 192, .rw, 0⟩, ⟨209, 201, .rw, 0⟩]
  | .PKG_NETQ_RX => [⟨0, 0, .rw, 0⟩, ⟨47, 6, .rw, 0⟩, ⟨51, 48, .rw, 4⟩, ⟨57, 52, .rw, 0⟩]
  | .PKG_NETQ_TX => [⟨0, 0, .rw, 0⟩, ⟨47, 6, .rw, 0⟩, ⟨51, 48, .rw, 4⟩, ⟨57, 52, .rw, 0⟩]
  | .FAB_ID => [⟨8, 0, .rw, 0⟩, ⟨9, 9, .rw, 0⟩, ⟨22, 10, .rw, 0⟩, ⟨23, 23, .rw, 0⟩]
  | .FAB_CTRL =>
    [⟨0, 0, .rw, 0⟩, ⟨2, 1, .rw, 3⟩, ⟨13, 8, .rw, 0x20⟩, ⟨19, 14, .rw, 8⟩, ⟨31, 20, .rw, 0x64⟩]
  | .FAB_HOPC => [⟨11, 0, .rw, 0xfff⟩, ⟨31, 16, .rw, 0x4000⟩]
  | .FAB_TEARDOWN =>
    [⟨31, 0, .rw, 0⟩, ⟨32, 32, .rw, 0⟩, ⟨33, 33, .wo, 0⟩, ⟨34, 34, .ro, 0⟩, ⟨35, 35, .rw1c, 0⟩, ⟨42, 36, .ro, 0⟩]
  | .FAB_DEAD =>
    [⟨31, 0, .ro, 0⟩, ⟨44, 32, .ro, 0⟩, ⟨45, 45, .ro, 0⟩, ⟨46, 46, .ro, 0⟩, ⟨63, 48, .rc, 0⟩]
  | .FAB_BAR_BASE => [⟨0, 0, .rw, 0⟩, ⟨47, 21, .rw, 0⟩]
  | .FAB_CNT => [⟨15, 0, .rc, 0⟩, ⟨31, 16, .rc, 0⟩, ⟨47, 32, .rc, 0⟩, ⟨63, 48, .rc, 0⟩]
  | .FAB_MEMB => [⟨31, 0, .ro, 0⟩, ⟨47, 32, .ro, 0⟩, ⟨48, 48, .ro, 0⟩, ⟨63, 56, .rc, 0⟩]
  | .FAB_QUORUM =>
    [⟨2, 0, .rw, 0⟩, ⟨16, 8, .rw, 0⟩, ⟨25, 17, .rw, 0⟩, ⟨34, 26, .rw, 0⟩, ⟨43, 35, .rw, 0⟩, ⟨52, 44, .rw, 0⟩]
  | .FAB_VOTE => [⟨8, 0, .rw, 0⟩, ⟨24, 9, .rw, 0⟩, ⟨25, 25, .wo, 0⟩, ⟨26, 26, .rw1c, 0⟩]
  | .FAB_EXPELw => [⟨63, 0, .rw1c, 0⟩]
  | .FAB_FTIDb => [⟨15, 0, .rw, 0⟩, ⟨16, 16, .rw, 0⟩]
  | .FAB_MCGg => [⟨24, 0, .rw, 0⟩, ⟨25, 25, .rw, 0⟩]
  | .FAB_ROUTEi =>
    [⟨0, 0, .rw, 0⟩, ⟨2, 1, .rw, 0⟩, ⟨3, 3, .rw, 0⟩, ⟨6, 4, .rw, 0⟩, ⟨55, 8, .rw, 0⟩, ⟨59, 56, .rw, 3⟩]
  | .FAB_PODRTp =>
    [⟨0, 0, .rw, 0⟩, ⟨2, 1, .rw, 0⟩, ⟨3, 3, .rw, 0⟩, ⟨6, 4, .rw, 0⟩, ⟨55, 8, .rw, 0⟩, ⟨59, 56, .rw, 3⟩]
  | .FAB_MQn =>
    [⟨0, 0, .rw, 0⟩, ⟨8, 1, .rw, 0⟩, ⟨12, 9, .rw, 4⟩, ⟨16, 13, .rw, 2⟩, ⟨47, 32, .rc, 0⟩, ⟨111, 64, .rw, 0⟩]
  | .FAB_Ll_CTRL => [⟨0, 0, .rw, 0⟩, ⟨1, 1, .wo, 0⟩]
  | .FAB_Ll_STATUS =>
    [⟨2, 0, .ro, 0⟩, ⟨6, 3, .ro, 0⟩, ⟨20, 8, .ro, 0⟩, ⟨25, 21, .ro, 0⟩, ⟨43, 32, .ro, 0⟩]
  | .FAB_Ll_CNT => [⟨15, 0, .rc, 0⟩, ⟨31, 16, .rc, 0⟩, ⟨47, 32, .rc, 0⟩, ⟨63, 48, .rc, 0⟩]
  | .FAB_Ll_DTR =>
    [⟨0, 0, .rw, 0⟩, ⟨2, 1, .rw, 0⟩, ⟨8, 3, .rw, 0⟩, ⟨14, 9, .rw, 0⟩, ⟨20, 15, .rw, 0⟩, ⟨26, 21, .rw, 0⟩, ⟨27, 27, .ro, 0⟩]
  | .HS_TIMECMP => [⟨63, 0, .rw, 0⟩]
  | .HS_IP => [⟨7, 0, .ro, 0⟩]
  | .HS_IE => [⟨7, 0, .rw, 0⟩]
  | .HS_TVAL => [⟨63, 0, .ro, 0⟩]
  | .HS_EVSRV => [⟨11, 0, .ro, 0⟩, ⟨31, 31, .ro, 0⟩]
  | .HS_EVDATA => [⟨63, 0, .ro, 0⟩]
  | .MSIX_PF => [⟨63, 0, .rw, 0⟩, ⟨95, 64, .rw, 0⟩, ⟨96, 96, .rw, 1⟩]
  | .MSIX_PBA => [⟨1, 0, .ro, 0⟩]
  | .MSIX_VF => [⟨63, 0, .rw, 0⟩, ⟨95, 64, .rw, 0⟩, ⟨96, 96, .rw, 1⟩]
  | .MSIX_VFPBA => [⟨3, 0, .ro, 0⟩]
  | .CFG_SRIOV => [⟨0, 0, .rw, 0⟩, ⟨16, 1, .rw, 0⟩]
  | .CFG_ATS => [⟨0, 0, .rw, 0⟩]

/-- Register kinds, part 0 of the map order. -/
def RegKind.all0 : List RegKind :=
  [.PKG_ID, .PKG_DIE_EN, .PKG_DIE_FENCE, .PKG_BAR2_BASE, .PKG_SERIAL, .PKG_RESET, .PKG_BOOT, .PKG_FW_ADDR,
   .PKG_FW_CMD, .PKG_ACCT_SNAP, .PKG_ACCT_DATA, .BSN_CMD, .BSN_HC_OWNERh, .BSN_STATEb, .BSN_HMW_BASEb, .BSN_HMW_LIMITb,
   .BSN_RINGb, .BSN_STALEb, .BSN_MBXb, .PKG_OBS_CTRL, .PKG_OBS_RING, .PKG_OBS_OLD, .PKG_OBS_KEY, .PKG_OBS_MARK,
   .PKG_OBS_STATUS, .PKG_LOCK_CTRL, .PKG_LOCK_KEY, .PKG_LOCK_CNT, .PWR_DET_CTRL, .PWR_DET_QUOTAc, .PWR_PKG_LIMIT, .PWR_LEND,
   .PWR_STATUS, .PWR_DIEd, .PWR_RAILr, .PKG_HC_CTRLh, .PKG_HC_PAIRp, .PKG_HC_DBELLh, .PKG_D2H_ADDRb, .PKG_D2H_WORDb,
   .CAL_ITEMi, .TMB_CTRL, .TMB_STATUS, .TMB_INCR, .TMB_NOW, .TMB_NOW_FRAC, .TMB_STEP, .TMB_PPS_CAP]

/-- Register kinds, part 1 of the map order. -/
def RegKind.all1 : List RegKind :=
  [.TMB_TOD_SEC, .TMB_TRIGn_CTRL, .TMB_TRIGn_START, .TMB_TRIGn_SHAPE, .GEY_CTRL, .GEY_FRAME_OFS, .GEY_FUMAROLE, .GEY_TICK,
   .GEY_POS, .GEY_TICK_SET, .EVC_CTRL, .EVC_STATUS, .EVC_STRAY_CNT, .EVC_Qq_BASE, .EVC_Qq_HEAD, .EVC_Qq_TAIL,
   .EVC_CPL_TIMEk, .EVC_CPLk, .EVC_SRCn, .FLT_STATUS, .FLT_CTRL, .FLT_ALERT, .FLT_JRNL, .FLT_JRNL_TORN,
   .FLT_TEST_CMD, .FLT_TEST_PKG, .FLT_TEST_BUF, .FLT_TEST_RES, .FLT_TEST_EXP, .FLT_RG_STATUS, .FLT_RG_CNT, .FLT_RG_LAST,
   .FLT_RG_CNT2, .FLT_INJECT, .FLT_DLM_BASE, .FLT_DLM_CNT, .FLT_SCTL, .FLT_CFW_BASE, .MXC_ARR_STATUS, .MXC_ARR_SPAREs,
   .MXC_ARR_RESCNT, .MXC_ARR_LASTMISS, .MXC_ARR_INJECT, .MXC_SEQ_STATUS, .MXC_SEQ_ERR, .MXC_CTXc_STATE, .MXC_SEMn, .MXC_SEM_SIGNAL]

/-- Register kinds, part 2 of the map order. -/
def RegKind.all2 : List RegKind :=
  [.MXC_DIGk, .MXC_Qq_CTRL, .MXC_Qq_RING, .MXC_Qq_CRING, .MXC_Qq_DBL, .MXC_Qq_STATUS, .MXC_Qq_CNT, .MXC_TPROG_BASE,
   .MXC_TPROG_STATUS, .MXC_TPROG_LAST, .MXC_CORE_KILLS, .SNT_CTRL, .SNT_STATUS, .SNT_CNT, .STR_CTRL, .STR_STATUS,
   .STR_ECC_CNT, .STR_ECC_LAST, .STR_SRAM_ECC_CNT, .STR_PAGE_CMD, .STR_KEY_CMD, .STR_KEY_DATA, .STR_SRAM_OWNERg, .STR_PAGE_OWNERp,
   .RDP_CORE_STATUS, .RDP_CORE_IRQ, .RDP_CORE_TIMER, .RDP_CORE_DBELL, .RDP_CLk_TPROG, .RDP_CLk_TSTAT, .RDP_SPARE, .RDP_CELL_CFGj,
   .CRC_Uu_CTRL, .CRC_Uu_INIT, .CRC_Uu_RUN, .CRC_Uu_SAFE, .GFK_Bb_RXRING, .GFK_Bb_TXRING, .GFK_Bb_NOISE, .GFK_Bb_CARc_CFG,
   .GFK_Bb_CARc_SYNC, .GFK_Bb_CARc_CNT, .FHL_Pp_CTRL, .FHL_Pp_STATUS, .FHL_Pp_MAC, .FHL_Pp_POLMAP, .FHL_Pp_SHq, .FHL_Pp_CNT]

/-- Register kinds, part 3 of the map order. -/
def RegKind.all3 : List RegKind :=
  [.FHL_SW_CTRL, .FHL_SW_STATUS, .FHL_MAC_KEY, .FHL_MAC_OP, .FHL_POLi, .FHL_VLANv, .FHL_FCNTf, .FHL_FLOWf,
   .PKG_NETQ_RX, .PKG_NETQ_TX, .FAB_ID, .FAB_CTRL, .FAB_HOPC, .FAB_TEARDOWN, .FAB_DEAD, .FAB_BAR_BASE,
   .FAB_CNT, .FAB_MEMB, .FAB_QUORUM, .FAB_VOTE, .FAB_EXPELw, .FAB_FTIDb, .FAB_MCGg, .FAB_ROUTEi,
   .FAB_PODRTp, .FAB_MQn, .FAB_Ll_CTRL, .FAB_Ll_STATUS, .FAB_Ll_CNT, .FAB_Ll_DTR, .HS_TIMECMP, .HS_IP,
   .HS_IE, .HS_TVAL, .HS_EVSRV, .HS_EVDATA, .MSIX_PF, .MSIX_PBA, .MSIX_VF, .MSIX_VFPBA,
   .CFG_SRIOV, .CFG_ATS]

/-- All register kinds, in map order. -/
def RegKind.all : List RegKind :=
  RegKind.all0 ++ RegKind.all1 ++ RegKind.all2 ++ RegKind.all3

end Sys2Proof.Machine

/-! The named fields. -/

namespace Sys2Proof.Machine.F

def PKG_ID.VENDOR : Field := ⟨.PKG_ID, 15, 0⟩
def PKG_ID.DEVICE : Field := ⟨.PKG_ID, 31, 16⟩
def PKG_ID.STEPPING : Field := ⟨.PKG_ID, 39, 32⟩
def PKG_ID.ORDER : Field := ⟨.PKG_ID, 47, 40⟩
def PKG_DIE_EN.MD_EN : Field := ⟨.PKG_DIE_EN, 11, 0⟩
def PKG_DIE_EN.RD_EN : Field := ⟨.PKG_DIE_EN, 15, 12⟩
def PKG_DIE_EN.SD_EN : Field := ⟨.PKG_DIE_EN, 27, 16⟩
def PKG_DIE_EN.ED_EN : Field := ⟨.PKG_DIE_EN, 31, 28⟩
def PKG_DIE_FENCE.MD_FEN : Field := ⟨.PKG_DIE_FENCE, 11, 0⟩
def PKG_DIE_FENCE.RD_FEN : Field := ⟨.PKG_DIE_FENCE, 15, 12⟩
def PKG_DIE_FENCE.SD_FEN : Field := ⟨.PKG_DIE_FENCE, 27, 16⟩
def PKG_DIE_FENCE.ED_FEN : Field := ⟨.PKG_DIE_FENCE, 31, 28⟩
def PKG_DIE_FENCE.MD_OFF : Field := ⟨.PKG_DIE_FENCE, 43, 32⟩
def PKG_DIE_FENCE.RD_OFF : Field := ⟨.PKG_DIE_FENCE, 47, 44⟩
def PKG_DIE_FENCE.SD_OFF : Field := ⟨.PKG_DIE_FENCE, 59, 48⟩
def PKG_DIE_FENCE.ED_OFF : Field := ⟨.PKG_DIE_FENCE, 63, 60⟩
def PKG_BAR2_BASE.BASE : Field := ⟨.PKG_BAR2_BASE, 47, 36⟩
def PKG_SERIAL.SERIAL : Field := ⟨.PKG_SERIAL, 63, 0⟩
def PKG_RESET.WARM : Field := ⟨.PKG_RESET, 0, 0⟩
def PKG_RESET.PCYC_REQ : Field := ⟨.PKG_RESET, 1, 1⟩
def PKG_BOOT.STAGE : Field := ⟨.PKG_BOOT, 2, 0⟩
def PKG_BOOT.READY : Field := ⟨.PKG_BOOT, 3, 3⟩
def PKG_BOOT.ERR : Field := ⟨.PKG_BOOT, 4, 4⟩
def PKG_BOOT.SLOT : Field := ⟨.PKG_BOOT, 5, 5⟩
def PKG_FW_ADDR.ADDR : Field := ⟨.PKG_FW_ADDR, 63, 0⟩
def PKG_FW_CMD.LEN : Field := ⟨.PKG_FW_CMD, 25, 0⟩
def PKG_FW_CMD.OP : Field := ⟨.PKG_FW_CMD, 26, 26⟩
def PKG_FW_CMD.GO : Field := ⟨.PKG_FW_CMD, 27, 27⟩
def PKG_FW_CMD.BUSY : Field := ⟨.PKG_FW_CMD, 28, 28⟩
def PKG_FW_CMD.STAGED : Field := ⟨.PKG_FW_CMD, 29, 29⟩
def PKG_FW_CMD.ERR : Field := ⟨.PKG_FW_CMD, 32, 30⟩
def PKG_ACCT_SNAP.BASIN : Field := ⟨.PKG_ACCT_SNAP, 7, 0⟩
def PKG_ACCT_SNAP.GO : Field := ⟨.PKG_ACCT_SNAP, 8, 8⟩
def PKG_ACCT_SNAP.BUSY : Field := ⟨.PKG_ACCT_SNAP, 9, 9⟩
def PKG_ACCT_DATA.WORD : Field := ⟨.PKG_ACCT_DATA, 63, 0⟩
def BSN_CMD.BASIN : Field := ⟨.BSN_CMD, 7, 0⟩
def BSN_CMD.PORT : Field := ⟨.BSN_CMD, 8, 8⟩
def BSN_CMD.OP : Field := ⟨.BSN_CMD, 11, 9⟩
def BSN_CMD.GO : Field := ⟨.BSN_CMD, 12, 12⟩
def BSN_CMD.BUSY : Field := ⟨.BSN_CMD, 13, 13⟩
def BSN_CMD.ERR : Field := ⟨.BSN_CMD, 17, 14⟩
def BSN_CMD.RESULT : Field := ⟨.BSN_CMD, 25, 18⟩
def BSN_HC_OWNERh.BASIN : Field := ⟨.BSN_HC_OWNERh, 7, 0⟩
def BSN_HC_OWNERh.SCRUB : Field := ⟨.BSN_HC_OWNERh, 8, 8⟩
def BSN_HC_OWNERh.ERR : Field := ⟨.BSN_HC_OWNERh, 9, 9⟩
def BSN_STATEb.STATE : Field := ⟨.BSN_STATEb, 2, 0⟩
def BSN_STATEb.PORT : Field := ⟨.BSN_STATEb, 3, 3⟩
def BSN_STATEb.GEN : Field := ⟨.BSN_STATEb, 15, 4⟩
def BSN_STATEb.MODE : Field := ⟨.BSN_STATEb, 16, 16⟩
def BSN_STATEb.MODE_PEND : Field := ⟨.BSN_STATEb, 17, 17⟩
def BSN_STATEb.MODE_ERR : Field := ⟨.BSN_STATEb, 18, 18⟩
def BSN_STATEb.DSP_SHARE : Field := ⟨.BSN_STATEb, 29, 19⟩
def BSN_HMW_BASEb.BASE : Field := ⟨.BSN_HMW_BASEb, 47, 12⟩
def BSN_HMW_LIMITb.LIMIT : Field := ⟨.BSN_HMW_LIMITb, 47, 12⟩
def BSN_RINGb.BASE : Field := ⟨.BSN_RINGb, 47, 6⟩
def BSN_RINGb.LOG2 : Field := ⟨.BSN_RINGb, 51, 48⟩
def BSN_RINGb.POLL : Field := ⟨.BSN_RINGb, 63, 52⟩
def BSN_STALEb.ENTRY : Field := ⟨.BSN_STALEb, 15, 0⟩
def BSN_STALEb.COMPL : Field := ⟨.BSN_STALEb, 31, 16⟩
def BSN_STALEb.FABRIC : Field := ⟨.BSN_STALEb, 47, 32⟩
def BSN_STALEb.EVENT : Field := ⟨.BSN_STALEb, 63, 48⟩
def BSN_MBXb.UP : Field := ⟨.BSN_MBXb, 15, 0⟩
def BSN_MBXb.DOWN : Field := ⟨.BSN_MBXb, 31, 16⟩
def BSN_MBXb.DROP : Field := ⟨.BSN_MBXb, 47, 32⟩
def PKG_OBS_CTRL.EN : Field := ⟨.PKG_OBS_CTRL, 0, 0⟩
def PKG_OBS_CTRL.OP : Field := ⟨.PKG_OBS_CTRL, 2, 1⟩
def PKG_OBS_CTRL.FLIGHT : Field := ⟨.PKG_OBS_CTRL, 3, 3⟩
def PKG_OBS_CTRL.FABDATA : Field := ⟨.PKG_OBS_CTRL, 4, 4⟩
def PKG_OBS_CTRL.HC_INJECT : Field := ⟨.PKG_OBS_CTRL, 5, 5⟩
def PKG_OBS_CTRL.TRIG_FLT : Field := ⟨.PKG_OBS_CTRL, 6, 6⟩
def PKG_OBS_CTRL.FREEZE : Field := ⟨.PKG_OBS_CTRL, 7, 7⟩
def PKG_OBS_CTRL.POST : Field := ⟨.PKG_OBS_CTRL, 15, 8⟩
def PKG_OBS_CTRL.CLASS : Field := ⟨.PKG_OBS_CTRL, 31, 16⟩
def PKG_OBS_RING.LOG2 : Field := ⟨.PKG_OBS_RING, 5, 0⟩
def PKG_OBS_RING.BASE : Field := ⟨.PKG_OBS_RING, 47, 20⟩
def PKG_OBS_OLD.OLD : Field := ⟨.PKG_OBS_OLD, 63, 0⟩
def PKG_OBS_KEY.KEY : Field := ⟨.PKG_OBS_KEY, 63, 0⟩
def PKG_OBS_MARK.VALUE : Field := ⟨.PKG_OBS_MARK, 63, 0⟩
def PKG_OBS_STATUS.FROZEN : Field := ⟨.PKG_OBS_STATUS, 0, 0⟩
def PKG_OBS_STATUS.DONE : Field := ⟨.PKG_OBS_STATUS, 1, 1⟩
def PKG_OBS_STATUS.DIVERGE : Field := ⟨.PKG_OBS_STATUS, 4, 2⟩
def PKG_OBS_STATUS.ERR : Field := ⟨.PKG_OBS_STATUS, 5, 5⟩
def PKG_OBS_STATUS.LOST : Field := ⟨.PKG_OBS_STATUS, 63, 32⟩
def PKG_LOCK_CTRL.EN : Field := ⟨.PKG_LOCK_CTRL, 0, 0⟩
def PKG_LOCK_CTRL.ROLE : Field := ⟨.PKG_LOCK_CTRL, 1, 1⟩
def PKG_LOCK_CTRL.GATE : Field := ⟨.PKG_LOCK_CTRL, 2, 2⟩
def PKG_LOCK_CTRL.LAG : Field := ⟨.PKG_LOCK_CTRL, 6, 3⟩
def PKG_LOCK_CTRL.SIGINT : Field := ⟨.PKG_LOCK_CTRL, 9, 7⟩
def PKG_LOCK_CTRL.PARTNER : Field := ⟨.PKG_LOCK_CTRL, 22, 10⟩
def PKG_LOCK_CTRL.MISMATCH : Field := ⟨.PKG_LOCK_CTRL, 23, 23⟩
def PKG_LOCK_CTRL.LOSTSIG : Field := ⟨.PKG_LOCK_CTRL, 24, 24⟩
def PKG_LOCK_CTRL.MINT : Field := ⟨.PKG_LOCK_CTRL, 41, 32⟩
def PKG_LOCK_CTRL.MTICK : Field := ⟨.PKG_LOCK_CTRL, 63, 42⟩
def PKG_LOCK_KEY.LKEY : Field := ⟨.PKG_LOCK_KEY, 63, 0⟩
def PKG_LOCK_CNT.SUPPRESSED : Field := ⟨.PKG_LOCK_CNT, 31, 0⟩
def PKG_LOCK_CNT.COMPARED : Field := ⟨.PKG_LOCK_CNT, 63, 32⟩
def PWR_DET_CTRL.EN : Field := ⟨.PWR_DET_CTRL, 0, 0⟩
def PWR_DET_CTRL.STATE : Field := ⟨.PWR_DET_CTRL, 2, 1⟩
def PWR_DET_CTRL.CAUSE : Field := ⟨.PWR_DET_CTRL, 4, 3⟩
def PWR_DET_CTRL.HC_MHZ : Field := ⟨.PWR_DET_CTRL, 16, 5⟩
def PWR_DET_QUOTAc.QUOTA : Field := ⟨.PWR_DET_QUOTAc, 21, 0⟩
def PWR_DET_QUOTAc.ADM : Field := ⟨.PWR_DET_QUOTAc, 53, 32⟩
def PWR_PKG_LIMIT.LIMIT : Field := ⟨.PWR_PKG_LIMIT, 11, 0⟩
def PWR_PKG_LIMIT.CLAMP : Field := ⟨.PWR_PKG_LIMIT, 12, 12⟩
def PWR_LEND.EN : Field := ⟨.PWR_LEND, 0, 0⟩
def PWR_LEND.THRESH : Field := ⟨.PWR_LEND, 16, 1⟩
def PWR_STATUS.PKG_W : Field := ⟨.PWR_STATUS, 11, 0⟩
def PWR_STATUS.LIMITING : Field := ⟨.PWR_STATUS, 12, 12⟩
def PWR_STATUS.BACKUP : Field := ⟨.PWR_STATUS, 13, 13⟩
def PWR_STATUS.SEQ_ERR : Field := ⟨.PWR_STATUS, 14, 14⟩
def PWR_STATUS.THR_MASK : Field := ⟨.PWR_STATUS, 63, 32⟩
def PWR_DIEd.TJ : Field := ⟨.PWR_DIEd, 15, 0⟩
def PWR_DIEd.STEP : Field := ⟨.PWR_DIEd, 18, 16⟩
def PWR_DIEd.TFAULT : Field := ⟨.PWR_DIEd, 19, 19⟩
def PWR_DIEd.CRIT : Field := ⟨.PWR_DIEd, 20, 20⟩
def PWR_DIEd.CLK_MHZ : Field := ⟨.PWR_DIEd, 43, 32⟩
def PWR_RAILr.V : Field := ⟨.PWR_RAILr, 15, 0⟩
def PWR_RAILr.I : Field := ⟨.PWR_RAILr, 31, 16⟩
def PWR_RAILr.PG : Field := ⟨.PWR_RAILr, 32, 32⟩
def PWR_RAILr.RFAULT : Field := ⟨.PWR_RAILr, 33, 33⟩
def PWR_RAILr.SET : Field := ⟨.PWR_RAILr, 43, 34⟩
def PKG_HC_CTRLh.RUN : Field := ⟨.PKG_HC_CTRLh, 0, 0⟩
def PKG_HC_CTRLh.HALTED : Field := ⟨.PKG_HC_CTRLh, 1, 1⟩
def PKG_HC_CTRLh.STRAY : Field := ⟨.PKG_HC_CTRLh, 31, 16⟩
def PKG_HC_CTRLh.ENTRY : Field := ⟨.PKG_HC_CTRLh, 63, 32⟩
def PKG_HC_PAIRp.EN : Field := ⟨.PKG_HC_PAIRp, 0, 0⟩
def PKG_HC_PAIRp.STANDBY : Field := ⟨.PKG_HC_PAIRp, 5, 1⟩
def PKG_HC_PAIRp.SBY_EN : Field := ⟨.PKG_HC_PAIRp, 6, 6⟩
def PKG_HC_PAIRp.STATE : Field := ⟨.PKG_HC_PAIRp, 8, 7⟩
def PKG_HC_DBELLh.BITS : Field := ⟨.PKG_HC_DBELLh, 31, 0⟩
def PKG_D2H_ADDRb.EN : Field := ⟨.PKG_D2H_ADDRb, 0, 0⟩
def PKG_D2H_ADDRb.ADDR : Field := ⟨.PKG_D2H_ADDRb, 47, 3⟩
def PKG_D2H_WORDb.FLAGS : Field := ⟨.PKG_D2H_WORDb, 63, 0⟩
def CAL_ITEMi.FACTORY : Field := ⟨.CAL_ITEMi, 15, 0⟩
def CAL_ITEMi.USER : Field := ⟨.CAL_ITEMi, 31, 16⟩
def CAL_ITEMi.EFFECTIVE : Field := ⟨.CAL_ITEMi, 47, 32⟩
def CAL_ITEMi.CLAMP : Field := ⟨.CAL_ITEMi, 48, 48⟩
def TMB_CTRL.PPS_EN : Field := ⟨.TMB_CTRL, 0, 0⟩
def TMB_CTRL.TOD_EN : Field := ⟨.TMB_CTRL, 1, 1⟩
def TMB_CTRL.PPS_POL : Field := ⟨.TMB_CTRL, 2, 2⟩
def TMB_STATUS.LOCK : Field := ⟨.TMB_STATUS, 1, 0⟩
def TMB_STATUS.PPS_MISS : Field := ⟨.TMB_STATUS, 2, 2⟩
def TMB_STATUS.INCR_CLAMP : Field := ⟨.TMB_STATUS, 3, 3⟩
def TMB_STATUS.STEP_REFUSED : Field := ⟨.TMB_STATUS, 4, 4⟩
def TMB_STATUS.TOD_ERR : Field := ⟨.TMB_STATUS, 5, 5⟩
def TMB_STATUS.REF_LOSS : Field := ⟨.TMB_STATUS, 6, 6⟩
def TMB_STATUS.TAKEOVER : Field := ⟨.TMB_STATUS, 7, 7⟩
def TMB_STATUS.PPS_GLITCH : Field := ⟨.TMB_STATUS, 31, 16⟩
def TMB_INCR.INCR : Field := ⟨.TMB_INCR, 39, 0⟩
def TMB_NOW.NS : Field := ⟨.TMB_NOW, 63, 0⟩
def TMB_NOW_FRAC.FRAC : Field := ⟨.TMB_NOW_FRAC, 31, 0⟩
def TMB_STEP.DELTA : Field := ⟨.TMB_STEP, 63, 0⟩
def TMB_PPS_CAP.NS : Field := ⟨.TMB_PPS_CAP, 63, 0⟩
def TMB_TOD_SEC.SEC : Field := ⟨.TMB_TOD_SEC, 61, 0⟩
def TMB_TOD_SEC.TRACE : Field := ⟨.TMB_TOD_SEC, 62, 62⟩
def TMB_TOD_SEC.VALID : Field := ⟨.TMB_TOD_SEC, 63, 63⟩
def TMB_TRIGn_CTRL.ARM : Field := ⟨.TMB_TRIGn_CTRL, 0, 0⟩
def TMB_TRIGn_CTRL.MODE : Field := ⟨.TMB_TRIGn_CTRL, 1, 1⟩
def TMB_TRIGn_CTRL.POL : Field := ⟨.TMB_TRIGn_CTRL, 2, 2⟩
def TMB_TRIGn_CTRL.ARM_ERR : Field := ⟨.TMB_TRIGn_CTRL, 3, 3⟩
def TMB_TRIGn_CTRL.DELAY_COMP : Field := ⟨.TMB_TRIGn_CTRL, 31, 16⟩
def TMB_TRIGn_START.START : Field := ⟨.TMB_TRIGn_START, 63, 0⟩
def TMB_TRIGn_SHAPE.PERIOD : Field := ⟨.TMB_TRIGn_SHAPE, 31, 0⟩
def TMB_TRIGn_SHAPE.WIDTH : Field := ⟨.TMB_TRIGn_SHAPE, 63, 32⟩
def GEY_CTRL.RUN : Field := ⟨.GEY_CTRL, 0, 0⟩
def GEY_CTRL.FORCE : Field := ⟨.GEY_CTRL, 1, 1⟩
def GEY_CTRL.PERIOD : Field := ⟨.GEY_CTRL, 3, 2⟩
def GEY_CTRL.PERIOD_NEXT : Field := ⟨.GEY_CTRL, 5, 4⟩
def GEY_CTRL.CHG_PEND : Field := ⟨.GEY_CTRL, 6, 6⟩
def GEY_CTRL.TICKING : Field := ⟨.GEY_CTRL, 7, 7⟩
def GEY_CTRL.APPLY_SFN : Field := ⟨.GEY_CTRL, 25, 16⟩
def GEY_FRAME_OFS.OFS : Field := ⟨.GEY_FRAME_OFS, 23, 0⟩
def GEY_FUMAROLE.MARGIN : Field := ⟨.GEY_FUMAROLE, 9, 0⟩
def GEY_FUMAROLE.CLAMP : Field := ⟨.GEY_FUMAROLE, 10, 10⟩
def GEY_TICK.TICK : Field := ⟨.GEY_TICK, 63, 0⟩
def GEY_POS.SFN : Field := ⟨.GEY_POS, 9, 0⟩
def GEY_POS.TICK_IN_FRAME : Field := ⟨.GEY_POS, 17, 10⟩
def GEY_TICK_SET.NEXT : Field := ⟨.GEY_TICK_SET, 63, 0⟩
def EVC_CTRL.EN : Field := ⟨.EVC_CTRL, 0, 0⟩
def EVC_CTRL.PORT : Field := ⟨.EVC_CTRL, 1, 1⟩
def EVC_CTRL.SRVHC : Field := ⟨.EVC_CTRL, 7, 2⟩
def EVC_CTRL.Q1HC : Field := ⟨.EVC_CTRL, 13, 8⟩
def EVC_STATUS.Q0_FULL : Field := ⟨.EVC_STATUS, 0, 0⟩
def EVC_STATUS.Q1_FULL : Field := ⟨.EVC_STATUS, 1, 1⟩
def EVC_STATUS.HEAD_ERR : Field := ⟨.EVC_STATUS, 2, 2⟩
def EVC_STATUS.WERR0 : Field := ⟨.EVC_STATUS, 3, 3⟩
def EVC_STATUS.WERR1 : Field := ⟨.EVC_STATUS, 4, 4⟩
def EVC_STATUS.QFULL_CNT : Field := ⟨.EVC_STATUS, 63, 32⟩
def EVC_STRAY_CNT.STRAY : Field := ⟨.EVC_STRAY_CNT, 31, 0⟩
def EVC_Qq_BASE.BASE : Field := ⟨.EVC_Qq_BASE, 47, 4⟩
def EVC_Qq_BASE.LOG2 : Field := ⟨.EVC_Qq_BASE, 52, 48⟩
def EVC_Qq_HEAD.HEAD : Field := ⟨.EVC_Qq_HEAD, 31, 0⟩
def EVC_Qq_TAIL.TAIL : Field := ⟨.EVC_Qq_TAIL, 31, 0⟩
def EVC_CPL_TIMEk.TIME : Field := ⟨.EVC_CPL_TIMEk, 63, 0⟩
def EVC_CPLk.SOURCE : Field := ⟨.EVC_CPLk, 11, 0⟩
def EVC_CPLk.RUNG : Field := ⟨.EVC_CPLk, 14, 12⟩
def EVC_SRCn.ACTIVE : Field := ⟨.EVC_SRCn, 0, 0⟩
def EVC_SRCn.INSVC : Field := ⟨.EVC_SRCn, 1, 1⟩
def EVC_SRCn.ROUTE : Field := ⟨.EVC_SRCn, 3, 2⟩
def EVC_SRCn.RUNG : Field := ⟨.EVC_SRCn, 6, 4⟩
def EVC_SRCn.COUNT : Field := ⟨.EVC_SRCn, 31, 16⟩
def FLT_STATUS.RUNG : Field := ⟨.FLT_STATUS, 2, 0⟩
def FLT_STATUS.ALERT : Field := ⟨.FLT_STATUS, 3, 3⟩
def FLT_STATUS.TSTOP : Field := ⟨.FLT_STATUS, 4, 4⟩
def FLT_STATUS.WDT : Field := ⟨.FLT_STATUS, 5, 5⟩
def FLT_STATUS.CALDERA_STOPS : Field := ⟨.FLT_STATUS, 31, 16⟩
def FLT_STATUS.DEADLINE : Field := ⟨.FLT_STATUS, 63, 32⟩
def FLT_CTRL.RUNG_CLR : Field := ⟨.FLT_CTRL, 0, 0⟩
def FLT_CTRL.TSTOP_CLR : Field := ⟨.FLT_CTRL, 1, 1⟩
def FLT_CTRL.TERR_LIM : Field := ⟨.FLT_CTRL, 11, 2⟩
def FLT_ALERT.ALARM : Field := ⟨.FLT_ALERT, 6, 0⟩
def FLT_JRNL.HEAD : Field := ⟨.FLT_JRNL, 31, 0⟩
def FLT_JRNL.PRESENTED : Field := ⟨.FLT_JRNL, 63, 32⟩
def FLT_JRNL_TORN.TORN : Field := ⟨.FLT_JRNL_TORN, 15, 0⟩
def FLT_TEST_CMD.UNIT : Field := ⟨.FLT_TEST_CMD, 15, 0⟩
def FLT_TEST_CMD.OP : Field := ⟨.FLT_TEST_CMD, 17, 16⟩
def FLT_TEST_CMD.GO : Field := ⟨.FLT_TEST_CMD, 18, 18⟩
def FLT_TEST_CMD.BUSY : Field := ⟨.FLT_TEST_CMD, 19, 19⟩
def FLT_TEST_CMD.ERR : Field := ⟨.FLT_TEST_CMD, 23, 20⟩
def FLT_TEST_CMD.STATE : Field := ⟨.FLT_TEST_CMD, 25, 24⟩
def FLT_TEST_PKG.ADDR : Field := ⟨.FLT_TEST_PKG, 47, 0⟩
def FLT_TEST_BUF.ADDR : Field := ⟨.FLT_TEST_BUF, 47, 0⟩
def FLT_TEST_RES.DIGEST : Field := ⟨.FLT_TEST_RES, 63, 0⟩
def FLT_TEST_RES.CYCLES : Field := ⟨.FLT_TEST_RES, 95, 64⟩
def FLT_TEST_RES.STATUS : Field := ⟨.FLT_TEST_RES, 99, 96⟩
def FLT_TEST_EXP.EXPECT : Field := ⟨.FLT_TEST_EXP, 63, 0⟩
def FLT_RG_STATUS.BFENCE : Field := ⟨.FLT_RG_STATUS, 15, 0⟩
def FLT_RG_STATUS.DEGRADED : Field := ⟨.FLT_RG_STATUS, 16, 16⟩
def FLT_RG_STATUS.HB_FAIL : Field := ⟨.FLT_RG_STATUS, 17, 17⟩
def FLT_RG_STATUS.TICKF : Field := ⟨.FLT_RG_STATUS, 18, 18⟩
def FLT_RG_CNT.TILE : Field := ⟨.FLT_RG_CNT, 15, 0⟩
def FLT_RG_CNT.BLOCK : Field := ⟨.FLT_RG_CNT, 31, 16⟩
def FLT_RG_CNT.ESC : Field := ⟨.FLT_RG_CNT, 43, 32⟩
def FLT_RG_CNT.DROPWR : Field := ⟨.FLT_RG_CNT, 51, 44⟩
def FLT_RG_CNT.DISCARD : Field := ⟨.FLT_RG_CNT, 63, 52⟩
def FLT_RG_LAST.MECH : Field := ⟨.FLT_RG_LAST, 7, 0⟩
def FLT_RG_LAST.UNIT : Field := ⟨.FLT_RG_LAST, 23, 8⟩
def FLT_RG_LAST.LEVEL : Field := ⟨.FLT_RG_LAST, 25, 24⟩
def FLT_RG_LAST.INJ : Field := ⟨.FLT_RG_LAST, 26, 26⟩
def FLT_RG_LAST.TICK : Field := ⟨.FLT_RG_LAST, 63, 27⟩
def FLT_RG_CNT2.REGION : Field := ⟨.FLT_RG_CNT2, 15, 0⟩
def FLT_RG_CNT2.PKG : Field := ⟨.FLT_RG_CNT2, 31, 16⟩
def FLT_INJECT.MECH : Field := ⟨.FLT_INJECT, 7, 0⟩
def FLT_INJECT.UNIT : Field := ⟨.FLT_INJECT, 23, 8⟩
def FLT_INJECT.ARM : Field := ⟨.FLT_INJECT, 24, 24⟩
def FLT_DLM_BASE.EN : Field := ⟨.FLT_DLM_BASE, 0, 0⟩
def FLT_DLM_BASE.BASE : Field := ⟨.FLT_DLM_BASE, 47, 13⟩
def FLT_DLM_CNT.MARGIN : Field := ⟨.FLT_DLM_CNT, 15, 0⟩
def FLT_DLM_CNT.DEADLINE : Field := ⟨.FLT_DLM_CNT, 31, 16⟩
def FLT_SCTL.EN : Field := ⟨.FLT_SCTL, 0, 0⟩
def FLT_SCTL.DUE : Field := ⟨.FLT_SCTL, 20, 1⟩
def FLT_SCTL.MISS : Field := ⟨.FLT_SCTL, 47, 32⟩
def FLT_CFW_BASE.BASE : Field := ⟨.FLT_CFW_BASE, 47, 12⟩
def MXC_ARR_STATUS.FENCED : Field := ⟨.MXC_ARR_STATUS, 0, 0⟩
def MXC_ARR_STATUS.MAP_PEND : Field := ⟨.MXC_ARR_STATUS, 1, 1⟩
def MXC_ARR_STATUS.SPARES_USED : Field := ⟨.MXC_ARR_STATUS, 5, 2⟩
def MXC_ARR_STATUS.ACT_VALID : Field := ⟨.MXC_ARR_STATUS, 6, 6⟩
def MXC_ARR_STATUS.SHD_VALID : Field := ⟨.MXC_ARR_STATUS, 7, 7⟩
def MXC_ARR_STATUS.LOADING : Field := ⟨.MXC_ARR_STATUS, 8, 8⟩
def MXC_ARR_STATUS.ARRAY_SUSPECT : Field := ⟨.MXC_ARR_STATUS, 9, 9⟩
def MXC_ARR_SPAREs.LCOL : Field := ⟨.MXC_ARR_SPAREs, 9, 0⟩
def MXC_ARR_SPAREs.VALID : Field := ⟨.MXC_ARR_SPAREs, 10, 10⟩
def MXC_ARR_SPAREs.PERM : Field := ⟨.MXC_ARR_SPAREs, 11, 11⟩
def MXC_ARR_RESCNT.MISS : Field := ⟨.MXC_ARR_RESCNT, 15, 0⟩
def MXC_ARR_RESCNT.RETRY_OK : Field := ⟨.MXC_ARR_RESCNT, 31, 16⟩
def MXC_ARR_RESCNT.KILL : Field := ⟨.MXC_ARR_RESCNT, 47, 32⟩
def MXC_ARR_LASTMISS.PCOL : Field := ⟨.MXC_ARR_LASTMISS, 9, 0⟩
def MXC_ARR_LASTMISS.NCOL : Field := ⟨.MXC_ARR_LASTMISS, 12, 10⟩
def MXC_ARR_LASTMISS.FP32 : Field := ⟨.MXC_ARR_LASTMISS, 13, 13⟩
def MXC_ARR_LASTMISS.INJ : Field := ⟨.MXC_ARR_LASTMISS, 14, 14⟩
def MXC_ARR_LASTMISS.CYCLE : Field := ⟨.MXC_ARR_LASTMISS, 35, 16⟩
def MXC_ARR_LASTMISS.TICK : Field := ⟨.MXC_ARR_LASTMISS, 63, 36⟩
def MXC_ARR_INJECT.PCOL : Field := ⟨.MXC_ARR_INJECT, 9, 0⟩
def MXC_ARR_INJECT.KIND : Field := ⟨.MXC_ARR_INJECT, 11, 10⟩
def MXC_ARR_INJECT.ARM : Field := ⟨.MXC_ARR_INJECT, 12, 12⟩
def MXC_SEQ_STATUS.BASIN : Field := ⟨.MXC_SEQ_STATUS, 7, 0⟩
def MXC_SEQ_STATUS.CTX_BUSY : Field := ⟨.MXC_SEQ_STATUS, 11, 8⟩
def MXC_SEQ_STATUS.RADIO : Field := ⟨.MXC_SEQ_STATUS, 12, 12⟩
def MXC_SEQ_STATUS.SCRUB : Field := ⟨.MXC_SEQ_STATUS, 13, 13⟩
def MXC_SEQ_STATUS.DRAINING : Field := ⟨.MXC_SEQ_STATUS, 14, 14⟩
def MXC_SEQ_ERR.TAGDUP_CNT : Field := ⟨.MXC_SEQ_ERR, 15, 0⟩
def MXC_SEQ_ERR.TAGDUP_TAG : Field := ⟨.MXC_SEQ_ERR, 31, 16⟩
def MXC_SEQ_ERR.TAGDUP_Q : Field := ⟨.MXC_SEQ_ERR, 34, 32⟩
def MXC_SEQ_ERR.TW_LATE : Field := ⟨.MXC_SEQ_ERR, 51, 36⟩
def MXC_CTXc_STATE.STATE : Field := ⟨.MXC_CTXc_STATE, 1, 0⟩
def MXC_CTXc_STATE.QUEUE : Field := ⟨.MXC_CTXc_STATE, 4, 2⟩
def MXC_CTXc_STATE.BLOCK : Field := ⟨.MXC_CTXc_STATE, 7, 5⟩
def MXC_CTXc_STATE.TAG : Field := ⟨.MXC_CTXc_STATE, 23, 8⟩
def MXC_CTXc_STATE.GEN : Field := ⟨.MXC_CTXc_STATE, 35, 24⟩
def MXC_CTXc_STATE.PC : Field := ⟨.MXC_CTXc_STATE, 47, 36⟩
def MXC_CTXc_STATE.KILLS : Field := ⟨.MXC_CTXc_STATE, 55, 48⟩
def MXC_SEMn.VAL : Field := ⟨.MXC_SEMn, 7, 0⟩
def MXC_SEMn.RSV : Field := ⟨.MXC_SEMn, 15, 8⟩
def MXC_SEMn.OWNER : Field := ⟨.MXC_SEMn, 23, 16⟩
def MXC_SEMn.OVF : Field := ⟨.MXC_SEMn, 24, 24⟩
def MXC_SEM_SIGNAL.SEM : Field := ⟨.MXC_SEM_SIGNAL, 11, 0⟩
def MXC_SEM_SIGNAL.CNT : Field := ⟨.MXC_SEM_SIGNAL, 19, 12⟩
def MXC_DIGk.SUM : Field := ⟨.MXC_DIGk, 63, 0⟩
def MXC_DIGk.COUNT : Field := ⟨.MXC_DIGk, 111, 64⟩
def MXC_DIGk.POISON : Field := ⟨.MXC_DIGk, 112, 112⟩
def MXC_DIGk.KEY : Field := ⟨.MXC_DIGk, 191, 128⟩
def MXC_DIGk.OWNER : Field := ⟨.MXC_DIGk, 199, 192⟩
def MXC_DIGk.CLR : Field := ⟨.MXC_DIGk, 200, 200⟩
def MXC_Qq_CTRL.EN : Field := ⟨.MXC_Qq_CTRL, 0, 0⟩
def MXC_Qq_CTRL.BASIN : Field := ⟨.MXC_Qq_CTRL, 8, 1⟩
def MXC_Qq_CTRL.LOG2SIZE : Field := ⟨.MXC_Qq_CTRL, 13, 9⟩
def MXC_Qq_CTRL.SHARE : Field := ⟨.MXC_Qq_CTRL, 24, 14⟩
def MXC_Qq_RING.BASE : Field := ⟨.MXC_Qq_RING, 47, 0⟩
def MXC_Qq_CRING.BASE : Field := ⟨.MXC_Qq_CRING, 47, 0⟩
def MXC_Qq_DBL.LINE : Field := ⟨.MXC_Qq_DBL, 47, 0⟩
def MXC_Qq_STATUS.HEAD : Field := ⟨.MXC_Qq_STATUS, 31, 0⟩
def MXC_Qq_STATUS.STALL : Field := ⟨.MXC_Qq_STATUS, 35, 32⟩
def MXC_Qq_STATUS.QERR : Field := ⟨.MXC_Qq_STATUS, 36, 36⟩
def MXC_Qq_CNT.DISPATCHED : Field := ⟨.MXC_Qq_CNT, 31, 0⟩
def MXC_Qq_CNT.CQ_STALL : Field := ⟨.MXC_Qq_CNT, 63, 32⟩
def MXC_TPROG_BASE.EN : Field := ⟨.MXC_TPROG_BASE, 0, 0⟩
def MXC_TPROG_BASE.RADIO_CORE : Field := ⟨.MXC_TPROG_BASE, 1, 1⟩
def MXC_TPROG_BASE.BASE : Field := ⟨.MXC_TPROG_BASE, 47, 16⟩
def MXC_TPROG_STATUS.MISS : Field := ⟨.MXC_TPROG_STATUS, 15, 0⟩
def MXC_TPROG_STATUS.BAD : Field := ⟨.MXC_TPROG_STATUS, 31, 16⟩
def MXC_TPROG_STATUS.WIN_OVR : Field := ⟨.MXC_TPROG_STATUS, 47, 32⟩
def MXC_TPROG_STATUS.Q0_LATE : Field := ⟨.MXC_TPROG_STATUS, 63, 48⟩
def MXC_TPROG_LAST.TICK : Field := ⟨.MXC_TPROG_LAST, 63, 0⟩
def MXC_CORE_KILLS.TICK_KILL : Field := ⟨.MXC_CORE_KILLS, 31, 0⟩
def MXC_CORE_KILLS.WIN_KILL : Field := ⟨.MXC_CORE_KILLS, 63, 32⟩
def SNT_CTRL.RADIO_RSV : Field := ⟨.SNT_CTRL, 9, 0⟩
def SNT_STATUS.USED_T : Field := ⟨.SNT_STATUS, 10, 0⟩
def SNT_STATUS.USED_R : Field := ⟨.SNT_STATUS, 21, 11⟩
def SNT_STATUS.COMMITTED : Field := ⟨.SNT_STATUS, 32, 22⟩
def SNT_STATUS.SIDEQ : Field := ⟨.SNT_STATUS, 41, 33⟩
def SNT_STATUS.RSV_NOW : Field := ⟨.SNT_STATUS, 51, 42⟩
def SNT_CNT.COMMITS : Field := ⟨.SNT_CNT, 31, 0⟩
def SNT_CNT.DISCARDS : Field := ⟨.SNT_CNT, 63, 32⟩
def STR_CTRL.PATROL_EN : Field := ⟨.STR_CTRL, 0, 0⟩
def STR_CTRL.PATROL_RATE : Field := ⟨.STR_CTRL, 2, 1⟩
def STR_STATUS.SPARE_USED : Field := ⟨.STR_STATUS, 15, 0⟩
def STR_STATUS.COPY_BUSY : Field := ⟨.STR_STATUS, 16, 16⟩
def STR_STATUS.COPY_CH : Field := ⟨.STR_STATUS, 20, 17⟩
def STR_STATUS.COPY_BG : Field := ⟨.STR_STATUS, 23, 21⟩
def STR_STATUS.PATROL_PASSES : Field := ⟨.STR_STATUS, 63, 32⟩
def STR_ECC_CNT.CORR : Field := ⟨.STR_ECC_CNT, 31, 0⟩
def STR_ECC_CNT.UNCORR : Field := ⟨.STR_ECC_CNT, 47, 32⟩
def STR_ECC_CNT.POISON_WR : Field := ⟨.STR_ECC_CNT, 63, 48⟩
def STR_ECC_LAST.LINE : Field := ⟨.STR_ECC_LAST, 28, 0⟩
def STR_ECC_LAST.CH : Field := ⟨.STR_ECC_LAST, 32, 29⟩
def STR_ECC_LAST.BG : Field := ⟨.STR_ECC_LAST, 35, 33⟩
def STR_ECC_LAST.PATROL : Field := ⟨.STR_ECC_LAST, 36, 36⟩
def STR_ECC_LAST.VALID : Field := ⟨.STR_ECC_LAST, 37, 37⟩
def STR_SRAM_ECC_CNT.CORR : Field := ⟨.STR_SRAM_ECC_CNT, 31, 0⟩
def STR_SRAM_ECC_CNT.UNCORR : Field := ⟨.STR_SRAM_ECC_CNT, 47, 32⟩
def STR_SRAM_ECC_CNT.POISON_WR : Field := ⟨.STR_SRAM_ECC_CNT, 63, 48⟩
def STR_PAGE_CMD.LPAGE : Field := ⟨.STR_PAGE_CMD, 13, 0⟩
def STR_PAGE_CMD.COUNT : Field := ⟨.STR_PAGE_CMD, 27, 14⟩
def STR_PAGE_CMD.OWNER : Field := ⟨.STR_PAGE_CMD, 35, 28⟩
def STR_PAGE_CMD.OP : Field := ⟨.STR_PAGE_CMD, 37, 36⟩
def STR_PAGE_CMD.GO : Field := ⟨.STR_PAGE_CMD, 38, 38⟩
def STR_PAGE_CMD.BUSY : Field := ⟨.STR_PAGE_CMD, 39, 39⟩
def STR_PAGE_CMD.ERR : Field := ⟨.STR_PAGE_CMD, 40, 40⟩
def STR_KEY_CMD.BASIN : Field := ⟨.STR_KEY_CMD, 7, 0⟩
def STR_KEY_CMD.OP : Field := ⟨.STR_KEY_CMD, 9, 8⟩
def STR_KEY_CMD.GO : Field := ⟨.STR_KEY_CMD, 10, 10⟩
def STR_KEY_CMD.BUSY : Field := ⟨.STR_KEY_CMD, 11, 11⟩
def STR_KEY_CMD.FULL : Field := ⟨.STR_KEY_CMD, 12, 12⟩
def STR_KEY_CMD.ERR : Field := ⟨.STR_KEY_CMD, 13, 13⟩
def STR_KEY_DATA.DATA : Field := ⟨.STR_KEY_DATA, 63, 0⟩
def STR_SRAM_OWNERg.OWNER : Field := ⟨.STR_SRAM_OWNERg, 7, 0⟩
def STR_SRAM_OWNERg.STATE : Field := ⟨.STR_SRAM_OWNERg, 9, 8⟩
def STR_PAGE_OWNERp.OWNER : Field := ⟨.STR_PAGE_OWNERp, 7, 0⟩
def STR_PAGE_OWNERp.STATE : Field := ⟨.STR_PAGE_OWNERp, 9, 8⟩
def RDP_CORE_STATUS.STATE : Field := ⟨.RDP_CORE_STATUS, 1, 0⟩
def RDP_CORE_STATUS.LANE : Field := ⟨.RDP_CORE_STATUS, 2, 2⟩
def RDP_CORE_STATUS.BASIN : Field := ⟨.RDP_CORE_STATUS, 10, 3⟩
def RDP_CORE_STATUS.LEVEL : Field := ⟨.RDP_CORE_STATUS, 13, 11⟩
def RDP_CORE_STATUS.BANK : Field := ⟨.RDP_CORE_STATUS, 14, 14⟩
def RDP_CORE_STATUS.FENCED : Field := ⟨.RDP_CORE_STATUS, 15, 15⟩
def RDP_CORE_STATUS.SPARE : Field := ⟨.RDP_CORE_STATUS, 16, 16⟩
def RDP_CORE_STATUS.STRAY : Field := ⟨.RDP_CORE_STATUS, 47, 32⟩
def RDP_CORE_STATUS.PEND : Field := ⟨.RDP_CORE_STATUS, 55, 48⟩
def RDP_CORE_IRQ.LVL0 : Field := ⟨.RDP_CORE_IRQ, 2, 0⟩
def RDP_CORE_IRQ.LVL1 : Field := ⟨.RDP_CORE_IRQ, 5, 3⟩
def RDP_CORE_IRQ.LVL2 : Field := ⟨.RDP_CORE_IRQ, 8, 6⟩
def RDP_CORE_IRQ.LVL3 : Field := ⟨.RDP_CORE_IRQ, 11, 9⟩
def RDP_CORE_IRQ.LVL4 : Field := ⟨.RDP_CORE_IRQ, 14, 12⟩
def RDP_CORE_IRQ.LVL5 : Field := ⟨.RDP_CORE_IRQ, 17, 15⟩
def RDP_CORE_IRQ.LVL6 : Field := ⟨.RDP_CORE_IRQ, 20, 18⟩
def RDP_CORE_IRQ.LVL7 : Field := ⟨.RDP_CORE_IRQ, 23, 21⟩
def RDP_CORE_TIMER.T : Field := ⟨.RDP_CORE_TIMER, 63, 0⟩
def RDP_CORE_DBELL.RING : Field := ⟨.RDP_CORE_DBELL, 0, 0⟩
def RDP_CLk_TPROG.EN : Field := ⟨.RDP_CLk_TPROG, 0, 0⟩
def RDP_CLk_TPROG.BASE : Field := ⟨.RDP_CLk_TPROG, 47, 14⟩
def RDP_CLk_TSTAT.MISS : Field := ⟨.RDP_CLk_TSTAT, 15, 0⟩
def RDP_CLk_TSTAT.BAD : Field := ⟨.RDP_CLk_TSTAT, 31, 16⟩
def RDP_CLk_TSTAT.RLATE : Field := ⟨.RDP_CLk_TSTAT, 47, 32⟩
def RDP_CLk_TSTAT.TKILL : Field := ⟨.RDP_CLk_TSTAT, 63, 48⟩
def RDP_SPARE.SUB0 : Field := ⟨.RDP_SPARE, 5, 0⟩
def RDP_SPARE.VALID0 : Field := ⟨.RDP_SPARE, 6, 6⟩
def RDP_SPARE.SUB1 : Field := ⟨.RDP_SPARE, 13, 8⟩
def RDP_SPARE.VALID1 : Field := ⟨.RDP_SPARE, 14, 14⟩
def RDP_CELL_CFGj.ACTIVE : Field := ⟨.RDP_CELL_CFGj, 0, 0⟩
def RDP_CELL_CFGj.EQ : Field := ⟨.RDP_CELL_CFGj, 1, 1⟩
def RDP_CELL_CFGj.NLAYER : Field := ⟨.RDP_CELL_CFGj, 3, 2⟩
def CRC_Uu_CTRL.POLY : Field := ⟨.CRC_Uu_CTRL, 2, 0⟩
def CRC_Uu_CTRL.MODE : Field := ⟨.CRC_Uu_CTRL, 4, 3⟩
def CRC_Uu_CTRL.TAP : Field := ⟨.CRC_Uu_CTRL, 9, 5⟩
def CRC_Uu_CTRL.CORE : Field := ⟨.CRC_Uu_CTRL, 15, 10⟩
def CRC_Uu_CTRL.CH : Field := ⟨.CRC_Uu_CTRL, 17, 16⟩
def CRC_Uu_CTRL.BLOCK : Field := ⟨.CRC_Uu_CTRL, 18, 18⟩
def CRC_Uu_CTRL.CONT : Field := ⟨.CRC_Uu_CTRL, 19, 19⟩
def CRC_Uu_CTRL.ARM : Field := ⟨.CRC_Uu_CTRL, 20, 20⟩
def CRC_Uu_CTRL.BUSY : Field := ⟨.CRC_Uu_CTRL, 21, 21⟩
def CRC_Uu_CTRL.RESULT : Field := ⟨.CRC_Uu_CTRL, 23, 22⟩
def CRC_Uu_CTRL.TAG : Field := ⟨.CRC_Uu_CTRL, 47, 32⟩
def CRC_Uu_INIT.INIT : Field := ⟨.CRC_Uu_INIT, 31, 0⟩
def CRC_Uu_INIT.XOROUT : Field := ⟨.CRC_Uu_INIT, 63, 32⟩
def CRC_Uu_RUN.VALUE : Field := ⟨.CRC_Uu_RUN, 31, 0⟩
def CRC_Uu_RUN.BITS : Field := ⟨.CRC_Uu_RUN, 63, 32⟩
def CRC_Uu_SAFE.DATAID : Field := ⟨.CRC_Uu_SAFE, 15, 0⟩
def CRC_Uu_SAFE.LAST : Field := ⟨.CRC_Uu_SAFE, 23, 16⟩
def CRC_Uu_SAFE.MAXGAP : Field := ⟨.CRC_Uu_SAFE, 27, 24⟩
def CRC_Uu_SAFE.TIMEOUT : Field := ⟨.CRC_Uu_SAFE, 47, 32⟩
def CRC_Uu_SAFE.SKIP : Field := ⟨.CRC_Uu_SAFE, 55, 48⟩
def CRC_Uu_SAFE.ERRCNT : Field := ⟨.CRC_Uu_SAFE, 63, 56⟩
def GFK_Bb_RXRING.BASE : Field := ⟨.GFK_Bb_RXRING, 47, 6⟩
def GFK_Bb_RXRING.LOG2 : Field := ⟨.GFK_Bb_RXRING, 51, 48⟩
def GFK_Bb_TXRING.BASE : Field := ⟨.GFK_Bb_TXRING, 47, 6⟩
def GFK_Bb_TXRING.LOG2 : Field := ⟨.GFK_Bb_TXRING, 51, 48⟩
def GFK_Bb_NOISE.BASE : Field := ⟨.GFK_Bb_NOISE, 47, 6⟩
def GFK_Bb_NOISE.LOG2 : Field := ⟨.GFK_Bb_NOISE, 51, 48⟩
def GFK_Bb_CARc_CFG.EN_RX : Field := ⟨.GFK_Bb_CARc_CFG, 0, 0⟩
def GFK_Bb_CARc_CFG.EN_TX : Field := ⟨.GFK_Bb_CARc_CFG, 1, 1⟩
def GFK_Bb_CARc_CFG.LEVELS : Field := ⟨.GFK_Bb_CARc_CFG, 2, 2⟩
def GFK_Bb_CARc_CFG.BT : Field := ⟨.GFK_Bb_CARc_CFG, 3, 3⟩
def GFK_Bb_CARc_CFG.H : Field := ⟨.GFK_Bb_CARc_CFG, 10, 4⟩
def GFK_Bb_CARc_CFG.RATE : Field := ⟨.GFK_Bb_CARc_CFG, 29, 11⟩
def GFK_Bb_CARc_CFG.KEEPBAD : Field := ⟨.GFK_Bb_CARc_CFG, 30, 30⟩
def GFK_Bb_CARc_CFG.SYNC_ERR : Field := ⟨.GFK_Bb_CARc_CFG, 32, 31⟩
def GFK_Bb_CARc_CFG.PRE : Field := ⟨.GFK_Bb_CARc_CFG, 36, 33⟩
def GFK_Bb_CARc_SYNC.SYNC : Field := ⟨.GFK_Bb_CARc_SYNC, 31, 0⟩
def GFK_Bb_CARc_CNT.RX_OK : Field := ⟨.GFK_Bb_CARc_CNT, 15, 0⟩
def GFK_Bb_CARc_CNT.RX_BAD : Field := ⟨.GFK_Bb_CARc_CNT, 31, 16⟩
def GFK_Bb_CARc_CNT.RX_DROP : Field := ⟨.GFK_Bb_CARc_CNT, 47, 32⟩
def GFK_Bb_CARc_CNT.TX_LATE : Field := ⟨.GFK_Bb_CARc_CNT, 63, 48⟩
def FHL_Pp_CTRL.EN : Field := ⟨.FHL_Pp_CTRL, 0, 0⟩
def FHL_Pp_CTRL.PVID : Field := ⟨.FHL_Pp_CTRL, 12, 1⟩
def FHL_Pp_STATUS.LINK : Field := ⟨.FHL_Pp_STATUS, 0, 0⟩
def FHL_Pp_STATUS.FEC_LOCK : Field := ⟨.FHL_Pp_STATUS, 1, 1⟩
def FHL_Pp_STATUS.FENCED : Field := ⟨.FHL_Pp_STATUS, 2, 2⟩
def FHL_Pp_MAC.ADDR : Field := ⟨.FHL_Pp_MAC, 47, 0⟩
def FHL_Pp_POLMAP.POL0 : Field := ⟨.FHL_Pp_POLMAP, 5, 0⟩
def FHL_Pp_POLMAP.POL1 : Field := ⟨.FHL_Pp_POLMAP, 13, 8⟩
def FHL_Pp_POLMAP.POL2 : Field := ⟨.FHL_Pp_POLMAP, 21, 16⟩
def FHL_Pp_POLMAP.POL3 : Field := ⟨.FHL_Pp_POLMAP, 29, 24⟩
def FHL_Pp_POLMAP.POL4 : Field := ⟨.FHL_Pp_POLMAP, 37, 32⟩
def FHL_Pp_POLMAP.POL5 : Field := ⟨.FHL_Pp_POLMAP, 45, 40⟩
def FHL_Pp_POLMAP.POL6 : Field := ⟨.FHL_Pp_POLMAP, 53, 48⟩
def FHL_Pp_POLMAP.POL7 : Field := ⟨.FHL_Pp_POLMAP, 61, 56⟩
def FHL_Pp_POLMAP.EN0 : Field := ⟨.FHL_Pp_POLMAP, 6, 6⟩
def FHL_Pp_POLMAP.EN1 : Field := ⟨.FHL_Pp_POLMAP, 14, 14⟩
def FHL_Pp_POLMAP.EN2 : Field := ⟨.FHL_Pp_POLMAP, 22, 22⟩
def FHL_Pp_POLMAP.EN3 : Field := ⟨.FHL_Pp_POLMAP, 30, 30⟩
def FHL_Pp_POLMAP.EN4 : Field := ⟨.FHL_Pp_POLMAP, 38, 38⟩
def FHL_Pp_POLMAP.EN5 : Field := ⟨.FHL_Pp_POLMAP, 46, 46⟩
def FHL_Pp_POLMAP.EN6 : Field := ⟨.FHL_Pp_POLMAP, 54, 54⟩
def FHL_Pp_POLMAP.EN7 : Field := ⟨.FHL_Pp_POLMAP, 62, 62⟩
def FHL_Pp_SHq.RATE : Field := ⟨.FHL_Pp_SHq, 18, 0⟩
def FHL_Pp_SHq.EN : Field := ⟨.FHL_Pp_SHq, 19, 19⟩
def FHL_Pp_SHq.BURST : Field := ⟨.FHL_Pp_SHq, 43, 20⟩
def FHL_Pp_CNT.WORD : Field := ⟨.FHL_Pp_CNT, 63, 0⟩
def FHL_SW_CTRL.AGE : Field := ⟨.FHL_SW_CTRL, 11, 0⟩
def FHL_SW_CTRL.LEARN_EN : Field := ⟨.FHL_SW_CTRL, 12, 12⟩
def FHL_SW_STATUS.USED : Field := ⟨.FHL_SW_STATUS, 14, 0⟩
def FHL_SW_STATUS.FULL : Field := ⟨.FHL_SW_STATUS, 15, 15⟩
def FHL_SW_STATUS.CONTEST : Field := ⟨.FHL_SW_STATUS, 31, 16⟩
def FHL_SW_STATUS.LEARN_FULL : Field := ⟨.FHL_SW_STATUS, 47, 32⟩
def FHL_SW_STATUS.FLOW_DUP : Field := ⟨.FHL_SW_STATUS, 48, 48⟩
def FHL_SW_STATUS.FLOW_ERR : Field := ⟨.FHL_SW_STATUS, 49, 49⟩
def FHL_MAC_KEY.ADDR : Field := ⟨.FHL_MAC_KEY, 47, 0⟩
def FHL_MAC_KEY.VID : Field := ⟨.FHL_MAC_KEY, 59, 48⟩
def FHL_MAC_KEY.PORT : Field := ⟨.FHL_MAC_KEY, 62, 60⟩
def FHL_MAC_OP.OP : Field := ⟨.FHL_MAC_OP, 2, 0⟩
def FHL_MAC_OP.GO : Field := ⟨.FHL_MAC_OP, 3, 3⟩
def FHL_MAC_OP.BUSY : Field := ⟨.FHL_MAC_OP, 4, 4⟩
def FHL_MAC_OP.ERR : Field := ⟨.FHL_MAC_OP, 5, 5⟩
def FHL_MAC_OP.FOUND : Field := ⟨.FHL_MAC_OP, 6, 6⟩
def FHL_MAC_OP.PINNED : Field := ⟨.FHL_MAC_OP, 7, 7⟩
def FHL_POLi.EN : Field := ⟨.FHL_POLi, 0, 0⟩
def FHL_POLi.MODE : Field := ⟨.FHL_POLi, 1, 1⟩
def FHL_POLi.AWARE : Field := ⟨.FHL_POLi, 2, 2⟩
def FHL_POLi.YDROP : Field := ⟨.FHL_POLi, 3, 3⟩
def FHL_POLi.CIR : Field := ⟨.FHL_POLi, 50, 32⟩
def FHL_POLi.PIR : Field := ⟨.FHL_POLi, 82, 64⟩
def FHL_POLi.CBS : Field := ⟨.FHL_POLi, 119, 96⟩
def FHL_POLi.EPBS : Field := ⟨.FHL_POLi, 151, 128⟩
def FHL_POLi.GREEN : Field := ⟨.FHL_POLi, 191, 160⟩
def FHL_POLi.YELLOW : Field := ⟨.FHL_POLi, 223, 192⟩
def FHL_POLi.RED : Field := ⟨.FHL_POLi, 255, 224⟩
def FHL_VLANv.MEMBER : Field := ⟨.FHL_VLANv, 4, 0⟩
def FHL_VLANv.UNTAG : Field := ⟨.FHL_VLANv, 9, 5⟩
def FHL_FCNTf.OK : Field := ⟨.FHL_FCNTf, 31, 0⟩
def FHL_FCNTf.EARLY_NRDY : Field := ⟨.FHL_FCNTf, 47, 32⟩
def FHL_FCNTf.LATE_POIS : Field := ⟨.FHL_FCNTf, 63, 48⟩
def FHL_FCNTf.SEQERR : Field := ⟨.FHL_FCNTf, 79, 64⟩
def FHL_FCNTf.BADHDR : Field := ⟨.FHL_FCNTf, 95, 80⟩
def FHL_FCNTf.ZEROPRB : Field := ⟨.FHL_FCNTf, 111, 96⟩
def FHL_FLOWf.EAXC : Field := ⟨.FHL_FLOWf, 15, 0⟩
def FHL_FLOWf.VALID : Field := ⟨.FHL_FLOWf, 16, 16⟩
def FHL_FLOWf.DIR : Field := ⟨.FHL_FLOWf, 17, 17⟩
def FHL_FLOWf.KIND : Field := ⟨.FHL_FLOWf, 19, 18⟩
def FHL_FLOWf.PORT : Field := ⟨.FHL_FLOWf, 21, 20⟩
def FHL_FLOWf.RD : Field := ⟨.FHL_FLOWf, 23, 22⟩
def FHL_FLOWf.MU : Field := ⟨.FHL_FLOWf, 25, 24⟩
def FHL_FLOWf.IQW : Field := ⟨.FHL_FLOWf, 27, 26⟩
def FHL_FLOWf.NSYM : Field := ⟨.FHL_FLOWf, 31, 28⟩
def FHL_FLOWf.VID : Field := ⟨.FHL_FLOWf, 43, 32⟩
def FHL_FLOWf.PCP : Field := ⟨.FHL_FLOWf, 46, 44⟩
def FHL_FLOWf.RUMAC : Field := ⟨.FHL_FLOWf, 95, 48⟩
def FHL_FLOWf.T1 : Field := ⟨.FHL_FLOWf, 127, 96⟩
def FHL_FLOWf.T2 : Field := ⟨.FHL_FLOWf, 159, 128⟩
def FHL_FLOWf.BUF : Field := ⟨.FHL_FLOWf, 184, 160⟩
def FHL_FLOWf.NPRB : Field := ⟨.FHL_FLOWf, 200, 192⟩
def FHL_FLOWf.MAXPRB : Field := ⟨.FHL_FLOWf, 209, 201⟩
def PKG_NETQ_RX.EN : Field := ⟨.PKG_NETQ_RX, 0, 0⟩
def PKG_NETQ_RX.BASE : Field := ⟨.PKG_NETQ_RX, 47, 6⟩
def PKG_NETQ_RX.LOG2 : Field := ⟨.PKG_NETQ_RX, 51, 48⟩
def PKG_NETQ_RX.HC : Field := ⟨.PKG_NETQ_RX, 57, 52⟩
def PKG_NETQ_TX.EN : Field := ⟨.PKG_NETQ_TX, 0, 0⟩
def PKG_NETQ_TX.BASE : Field := ⟨.PKG_NETQ_TX, 47, 6⟩
def PKG_NETQ_TX.LOG2 : Field := ⟨.PKG_NETQ_TX, 51, 48⟩
def PKG_NETQ_TX.HC : Field := ⟨.PKG_NETQ_TX, 57, 52⟩
def FAB_ID.PIDX : Field := ⟨.FAB_ID, 8, 0⟩
def FAB_ID.PVALID : Field := ⟨.FAB_ID, 9, 9⟩
def FAB_ID.SYSID : Field := ⟨.FAB_ID, 22, 10⟩
def FAB_ID.SVALID : Field := ⟨.FAB_ID, 23, 23⟩
def FAB_CTRL.EN : Field := ⟨.FAB_CTRL, 0, 0⟩
def FAB_CTRL.NATIVE : Field := ⟨.FAB_CTRL, 2, 1⟩
def FAB_CTRL.TMO : Field := ⟨.FAB_CTRL, 13, 8⟩
def FAB_CTRL.MC_RTO : Field := ⟨.FAB_CTRL, 19, 14⟩
def FAB_CTRL.BAR_TMO : Field := ⟨.FAB_CTRL, 31, 20⟩
def FAB_HOPC.LC : Field := ⟨.FAB_HOPC, 11, 0⟩
def FAB_HOPC.BUDGET : Field := ⟨.FAB_HOPC, 31, 16⟩
def FAB_TEARDOWN.JOB : Field := ⟨.FAB_TEARDOWN, 31, 0⟩
def FAB_TEARDOWN.OP : Field := ⟨.FAB_TEARDOWN, 32, 32⟩
def FAB_TEARDOWN.GO : Field := ⟨.FAB_TEARDOWN, 33, 33⟩
def FAB_TEARDOWN.BUSY : Field := ⟨.FAB_TEARDOWN, 34, 34⟩
def FAB_TEARDOWN.ERR : Field := ⟨.FAB_TEARDOWN, 35, 35⟩
def FAB_TEARDOWN.USED : Field := ⟨.FAB_TEARDOWN, 42, 36⟩
def FAB_DEAD.JOB : Field := ⟨.FAB_DEAD, 31, 0⟩
def FAB_DEAD.SYSID : Field := ⟨.FAB_DEAD, 44, 32⟩
def FAB_DEAD.FMODE : Field := ⟨.FAB_DEAD, 45, 45⟩
def FAB_DEAD.HELD : Field := ⟨.FAB_DEAD, 46, 46⟩
def FAB_DEAD.COUNT : Field := ⟨.FAB_DEAD, 63, 48⟩
def FAB_BAR_BASE.EN : Field := ⟨.FAB_BAR_BASE, 0, 0⟩
def FAB_BAR_BASE.BASE : Field := ⟨.FAB_BAR_BASE, 47, 21⟩
def FAB_CNT.LATE_REPLY : Field := ⟨.FAB_CNT, 15, 0⟩
def FAB_CNT.MISROUTE : Field := ⟨.FAB_CNT, 31, 16⟩
def FAB_CNT.STALE : Field := ⟨.FAB_CNT, 47, 32⟩
def FAB_CNT.BAR_LATE : Field := ⟨.FAB_CNT, 63, 48⟩
def FAB_MEMB.EPOCH : Field := ⟨.FAB_MEMB, 31, 0⟩
def FAB_MEMB.ESEQ : Field := ⟨.FAB_MEMB, 47, 32⟩
def FAB_MEMB.SETTLED : Field := ⟨.FAB_MEMB, 48, 48⟩
def FAB_MEMB.VDISC : Field := ⟨.FAB_MEMB, 63, 56⟩
def FAB_QUORUM.NMGR : Field := ⟨.FAB_QUORUM, 2, 0⟩
def FAB_QUORUM.MGR0 : Field := ⟨.FAB_QUORUM, 16, 8⟩
def FAB_QUORUM.MGR1 : Field := ⟨.FAB_QUORUM, 25, 17⟩
def FAB_QUORUM.MGR2 : Field := ⟨.FAB_QUORUM, 34, 26⟩
def FAB_QUORUM.MGR3 : Field := ⟨.FAB_QUORUM, 43, 35⟩
def FAB_QUORUM.MGR4 : Field := ⟨.FAB_QUORUM, 52, 44⟩
def FAB_VOTE.TARGET : Field := ⟨.FAB_VOTE, 8, 0⟩
def FAB_VOTE.NUM : Field := ⟨.FAB_VOTE, 24, 9⟩
def FAB_VOTE.GO : Field := ⟨.FAB_VOTE, 25, 25⟩
def FAB_VOTE.ERR : Field := ⟨.FAB_VOTE, 26, 26⟩
def FAB_EXPELw.EXP : Field := ⟨.FAB_EXPELw, 63, 0⟩
def FAB_FTIDb.FTID : Field := ⟨.FAB_FTIDb, 15, 0⟩
def FAB_FTIDb.EN : Field := ⟨.FAB_FTIDb, 16, 16⟩
def FAB_MCGg.EP : Field := ⟨.FAB_MCGg, 24, 0⟩
def FAB_MCGg.VALID : Field := ⟨.FAB_MCGg, 25, 25⟩
def FAB_ROUTEi.VALID : Field := ⟨.FAB_ROUTEi, 0, 0⟩
def FAB_ROUTEi.CLASS : Field := ⟨.FAB_ROUTEi, 2, 1⟩
def FAB_ROUTEi.DEAD : Field := ⟨.FAB_ROUTEi, 3, 3⟩
def FAB_ROUTEi.NLINK : Field := ⟨.FAB_ROUTEi, 6, 4⟩
def FAB_ROUTEi.LINKk : Field := ⟨.FAB_ROUTEi, 55, 8⟩
def FAB_ROUTEi.LVL : Field := ⟨.FAB_ROUTEi, 59, 56⟩
def FAB_PODRTp.VALID : Field := ⟨.FAB_PODRTp, 0, 0⟩
def FAB_PODRTp.CLASS : Field := ⟨.FAB_PODRTp, 2, 1⟩
def FAB_PODRTp.DEAD : Field := ⟨.FAB_PODRTp, 3, 3⟩
def FAB_PODRTp.NLINK : Field := ⟨.FAB_PODRTp, 6, 4⟩
def FAB_PODRTp.LINKk : Field := ⟨.FAB_PODRTp, 55, 8⟩
def FAB_PODRTp.LVL : Field := ⟨.FAB_PODRTp, 59, 56⟩
def FAB_MQn.EN : Field := ⟨.FAB_MQn, 0, 0⟩
def FAB_MQn.OWNER : Field := ⟨.FAB_MQn, 8, 1⟩
def FAB_MQn.LOG2 : Field := ⟨.FAB_MQn, 12, 9⟩
def FAB_MQn.SLOT : Field := ⟨.FAB_MQn, 16, 13⟩
def FAB_MQn.BUSYCNT : Field := ⟨.FAB_MQn, 47, 32⟩
def FAB_MQn.BASE : Field := ⟨.FAB_MQn, 111, 64⟩
def FAB_Ll_CTRL.EN : Field := ⟨.FAB_Ll_CTRL, 0, 0⟩
def FAB_Ll_CTRL.RETRAIN : Field := ⟨.FAB_Ll_CTRL, 1, 1⟩
def FAB_Ll_STATUS.STATE : Field := ⟨.FAB_Ll_STATUS, 2, 0⟩
def FAB_Ll_STATUS.LVL : Field := ⟨.FAB_Ll_STATUS, 6, 3⟩
def FAB_Ll_STATUS.PARTNER : Field := ⟨.FAB_Ll_STATUS, 20, 8⟩
def FAB_Ll_STATUS.PLINK : Field := ⟨.FAB_Ll_STATUS, 25, 21⟩
def FAB_Ll_STATUS.LM : Field := ⟨.FAB_Ll_STATUS, 43, 32⟩
def FAB_Ll_CNT.CRCERR : Field := ⟨.FAB_Ll_CNT, 15, 0⟩
def FAB_Ll_CNT.REPLAY : Field := ⟨.FAB_Ll_CNT, 31, 16⟩
def FAB_Ll_CNT.DOWNS : Field := ⟨.FAB_Ll_CNT, 47, 32⟩
def FAB_Ll_CNT.FECCORR : Field := ⟨.FAB_Ll_CNT, 63, 48⟩
def FAB_Ll_DTR.VALID : Field := ⟨.FAB_Ll_DTR, 0, 0⟩
def FAB_Ll_DTR.NDTR : Field := ⟨.FAB_Ll_DTR, 2, 1⟩
def FAB_Ll_DTR.DLINK0 : Field := ⟨.FAB_Ll_DTR, 8, 3⟩
def FAB_Ll_DTR.DLINK1 : Field := ⟨.FAB_Ll_DTR, 14, 9⟩
def FAB_Ll_DTR.DLINK2 : Field := ⟨.FAB_Ll_DTR, 20, 15⟩
def FAB_Ll_DTR.DLINK3 : Field := ⟨.FAB_Ll_DTR, 26, 21⟩
def FAB_Ll_DTR.INUSE : Field := ⟨.FAB_Ll_DTR, 27, 27⟩
def HS_TIMECMP.VALUE : Field := ⟨.HS_TIMECMP, 63, 0⟩
def HS_IP.VALUE : Field := ⟨.HS_IP, 7, 0⟩
def HS_IE.VALUE : Field := ⟨.HS_IE, 7, 0⟩
def HS_TVAL.VALUE : Field := ⟨.HS_TVAL, 63, 0⟩
def HS_EVSRV.SOURCE : Field := ⟨.HS_EVSRV, 11, 0⟩
def HS_EVSRV.VALID : Field := ⟨.HS_EVSRV, 31, 31⟩
def HS_EVDATA.VALUE : Field := ⟨.HS_EVDATA, 63, 0⟩
def MSIX_PF.ADDR : Field := ⟨.MSIX_PF, 63, 0⟩
def MSIX_PF.DATA : Field := ⟨.MSIX_PF, 95, 64⟩
def MSIX_PF.MASK : Field := ⟨.MSIX_PF, 96, 96⟩
def MSIX_PBA.PEND : Field := ⟨.MSIX_PBA, 1, 0⟩
def MSIX_VF.ADDR : Field := ⟨.MSIX_VF, 63, 0⟩
def MSIX_VF.DATA : Field := ⟨.MSIX_VF, 95, 64⟩
def MSIX_VF.MASK : Field := ⟨.MSIX_VF, 96, 96⟩
def MSIX_VFPBA.PEND : Field := ⟨.MSIX_VFPBA, 3, 0⟩
def CFG_SRIOV.VFE : Field := ⟨.CFG_SRIOV, 0, 0⟩
def CFG_SRIOV.NUMVFS : Field := ⟨.CFG_SRIOV, 16, 1⟩
def CFG_ATS.EN : Field := ⟨.CFG_ATS, 0, 0⟩

end Sys2Proof.Machine.F
end

