-- ==== Sys2Proof/Machine/Types.lean ====
section
/-! DEFINITION. The kinds of state the device holds outside its registers: one type for each unit. Every register bit
stands in the register map of State; a type here never repeats one. -/

namespace Sys2Proof.Machine

/-- An upper half latched by a read of the lower half (R11), or TMB_NOW_FRAC latched by a read of TMB_NOW (R41). -/
structure Latch where
  req : Req
  key : Nat
  val : Nat
  deriving DecidableEq, Repr

/-- A lower half held by a write (R461). -/
structure Held where
  req : Req
  key : Nat
  val : Nat
  deriving DecidableEq, Repr

/-- What the device sends out of itself. -/
inductive OutEv where
  /-- An MSI-X message: function (none for the PF), port, vector (R417, Table 7-1). -/
  | msix (fn : Option Nat) (port vec : Nat)
  /-- A write TLP to host memory (R415): requester function (none for the PF), port, address, bytes, EP bit. -/
  | hostWrite (fn : Option Nat) (port addr : Nat) (data : List Byte) (ep : Bool)
  /-- A BAR2 or mailbox completion with the EP bit (Table 5-4). -/
  | poisonedCpl (port : Nat)
  /-- A fabric packet sent on a link (R311, R318). -/
  | packet (link : Nat) (p : Packet)
  /-- A replay requested of a link's partner, from this flit on (R303). -/
  | replay (link seq : Nat)
  /-- A fronthaul frame sent on a port (R283, R293). -/
  | frame (port : Nat) (f : Frame)
  /-- A GFSK frame sent: carrier of the device, counter time of its first preamble symbol, symbol rate, h × 64, BT 0.3, and its
  symbols in units of h × symbol rate ÷ 2 (R262, R263, R266). -/
  | gfsk (car start rate h : Nat) (bt : Bool) (symbols : List Int)
  /-- The level TRIG_OUTn is driven to from now on (R57, R59). -/
  | trig (n : Nat) (high : Bool)
  /-- An I3C in-band interrupt with its mandatory byte (R440). -/
  | ibi (b : Nat)
  /-- An ATS invalidation completion (R415): port, function, first page. -/
  | atsDone (port fn page : Nat)
  /-- A management packet of the lock-step kinds to the pair's partner (Table 13-6). -/
  | mgmt (p : Packet)
  deriving DecidableEq, Repr

/-- The replica's copy of the timebase (R61). -/
structure Replica where
  now : Nat := 0
  frac : Nat := 0
  /-- Its TMB_INCR: every write to a timebase register is applied to both copies. -/
  incr : Nat := 0x666666666
  /-- Its waiting step (R40). -/
  stepPend : Option Nat := none
  /-- Its boundary of the pending period change (R52). -/
  chgAt : Option Nat := none
  tick : Nat := 0
  /-- What the comparison of this reference period found: the counters or the tick numbers differ. -/
  differs : Bool := false
  /-- What it found for the pending changes; nothing is said to follow from it. -/
  pendDiffers : Bool := false
  deriving DecidableEq, Repr

/-- The timebase beside its registers (R36 to R45, R61 to R64). -/
structure Timebase where
  /-- Reference periods since power-up. -/
  clk : Nat := 0
  /-- Increment in force, 8.32 (R39). -/
  incr : Nat := 0x666666666
  /-- A step waiting for the next reference period, modulo 2^64 (R40). -/
  stepPend : Option Nat := none
  /-- Time of the last accepted 1PPS edge, or of power-up, in units of 0.8 ns (R42, R44). -/
  edgeU : Nat := 0
  /-- An edge has been accepted since power-up. -/
  edgeSeen : Bool := false
  /-- The second that a valid message gave the last accepted edge; each later second lies 1 s further (R43). -/
  edgeSec : Option Nat := none
  /-- Consecutive edges with |offset| ≤ 100 ns (Table 2-1). -/
  goodEdges : Nat := 0
  /-- The replica holds the master role (R62). -/
  onReplica : Bool := false
  replica : Replica := {}
  /-- Whole seconds reached by counting whose STORE_BS has yet to accrue (R194). -/
  secs : Nat := 0
  /-- Reference period at which the reference was lost (R64, R373). -/
  lossClk : Nat := 0
  /-- Reference period of the last loss seen while REF_LOSS is 1 (R64). -/
  lastLoss : Nat := 0
  deriving DecidableEq, Repr

/-- One TRIG_OUT beside its registers (R57, R58). Times in units of 0.1 ns. -/
structure Trig where
  /-- The next active edge. -/
  next : Option Nat := none
  /-- A cancelled edge of the running reference period, whose pulse is still output in full (R58). -/
  kept : Option Nat := none
  /-- The end of the pulse being output. -/
  pulseEnd : Option Nat := none
  /-- Reference period of the last active edge (R58). -/
  edgeClk : Nat := 0
  deriving DecidableEq, Repr

/-- The tick generator beside its registers (R46 to R55). Times in counter ns. -/
structure Geyser where
  /-- The next tick while the generator runs or waits for its first tick (R51). -/
  next : Option Nat := none
  /-- The boundary at which the generator stops (R51). -/
  stopAt : Option Nat := none
  /-- The boundary at which the pending period change applies (R52). -/
  chgAt : Option Nat := none
  /-- The margin in force, units of 100 ns (R55). -/
  margin : Nat := 300
  /-- A margin written and not yet applied: true once a tick has come since the write (R55). -/
  marginPend : Option Bool := none
  /-- Counter time of the last tick (R231, tickwait). -/
  last : Nat := 0
  /-- Reference period of the last tick (R245). -/
  lastClk : Nat := 0
  /-- The next tick is the first one after RUN (R372). -/
  fresh : Bool := true
  /-- Array time at which the running frame began, in units of 1/625 cycle. -/
  frame0 : Nat := 0
  /-- Array time since power-up at the nominal clock, in units of 1/625 cycle (R49). -/
  arr : Nat := 0
  /-- A write of GEY_TICK_SET waits for its first tick (R347, R372). -/
  tickSet : Bool := false
  deriving DecidableEq, Repr

/-- What an event source captured (R427, Tables 14-6 and 14-7). -/
structure EvCap where
  basin : Nat := 0
  gen : Nat := 0
  mech : Nat := 0
  level : Nat := 0
  jrnl : Bool := false
  data : Nat := 0
  ext : Bool := false
  xdata : Nat := 0
  xdata1 : Nat := 0
  time : Option Nat := none
  deriving DecidableEq, Repr

/-- A fence: its unit, the level that set it (0 tile to 3 package), and its kind (R23, R405). -/
structure Fence where
  unit : FUnit
  lvl : Nat
  perm : Bool := false
  test : Bool := false
  deriving DecidableEq, Repr

/-- A journal record Caldera has yet to write (R382). -/
structure JrnlRec where
  kind : Nat
  level : Nat
  backup : Bool := false
  perm : Bool := false
  src : Nat
  time : Nat
  data : Nat
  tick : Nat
  deriving DecidableEq, Repr

/-- A past detection on a unit, kept for the 1 s windows of R362 to R364 and Table 12-3. -/
structure Miss where
  mech : Nat
  src : Nat
  clk : Nat
  deriving DecidableEq, Repr

/-- Fault handling and management beside its registers. -/
structure Handling where
  fences : List Fence := []
  /-- Dies whose routers the routes in force avoid (R16, R17), as top-layer die indices. -/
  routes : List Nat := []
  /-- A route change waits for the next tick boundary (R17). -/
  routeChg : Bool := false
  jrnl : List JrnlRec := []
  /-- Records still to be presented before BSN_CMD accepts GO, and whether presentation runs (R386). -/
  presenting : Bool := false
  misses : List Miss := []
  /-- Caldera is stopped since this reference period (R26). -/
  caldera : Option Nat := none
  /-- Escalations waiting in the region controllers while Caldera is stopped (R26). -/
  waiting : List Fence := []
  /-- Reference periods of the last Caldera stops (R392). -/
  stops : List Nat := []
  /-- Faults that have recommended a warm reset, and those for which one has been made, with its reference period, as
  (source, mechanism, DATA) of their event records (Table 13-2, rung 4). -/
  asked : List (Nat × Nat × Nat) := []
  renewed : List ((Nat × Nat × Nat) × Nat) := []
  /-- Sends stopped by the island watchdog (R376). -/
  wdtStop : Bool := false
  /-- Reference period of the last watchdog service (R376). -/
  wdtClk : Nat := 0
  /-- Reference period of the last heartbeat of each die (R375). -/
  hb : SMap Nat := []
  /-- Successive failures of the flit last resent over a hop of each die (R365). -/
  hops : SMap Nat := []
  /-- Number and time of the last tick each die received (R372). -/
  tickFaults : SMap Nat := []
  /-- Digest, plus 1, of the last run on each test-fenced unit (by SRC) where it passed since the fence (R408). -/
  tests : SMap Nat := []
  /-- Units released from a test fence, which take work from the next tick (R408). -/
  returning : List FUnit := []
  /-- The running test's BUDGET, DKEY and OUTLEN (Table 13-7). -/
  testBudget : Nat := 0
  testKey : Nat := 0
  testLen : Nat := 0
  deriving DecidableEq, Repr

/-- Power, boot and management pins (R433 to R460). -/
structure Power where
  /-- VDD_AON is in range (R433, R385). -/
  aon : Bool := true
  /-- Deglitched power-good inputs of steps 1 to 8 (Table 15-3), bit step − 1. -/
  pg : Nat := 0
  /-- Reference period at which each PG rose. -/
  pgClk : SMap Nat := []
  /-- Main rails good (R444). -/
  mainGood : Bool := false
  /-- The island runs from the backup cell (R384). -/
  backup : Bool := false
  /-- BKP_ACTIVE input (R459). -/
  bkp : Bool := false
  /-- Die groups released from reset (R447). -/
  released : Nat := 0
  /-- A warm reset is in progress (R435). -/
  warm : Bool := false
  /-- Reference period of firmware entry (R436). -/
  entryClk : Option Nat := none
  /-- The firmware entry offset of the image in each slot (Table 14-10). -/
  entry : SMap Nat := []
  /-- Die triggers seen since the last throttle step (R453), and the reference period of the last trigger. -/
  trigClk : SMap Nat := []
  stepTick : SMap Nat := []
  /-- Clock-gated arrays (4g + a) and DSP cores (256-based on 1024). -/
  gated : List Nat := []
  /-- Reference period of the last window of the package power (R449). -/
  windowClk : Nat := 0
  /-- Power of each matrix die in W over the 100 µs before its last tick (R450, R453). -/
  dieW : SMap Nat := []
  /-- I3C: dynamic address, index, interrupt enables (R440, R441). -/
  i3cAddr : Nat := 0
  i3cIdx : Nat := 0
  i3cIbi : Bool := true
  i3cRst : Nat := 0
  deriving DecidableEq, Repr

/-- A queue entry (Table 4-6), and where it came from: its flattened queue index and its ring index. -/
structure Cmd where
  tag : Nat := 0
  gen : Nat := 0
  passPoison : Bool := false
  evreq : Bool := false
  fmode : Bool := false
  ninstr : Nat := 0
  prog : Nat := 0
  budget : Nat := 0
  sntq : Nat := 0
  job : Nat := 0
  args : List Nat := []
  q : Nat := 0
  kills : Nat := 0
  /-- The command has been killed by a tick once (Table 4-8, R53). -/
  tickKilled : Bool := false
  /-- Order of its first dispatch (R187). -/
  order : Nat := 0
  deriving DecidableEq, Repr

/-- One effect a command has staged (R136, R140). -/
inductive Staged where
  /-- Bytes to memory at a local address, with their poison. -/
  | store (addr : Nat) (data : List Byte) (poison : Bool)
  | fstore (addr : Nat) (data : List Byte) (poison : Bool)
  /-- Function 0 add, 1 min, 2 max, 3 cas; operand, new value of cas, local return address (R146). -/
  | fatom (fn : Nat) (sgn : Bool) (addr op new ret : Nat) (poison : Bool)
  /-- A message with the poison of each 64-byte payload line. -/
  | fsend (dev queue : Nat) (data : List Byte) (poison : List Bool)
  | fbar (b sem : Nat)
  | signal (core sem cnt : Nat)
  deriving DecidableEq, Repr

/-- Why a context is blocked (Table 4-12, BLOCK). -/
inductive Blk where
  | none
  /-- A local read of `n` bytes at `addr` into register `rd`, with FN of ld; 32 bytes for sdld. -/
  | load (addr n rd fn : Nat)
  /-- A vector load of the stream of a descriptor register. -/
  | vload (rd sd : Nat)
  /-- A remote read under transaction tag (R145). -/
  | fload (tag rd fn : Nat)
  | wait (sem cnt : Nat)
  | tickwait (cyc : Nat)
  | swait (sd : Nat)
  /-- commit with its user status. -/
  | commit (user : Nat)
  | frecv (queue sd : Nat)
  deriving DecidableEq, Repr

/-- What the passes of an astream need beside their data (R123). -/
structure PassMode where
  mode : Nat := 0
  fa : Nat := 0
  fw : Nat := 0
  mx : Bool := false
  conj : Bool := false
  accExp : Int := 0
  kv : Nat := 0
  /-- Valid columns of the stream (R91). -/
  nv : Nat := 512
  deriving DecidableEq, Repr

/-- A stream a command runs: the descriptor register it uses (8 where none) and the instruction that runs it. -/
structure Stream where
  sd : Nat
  op : Nat
  deriving DecidableEq, Repr

/-- One hardware context holding a command (R106, R109). Registers s0 to s31 and a0 to a15 stand in `r` under their
specifiers 0 to 47 (R112). -/
structure Ctx where
  cmd : Cmd := {}
  basin : Nat := 0
  pc : Nat := 0
  r : SMap Nat := []
  rp : SMap Bool := []
  sd : SMap Nat := []
  v : SMap (List Nat) := []
  vp : SMap (List Bool) := []
  prog : List Nat := []
  blk : Blk := .none
  /-- The first instruction may not issue before this array time (R130, R178), units of 1/625 cycle. -/
  notBefore : Nat := 0
  /-- Array time of the dispatch (R131). -/
  t0 : Nat := 0
  /-- Order of this dispatch among the contexts of the core (R138, R143). -/
  seq : Nat := 0
  /-- Arrays in service at dispatch (R194). -/
  arrays : Nat := 4
  staged : List Staged := []
  /-- Semaphores reserved: number and count (R143). -/
  rsv : List (Nat × Nat) := []
  /-- Messages reserved: local queue and the message's count (R146). -/
  msgs : List (Nat × Nat) := []
  streams : List Stream := []
  /-- Digest slots the command folds into (R353): pending sum, count and poison. -/
  digs : SMap (Nat × Nat × Bool) := []
  deriving DecidableEq, Repr

/-- A weight tile: its format, its bytes in logical row order, the offsets of its poisoned bytes (R67), and the 3-bit residue kept
beside each weight (R65, R92). -/
structure Plane where
  fmt : Nat := 0
  mx : Bool := false
  data : List Byte := []
  poison : List Nat := []
  res : List Nat := []
  deriving DecidableEq, Repr

/-- A pass in flight in an array (R66). -/
structure Pass where
  /-- Dispatch order of the command it belongs to. -/
  seq : Nat
  ctx : Nat
  pm : PassMode
  plane : Nat
  entry : Nat
  data : List Byte
  /-- Offsets of the poisoned bytes of the activation vector (R100). -/
  poison : List Nat
  init : Bool
  masked : Bool
  retried : Bool := false
  /-- Array time at which it issues: passes of a stream issue one after another (R124). -/
  t : Nat := 0
  deriving DecidableEq, Repr

/-- One accumulator of an entry (Table 3-4): SUM, or the FP32 code in the BF16 and FP16 path, its residue RES as the residue adders
form it (R92, R93), and its flags. -/
structure Accum where
  sum : Int := 0
  res : Nat := 0
  inexact : Bool := false
  range : Bool := false
  nan : Bool := false
  poison : Bool := false
  empty : Bool := false
  deriving DecidableEq, Repr

/-- One accumulator entry: its columns (absent ones hold the start value), passes since initialisation, and the mark
of R91. -/
structure Entry where
  cols : List Accum := []
  passes : Nat := 0
  mark : Bool := false
  /-- Array mode the entry was initialised or last passed in (Table 3-6), and the operands of its last pass (R75). -/
  mode : Nat := 0
  pm : Option PassMode := none
  deriving DecidableEq, Repr

/-- A command past its commit point whose lines drain (R140). -/
structure Drain where
  seq : Nat
  cmd : Cmd
  basin : Nat
  gen : Nat
  user : Nat := 0
  cycles : Nat := 0
  tick : Nat := 0
  arrays : Nat := 4
  units : Nat := 0
  staged : List Staged := []
  /-- Transaction tags of fabric operations sent and not acknowledged. -/
  waiting : List Nat := []
  /-- A fabric operation failed on a dead target (R147). -/
  failed : Bool := false
  /-- Copies of multicast messages that failed: group and place in it (R326). -/
  mcFail : List (Nat × Nat) := []
  /-- Tick and lock-step interval of the commit (R352). -/
  ivl : Option (Nat × Nat) := none
  deriving DecidableEq, Repr

/-- A reservation window of the running frame (Table 6-1); `owner` is the core whose queue 0 it serves (R390). -/
structure Window where
  start : Nat
  last : Nat
  ncmd : Nat
  owner : Nat
  deriving DecidableEq, Repr

/-- The window in force (R178). -/
structure WinRun where
  w : Window
  left : Nat
  /-- Array time of the first issue, 1/625 cycle. -/
  issueAt : Nat
  /-- The hand-back has begun. -/
  back : Bool := false
  /-- The hand-back was delayed and is counted (R180). -/
  late : Bool := false
  deriving DecidableEq, Repr

/-- A completion record waiting to be written (R133, R185), with what its writing charges and reports (R194). -/
structure Rec where
  q : Nat
  data : List Byte
  basin : Nat
  gen : Nat
  tag : Nat
  status : Nat
  cycles : Nat
  arrays : Nat
  evreq : Bool
  /-- A full completion ring makes the record wait (R185). -/
  wait : Bool := false
  /-- Tick and lock-step interval of the commit it reports (R352). -/
  ivl : Option (Nat × Nat) := none
  deriving DecidableEq, Repr

/-- The top-k selector (R104): selected candidates best first as (value code, index), whether NaN or poison was met. -/
structure TopK where
  k : Nat := 0
  largest : Bool := false
  cand : List (Nat × Nat) := []
  nan : Bool := false
  poison : Bool := false
  deriving DecidableEq, Repr

/-- A matrix core (R106 to R149, R171 to R190). -/
structure MCore where
  ctxs : SMap (Option Ctx) := []
  /-- The context that issued last (R108). -/
  last : Nat := 0
  /-- Basin of the commands in the contexts, or of the last such command (Table 4-10). -/
  basin : Nat := 0
  /-- A command has run since reset. -/
  used : Bool := false
  clean : Bool := true
  /-- A scrub runs (R101), and the array time at which its 512 cycles end. -/
  scrub : Bool := false
  scrubT : Nat := 0
  /-- Weight tiles, and the tile in the active and the shadow plane of each array (R65, R67). -/
  planes : SMap Plane := []
  act : SMap Nat := []
  shd : SMap Nat := []
  nextPlane : Nat := 1
  /-- The context and dispatch order of the command whose load runs (R67), and the array time of the load's last cycle. -/
  loading : Option (Nat × Nat) := none
  loadT : Nat := 0
  /-- Array time of the cycle at which the last swap took effect (R68). -/
  swapT : Option Nat := none
  passes : SMap (List Pass) := []
  /-- Array time of the last tenant pass issued (Table 6-2), and of the last pass each array was issued (R450). -/
  passT : Nat := 0
  idleT : SMap Nat := []
  entries : SMap Entry := []
  /-- Miss counts of physical columns, key 520a + column (R95), with the reference period of the last miss. -/
  miss : SMap (Nat × Nat) := []
  topk : TopK := {}
  /-- Commands waiting for re-run, in queue order (R187). -/
  rerun : List Cmd := []
  drains : List Drain := []
  nextSeq : Nat := 1
  nextOrder : Nat := 1
  lastQ : Nat := 0
  /-- Frame usage by basin (R188), and the array time since which the contexts hold tenant commands. -/
  usage : SMap Nat := []
  hold : Option Nat := none
  wins : List Window := []
  next : List Window := []
  /-- Radio-lane cycles of the running frame's windows (R189). -/
  lane : Nat := 0
  /-- The slot of the next frame has been read (R175). -/
  read : Bool := false
  run : Option WinRun := none
  /-- RADIO_RSV asked for and not yet in force (R142). -/
  rsvPend : Option Nat := none
  rsvNow : Nat := 256
  /-- Map-outs waiting for a command boundary, and at one: array and logical column (R97). -/
  mapPend : List (Nat × Nat) := []
  mapDue : List (Nat × Nat) := []
  /-- Completion records waiting in the side queue (R136, R185). -/
  recs : List Rec := []
  deriving DecidableEq, Repr

/-- A queue's counts (R183); `bells` holds (TAIL, array time) of doorbell writes not yet passed by HEAD (R194). -/
structure QSt where
  tail : Nat := 0
  cqHead : Nat := 0
  cqTail : Nat := 0
  bells : List (Nat × Nat) := []
  deriving DecidableEq, Repr

/-- A remote-read cache line (R206). -/
structure RLine where
  basin : Nat
  gen : Nat
  data : List Byte
  poison : Bool
  /-- Order of the last use within its set (R315). -/
  use : Nat := 0
  deriving DecidableEq, Repr

/-- A DSP task (Table 8-7), and where it came from: its flattened queue index. -/
structure DTask where
  tag : Nat := 0
  gen : Nat := 0
  evreq : Bool := false
  plen : Nat := 8192
  prog : Nat := 0
  src : Nat := 0
  dst : Nat := 0
  inx : Nat := 0
  iny : Nat := 0
  outx : Nat := 0
  outy : Nat := 0
  budget : Nat := 0
  q : Nat := 0
  kills : Nat := 0
  /-- The task has been killed by a tick once (R243). -/
  tickKilled : Bool := false
  /-- Order of its first dispatch (R187). -/
  order : Nat := 0
  deriving DecidableEq, Repr

/-- A loop on the loop stack: first and last instruction, and the runs left. -/
structure Loop where
  first : Nat
  last : Nat
  left : Nat
  deriving DecidableEq, Repr

/-- One register bank of an ETV-D core (Table 8-2): x parts under 8 × register + 2 × lane + part as 24-bit codes, acc
parts likewise as 56-bit codes. -/
structure RBank where
  x : SMap Nat := []
  acc : SMap Nat := []
  i : SMap Nat := []
  m : SMap Nat := []
  z : Bool := false
  n : Bool := false
  xsat : Bool := false
  asat : Bool := false
  dom : Bool := false
  loops : List Loop := []
  calls : List Nat := []
  deriving DecidableEq, Repr

/-- What an interrupt entry pushes (R236): PC, FLAGS (Z, N, XSAT, ASAT, DOM) and the level left. -/
structure Push where
  pc : Nat
  flags : Bool × Bool × Bool × Bool × Bool
  level : Nat
  deriving DecidableEq, Repr

/-- Why a task is blocked. -/
inductive DBlk where
  | none
  /-- tickwait until a counter time. -/
  | tick (t : Nat)
  | dwait (mask : Nat)
  /-- eng on a full FIFO, or dma on a busy channel. -/
  | unit
  deriving DecidableEq, Repr

/-- A DMA transfer under way: descriptor, first local word, and whether the words lie in Y. -/
structure Dma where
  desc : Nat
  word : Nat
  y : Bool
  deriving DecidableEq, Repr

/-- A signal of msig that waits for the writes of earlier transfers: channels, core, semaphore, count (R234). -/
structure MSig where
  chans : List Nat
  core : Nat
  sem : Nat
  cnt : Nat
  deriving DecidableEq, Repr

/-- An ETV-D core (R225, R239 to R244). Its X, Y and P memories stand in memory (R31). -/
structure DCore where
  task : Option DTask := none
  /-- 1 loading or scrubbing, 2 running, 3 copying out. -/
  phase : Nat := 0
  basin : Nat := 0
  used : Bool := false
  /-- Reference period of the dispatch, and of the end once the task has ended. -/
  t0 : Nat := 0
  t1 : Nat := 0
  /-- Number of the tick in which the task ended. -/
  tick1 : Nat := 0
  pc : Nat := 0
  main : RBank := {}
  shadow : RBank := {}
  inShadow : Bool := false
  level : Nat := 0
  stack : List Push := []
  /-- Interrupt mask level (ilvl). -/
  mask : Nat := 0
  blk : DBlk := .none
  dma : SMap (Option Dma) := []
  sigs : List MSig := []
  /-- RDP_CORE_TIMER has been written and has not yet asserted. -/
  timerOn : Bool := false
  /-- Tick number at which the core was fenced, while its position waits for a spare (R224). -/
  fenceTick : Option Nat := none
  /-- Reference period at which the last task left (R450). -/
  freeClk : Nat := 0
  deriving DecidableEq, Repr

/-- A cluster's block arbiter (R239, R242, R245). -/
structure Cluster where
  rerun : List DTask := []
  recs : List Rec := []
  nextOrder : Nat := 1
  lastQ : Nat := 0
  /-- Frame usage by basin, in reference periods of finished holds (R245). -/
  usage : SMap Nat := []
  /-- The slot of the next tick has been read; its mask, none where every position is radio (R242). -/
  read : Bool := false
  next : Option Nat := none
  /-- The mask of the running frame. -/
  mask : Option Nat := none
  deriving DecidableEq, Repr

/-- A job in an engine's FIFO: its descriptor and the posting physical core (R247); `done` holds its record once its
output is written. -/
structure EngJob where
  desc : Nat
  core : Nat
  clk : Nat
  result : Option Nat := none
  /-- The CRC unit that serves the job (R254). -/
  crcU : Option Nat := none
  deriving DecidableEq, Repr

/-- A CRC unit beside its registers (R253 to R258). -/
structure CrcU where
  /-- A first message has been accepted since arming or since a sequence error. -/
  primed : Bool := false
  /-- Reference period of the last accepted message, or of arming. -/
  clk : Nat := 0
  /-- Number of the tick in which the last message was accepted (R368). -/
  tick : Option Nat := none
  /-- Frames of the job it serves that have not passed whole, each with its poison, and whether every one before passed (R254). -/
  frames : List (List Bool × Bool) := []
  good : Bool := true
  /-- The transfer it watches has stopped inside its frame (R257). -/
  stopped : Bool := false
  deriving DecidableEq, Repr

/-- The fault registers of a radio die in force since the last tick (Table 12-15), and the last tick whose slot-control
message was found missing (R368). -/
structure RdFault where
  dlm : Nat := 0
  sctl : Nat := 0
  cfw : Nat := 0
  sctlTick : Option Nat := none
  /-- Monitors that have made their check at D − M, and the D it was for (R369). -/
  margin : SMap Nat := []
  deriving DecidableEq, Repr

/-- An entry of a MAC table (R288): reference periods of its last refresh and of its last add or move. -/
structure MacEnt where
  addr : Nat
  vid : Nat
  port : Nat
  pinned : Bool := false
  seen : Nat := 0
  moved : Nat := 0
  deriving DecidableEq, Repr

/-- A fronthaul flow beside its registers (R281 to R286). -/
structure FlowSt where
  /-- Sequence number last accepted, and the next one to send. -/
  rx : Option Nat := none
  tx : Nat := 0
  /-- PRBs that have arrived, by symbol count. -/
  got : List (Nat × Nat) := []
  /-- The last symbol or slot handled: DONE written, sent, or found not ready. -/
  done : Option Int := none
  /-- A symbol or slot found READY and not yet sent. -/
  ready : Option Int := none
  /-- Counts of the running tick: EARLY or NOTREADY, LATE or POISON, BADHDR. -/
  ev : Nat × Nat × Nat := (0, 0, 0)
  /-- PRBs zeroed, and frames early or late, since the last FLOW record; bytes a GFSK flow has appended since (R344). -/
  zeros : Nat := 0
  off : Nat := 0
  app : List Byte := []
  /-- A fault of the running tick met a cell whose word of the tick before already carries FH (R392). -/
  twice : Bool := false
  deriving DecidableEq, Repr

/-- A policer's buckets as the bytes each lacks, in units of 1/1250 byte, at a reference period (R295). -/
structure Meter where
  c : Nat := 0
  e : Nat := 0
  clk : Nat := 0
  deriving DecidableEq, Repr

/-- The fronthaul side of an edge die beside its registers (R270 to R297). -/
structure Edge where
  /-- Flow entries in force since the last tick, 256 bits each (R277). -/
  flows : SMap Nat := []
  fst : SMap FlowSt := []
  mac : List MacEnt := []
  /-- Egress queues, key 8 × switch port + queue (R293). -/
  out : SMap (List Frame) := []
  /-- Shapers, key 8 × port + queue: the bytes the bucket lacks, in units of 1/1250 byte (R294). -/
  shape : SMap Meter := []
  pol : SMap Meter := []
  /-- What a shaper (EN, RATE, BURST) and a policer (its register) written in the running reference period still work by until the
  next one (R294, Table 9-11). -/
  shapeOld : SMap (Option (Nat × Nat × Nat)) := []
  polOld : SMap (Option Nat) := []
  /-- A flush under way: its port, 5 for all (R291). -/
  flush : Option Nat := none
  deriving DecidableEq, Repr

/-- A carrier's modem (R266): counter time at which its last sent frame ends. -/
structure Modem where
  txEnd : Nat := 0
  /-- Bytes of IQ samples not yet in the ring of its downlink flow (R285). -/
  wave : List Byte := []
  /-- Number of the tick of its last noise report (R267). -/
  noise : Nat := 0
  deriving DecidableEq, Repr

/-- A store controller and the SRAM controller of its die beside their registers (R151 to R170). -/
structure Store where
  /-- Keys by basin number, 512 bits; absent slots are empty (R166). -/
  keys : SMap (Option Nat) := []
  draws : Nat := 0
  /-- STR_KEY_DATA as written (R166). -/
  keyData : Nat := 0
  /-- The operation running in STR_KEY_CMD: OP and BASIN. -/
  keyOp : Option (Nat × Nat) := none
  /-- The operation running in STR_PAGE_CMD: the next page, the pages still to take, and the owner of an assign; none for a
  release, which waits for the drains to its next page (R163, R164). -/
  pageOp : Option (Nat × Nat × Option Nat) := none
  /-- SRAM granules whose release waits for drains (R164). -/
  relWait : List Nat := []
  /-- Key under which each free page's bytes stand; absent: as written without encryption (R163). -/
  pageKey : SMap (Option Nat) := []
  /-- Lines of free pages the physical function has written as stored (R163), by die-local line address. -/
  rawLines : List Nat := []
  /-- Bank groups replaced by the spare of their channel (R169), and those fenced in place (R379): 8ch + bg. -/
  spared : List Nat := []
  inPlace : List Nat := []
  /-- The refresh interval last begun: tick number and interval of the tick; and the bank groups refreshed in it (R153). -/
  refreshIv : Nat × Nat := (0, 0)
  refreshed : List Nat := []
  /-- A stale replacement to drop at the next warm reset (R408). -/
  unspare : List Nat := []
  deriving DecidableEq, Repr

/-- A basin beside its registers (R198 to R221). -/
structure Basin where
  /-- Ring counts kept by the device: UP_HEAD and DN_TAIL (R212). -/
  upHead : Nat := 0
  dnTail : Nat := 0
  /-- The MODE written and not yet in effect (R214). -/
  modeNext : Bool := false
  /-- DN_HEAD as the last poll read it (R213). -/
  dnHead : Nat := 0
  /-- Reference period at which the running reset or removal started, and whether BSN_CMD started it. -/
  clk : Nat := 0
  byCmd : Bool := false
  /-- Down slots whose ring copy waits for space (R213). -/
  down : List Nat := []
  /-- Reference period of the last poll of the ring, or of the start of ring mode. -/
  pollClk : Nat := 0
  deriving DecidableEq, Repr

/-- A host core beside its system registers (R418 to R423). -/
structure HCore where
  /-- A trap taken: cause of Table 14-4. -/
  trap : Option Nat := none
  traps : Nat := 0
  /-- HS_TIMECMP has been written and has not yet asserted (R420). -/
  timerOn : Bool := false
  deriving DecidableEq, Repr

/-- What a record of a replay has brought for a run of a stream: its core, address and bytes (Table 11-4; log entry 188). -/
structure HostData where
  core : Nat
  addr : Nat
  data : List Byte
  poison : Bool
  /-- The stream it is for has read it. -/
  used : Bool := false
  deriving DecidableEq, Repr

/-- Obsidian beside its registers (R342 to R348). -/
structure Obsidian where
  /-- EN has taken effect at a tick. -/
  on : Bool := false
  /-- Ring offset of the next record, and bytes held since OLD. -/
  head : Nat := 0
  used : Nat := 0
  /-- Records of the running tick, and records lost since the last one written. -/
  count : Nat := 0
  lost : Nat := 0
  /-- Ticks still to record before the freeze (R346). -/
  post : Option Nat := none
  /-- The replay has stopped (R348). -/
  stopped : Bool := false
  /-- Random values a replay returns: host core and value (Table 11-4). -/
  hrand : List (Nat × Nat) := []
  /-- Bytes applied from the ring in a replay, and the payload of a message whose records have not all been read. -/
  done : Nat := 0
  part : List Byte := []
  /-- Host data of records, for the streams that read them in a replay (R347). -/
  host : List HostData := []
  deriving DecidableEq, Repr

/-- Lock-step beside its registers (R349 to R352). -/
structure LockStep where
  /-- Signature of the running interval, and the running interval as (tick, index). -/
  sig : Nat := 0
  /-- Own signatures not yet compared, and the partner's: tick, interval, signature, array time. -/
  own : List (Nat × Nat × Nat × Nat) := []
  theirs : List (Nat × Nat × Nat) := []
  /-- Input records of the primary waiting for TICK + LAG (R350). -/
  inputs : List (List Byte) := []
  /-- Writes to the host held by GATE (R352): tick, interval, and what is held. -/
  gated : List (Nat × Nat × OutEv) := []
  /-- The shadow's inputs are stopped (R351). -/
  stopped : Bool := false
  /-- Interval index of the running interval. -/
  idx : Nat := 0
  /-- Tick and interval of the commit that causes what leaves the device now, where it is an earlier one (R352). -/
  cause : Option (Nat × Nat) := none
  /-- The last interval the shadow's match has returned for. -/
  matched : Option (Nat × Nat) := none
  deriving DecidableEq, Repr

/-- An outstanding fabric request (R313): its TAG, who asked, the packet, and how far it is. -/
structure Txn where
  tag : Nat
  /-- Core, context and dispatch order of the command; a core of 24 stands for the device itself. -/
  g : Nat
  c : Nat
  seq : Nat
  basin : Nat
  job : Nat
  fmode : Bool
  cmdTag : Nat
  /-- Destination register and FN of an fload; local return address of an atomic. For a copy of a multicast message: its place in
  the group, and the group's number plus 1. -/
  rd : Nat := 0
  fn : Nat := 0
  ret : Nat := 0
  pkt : Packet
  /-- First-hop link once sent, 64 for a message to a queue of the own device; none while the order of R314 and R318, or the want of
  a free tag (R313), makes it wait. -/
  link : Option Nat := none
  /-- The edge die that tracks it once sent. -/
  ed : Nat := 0
  hash : Nat := 0
  tries : Nat := 0
  /-- Reference period of the last send. -/
  clk : Nat := 0
  deriving DecidableEq, Repr

/-- A message queue beside its register (R323, R146): messages dequeued out of order, segments of unfinished messages
(source, tag, segment, bytes, poison), and the last messages delivered by source and tag (R324). -/
structure MQ where
  taken : List Nat := []
  parts : List (Nat × Nat × Nat × List Byte × List Bool) := []
  seen : List (Nat × Nat) := []
  deriving DecidableEq, Repr

/-- A packet a link holds: the number of its last flit, the array time from which a later send is a delay (R307), and the packet. -/
structure OnLink where
  last : Nat := 0
  t : Nat := 0
  pkt : Packet
  deriving DecidableEq, Repr

/-- A fabric link beside its registers (R302 to R304, R397, R398). -/
structure Link where
  /-- Next flit to send and next flit expected; flits are numbered from 1. -/
  txSeq : Nat := 1
  rxSeq : Nat := 1
  /-- Packets sent and not acknowledged. -/
  buf : List OnLink := []
  /-- Packets waiting for room in the retry buffer (R398). -/
  queue : List OnLink := []
  /-- The flit last replayed from, and its successive replays (R303). -/
  replayAt : Nat := 0
  replays : Nat := 0
  /-- Packets held since the link went down, until the partner's LINKSEQ (R397), and the time of DOWN. -/
  heldAt : Option Nat := none
  /-- Reference period of the last valid flit (R304). -/
  lastFlit : Nat := 0
  deriving DecidableEq, Repr

/-- A barrier beside its entry in memory (R328 to R330). -/
structure Barrier where
  /-- Devices that have arrived in the current epoch (master). -/
  devs : List Nat := []
  /-- A release to apply: its epoch and its array time. -/
  release : Option (Nat × Nat) := none
  /-- Reference period at which this device sent its arrival. -/
  sent : Option Nat := none
  deriving DecidableEq, Repr

/-- The device fabric and membership beside their registers. -/
structure Fabric where
  txns : List Txn := []
  /-- Tags of orphaned requests (R217, R322), with the basin whose reset or removal orphaned them. -/
  orphans : List (Nat × Option Nat) := []
  nextTag : Nat := 0
  /-- The job table: job number, and whether it is TORN rather than HELD (R321, R322). -/
  jobs : List (Nat × Bool) := []
  mqs : SMap MQ := []
  links : SMap Link := []
  bars : SMap Barrier := []
  /-- Votes counted for the next expulsion: slot, target, number (R402). -/
  votes : List (Nat × Nat × Nat) := []
  /-- The view of the pod's links: key device × 64 + link (R400); last change numbers by device. -/
  view : SMap Nat := []
  seqs : SMap Nat := []
  mySeq : Nat := 0
  /-- Reference periods of the last change learned and of the last LVIEW sent. -/
  viewClk : Nat := 0
  lviewClk : Nat := 0
  deriving DecidableEq, Repr

/-- Deterministic mode beside its registers (R339, R341). -/
structure DetMode where
  /-- EN was written 0 while the mode was on: it leaves at the next tick. -/
  leaving : Bool := false
  deriving DecidableEq, Repr

end Sys2Proof.Machine
end

