-- ==== Sys2Proof/Machine/State.lean ====
section
/-! DEFINITION. The state of the device, as plain data: the queue of waiting commands, every register (one map of
fields), memory, and the state of each unit that no register shows. State.reset is the device at the start of
power-up (R433, stage 0). -/

namespace Sys2Proof.Machine

/-- Why the machine stops with a fault. The device has no condition the spec leaves without an effect, so no command
raises one; the constructor stands for the outcome the host's interface asks for. Safe. -/
inductive Fault where
  /-- Raised by no command. Safe. -/
  | stuck
  deriving DecidableEq, Repr

/-- Why a command is refused. -/
inductive Refusal where
  /-- Raised by a command that has no meaning yet. Safe: the machine stops. -/
  | notModelled (mnemonic : String)
  /-- Raised by every command whose operands name no unit of the device (Instr.wf). Safe: the machine stops. -/
  | illFormed
  deriving DecidableEq, Repr

/-- The device. -/
structure State where
  /-- The commands waiting, first in, first out. -/
  pending : List Instr
  /-- Every register field that differs from its reset value (Ops.lean, State.fld). -/
  regs : SMap Nat
  /-- Memory over the 48-bit device physical address space (R31), in canonical form; an unlisted byte is 0. -/
  mem : List Host.Cell
  /-- The three copies of each line's poison bit, by address / 64 (R157). -/
  poison : SMap Nat
  /-- Errors in memory words that no read has met yet: place and bits in error, the check bits from bit 64 up (R155). -/
  flips : List (EccLoc × Nat)
  /-- The bytes the last read command answered with, and whether they were poisoned. -/
  resp : List Byte
  respPoison : Bool
  /-- Register writes a command has made through memory; they apply at its end, so none waits between commands. -/
  mmio : List (Nat × List Byte)
  latches : List Latch
  held : List Held
  /-- Free values used so far (log entry 5). -/
  free : Nat
  out : List OutEv
  tmb : Timebase
  trigs : SMap Trig
  gey : Geyser
  evcap : SMap EvCap
  /-- EVC_CPL_TIMEk as written (R428). -/
  cplTime : SMap Nat
  flt : Handling
  pwr : Power
  cores : SMap MCore
  queues : SMap QSt
  rrc : SMap RLine
  /-- ETV-D cores by physical core 64n + c, clusters 4n + k, engines 18n + e, CRC units 16n + u, modem carriers. -/
  dsps : SMap DCore
  clusters : SMap Cluster
  engines : SMap (List EngJob)
  crcs : SMap CrcU
  modems : SMap Modem
  /-- EQ in force for each local cell 96n + j (R260). -/
  eqNow : SMap Bool
  /-- Radio dies' fault side, and edge dies' fronthaul side. -/
  rdflt : SMap RdFault
  edges : SMap Edge
  stores : SMap Store
  /-- Accounting counters, key 8b + word (Table 6-7). -/
  acct : SMap Nat
  /-- The basin of the snapshot that is being taken (R195). -/
  snap : Option Nat
  basins : SMap Basin
  /-- Mailbox pages, key 4096b + offset (R209). -/
  mbx : List Host.Cell
  hcs : SMap HCore
  /-- ATS invalidation requests not yet completed: port, function, first page, pages (R415). -/
  ats : List (Nat × Nat × Nat × Nat)
  obsd : Obsidian
  lock : LockStep
  det : DetMode
  fab : Fabric
  deriving DecidableEq, Repr

/-- The device at the start of power-up: every register at its reset value, memory with nothing listed, every unit
idle. -/
def State.reset : State where
  pending := []
  regs := []
  mem := []
  poison := []
  flips := []
  resp := []
  respPoison := false
  mmio := []
  latches := []
  held := []
  free := 0
  out := []
  tmb := {}
  trigs := []
  gey := {}
  evcap := []
  cplTime := []
  flt := {}
  pwr := {}
  cores := []
  queues := []
  rrc := []
  dsps := []
  clusters := []
  engines := []
  crcs := []
  modems := []
  eqNow := []
  rdflt := []
  edges := []
  stores := []
  acct := []
  snap := none
  basins := []
  mbx := []
  hcs := []
  ats := []
  obsd := {}
  lock := {}
  det := {}
  fab := {}

end Sys2Proof.Machine
end

