-- ==== Sys2Proof/WellFormed.lean ====
section
/-! DEFINITION. Which commands name units of the device: the ranges of Tables 1-1 and 1-3 and of the register maps. -/

namespace Sys2Proof

/-- A requester that exists (R11, R412, R418). -/
def Req.wf : Req → Bool
  | .pf port => decide (port < 2)
  | .vf port b => decide (port < 2 ∧ 1 ≤ b ∧ b < 256)
  | .hc h => decide (h < 64)
  | .caldera => true

/-- A register address of the maps (R27, Table 14-2, R199, R415). -/
def RegAddr.wf : RegAddr → Bool
  | .bar0 off => decide (off < 0x4000000 ∧ off % 4 = 0)
  | .sys h num => decide (h < 64 ∧ 0xC00 ≤ num ∧ num ≤ 0xC0D)
  | .sriov port => decide (port < 2)
  | .ats port fn => decide (port < 2 ∧ fn < 256)
  | .vfBar2 b off => decide (1 ≤ b ∧ b < 256 ∧ off < 0x2000 ∧ off % 4 = 0)

/-- A requester of memory that exists (Table 1-1). -/
def Master.wf : Master → Bool
  | .pf port => decide (port < 2)
  | .hc h => decide (h < 64)
  | .core g c => decide (g < 24 ∧ c < 4)
  | .dsp d => decide (d < 256)
  | .caldera => true

/-- Blocks of a die and tiles of a block (Table 1-3): matrix die 2 and 4, store die 4 and 32, radio die 4 and 16,
edge die 4 and 4; the spare positions and engines of a radio die count on (Table 12-6, log entry 22). -/
def FUnit.wf : FUnit → Bool
  | .region d => decide (d < 32)
  | .router d => decide (d < 12 ∨ (24 ≤ d ∧ d < 32))
  | .block d k => decide (d < 32 ∧ k < 16)
  | .tile d k u => decide (d < 32 ∧ k < 16 ∧ u < 128)

/-- The command names units of the device. -/
@[inline] def Instr.wf : Instr → Bool
  | .registerWrite r a _ _ => r.wf && a.wf
  | .registerReadClear r a => r.wf && a.wf
  | .lowHalfRead r a => r.wf && a.wf
  | .highHalfRead r a => r.wf && a.wf
  | .lowHalfWrite r a _ => r.wf && a.wf
  | .highHalfWrite r a _ => r.wf && a.wf
  | .bar2Read port ofs _ _ => decide (port < 2 ∧ ofs < 0x1000000000)
  | .bar2Write port ofs _ _ _ => decide (port < 2 ∧ ofs < 0x1000000000)
  | .bar2BaseWrite port _ => decide (port < 2)
  | .routerFence d _ => decide ((d < 12 ∨ (24 ≤ d ∧ d < 32)))
  | .regionFence d => decide (d < 32)
  | .blockFence d k => decide (d < 32 ∧ k < 16)
  | .fenceRelease u lvl => decide (lvl < 4) && u.wf
  | .diePowerOff d => decide (d < 32)
  | .diePowerOn d => decide (d < 32)
  | .tmbNowRead r => r.wf
  | .tmbNowFracRead r => r.wf
  | .ppsEdge e => decide (e.sub < 8)
  | .trigArm n _ => decide (n < 4)
  | .trigDisarm n _ => decide (n < 4)
  | .trigEdge n => decide (n < 4)
  | .trigPulseEnd n => decide (n < 4)
  | .timebaseTakeover cause => decide (cause < 3)
  | .passCommit g a _ => decide (g < 24 ∧ a < 4)
  | .weightLoadEnd g => decide (g < 24)
  | .columnMapOut g a => decide (g < 24 ∧ a < 4)
  | .missCountClear g a col => decide (g < 24 ∧ a < 4 ∧ col < 520)
  | .arrInjectArm g a _ => decide (g < 24 ∧ a < 4)
  | .scrubEnd g => decide (g < 24)
  | .nop g c => decide (g < 24 ∧ c < 4)
  | .j g c => decide (g < 24 ∧ c < 4)
  | .jal g c => decide (g < 24 ∧ c < 4)
  | .jr g c => decide (g < 24 ∧ c < 4)
  | .beq g c => decide (g < 24 ∧ c < 4)
  | .bne g c => decide (g < 24 ∧ c < 4)
  | .blt g c => decide (g < 24 ∧ c < 4)
  | .bge g c => decide (g < 24 ∧ c < 4)
  | .dbnz g c => decide (g < 24 ∧ c < 4)
  | .scalarOp g c => decide (g < 24 ∧ c < 4)
  | .mul g c => decide (g < 24 ∧ c < 4)
  | .li g c => decide (g < 24 ∧ c < 4)
  | .ld g c => decide (g < 24 ∧ c < 4)
  | .st g c => decide (g < 24 ∧ c < 4)
  | .rdsys g c => decide (g < 24 ∧ c < 4)
  | .sdld g c => decide (g < 24 ∧ c < 4)
  | .sdset g c => decide (g < 24 ∧ c < 4)
  | .scopy g c => decide (g < 24 ∧ c < 4)
  | .swait g c => decide (g < 24 ∧ c < 4)
  | .loadReturn g c _ _ => decide (g < 24 ∧ c < 4)
  | .streamEnd g c sd => decide (g < 24 ∧ c < 4 ∧ sd < 8)
  | .wload g c => decide (g < 24 ∧ c < 4)
  | .wswap g c => decide (g < 24 ∧ c < 4)
  | .astream g c => decide (g < 24 ∧ c < 4)
  | .accflush g c => decide (g < 24 ∧ c < 4)
  | .accinit g c => decide (g < 24 ∧ c < 4)
  | .vop g c _ => decide (g < 24 ∧ c < 4)
  | .vld g c => decide (g < 24 ∧ c < 4)
  | .vst g c => decide (g < 24 ∧ c < 4)
  | .vred g c _ => decide (g < 24 ∧ c < 4)
  | .vimg g c => decide (g < 24 ∧ c < 4)
  | .vtopk g c _ => decide (g < 24 ∧ c < 4)
  | .vdigest g c => decide (g < 24 ∧ c < 4)
  | .signal g c => decide (g < 24 ∧ c < 4)
  | .wait g c => decide (g < 24 ∧ c < 4)
  | .semaphoreGrant g c => decide (g < 24 ∧ c < 4)
  | .tickwait g c => decide (g < 24 ∧ c < 4)
  | .tickwaitRelease g c => decide (g < 24 ∧ c < 4)
  | .fbar g c => decide (g < 24 ∧ c < 4)
  | .commit g c => decide (g < 24 ∧ c < 4)
  | .cabort g c => decide (g < 24 ∧ c < 4)
  | .fload g c => decide (g < 24 ∧ c < 4)
  | .fstore g c => decide (g < 24 ∧ c < 4)
  | .fatom g c => decide (g < 24 ∧ c < 4)
  | .finv g c => decide (g < 24 ∧ c < 4)
  | .fsend g c => decide (g < 24 ∧ c < 4)
  | .frecv g c => decide (g < 24 ∧ c < 4)
  | .frecvMessageReserve g c => decide (g < 24 ∧ c < 4)
  | .dispatch g q => decide (g < 24 ∧ q < 8)
  | .commitPoint g c => decide (g < 24 ∧ c < 4)
  | .drainEnd g => decide (g < 24)
  | .completionRecordWrite g q => decide (g < 40 ∧ q < 8)
  | .budgetExceeded g c => decide (g < 24 ∧ c < 4)
  | .radioRsvWrite g _ => decide (g < 24)
  | .radioRsvApply g => decide (g < 24)
  | .semSignalWrite g _ => decide (g < 24)
  | .semOwnerWrite g n _ => decide (g < 24 ∧ n < 4096)
  | .memoryRead m addr _ _ => decide (addr < 0x1000000000000) && m.wf
  | .memoryWrite m addr _ _ _ => decide (addr < 0x1000000000000) && m.wf
  | .refresh n ch bg => decide (n < 12 ∧ ch < 16 ∧ bg < 8)
  | .patrolRead loc _ _ _ => match loc with
    | .mem addr => decide (addr < 0x1000000000000)
    | .cache die _ word => decide (die < 12 ∧ word < 8)
    | _ => false
  | .bankGroupSparing n ch bg => decide (n < 12 ∧ ch < 16 ∧ bg < 8)
  | .sparingCopyEnd n => decide (n < 12)
  | .pageAssign n _ => decide (n < 12)
  | .pageRelease n _ => decide (n < 12)
  | .pageZeroingEnd n => decide (n < 12)
  | .deferredPageRelease n page => decide (n < 12 ∧ page < 12416)
  | .sramGranuleAssign n gr _ => decide (n < 12 ∧ gr < 128)
  | .sramGranuleRelease n gr _ => decide (n < 12 ∧ gr < 128)
  | .sramZeroingEnd n gr => decide (n < 12 ∧ gr < 128)
  | .keyGenerate n _ => decide (n < 12)
  | .keyLoad n _ => decide (n < 12)
  | .keyDestroy n _ => decide (n < 12)
  | .keyOpEnd n => decide (n < 12)
  | .tickProgramRead g => decide (g < 24)
  | .windowStart g => decide (g < 24)
  | .handBack g => decide (g < 24)
  | .doorbellWrite q _ _ => decide (q < 392)
  | .queueEnable q _ => decide (q < 392)
  | .queueDisable q _ => decide (q < 392)
  | .queueBasinWrite q _ => decide (q < 392)
  | .basinResetEnd b => decide (b < 256)
  | .basinRemovalEnd b => decide (b < 256)
  | .vfDisable port _ _ => decide (port < 2)
  | .vfFlr port b => decide (port < 2 ∧ 1 ≤ b ∧ b < 256)
  | .mailboxWrite r b ofs _ => decide (b < 256 ∧ ofs < 4096) && r.wf
  | .upDoorbell r b slot _ => decide (b < 256 ∧ slot < 32) && r.wf
  | .downDoorbell r b slot _ _ => decide (b < 256 ∧ slot < 32) && r.wf
  | .ringPoll b _ _ _ => decide (b < 256)
  | .modeWrite b _ => decide (b < 256)
  | .modeChange b => decide (b < 256)
  | .hostCoreOwnerWrite h _ => decide (h < 64)
  | .hostCoreClearEnd h => decide (h < 64)
  | .dspSpareMap n pair => decide (n < 4 ∧ pair < 2)
  | .dspNop d => decide (d < 256)
  | .dspJ d => decide (d < 256)
  | .jsr d => decide (d < 256)
  | .rts d => decide (d < 256)
  | .bCc d => decide (d < 256)
  | .loop d => decide (d < 256)
  | .dspEnd d => decide (d < 256)
  | .dspTickwait d => decide (d < 256)
  | .dspTickwaitRelease d => decide (d < 256)
  | .cmac d _ => decide (d < 256)
  | .cmpy d _ => decide (d < 256)
  | .rmac d _ => decide (d < 256)
  | .cpow d _ => decide (d < 256)
  | .xop d _ => decide (d < 256)
  | .aop d _ => decide (d < 256)
  | .cmp d _ => decide (d < 256)
  | .mvr d _ => decide (d < 256)
  | .mva d _ => decide (d < 256)
  | .nrm d _ => decide (d < 256)
  | .rcp d _ => decide (d < 256)
  | .bcast d _ => decide (d < 256)
  | .dspLi d => decide (d < 256)
  | .addi d => decide (d < 256)
  | .mvix d => decide (d < 256)
  | .dma d => decide (d < 256)
  | .dmaEnd d ch => decide (d < 256 ∧ ch < 4)
  | .dwait d => decide (d < 256)
  | .eng d => decide (d < 256)
  | .msig d => decide (d < 256)
  | .rti d => decide (d < 256)
  | .ilvl d => decide (d < 256)
  | .iclr d => decide (d < 256)
  | .interruptEntry d => decide (d < 256)
  | .dspTimerExpire d => decide (d < 256)
  | .dspTimerWrite d _ => decide (d < 256)
  | .dspDoorbellWrite d _ => decide (d < 256)
  | .dspTaskDispatch k q p => decide (k < 16 ∧ q < 8 ∧ p < 16)
  | .dspTaskLoadEnd d => decide (d < 256)
  | .dspOutputCopyEnd d => decide (d < 256)
  | .dspTaskBudgetExceeded d => decide (d < 256)
  | .dspTickProgramRead k => decide (k < 16)
  | .ldpcDecodeJob n e _ => decide (n < 4 ∧ e < 18)
  | .ldpcEncodeJob n e _ => decide (n < 4 ∧ e < 18)
  | .polarJob n e _ => decide (n < 4 ∧ e < 18)
  | .engineJobEnd n e => decide (n < 4 ∧ e < 18)
  | .crcArm n u _ => decide (n < 4 ∧ u < 16)
  | .crcDisarm n u _ => decide (n < 4 ∧ u < 16)
  | .crcFrameEnd n u _ _ _ => decide (n < 4 ∧ u < 16)
  | .crcRunWrite n u _ => decide (n < 4 ∧ u < 16)
  | .safetyMessage n u _ => decide (n < 4 ∧ u < 16)
  | .safetyTimeout n u => decide (n < 4 ∧ u < 16)
  | .eqChange n j0 => decide (n < 4 ∧ j0 < 96)
  | .gfskFrameReceived n b car _ _ _ _ => decide (n < 4 ∧ b < 4 ∧ car < 128)
  | .gfskTxRecord n b => decide (n < 4 ∧ b < 4)
  | .gfskNoiseReport n b _ => decide (n < 4 ∧ b < 4)
  | .frameReceive p _ => decide (p < 16)
  | .symbolDone k f _ => decide (k < 4 ∧ f < 4096)
  | .downlinkReadyCheck k f _ => decide (k < 4 ∧ f < 4096)
  | .downlinkSend k f _ => decide (k < 4 ∧ f < 4096)
  | .cplaneReadyCheck k f _ => decide (k < 4 ∧ f < 4096)
  | .cplaneSend k f _ => decide (k < 4 ∧ f < 4096)
  | .gfskDownlinkSend k f => decide (k < 4 ∧ f < 4096)
  | .macAgeRemoval k addr vid => decide (k < 4 ∧ addr < 0x1000000000000 ∧ vid < 4096)
  | .macPin k => decide (k < 4)
  | .macDelete k => decide (k < 4)
  | .macRead k => decide (k < 4)
  | .macFlushAll k => decide (k < 4)
  | .macFlushPort k => decide (k < 4)
  | .macFlushEnd k => decide (k < 4)
  | .egressTransmit k p => decide (k < 4 ∧ p < 5)
  | .shaperWrite k p q _ => decide (k < 4 ∧ p < 4 ∧ q < 7)
  | .policerWrite k i w _ => decide (k < 4 ∧ i < 64 ∧ w < 4)
  | .linkEnable l _ => decide (l < 64)
  | .linkRetrain l _ => decide (l < 64)
  | .linkTrainingEnd l _ => decide (l < 64)
  | .flitReceive l _ _ _ => decide (l < 64)
  | .replayRequest l _ => decide (l < 64)
  | .linkDown l cause => decide (l < 64 ∧ cause < 4)
  | .fabricRdl l _ => decide (l < 64)
  | .fabricRds l _ => decide (l < 64)
  | .fabricWr l _ _ => decide (l < 64)
  | .fabricAtom l _ _ => decide (l < 64)
  | .fabricMsg l _ => decide (l < 64)
  | .barrierReleaseApply b => decide (b < 4096)
  | .barrierTimeout b => decide (b < 4096)
  | .routeWrite pod i _ => decide (i < (if pod then 16 else 512))
  | .ftidWrite b _ => decide (b < 256)
  | .detModeLoss cause => decide (1 ≤ cause ∧ cause < 4)
  | .digestClear g k => decide (g < 24 ∧ k < 16)
  | .sequencerMismatch g => decide (g < 24)
  | .bridgeFlitResend d _ => decide ((d < 12 ∨ (24 ≤ d ∧ d < 32)))
  | .slotControlMiss n => decide (n < 4)
  | .deadlineMarginCheck n i => decide (n < 4 ∧ i < 256)
  | .deadlineCheck n i => decide (n < 4 ∧ i < 256)
  | .tickMissing d => decide (d < 32)
  | .clockFault d c => decide (d < 32 ∧ c.clk < 3)
  | .railFault r => decide (r.rail < 9)
  | .heartbeatMiss d => decide (d < 32)
  | .faultInject d _ => decide (d < 32)
  | .linkseq l _ => decide (l < 64)
  | .linkseqTimeout l => decide (l < 64)
  | .lstate dev l st0 _ => decide (dev < 512 ∧ l < 64 ∧ st0 < 8)
  | .lview dev _ => decide (dev < 512)
  | .vote slot target _ => decide (slot < 5 ∧ target < 512)
  | .testRunEnd _ status => decide (status < 4)
  | .pcieConventionalReset port => decide (port < 2)
  | .pfFlr port => decide (port < 2)
  | .atsInvalidation port fn page _ => decide (port < 2 ∧ fn < 256 ∧ page < 0x800000000)
  | .atsInvalidationDone port => decide (port < 2)
  | .hostCoreAccess h addr _ _ _ _ _ => decide (h < 64 ∧ addr < 0x1000000000000)
  | .hostCoreStart h _ => decide (h < 64)
  | .hostCoreHalt h _ => decide (h < 64)
  | .hcTimecmpWrite h _ => decide (h < 64)
  | .hcTimerExpire h => decide (h < 64)
  | .hcInterruptAck h _ => decide (h < 64)
  | .hsRandRead h => decide (h < 64)
  | .eventServiceTake h => decide (h < 64)
  | .d2hFlagRaise h k => decide (h < 64 ∧ k < 8)
  | .pairEnable p _ => decide (p < 32)
  | .pairMismatch p => decide (p < 32)
  | .hcDoorbell h _ => decide (h < 64)
  | .netqTransmit k => decide (k < 4)
  | .eventCompletion k _ _ => decide (k < 2)
  | .eventQueueHeadWrite q _ => decide (q < 2)
  | .pgInput step _ => decide (1 ≤ step ∧ step < 9)
  | .dieRelease grp => decide (1 ≤ grp ∧ grp < 6)
  | .calUserWrite i _ => decide (i < 256)
  | .throttleStep n _ _ => decide (n < 12)
  | .throttleStepUp n => decide (n < 12)
  | .arrayClockGate g a => decide (g < 24 ∧ a < 4)
  | .thermalFault d => decide (d < 32)
  | .criticalTemperature d => decide (d < 32)
  | .fronthaulLinkChange p _ _ => decide (p < 16)
  | .lightReturn l => decide (l < 64)
  | .regionHeartbeat d => decide (d < 32)
  | .thermalSensorSample d _ _ => decide (d < 32)
  | .dspCoreClockGate d => decide (d < 256)
  | .routeChange | .calderaMismatch | .calderaResume | .tmbIncrWrite _ | .tmbStepWrite _ | .todMessage _
  | .ppsMiss | .tick | .tickGeneratorStart _ | .tickGeneratorStopRequest _ | .tickGeneratorStop
  | .periodChangeRequest _ | .periodChange | .frameOfsWrite _ | .fumaroleWrite _ | .fumaroleApply
  | .refLoss | .refReturn | .acctSnapshot _ | .storeBsAccrual | .basinCreate _ | .basinOpen _
  | .basinReset _ | .basinRemove _ | .fabricBarr _ | .fabricBrel _ | .fabricData _ | .fabricAck _
  | .requestUnanswered _ | .jobTeardown _ | .jobTableRemove _ | .messageRetry _ | .detModeEnable _
  | .detModeEntry | .detModeDisable _ | .obsidianEnable _ | .obsidianDisable _ | .obsidianFreeze _
  | .obsidianFrozen | .obsidianMark _ | .replayRecordApply _ | .tickSet _ | .lockstepEnable _
  | .lockrec _ | .locksig _ | .signatureIntervalEnd | .lostsig | .timingStop | .tstopClear
  | .watchdogExpiry | .journalWrite | .mainRailsLost | .aonLow | .alertClear _ | .journalPresentation
  | .rungClear | .lviewSend | .voteCast _ | .testFence _ | .testRun _ | .testReturn _ | .testRelease _
  | .warmReset | .powerCycleRequest | .evcEnable _ | .evcDisable _ | .powerUp | .meminitEnd
  | .fwLoad _ | .fwStage _ | .fwVerifyEnd _ _ | .fwReady | .fwReadyTimeout | .i3cCcc _ | .i3cPrivateWrite _
  | .i3cPrivateRead _ | .pkgPowerWindow _ | .vddAonLoss | .bkpActiveChange _ | .watchdogService
   => true

end Sys2Proof
end

