-- ==== Sys2Proof/Machine/Ops.lean ====
section
/-! DEFINITION. The operations every command is built from: numbers and bytes, register fields (R8 to R10), the
clocks, the dies and the routes between them (R14, R16), the address map and its checks (R31 to R33), memory and
poison (R157, R158), interrupts (R417, R420), event sources (R427) and the journal's queue (R382). -/

namespace Sys2Proof.Machine

/-- What a command answers. -/
abbrev Out := Host.Outcome State Fault Refusal

/-- The state a command leaves when its effect is `t`: the queue of waiting commands stays as it is, no register
write through memory waits, and memory, its poison and the mailboxes stand in canonical form (each byte as `t` has it). -/
def settle (s t : State) : State :=
  { t with
    pending := s.pending
    mmio := []
    mem := SMap.canon 0#8 t.mem
    poison := SMap.canon 0 t.poison
    mbx := SMap.canon 0#8 t.mbx }

/-- The outcome of command `i` at `s` when its effect is `t`; a command whose operands name no unit of the device is
refused. -/
@[inline] def run (i : Instr) (s t : State) : Out :=
  if i.wf then .next (settle s t) else .refused .illFormed

/-! Numbers and bytes -/

/-- Bits [hi:lo] of a number (R5). -/
def bits (v hi lo : Nat) : Nat := v / 2 ^ lo % 2 ^ (hi + 1 - lo)

/-- One bit. -/
def bit (v i : Nat) : Bool := v / 2 ^ i % 2 == 1

/-- The signed value of the low `w` bits. -/
def sext (w v : Nat) : Int :=
  let u := v % 2 ^ w
  if u < 2 ^ (w - 1) then (u : Int) else (u : Int) - (2 ^ w : Nat)

/-- A signed number modulo 2^w. -/
def wrap (w : Nat) (i : Int) : Nat := (i % ((2 ^ w : Nat) : Int)).toNat

/-- The nearest value within limits. -/
def clamp (lo hi v : Nat) : Nat := if v < lo then lo else if hi < v then hi else v

/-- The nearest value within limits, signed. -/
def clampInt (lo hi v : Int) : Int := if v < lo then lo else if hi < v then hi else v

/-- 1 for true. -/
def b2n (b : Bool) : Nat := if b then 1 else 0

/-- Bytes, little-endian (R5). -/
def natOf : List Byte → Nat
  | [] => 0
  | b :: bs => b.toNat + 256 * natOf bs

/-- The `n` little-endian bytes of a number (R5). -/
def bytesOf : Nat → Nat → List Byte
  | 0, _ => []
  | n + 1, v => BitVec.ofNat 8 v :: bytesOf n (v / 256)

/-- Bytes [i, i + n) of a list, 0 past its end. -/
def slice (l : List Byte) (i n : Nat) : List Byte := (l.drop i ++ List.replicate n 0#8).take n

/-- Bit i of a bit list put together, bit 0 first. -/
def natOfBits : List Bool → Nat
  | [] => 0
  | b :: bs => b2n b + 2 * natOfBits bs

/-! Register fields -/

/-- The key of a field of instance `ix` of its register. -/
def Field.key (f : Field) (ix : Nat) : Nat := (ix * 512 + f.kind.code) * 256 + f.lo

/-- The width of a field. -/
def Field.w (f : Field) : Nat := f.hi + 1 - f.lo

/-- A field's reset value as the register tables print it. -/
def RegKind.fieldReset (k : RegKind) (lo : Nat) : Nat :=
  match k.fields.find? (fun i => i.lo == lo) with
  | some i => i.reset
  | none => 0

/-- A field's reset value at an instance: the tables' value but where they give one by index or by fuse
(Tables 14-14, 14-19, 14-22, 9-18). -/
def Field.resetAt (f : Field) (ix : Nat) : Nat :=
  match f.kind with
  | .PKG_SERIAL => Config.serial % 2 ^ 64
  | .PKG_HC_PAIRp => if f.lo = 0 then b2n (decide (ix < 2)) else if f.lo = 1 ∨ f.lo = 6 then b2n (decide (ix = 0)) else 0
  | .CAL_ITEMi => if f.lo = 0 ∨ f.lo = 32 then Config.calFactory ix % 2 ^ 16 else 0
  | .FHL_VLANv => if ix % 4096 = 1 then 31 else 0
  | .PWR_RAILr => if f.lo = 34 ∧ ix ≠ 0 then 0 else f.kind.fieldReset f.lo
  | k => k.fieldReset f.lo

/-- The value of a field. -/
def State.fld (s : State) (f : Field) (ix : Nat := 0) : Nat := SMap.get (f.resetAt ix) s.regs (f.key ix)

/-- A field as a flag. -/
def State.flag (s : State) (f : Field) (ix : Nat := 0) : Bool := s.fld f ix != 0

/-- Write a field: the low bits of `v`, as many as the field is wide. -/
def State.setFld (s : State) (f : Field) (ix v : Nat) : State :=
  { s with regs := SMap.set (f.resetAt ix) s.regs (f.key ix) (v % 2 ^ f.w) }

/-- Add to a saturating counter field (R8, RC fields). -/
def State.incFld (s : State) (f : Field) (ix : Nat := 0) (n : Nat := 1) : State :=
  s.setFld f ix (min (s.fld f ix + n) (2 ^ f.w - 1))

/-- Every field of a register put together, each at its place; reserved bits 0 (R10). -/
def State.regBits (s : State) (k : RegKind) (ix : Nat) : Nat :=
  k.fields.foldl (fun v i => v + s.fld ⟨k, i.hi, i.lo⟩ ix * 2 ^ i.lo) 0

/-- Set every field of a register from one value. -/
def State.setReg (s : State) (k : RegKind) (ix v : Nat) : State :=
  k.fields.foldl (fun s i => s.setFld ⟨k, i.hi, i.lo⟩ ix (bits v i.hi i.lo)) s

/-- Set every field of a register to its reset value. -/
def State.resetReg (s : State) (k : RegKind) (ix : Nat) : State :=
  k.fields.foldl (fun s i => s.setFld ⟨k, i.hi, i.lo⟩ ix (Field.resetAt ⟨k, i.hi, i.lo⟩ ix)) s

/-- Apply an effect where a condition holds. -/
def State.when (s : State) (c : Bool) (f : State → State) : State := if c then f s else s

/-- A free value of `w` bits and the state that has used it (log entry 5). -/
def State.fresh (s : State) (w : Nat) : Nat × State :=
  (Config.freeValue s.free % 2 ^ w, { s with free := s.free + 1 })

/-- A write that R350 suppresses on a shadow and R352 holds on a primary: a write TLP or an MSI-X message. -/
def toHost : OutEv → Bool
  | .msix _ _ _ => true
  | .hostWrite _ _ _ _ _ => true
  | _ => false

/-- A packet to a device outside the shadow set, taken as the devices of the own pod whose route is valid
(log entry 33). -/
def State.outsideSet (s : State) : OutEv → Bool
  | .packet _ p => p.dst / 512 != s.fld F.FAB_ID.SYSID / 512 || !s.flag F.FAB_ROUTEi.VALID (p.dst % 512)
  | _ => false

/-- Something leaves the device; lock-step suppresses (R350) or holds (R352) what it must. -/
def State.emit (s : State) (o : OutEv) : State :=
  if s.flag F.PKG_LOCK_CTRL.EN && s.flag F.PKG_LOCK_CTRL.ROLE && (toHost o || s.outsideSet o) then
    s.incFld F.PKG_LOCK_CNT.SUPPRESSED
  else if s.flag F.PKG_LOCK_CTRL.EN && !s.flag F.PKG_LOCK_CTRL.ROLE && s.flag F.PKG_LOCK_CTRL.GATE && toHost o then
    let (t, i) := s.lock.cause.getD (s.fld F.GEY_TICK.TICK, s.lock.idx)
    if s.lock.matched.any fun m => decide (t < m.1 ∨ t = m.1 ∧ i ≤ m.2) then { s with out := s.out ++ [o] }
    else { s with lock := { s.lock with gated := s.lock.gated ++ [(t, i, o)] } }
  else { s with out := s.out ++ [o] }

/-- The answer of a read. -/
def State.answer (s : State) (d : List Byte) (p : Bool := false) : State := { s with resp := d, respPoison := p }

/-! Units -/

def State.core (s : State) (g : Nat) : MCore := SMap.get {} s.cores g
def State.setCore (s : State) (g : Nat) (c : MCore) : State := { s with cores := SMap.set {} s.cores g c }
def State.modCore (s : State) (g : Nat) (f : MCore → MCore) : State := s.setCore g (f (s.core g))
def State.queue (s : State) (q : Nat) : QSt := SMap.get {} s.queues q
def State.setQueue (s : State) (q : Nat) (c : QSt) : State := { s with queues := SMap.set {} s.queues q c }
def State.store (s : State) (n : Nat) : Store := SMap.get {} s.stores n
def State.setStore (s : State) (n : Nat) (c : Store) : State := { s with stores := SMap.set {} s.stores n c }
def State.basin (s : State) (b : Nat) : Basin := SMap.get {} s.basins b
def State.setBasin (s : State) (b : Nat) (c : Basin) : State := { s with basins := SMap.set {} s.basins b c }
def State.hc (s : State) (h : Nat) : HCore := SMap.get {} s.hcs h
def State.setHc (s : State) (h : Nat) (c : HCore) : State := { s with hcs := SMap.set {} s.hcs h c }
def State.trigSt (s : State) (n : Nat) : Trig := SMap.get {} s.trigs n
def State.setTrig (s : State) (n : Nat) (t : Trig) : State := { s with trigs := SMap.set {} s.trigs n t }
def State.evCap (s : State) (n : Nat) : EvCap := SMap.get {} s.evcap n
def State.setEvCap (s : State) (n : Nat) (c : EvCap) : State := { s with evcap := SMap.set {} s.evcap n c }

def State.dsp (s : State) (d : Nat) : DCore := SMap.get {} s.dsps d
def State.setDsp (s : State) (d : Nat) (c : DCore) : State := { s with dsps := SMap.set {} s.dsps d c }
def State.modDsp (s : State) (d : Nat) (f : DCore → DCore) : State := s.setDsp d (f (s.dsp d))
def State.cluster (s : State) (k : Nat) : Cluster := SMap.get {} s.clusters k
def State.setCluster (s : State) (k : Nat) (c : Cluster) : State := { s with clusters := SMap.set {} s.clusters k c }
def State.modCluster (s : State) (k : Nat) (f : Cluster → Cluster) : State := s.setCluster k (f (s.cluster k))
def State.engine (s : State) (e : Nat) : List EngJob := SMap.get [] s.engines e
def State.setEngine (s : State) (e : Nat) (l : List EngJob) : State := { s with engines := SMap.set [] s.engines e l }
def State.crcU (s : State) (u : Nat) : CrcU := SMap.get {} s.crcs u
def State.setCrcU (s : State) (u : Nat) (c : CrcU) : State := { s with crcs := SMap.set {} s.crcs u c }

def State.rdFault (s : State) (n : Nat) : RdFault := SMap.get {} s.rdflt n
def State.setRdFault (s : State) (n : Nat) (c : RdFault) : State := { s with rdflt := SMap.set {} s.rdflt n c }
def State.edge (s : State) (k : Nat) : Edge := SMap.get {} s.edges k
def State.setEdge (s : State) (k : Nat) (c : Edge) : State := { s with edges := SMap.set {} s.edges k c }
def State.modEdge (s : State) (k : Nat) (f : Edge → Edge) : State := s.setEdge k (f (s.edge k))

def State.modFlt (s : State) (f : Handling → Handling) : State := { s with flt := f s.flt }
def State.modPwr (s : State) (f : Power → Power) : State := { s with pwr := f s.pwr }
def State.modStore (s : State) (n : Nat) (f : Store → Store) : State := s.setStore n (f (s.store n))
def State.modHc (s : State) (h : Nat) (f : HCore → HCore) : State := s.setHc h (f (s.hc h))
def State.modQueue (s : State) (q : Nat) (f : QSt → QSt) : State := s.setQueue q (f (s.queue q))

/-- A fence is set (R21, R23). -/
def State.addFence (s : State) (f : Fence) : State := s.modFlt fun h => { h with fences := h.fences ++ [f] }

/-! Clocks -/

/-- The counter in whole nanoseconds (R36). -/
def State.now (s : State) : Nat := s.fld F.TMB_NOW.NS

/-- The number of the last tick (R50). -/
def State.tickNo (s : State) : Nat := s.fld F.GEY_TICK.TICK

/-- The array cycle within the running frame (R49). -/
def State.frameCyc (s : State) : Nat := (s.gey.arr - s.gey.frame0) / 625

/-- The array cycle since power-up. -/
def State.cyc (s : State) : Nat := s.gey.arr / 625

/-- The tick period of a PERIOD code, in ns (Table 2-2). -/
def periodNs (p : Nat) : Nat := 62500 * 2 ^ (p % 4)

/-- Minimum array cycles of a frame (Table 2-2). -/
def nMin (p : Nat) : Nat :=
  match p % 4 with
  | 0 => 65620
  | 1 => 131244
  | 2 => 262491
  | _ => 524986

/-- The GPS epoch on the PTP timescale (R46). -/
def t0Gps : Nat := 315964819000000000

/-- Offset of a counter time within its NR frame (R46). -/
def State.framePos (s : State) (t : Nat) : Nat :=
  (((t : Int) - t0Gps - s.fld F.GEY_FRAME_OFS.OFS) % 10000000).toNat

/-- The system frame number at a counter time (R46). -/
def State.sfnAt (s : State) (t : Nat) : Nat :=
  (((t : Int) - t0Gps - s.fld F.GEY_FRAME_OFS.OFS) / 10000000 % 1024).toNat

/-- The first frame boundary at or after a counter time (R46). -/
def State.boundaryFrom (s : State) (t : Nat) : Nat :=
  if s.framePos t = 0 then t else t + (10000000 - s.framePos t)

/-- The first frame boundary with a given SFN after a counter time (R52). -/
def State.boundarySfn (s : State) (t sfn : Nat) : Nat :=
  let b := t + (10000000 - s.framePos t)
  b + (sfn + 1024 - s.sfnAt b) % 1024 * 10000000

/-! Dies, fences and routes. Die index d: 0 to 11 MD, 12 to 23 SD, 24 to 27 RD, 28 to 31 ED (R427). -/

/-- Field and bit of die `d` in PKG_DIE_FENCE (Table 1-11). -/
def dieFld (off : Bool) (d : Nat) : Field × Nat :=
  if d < 12 then (if off then F.PKG_DIE_FENCE.MD_OFF else F.PKG_DIE_FENCE.MD_FEN, d)
  else if d < 24 then (if off then F.PKG_DIE_FENCE.SD_OFF else F.PKG_DIE_FENCE.SD_FEN, d - 12)
  else if d < 28 then (if off then F.PKG_DIE_FENCE.RD_OFF else F.PKG_DIE_FENCE.RD_FEN, d - 24)
  else (if off then F.PKG_DIE_FENCE.ED_OFF else F.PKG_DIE_FENCE.ED_FEN, d - 28)

/-- The die is powered off (Table 1-11). -/
def State.dieOff (s : State) (d : Nat) : Bool := bit (s.fld (dieFld true d).1) (dieFld true d).2

/-- The die's fence bit is 1 (R35). -/
def State.dieFen (s : State) (d : Nat) : Bool := bit (s.fld (dieFld false d).1) (dieFld false d).2

/-- The fuses enable the die (Table 1-10). -/
def State.dieEn (s : State) (d : Nat) : Bool :=
  if d < 12 then bit (s.fld F.PKG_DIE_EN.MD_EN) d
  else if d < 24 then bit (s.fld F.PKG_DIE_EN.SD_EN) (d - 12)
  else if d < 28 then bit (s.fld F.PKG_DIE_EN.RD_EN) (d - 24)
  else bit (s.fld F.PKG_DIE_EN.ED_EN) (d - 28)

/-- Set or clear a bit of a number. -/
def putBit (v i : Nat) (b : Bool) : Nat := if bit v i = b then v else if b then v + 2 ^ i else v - 2 ^ i

/-- Set or clear a die's bit of PKG_DIE_FENCE. -/
def State.setDieBit (s : State) (off : Bool) (d : Nat) (b : Bool) : State :=
  s.setFld (dieFld off d).1 0 (putBit (s.fld (dieFld off d).1) (dieFld off d).2 b)

/-- The memory of die `d` is out of reach: fused off, powered off or fenced; SDn with MDn (R32, R35). -/
def State.dieDown (s : State) (d : Nat) : Bool :=
  !s.dieEn d || s.dieOff d || s.dieFen d ||
    (decide (12 ≤ d ∧ d < 24) && (s.dieOff (d - 12) || s.dieFen (d - 12)))

/-- A die that is not in service: its fence bit or its power-off bit is 1. -/
def State.dieOut (s : State) (d : Nat) : Bool := !s.dieEn d || s.dieOff d || s.dieFen d

/-! Windows of BAR0 (Tables 1-6 and 1-7) -/

/-- Place of an index in nested dimensions. -/
def dimsOfs : List (Nat × Nat) → Nat → Nat
  | [], _ => 0
  | (st, _) :: l, i =>
    let n := (l.map Prod.snd).foldl (· * ·) 1
    st * (i / n) + dimsOfs l (i % n)

/-- BAR0 offset of instance ix of a register. -/
def RegKind.offset (k : RegKind) (ix : Nat) : Option Nat :=
  k.shapes.findSome? fun h =>
    let n := (h.dims.map Prod.snd).foldl (· * ·) 1
    if h.ix0 ≤ ix ∧ ix < h.ix0 + n then some (h.base + dimsOfs h.dims (ix - h.ix0)) else none

/-- The die whose window an offset lies in. -/
def windowDie (o : Nat) : Option Nat :=
  if 0x1000000 ≤ o ∧ o < 0x1C00000 then some ((o - 0x1000000) / 0x100000)
  else if 0x2000000 ≤ o ∧ o < 0x2400000 then some (24 + (o - 0x2000000) / 0x100000)
  else if 0x2400000 ≤ o ∧ o < 0x2800000 then some (28 + (o - 0x2400000) / 0x100000)
  else none

/-- An offset lies among the region fault registers of its die window (Table 1-7). -/
def faultWindow (o : Nat) : Bool :=
  let x := o % 0x100000
  if o < 0x2000000 then decide (0xA0000 ≤ x ∧ x < 0xC0000)
  else if o < 0x2400000 then decide (0xA0000 ≤ x ∧ x < 0xB0000)
  else decide (0xC0000 ≤ x ∧ x < 0xD0000)

/-- The window a register stands in takes writes: its die has power and no fence, but for the region fault registers of a fenced
die (R2, R29). -/
def State.takesWrite (s : State) (k : RegKind) (ix : Nat) : Bool :=
  match k.offset ix with
  | some o => (windowDie o).all fun d => s.dieEn d && !s.dieOff d && (!s.dieFen d || faultWindow o)
  | none => true

/-- A command that writes a register acts only where its window takes the write (R2, R29). -/
def State.wr (s : State) (k : RegKind) (ix : Nat) (f : State → State) : State := s.when (s.takesWrite k ix) f

/-- A fence stands on exactly this unit. -/
def State.fencedUnit (s : State) (u : FUnit) : Bool := s.flt.fences.any (fun f => f.unit == u)

/-- A test fence stands on a unit (R405). -/
def State.testFenced (s : State) (u : FUnit) : Bool := s.flt.fences.any (fun f => f.unit == u && f.test)

/-- Block of a matrix core, cluster, channel group or link group, and its tiles (Table 1-3, Table 12-6). -/
def unitDie : FUnit → Nat
  | .region d => d
  | .router d => d
  | .block d _ => d
  | .tile d _ _ => d

/-- The unit as SRC of Table 12-6: die, block, unit; a block is written with unit 127, and a region and its router with
block 15 and unit 127 (log entry 22). -/
def unitSrc : FUnit → Nat
  | .region d => d * 2048 + 2047
  | .router d => d * 2048 + 2047
  | .block d k => d * 2048 + k % 16 * 128 + 127
  | .tile d k u => d * 2048 + k % 16 * 128 + u % 128

/-- The unit a SRC names (log entry 22). -/
def unitOf (v : Nat) : FUnit :=
  let d := v / 2048 % 32
  let k := v / 128 % 16
  if v % 128 = 127 then (if k = 15 then .region d else .block d k) else .tile d k (v % 128)

/-- A unit takes no work itself: a fence stands on it, or it waits for the tick after its test (R408). -/
def State.unitHeld (s : State) (u : FUnit) : Bool := s.fencedUnit u || s.flt.returning.contains u

/-- A unit is out of service: it or its block takes no work, or its die is fenced or off. -/
def State.unitOut (s : State) (u : FUnit) : Bool :=
  s.dieOut (unitDie u) || s.unitHeld u ||
    match u with
    | .tile d k _ => s.unitHeld (.block d k)
    | _ => false

/-- Matrix core g is out of service. -/
def State.coreOut (s : State) (g : Nat) : Bool := s.unitOut (.block (g / 2) (g % 2))

/-- Array a of core g is fenced (R98). -/
def State.arrayOut (s : State) (g a : Nat) : Bool := s.unitOut (.tile (g / 2) (g % 2) a)

/-- Arrays of core g in service. -/
def State.arraysIn (s : State) (g : Nat) : List Nat := (List.range 4).filter (fun a => !s.arrayOut g a)

/-- Row and column of a top-layer die; a store die lies with its matrix die (Table 1-2). -/
def diePos (d : Nat) : Nat × Nat :=
  if d < 24 then (d % 12 % 4, 1 + d % 12 / 4)
  else if d < 28 then (1 + (d - 24) % 2, if d < 26 then 0 else 4)
  else ((d - 28) % 2 * 3, if d < 30 then 0 else 4)

/-- The top-layer die at a row and column (Table 1-2). -/
def dieAt (r c : Nat) : Nat :=
  if c = 0 then (if r = 0 then 28 else if r = 1 then 24 else if r = 2 then 25 else 29)
  else if c = 4 then (if r = 0 then 30 else if r = 1 then 26 else if r = 2 then 27 else 31)
  else (c - 1) * 4 + r

/-- The numbers strictly between two numbers, and the second one. -/
def walk (a b : Nat) : List Nat :=
  if a ≤ b then (List.range (b - a)).map (fun i => a + i + 1) else (List.range (a - b)).map (fun i => a - i - 1)

/-- The dies a route crosses after its source, row first or column first (R14, R16). -/
def pathOf (rowFirst : Bool) (src dst : Nat) : List Nat :=
  let (r1, c1) := diePos src
  let (r2, c2) := diePos dst
  if rowFirst then (walk c1 c2).map (dieAt r1) ++ (walk r1 r2).map (fun r => dieAt r c2)
  else (walk r1 r2).map (fun r => dieAt r c1) ++ (walk c1 c2).map (dieAt r2)

/-- The top-layer die of a die. -/
def topDie (d : Nat) : Nat := if 12 ≤ d ∧ d < 24 then d - 12 else d

/-- The router of a die is out of service: fenced, or its die powered off though enabled (R16; log entry 20). -/
def State.routerDown (s : State) (d : Nat) : Bool :=
  s.fencedUnit (.router d) || (s.dieEn d && s.dieOff d)

/-- The route in force between two dies, by the routes of the last tick boundary (R16, R17). -/
def State.routeOf (s : State) (src dst : Nat) : Option (List Nat) :=
  let via := fun p => (pathOf p src dst).filter (· != topDie dst)
  if (via true).all (fun d => !s.flt.routes.contains d) then some (via true)
  else if (via false).all (fun d => !s.flt.routes.contains d) then some (via false)
  else none

/-- A request from die `src` is delivered to die `dst` (R16, R17). -/
def State.reach (s : State) (src dst : Nat) : Bool :=
  topDie src == topDie dst ||
    (!s.routerDown (topDie src) && !s.routerDown (topDie dst) &&
      match s.routeOf src dst with
      | some p => p.all (fun d => !s.routerDown d)
      | none => false)

/-! The address map -/

/-- What a device physical address names (Table 1-8). -/
inductive Place where
  /-- Store: matrix die, die-local page, die-local address (R151). -/
  | store (n page d : Nat)
  | sram (n ofs : Nat)
  | rsram (n ofs : Nat)
  | dsp (n c ofs : Nat)
  | journal (ofs : Nat)
  | regs (ofs : Nat)
  | host (ofs : Nat)
  | none
  deriving DecidableEq, Repr

/-- The die and die-local address of a store address (R151). -/
def storeMap (a : Nat) : Nat × Nat :=
  let t := a / 0x1800000000
  let q := a - t * 0x1800000000
  let p := q / 2 ^ 21
  let o := q % 2 ^ 21
  (4 * t + ((bits p 1 0 ^^^ bits p 5 4) ^^^ (bits p 9 8 ^^^ bits p 13 12)), p / 4 * 2 ^ 21 + o)

/-- Channel of a die-local store address (R151). -/
def storeCh (d : Nat) : Nat := (bits d 11 8 ^^^ bits d 15 12) ^^^ (bits d 19 16 ^^^ bits d 23 20)

/-- Bank group of a die-local store address (R151). -/
def storeBg (d : Nat) : Nat := bits d 14 12 ^^^ bits d 26 24

/-- The channel-local address of a die-local address (R151). -/
def storeLocal (d : Nat) : Nat := d / 2 ^ 12 * 2 ^ 8 + d % 2 ^ 8

/-- The place an address names (R31). -/
def place (a : Nat) : Place :=
  if a < 0x4800000000 then .store (storeMap a).1 ((storeMap a).2 / 2 ^ 21) (storeMap a).2
  else if a < 0x8000000000 then .none
  else if a < 0x8060000000 then .sram ((a - 0x8000000000) / 0x8000000) ((a - 0x8000000000) % 0x8000000)
  else if a < 0x8100000000 then .none
  else if a < 0x8108000000 then .rsram ((a - 0x8100000000) / 0x2000000) ((a - 0x8100000000) % 0x2000000)
  else if a < 0x8200000000 then .none
  else if a < 0x8208000000 then
    let o := (a - 0x8200000000) % 0x80000
    if o < 0x50000 then
      .dsp ((a - 0x8200000000) / 0x2000000) ((a - 0x8200000000) % 0x2000000 / 0x80000) o
    else .none
  else if a < 0xF000000000 then .none
  else if a < 0xF000400000 then .journal (a - 0xF000000000)
  else if a < 0xFF00000000 then .none
  else if a < 0xFF04000000 then .regs (a - 0xFF00000000)
  else if a < 0x800000000000 then .none
  else if a < 0x1000000000000 then .host (a - 0x800000000000)
  else .none

/-- Who makes an access: its basin, whether it is the physical function, its die, its SRC, and the tag of its command
(R32, R33, R427). -/
structure Who where
  basin : Nat := 0
  pf : Bool := false
  die : Nat
  src : Nat := 0
  tag : Nat := 0
  deriving DecidableEq, Repr

/-- The address lies in the host-memory window of tenant basin b (R208). -/
def State.inWindow (s : State) (b a : Nat) : Bool :=
  decide (s.fld F.BSN_HMW_BASEb.BASE b ≤ a / 4096 ∧ a / 4096 ≤ s.fld F.BSN_HMW_LIMITb.LIMIT b)

/-- The PCIe port a basin's host accesses use (R415), on the edge die of the same number. -/
def State.portOf (s : State) (b : Nat) : Nat := s.fld F.BSN_STATEb.PORT b

/-- One address may be accessed by this requester (R32, R33, R162, R163). The journal is no memory of its die, and host memory lies
beyond the edge die of a port: both are out of reach only where no route leads there (R16). -/
def State.okAddr (s : State) (w : Who) (write : Bool) (a : Nat) : Bool :=
  match place a with
  | .store n p _ =>
    !s.dieDown n && !s.dieDown (12 + n) && s.reach w.die n &&
      (if w.pf then s.fld F.STR_PAGE_OWNERp.STATE (n * 12288 + p) != 2
       else s.fld F.STR_PAGE_OWNERp.STATE (n * 12288 + p) == 1 &&
         s.fld F.STR_PAGE_OWNERp.OWNER (n * 12288 + p) == w.basin)
  | .sram n o =>
    !s.dieDown n && s.reach w.die n &&
      (if w.pf then s.fld F.STR_SRAM_OWNERg.STATE (n * 128 + o / 2 ^ 20) != 2
       else s.fld F.STR_SRAM_OWNERg.STATE (n * 128 + o / 2 ^ 20) == 1 &&
         s.fld F.STR_SRAM_OWNERg.OWNER (n * 128 + o / 2 ^ 20) == w.basin)
  | .rsram n _ => (w.pf || w.basin == 0) && !s.dieDown (24 + n) && s.reach w.die (24 + n)
  | .dsp n _ _ => (w.pf || w.basin == 0) && !s.dieDown (24 + n) && s.reach w.die (24 + n)
  | .journal _ => (w.pf || w.basin == 0) && !write && s.reach w.die 28
  | .regs _ => w.pf || w.basin == 0
  | .host _ => s.reach w.die (28 + s.portOf w.basin) && (w.pf || w.basin == 0 || s.inWindow w.basin a)
  | .none => false

/-- The addresses at which the place of a range can change: its first byte and every 4 KiB boundary in it. -/
def points (a n : Nat) : List Nat :=
  a :: (List.range (n / 4096 + 1)).filterMap (fun i =>
    let p := (a / 4096 + i + 1) * 4096
    if p < a + n then some p else none)

/-- The first address of a range the requester may not access. -/
def State.badAddr (s : State) (w : Who) (write : Bool) (a n : Nat) : Option Nat :=
  (points a n).find? (fun p => !s.okAddr w write p)

/-! Memory -/

/-- One byte of memory; an unlisted byte is 0 (log entry 6). -/
def State.rd (s : State) (a : Nat) : Byte := SMap.get 0#8 s.mem a

/-- A range of memory. -/
def State.read (s : State) (a n : Nat) : List Byte := (List.range n).map (fun i => s.rd (a + i))

/-- A little-endian number of `n` bytes in memory. -/
def State.readNat (s : State) (a n : Nat) : Nat := natOf (s.read a n)

/-- Write bytes from an address up into a memory. -/
def putBytes : List Host.Cell → Nat → List Byte → List Host.Cell
  | m, _, [] => m
  | m, a, b :: bs => putBytes (SMap.set 0#8 m a b) (a + 1) bs

/-- Write a range of memory. -/
def State.write (s : State) (a : Nat) (d : List Byte) : State := { s with mem := putBytes s.mem a d }

/-- Write zeros to a range of memory. -/
def State.zero (s : State) (a n : Nat) : State :=
  { s with mem := s.mem.filter (fun c => !decide (a ≤ c.1 ∧ c.1 < a + n)) }

/-- The canonical form of memory: addresses strictly rising, no entry equal to 0. -/
def Memory.wf (m : List Host.Cell) : Bool := SMap.wf 0#8 m

/-- Bank group b of SDn (8 × channel + bank group) serves no access: fenced in place (R379), in a fenced channel group (log
entry 136), or under a test fence while no spare stands in for it (R405; log entry 89). -/
def State.bgOut (s : State) (n b : Nat) : Bool :=
  (s.store n).inPlace.contains b || s.fencedUnit (.block (12 + n) (b / 32)) ||
    (s.fencedUnit (.tile (12 + n) (b / 32) (b % 32)) && !(s.store n).spared.contains b)

/-- A line lies in a bank group that serves no access. -/
def State.lineOut (s : State) (l : Nat) : Bool :=
  match place (l * 64) with
  | .store n _ d => s.bgOut n (8 * storeCh d + storeBg d)
  | _ => false

/-- A line is poisoned: two or more of the three copies of its bit are set; in store the check pattern sets all (R157). -/
def State.poisonAt (s : State) (l : Nat) : Bool :=
  let c := SMap.get 0 s.poison l
  decide (2 ≤ c % 2 + c / 2 % 2 + c / 4 % 2)

/-- A line is poisoned (R157), or reads as poisoned because its bank group serves no access (R379). -/
def State.linePoison (s : State) (l : Nat) : Bool := s.poisonAt l || s.lineOut l

/-- Lines a range touches. -/
def linesOf (a n : Nat) : List Nat := if n = 0 then [] else (List.range ((a + n - 1) / 64 - a / 64 + 1)).map (· + a / 64)

/-- A range touches a poisoned line. -/
def State.rangePoison (s : State) (a n : Nat) : Bool := (linesOf a n).any s.linePoison

/-- Mark or clear the poison of a line. -/
def State.setPoison (s : State) (l : Nat) (b : Bool) : State :=
  { s with poison := SMap.set 0 s.poison l (if b then 7 else 0) }

/-- An error lies in a memory word within [a, a + n). -/
def flipIn (a n : Nat) (f : EccLoc × Nat) : Bool :=
  match f.1 with
  | .mem x => decide (a ≤ x ∧ x + 8 ≤ a + n)
  | _ => false

/-- Whole words written anew hold no error. -/
def State.dropFlips (s : State) (a n : Nat) : State := { s with flips := s.flips.filter fun f => !flipIn a n f }

/-- A range of lines written anew: neither poison nor an error stands in it. -/
def State.clearPoison (s : State) (a n : Nat) : State :=
  { s.dropFlips a n with poison := s.poison.filter (fun c => !decide (a / 64 ≤ c.1 ∧ c.1 < (a + n) / 64)) }

/-- The matrix die whose counters a memory line belongs to, and whether it is store (Table 5-7). -/
def eccFld (l : Nat) : Option (Bool × Nat) :=
  match place (l * 64) with
  | .store n _ _ => some (true, n)
  | .sram n _ => some (false, n)
  | _ => none

/-- Count a line written poisoned (Table 5-7, POISON_WR). -/
def State.countPoisonWr (s : State) (l : Nat) : State :=
  match eccFld l with
  | some (true, n) => s.incFld F.STR_ECC_CNT.POISON_WR n
  | some (false, n) => s.incFld F.STR_SRAM_ECC_CNT.POISON_WR n
  | none => s

/-- The poison of one line after a write that covers it wholly or in part (Table 5-3); what a merge read finds has poisoned the
line already. -/
def State.writePoison (s : State) (a n : Nat) (pois : Bool) (l : Nat) : State :=
  if pois then (s.setPoison l true).countPoisonWr l
  else if a ≤ l * 64 ∧ l * 64 + 64 ≤ a + n then s.setPoison l false
  else s

/-! Interrupts -/

/-- The PF of a port sends a vector, or sets its pending bit while it is masked (R417). -/
def State.msixPf (s : State) (port vec : Nat) : State :=
  if s.flag F.MSIX_PF.MASK (port * 2 + vec) then
    s.setFld F.MSIX_PBA.PEND port (putBit (s.fld F.MSIX_PBA.PEND port) vec true)
  else s.emit (.msix none port vec)

/-- The instance of the registers of VF b of a port (R414). -/
def vfIx (port b : Nat) : Nat := port * 256 + b

/-- VF b sends a vector on its port, or sets its pending bit while it is masked (R211). -/
def State.msixVf (s : State) (b vec : Nat) : State :=
  let v := vfIx (s.portOf b) b
  if s.flag F.MSIX_VF.MASK (v * 4 + vec) then
    s.setFld F.MSIX_VFPBA.PEND v (putBit (s.fld F.MSIX_VFPBA.PEND v) vec true)
  else s.emit (.msix (some b) (s.portOf b) vec)

/-- A host-core interrupt source asserts (R420). -/
def State.hcAssert (s : State) (h k : Nat) : State :=
  s.setFld F.HS_IP.VALUE h (putBit (s.fld F.HS_IP.VALUE h) k true)

/-- A host-core interrupt source ends without acknowledgement. -/
def State.hcClear (s : State) (h k : Nat) : State :=
  s.setFld F.HS_IP.VALUE h (putBit (s.fld F.HS_IP.VALUE h) k false)

/-! Event sources (R427) -/

/-- The server of a source is Caldera (Table 14-5). -/
def srvCaldera (n : Nat) : Bool := decide (n < 0x240 ∨ (0x340 ≤ n ∧ n < 0x440) ∨ (0x640 ≤ n ∧ n < 0x680))

/-- Source of group k of the region of die d (Table 14-5). -/
def regSrc (d k : Nat) : Nat := 0x40 + d * 16 + k

/-- Source of queue q of matrix core g (Table 14-5). -/
def coreSrc (g q : Nat) : Nat := 0x440 + g * 8 + q

/-- Source of queue q of radio cluster k (Table 14-5). -/
def clusterSrc (k q : Nat) : Nat := 0x500 + k * 16 + q

/-- The die of a source, where it has one (Table 14-5). -/
def srcDie (n : Nat) : Option Nat :=
  if 0x40 ≤ n ∧ n < 0x240 then some ((n - 0x40) / 16)
  else if 0x440 ≤ n ∧ n < 0x500 then some ((n - 0x440) / 16)
  else if 0x500 ≤ n ∧ n < 0x600 then some (24 + (n - 0x500) / 64)
  else if 0x600 ≤ n ∧ n < 0x640 then some (28 + (n - 0x600) / 16)
  else none

/-- The rung of an occurrence: 4 for a fault that recurs on its unit within 1 h after a warm reset that was recommended for
it (Table 13-2). -/
def State.rungOf (s : State) (n : Nat) (c : EvCap) (rung : Nat) : Nat :=
  if s.flt.renewed.any fun e => e.1 == (n, c.mech, c.data) && decide (s.tmb.clk < e.2 + 3600 * 156250000) then 4 else rung

/-- FLT_STATUS.RUNG holds the highest rung recommended since RUNG_CLR (R392); a fault that asks for a warm reset is kept. -/
def State.recommended (s : State) (n : Nat) (c : EvCap) (rung : Nat) : State :=
  let s := s.when (rung == 3 && !s.flt.asked.contains (n, c.mech, c.data)) fun s =>
    s.modFlt fun h => { h with asked := h.asked ++ [(n, c.mech, c.data)] }
  s.when (rung != 0) fun s => s.setFld F.FLT_STATUS.RUNG 0 (max (s.fld F.FLT_STATUS.RUNG) rung)

/-- A source asserts and captures, or counts a further occurrence; a source of a powered-off die adds none (R427,
R432, R462). The rung recommended for the occurrence is that of Table 13-2 (R392). -/
def State.raise (s : State) (n : Nat) (c : EvCap) (rung : Nat := 0) : State :=
  let rung := s.rungOf n c rung
  if s.flag F.EVC_SRCn.ACTIVE n then
    if (srcDie n).any s.dieOff then s
    else
      let s := s.recommended n c rung
      (s.incFld F.EVC_SRCn.COUNT n).setFld F.EVC_SRCn.RUNG n (max (s.fld F.EVC_SRCn.RUNG n) rung)
  else
    let s := s.recommended n c rung
    let s := ((s.setFld F.EVC_SRCn.ACTIVE n 1).setFld F.EVC_SRCn.COUNT n 1).setFld F.EVC_SRCn.RUNG n rung
    let s := (s.setFld F.EVC_SRCn.INSVC n 0).setEvCap n c
    if srvCaldera n then s else s.hcAssert (s.fld F.EVC_CTRL.SRVHC) 0

/-- The generation of a basin (R215). -/
def State.gen (s : State) (b : Nat) : Nat := s.fld F.BSN_STATEb.GEN b

/-! The journal's queue and the region's fault registers -/

/-- Hand Caldera a record to write (R382). -/
def State.journal (s : State) (kind level src data : Nat) (perm : Bool := false) : State :=
  { s with flt := { s.flt with jrnl := s.flt.jrnl ++
    [{ kind, level, backup := s.pwr.backup, perm, src, time := s.now, data,
       tick := if s.pwr.backup then 0 else s.tickNo % 2 ^ 32 }] } }

/-- An event record; where its handling recommends a rung it is journaled too, and `src` is its unit (R382, R392). -/
def State.report (s : State) (n : Nat) (c : EvCap) (src rung : Nat) : State :=
  (s.when (rung != 0) fun s => s.journal c.mech c.level src c.data).raise n c rung

/-- The unit of a queue, as SRC of Table 12-6: its core, its cluster, or the LDPC or CRC block of its engines. -/
def queueUnit (q : Nat) : Nat :=
  if q < 192 then unitSrc (.block (q / 16) (q / 8 % 2))
  else if q < 320 then unitSrc (.block (24 + (q - 192) / 32) ((q - 192) / 8 % 4))
  else unitSrc (.tile (24 + (q - 320) / 18) 4 ((q - 320) % 18))

/-- Record the last fault of a region (R378, Table 12-13). -/
def State.lastFault (s : State) (d mech src level : Nat) (inj : Bool := false) : State :=
  ((((s.setFld F.FLT_RG_LAST.MECH d mech).setFld F.FLT_RG_LAST.UNIT d src).setFld F.FLT_RG_LAST.LEVEL d level).setFld
    F.FLT_RG_LAST.INJ d (b2n inj)).setFld F.FLT_RG_LAST.TICK d (s.tickNo % 2 ^ 37)

/-- Count an action in its region by the level of its handler (R378). -/
def State.countAction (s : State) (d level : Nat) : State :=
  match level with
  | 0 => s.incFld F.FLT_RG_CNT.TILE d
  | 1 => s.incFld F.FLT_RG_CNT.BLOCK d
  | 2 => s.incFld F.FLT_RG_CNT2.REGION d
  | _ => s.incFld F.FLT_RG_CNT2.PKG d

/-- The record of an address fault (R32, R427). -/
def State.addrFault (s : State) (w : Who) (a : Nat) : State :=
  s.raise (regSrc w.die 14)
    { basin := w.basin, gen := s.gen w.basin, data := w.src % 2 ^ 16, ext := true, xdata := a, xdata1 := w.tag % 2 ^ 16 }

end Sys2Proof.Machine
end

