-- ==== Sys2Proof/Machine/Flags.lean ====
section
/-! DEFINITION. Check codes and saturation rules: the CRCs of R43, R257, R382 and R303, residues modulo 7 (R92), and
the alarms of Table 12-7. -/

namespace Sys2Proof.Machine

/-- One bit into an unreflected CRC register of width w. -/
def crcBit (w poly reg : Nat) (b : Bool) : Nat :=
  let top := bit reg (w - 1) != b
  let r := reg * 2 % 2 ^ w
  if top then r ^^^ poly else r

/-- Bits of a byte, most significant first. -/
def msbBits (b : Byte) : List Bool := (List.range 8).map (fun i => bit b.toNat (7 - i))

/-- Bits of a byte, least significant first. -/
def lsbBits (b : Byte) : List Bool := (List.range 8).map (fun i => bit b.toNat i)

/-- An unreflected CRC over bits in order. -/
def crcOver (w poly init : Nat) (l : List Bool) : Nat := l.foldl (crcBit w poly) init

/-- Reverse the low w bits. -/
def reflect (w v : Nat) : Nat := natOfBits ((List.range w).map (fun i => bit v (w - 1 - i)))

/-- The CRC-8 of a time-of-day message (R43). -/
def crc8 (d : List Byte) : Nat := crcOver 8 0x07 0 (d.flatMap msbBits)

/-- CRC-32 with polynomial 0x04C1_1DB7, reflected, initial and final value all ones (Table 8-12, R382). -/
def crc32 (d : List Byte) : Nat :=
  reflect 32 (crcOver 32 0x04C11DB7 0xFFFFFFFF (d.flatMap lsbBits)) ^^^ 0xFFFFFFFF

/-- A signed number modulo 7 (R92). -/
def mod7 (i : Int) : Nat := (i % 7).toNat

/-- An in-band interrupt on I3C when a flag becomes 1 (R440). -/
def State.ibi (s : State) : State :=
  s.when s.pwr.i3cIbi (fun s => s.emit (.ibi (s.fld F.FLT_ALERT.ALARM)))

/-- A backup-cell alarm of Table 12-7: FLT_ALERT, ALERT_N, its journal record and its event record (R384). -/
def State.alarm (s : State) (code : Nat) (rung : Nat := 0) : State :=
  let new := !bit (s.fld F.FLT_ALERT.ALARM) code
  let s := s.setFld F.FLT_ALERT.ALARM 0 (putBit (s.fld F.FLT_ALERT.ALARM) code true)
  let s := (s.setFld F.FLT_STATUS.ALERT 0 1).when new State.ibi
  let s := s.journal (code + 0x80) 3 (unitSrc (.region 28)) code
  s.raise 0x00B { mech := code + 0x80, level := 3, data := code } rung

/-- An alarm that Table 12-7 raises only while the island runs from the backup cell (R384). -/
def State.backupAlarm (s : State) (code : Nat) (rung : Nat := 0) : State :=
  s.when s.pwr.backup (fun s => s.alarm code rung)

/-- Throttle, operating and critical limit of die d in units of 1/16 °C (Table 15-5). -/
def tjLimits (d : Nat) : Int × Int × Int :=
  if 12 ≤ d ∧ d < 24 then (1440, 1520, 1680) else if d < 28 then (1600, 1680, 1840) else (1520, 1600, 1760)

/-- The junction temperature of die d (Table 15-14). -/
def State.tj (s : State) (d : Nat) : Int := sext 16 (s.fld F.PWR_DIEd.TJ d)

/-- Die d is at its throttle limit (R452). -/
def State.hot (s : State) (d : Nat) : Bool := decide ((tjLimits d).1 ≤ s.tj d)

end Sys2Proof.Machine
end

