-- ==== Sys2Proof/Machine/Aes.lean ====
section
/-! DEFINITION. AES-256 in XTS mode, which encrypts every store line (R165): FIPS 197 and IEEE 1619, which the rule names
(log entry 8). Bytes are numbers below 256; a block is 16 of them in order. -/

namespace Sys2Proof.Machine

/-- Multiplication by x in the field of AES. -/
def aesX (a : Nat) : Nat := if a < 128 then 2 * a else (2 * a) ^^^ 0x11B

/-- The product of two elements of the field of AES. -/
def aesMul (a b : Nat) : Nat :=
  ((List.range 8).foldl (fun (r, a) i => (if bit b i then r ^^^ a else r, aesX a)) (0, a)).1

/-- The inverse of an element, a to the power 254; 0 for 0. -/
def aesInv (a : Nat) : Nat :=
  ((List.range 7).foldl (fun (r, p) _ => (aesMul r (aesMul p p), aesMul p p)) (1, a)).1

/-- A byte rotated left by k bits. -/
def rotl8 (a k : Nat) : Nat := a * 2 ^ k % 256 + a * 2 ^ k / 256

/-- SubBytes of one byte. -/
def aesSub (a : Nat) : Nat :=
  let i := aesInv a
  (i ^^^ rotl8 i 1) ^^^ (rotl8 i 2 ^^^ rotl8 i 3) ^^^ (rotl8 i 4 ^^^ 0x63)

/-- The inverse of SubBytes of one byte. -/
def aesSubInv (a : Nat) : Nat := aesInv ((rotl8 a 1 ^^^ rotl8 a 3) ^^^ (rotl8 a 6 ^^^ 0x05))

/-- Two byte strings added in the field. -/
def xorBytes (a b : List Nat) : List Nat := List.zipWith (· ^^^ ·) a b

/-- The key schedule of AES-256: word i from the words before it, newest first. -/
def aesWords (key : List Nat) : Nat → List (List Nat)
  | 0 => []
  | i + 1 =>
    let l := aesWords key i
    if i < 8 then ((key.drop (4 * i)).take 4) :: l
    else
      let t := l.headD []
      let t := if i % 8 = 0 then
          let r := (t.drop 1 ++ t.take 1).map aesSub
          xorBytes r [2 ^ (i / 8 - 1), 0, 0, 0]
        else if i % 8 = 4 then t.map aesSub else t
      xorBytes (l.getD 7 []) t :: l

/-- The 15 round keys, 16 bytes each. -/
def aesKeys (key : List Nat) : List (List Nat) :=
  let w := (aesWords key 60).reverse
  (List.range 15).map fun r => ((w.drop (4 * r)).take 4).flatten

/-- ShiftRows by a step (1, or 3 for its inverse). -/
def aesShift (k : Nat) (b : List Nat) : List Nat := (List.range 16).map fun i => b.getD ((i + 4 * k * (i % 4)) % 16) 0

/-- MixColumns with the coefficients of one row. -/
def aesMix (m : List Nat) (b : List Nat) : List Nat :=
  (List.range 16).map fun i =>
    ((List.range 4).map fun j => aesMul (m.getD ((j + 4 - i % 4) % 4) 0) (b.getD (i / 4 * 4 + j) 0)).foldl (· ^^^ ·) 0

/-- One block encrypted. -/
def aesEnc (keys : List (List Nat)) (b : List Nat) : List Nat :=
  (List.range 14).foldl (fun b r =>
    let b := aesShift 1 (b.map aesSub)
    xorBytes (if r = 13 then b else aesMix [2, 3, 1, 1] b) (keys.getD (r + 1) [])) (xorBytes b (keys.getD 0 []))

/-- One block decrypted. -/
def aesDec (keys : List (List Nat)) (b : List Nat) : List Nat :=
  (List.range 14).foldl (fun b r =>
    let b := xorBytes b (keys.getD (14 - r) [])
    (aesShift 3 (if r = 0 then b else aesMix [14, 11, 13, 9] b)).map aesSubInv) b |> (xorBytes · (keys.getD 0 []))

/-- The little-endian bytes of a number. -/
def bytesLe : Nat → Nat → List Nat
  | 0, _ => []
  | n + 1, v => v % 256 :: bytesLe n (v / 256)

/-- The number little-endian bytes give. -/
def leNat : List Nat → Nat
  | [] => 0
  | b :: l => b + 256 * leNat l

/-- The XTS tweak of block j of a data unit: the encrypted unit number times the j-th power of x (IEEE 1619). -/
def xtsTweak (k2 : List (List Nat)) (unit j : Nat) : List Nat :=
  bytesLe 16 ((List.range j).foldl (fun t _ => if t < 2 ^ 127 then 2 * t else (2 * t - 2 ^ 128) ^^^ 0x87)
    (leNat (aesEnc k2 (bytesLe 16 unit))))

/-- A 64-byte line encrypted, or decrypted, under a 512-bit key pair, data key first (low), with its die-local line address as
the tweak (R165). -/
def xts (enc : Bool) (key line : Nat) (d : List Byte) : List Byte :=
  let k1 := aesKeys (bytesLe 32 (key % 2 ^ 256))
  let k2 := aesKeys (bytesLe 32 (key / 2 ^ 256))
  (List.range 4).flatMap fun j =>
    let t := xtsTweak k2 line j
    let b := xorBytes (((d.drop (16 * j)).take 16).map BitVec.toNat) t
    (xorBytes (if enc then aesEnc k1 b else aesDec k1 b) t).map (BitVec.ofNat 8)

end Sys2Proof.Machine
end

