-- ==== Sys2Proof/Machine/Mem.lean ====
section
/-! DEFINITION. Memory as the requesters meet it: the error code (R155, R156), poison (R158, R159), free and fenced
store (R163, R379), doorbell lines (R183), host memory (R415), the shared read and write every unit uses, and the remote-read cache (R206, R315). -/

namespace Sys2Proof.Machine

/-! Doorbell lines -/

/-- The event source of a queue (Table 14-5): matrix queues, cluster queues, engine queues (log entry 30). -/
def queueSrc (q : Nat) : Nat :=
  if q < 192 then coreSrc (q / 8) (q % 8)
  else if q < 320 then clusterSrc ((q - 192) / 8) ((q - 192) % 8)
  else clusterSrc ((q - 320) / 18 * 4) 8

/-- The basin a queue belongs to (R182). -/
def State.queueBasin (s : State) (q : Nat) : Nat :=
  if q < 192 ∧ q % 8 = 0 then 0 else s.fld F.MXC_Qq_CTRL.BASIN q

/-- Ring size of a queue (R182). -/
def State.queueSize (s : State) (q : Nat) : Nat := 2 ^ s.fld F.MXC_Qq_CTRL.LOG2SIZE q

/-- Free-running 32-bit difference. -/
def diff32 (a b : Nat) : Nat := (a + 2 ^ 32 - b % 2 ^ 32) % 2 ^ 32

/-- The queue takes an error: it stops dispatching and writes an event record (R184). -/
def State.queueError (s : State) (q tag : Nat) : State :=
  if s.flag F.MXC_Qq_STATUS.QERR q then s
  else (s.setFld F.MXC_Qq_STATUS.QERR q 1).report (queueSrc q)
    { basin := s.queueBasin q, gen := s.gen (s.queueBasin q), data := tag } (queueUnit q) 2

/-- A write of TAIL reaches the queue unit (R183, R184). -/
def State.newTail (s : State) (q t : Nat) : State :=
  let qs := s.queue q
  let s := s.setQueue q { qs with tail := t, bells := if t = qs.tail then qs.bells else qs.bells ++ [(t, s.gey.arr)] }
  s.when (decide (s.queueSize q < diff32 t (s.fld F.MXC_Qq_STATUS.HEAD q))) (fun s => s.queueError q 0)

/-- The queues whose doorbell line is programmed, with the line (only programmed fields stand in the register map). -/
def State.doorbells (s : State) : List (Nat × Nat) :=
  s.regs.filterMap (fun (k, v) =>
    if k % 131072 = F.MXC_Qq_DBL.LINE.key 0 then some (k / 131072, v / 64 * 64) else none)

/-- Writes to bytes 0 to 3 and 8 to 11 of a doorbell line pass to the queue unit (R183). -/
def State.ring (s : State) (a n : Nat) : State :=
  s.doorbells.foldl (fun s (q, l) =>
    let s := s.when (decide (a < l + 4 ∧ l < a + n)) (fun s => s.newTail q (s.readNat l 4))
    s.when (decide (a < l + 12 ∧ l + 8 < a + n)) (fun s => s.setQueue q { s.queue q with cqHead := s.readNat (l + 8) 4 })) s

/-! Free store pages -/

/-- The bytes of a 64-byte line of a free page as stored (R163): ciphertext under the key of the former owner, or the
bytes the physical function wrote. -/
def State.storedLine (s : State) (n d l : Nat) : List Byte :=
  let st := s.store n
  if st.rawLines.contains (d / 64) then s.read (l * 64) 64
  else match SMap.get none st.pageKey (d / 2 ^ 21) with
    | some k => xts true k (d / 64) (s.read (l * 64) 64)
    | none => s.read (l * 64) 64

/-- A store page is free. -/
def State.pageFree (s : State) (n p : Nat) : Bool := s.fld F.STR_PAGE_OWNERp.STATE (n * 12288 + p) == 0

/-- The die and the die-local address of a line that lies in a free page. -/
def State.freeLine (s : State) (l : Nat) : Option (Nat × Nat) :=
  match place (l * 64) with
  | .store m p d => if s.pageFree m p then some (m, d) else none
  | _ => none

/-- A range of memory as the physical function or an owner sees it, line by line (R163). -/
def State.view (s : State) (a n : Nat) : List Byte :=
  if (linesOf a n).all fun l => (s.freeLine l).isNone then s.read a n
  else slice ((linesOf a n).flatMap fun l => match s.freeLine l with
    | some (m, d) => s.storedLine m d l
    | none => s.read (l * 64) 64) (a % 64) n

/-- Before the physical function writes to lines of free pages they stand as stored (R163). -/
def State.rawFill (s : State) (a n : Nat) : State :=
  (linesOf a n).foldl (fun s l => match s.freeLine l with
    | some (m, d) =>
      let v := s.storedLine m d l
      let st := s.store m
      (s.write (l * 64) v).setStore m { st with rawLines := d / 64 :: st.rawLines.filter (· != d / 64) }
    | none => s) s

/-! Errors in memory (R155, R156) -/

/-- The die region a memory line belongs to and the mechanism that watches it: 6 for store, 5 for SRAM (Table 12-1). -/
def memDie (a : Nat) : Nat × Nat :=
  match place a with
  | .store n _ _ => (12 + n, 6)
  | .sram n _ => (n, 5)
  | .rsram n _ => (24 + n, 5)
  | .dsp n _ _ => (24 + n, 5)
  | _ => (28, 5)

/-- SRC of a memory line: the channel group and bank group of store, the die otherwise (Table 12-6). -/
def memSrc (a : Nat) : Nat :=
  match place a with
  | .store n _ d => unitSrc (.tile (12 + n) (storeCh d / 4) (storeCh d % 4 * 8 + storeBg d))
  | _ => unitSrc (.region (memDie a).1)

/-- What the code makes of the bits in error of a word. -/
inductive EccRes where
  | corrected
  | uncorrectable
  /-- Not detected: the data bits that come out wrong. -/
  | silent (x : Nat)
  deriving DecidableEq, Repr

/-- The code of R155: of store, 20 aligned 4-bit symbols, one corrected and two detected; elsewhere one bit corrected and two
detected. What more errors do is the code's own (log entry 161). -/
def eccClass (store : Bool) (p : Nat) : EccRes :=
  let n := if store then ((List.range 20).filter fun i => p / 16 ^ i % 16 != 0).length
    else ((List.range 72).filter fun i => bit p i).length
  if n ≤ 1 then .corrected else if n = 2 then .uncorrectable
  else match Config.eccMiss store p with
    | none => .uncorrectable
    | some x => .silent (x % 2 ^ 64)

/-- The word at an address lies in store. -/
def isStore (a : Nat) : Bool :=
  match place a with
  | .store _ _ _ => true
  | _ => false

/-- A word that an error code protects stands at an address. -/
def hasEcc (a : Nat) : Bool :=
  match place a with
  | .regs _ => false
  | .host _ => false
  | .none => false
  | _ => true

/-- An error in a memory counter's word is corrected: the count rises and the tile action ends it (R156, R378). -/
def State.eccCorrected (s : State) (cnt : Option (Bool × Nat)) (d mech src : Nat) : State :=
  let s := match cnt with
    | some (true, n) => s.incFld F.STR_ECC_CNT.CORR n
    | some (false, n) => s.incFld F.STR_SRAM_ECC_CNT.CORR n
    | none => s
  (s.countAction d 0).lastFault d mech src 0

/-- An uncorrectable error: counted, journaled, and reported by an event record that names the line (R156, R382). -/
def State.eccLost (s : State) (cnt : Option (Bool × Nat)) (d mech src line : Nat) : State :=
  let s := match cnt with
    | some (true, n) => s.incFld F.STR_ECC_CNT.UNCORR n
    | some (false, n) => s.incFld F.STR_SRAM_ECC_CNT.UNCORR n
    | none => s
  let s := ((s.countAction d 0).lastFault d mech src 0).journal mech 0 src line
  s.raise (regSrc d mech) { mech, data := src, ext := true, xdata := line }

/-- STR_ECC_LAST takes the line of an uncorrectable store word (Table 5-8). -/
def State.eccLast (s : State) (a : Nat) (patrol : Bool) : State :=
  match place a with
  | .store n _ x =>
    let s := ((s.setFld F.STR_ECC_LAST.LINE n (x / 64)).setFld F.STR_ECC_LAST.CH n (storeCh x)).setFld
      F.STR_ECC_LAST.BG n (storeBg x)
    (s.setFld F.STR_ECC_LAST.PATROL n (b2n patrol)).setFld F.STR_ECC_LAST.VALID n 1
  | _ => s

/-- A word delivered wrong: of an encrypted store line the stored ciphertext is wrong, and with it its plaintext (R165). -/
def State.eccSilent (s : State) (a x : Nat) : State :=
  let l := a / 64
  let key := match place a with
    | .store n p d =>
      let st := s.store n
      if st.rawLines.contains (d / 64) then none
      else if s.pageFree n p then (SMap.get none st.pageKey p).map (·, d / 64)
      else (SMap.get none st.keys (s.fld F.STR_PAGE_OWNERp.OWNER (n * 12288 + p))).map (·, d / 64)
    | _ => none
  let flip := fun (b : List Byte) => bytesOf 64 (natOf b ^^^ (x * 2 ^ (8 * (a % 64))))
  match key with
  | some (k, t) => s.write (l * 64) (xts false k t (flip (xts true k t (s.read (l * 64) 64))))
  | none => s.write (l * 64) (flip (s.read (l * 64) 64))

/-- A read or the patrol meets the error in the word at `a` (R156): corrected and written back; uncorrectable, the line is
poisoned. -/
def State.eccHit (s : State) (a p : Nat) (patrol : Bool := false) : State :=
  let s := { s with flips := s.flips.filter fun f => f.1 != EccLoc.mem a }
  let (d, mech) := memDie a
  match eccClass (isStore a) p with
  | .corrected => s.eccCorrected (eccFld (a / 64)) d mech (memSrc a)
  | .uncorrectable => ((s.setPoison (a / 64) true).eccLast a patrol).eccLost (eccFld (a / 64)) d mech (memSrc a) (a / 64 * 64)
  | .silent x => s.eccSilent a x

/-- A range is read: every error in a word it touches is met. -/
def State.meet (s : State) (a n : Nat) (patrol : Bool := false) : State :=
  (s.flips.filter (flipIn (a / 8 * 8) ((a + n + 7) / 8 * 8 - a / 8 * 8))).foldl (fun s f => match f.1 with
    | .mem x => s.eccHit x f.2 patrol
    | _ => s) s

/-- Several ranges are read. -/
def State.meetAll (s : State) (l : List (Nat × Nat)) : State := l.foldl (fun s r => s.meet r.1 r.2) s

/-- A write of part of a word reads and merges it; words written whole hold no error after it (R158). -/
def State.meetMerge (s : State) (a n : Nat) : State :=
  let s := s.when (a % 8 != 0) fun s => s.meet a 1
  (s.when ((a + n) % 8 != 0) fun s => s.meet (a + n - 1) 1).dropFlips ((a + 7) / 8 * 8) ((a + n) / 8 * 8 - (a + 7) / 8 * 8)

/-- The place a memory error is kept under: whole words. -/
def eccPlace : EccLoc → EccLoc
  | .mem a => .mem (a / 8 * 8)
  | l => l

/-- An error arises (R155, R157). Errors of one word add up bit by bit; a poison bit is kept in copies outside store only. -/
def State.strike (s : State) : Ecc → State
  | .clean => s
  | .flip (.poisonBit l k) _ _ =>
    if hasEcc (l * 64) && !isStore (l * 64) then
      { s with poison := SMap.set 0 s.poison l (SMap.get 0 s.poison l ^^^ 2 ^ (k % 3)) }
    else s
  | .flip loc data check =>
    let loc := eccPlace loc
    let ok := match loc with
      | .mem a => hasEcc a
      | _ => true
    let wide := match loc with
      | .mem a => isStore a
      | _ => false
    let c := if wide then check.toNat else check.toNat % 256
    let old := ((s.flips.find? fun f => f.1 == loc).map Prod.snd).getD 0
    let p := old ^^^ (data.toNat + c * 2 ^ 64)
    let rest := s.flips.filter fun f => f.1 != loc
    if ok then { s with flips := if p = 0 then rest else rest ++ [(loc, p)] } else s

/-- R159: an error of a line that this write covers wholly is found by a read of the same cycle; the write then stands. -/
def State.strikeWrite (s : State) (a n : Nat) (e : Ecc) : State :=
  let s := s.strike e
  match e with
  | .flip (.mem x) _ _ => s.when (decide (a ≤ x / 64 * 64 ∧ x / 64 * 64 + 64 ≤ a + n)) fun s => s.meet x 1
  | _ => s

/-! The shared write -/

/-- A write to store lines, without those in bank groups that serve no access (R379). -/
def State.storeWrite (s : State) (a : Nat) (d : List Byte) : State :=
  if (linesOf a d.length).all fun l => !s.lineOut l then s.write a d
  else (linesOf a d.length).foldl (fun s l =>
    let lo := max a (l * 64)
    let hi := min (a + d.length) (l * 64 + 64)
    if s.lineOut l then s.incFld F.FLT_RG_CNT.DROPWR (12 + (storeMap (l * 64)).1)
    else s.write lo ((d.drop (lo - a)).take (hi - lo))) s

/-- The poison of every line a write touches (R158). -/
def State.poisonWrite (s : State) (a n : Nat) (pois : Bool) : State :=
  (linesOf a n).foldl (fun s l => s.writePoison a n pois l) s

/-- Write a range for a basin, its reach already checked: memory, poison, doorbell lines, host memory as a write TLP of
the basin's function (R415), register space as register writes. -/
def State.put (s : State) (basin a : Nat) (d : List Byte) (pois : Bool := false) : State :=
  if d.isEmpty then s else
  match place a with
  | .regs o => { s with mmio := s.mmio ++ [(o, d)] }
  | .host o =>
    ((s.write a d).poisonWrite a d.length pois).emit
      (.hostWrite (if basin = 0 then none else some basin) (s.portOf basin) o d pois)
  | .store _ _ _ => (((s.meetMerge a d.length).rawFill a d.length).storeWrite a d).poisonWrite a d.length pois
  | .none => s
  | _ => (((s.meetMerge a d.length).write a d).poisonWrite a d.length pois).ring a d.length

/-- A write the device itself makes to a ring, a line or a table a register names; one that would fall into register
space is not made (log entry 58). -/
def State.putRam (s : State) (basin a : Nat) (d : List Byte) (pois : Bool := false) : State :=
  match place a with
  | .regs _ => s
  | _ => s.put basin a d pois

/-! Requesters -/

/-- The requester of a memory access as R32 and R33 see it. -/
def State.who (s : State) : Master → Who
  | .pf port => { pf := true, die := 28 + port, src := unitSrc (.region (28 + port)) }
  | .hc h => { basin := s.fld F.BSN_HC_OWNERh.BASIN h, die := 28 + h / 16, src := unitSrc (.region (28 + h / 16)) }
  | .core g c => { basin := ((SMap.get none (s.core g).ctxs c).map (·.basin)).getD (s.core g).basin, die := g / 2
                   src := unitSrc (.block (g / 2) (g % 2)), tag := ((SMap.get none (s.core g).ctxs c).map (·.cmd.tag)).getD 0 }
  | .dsp d => { basin := if (s.dsp d).task.isSome then (s.dsp d).basin else 0, die := 24 + d / 64
                src := unitSrc (.tile (24 + d / 64) (d % 64 / 16) (d % 16)), tag := ((s.dsp d).task.map (·.tag)).getD 0 }
  | .caldera => { basin := 0, pf := true, die := 28, src := unitSrc (.region 28) }

/-- R158, R159: a write of memory by a requester. -/
def memoryWriteAs (w : Who) (a : Nat) (d : List Byte) (pois : Bool) (e : Ecc) (s : State) : State :=
  match s.badAddr w true a d.length with
  | some x => s.addrFault w x
  | none => (s.strikeWrite a d.length e).put w.basin a d pois

/-! The remote-read cache (R206, R315). Key: die × 2^58 + fabric line. Set: line modulo 8,192 (log entry 47). -/

def rrcKey (die a : Nat) : Nat := die * 2 ^ 58 + a / 64

/-- The order number of the next use of the cache. -/
def State.rrcUse (s : State) : Nat := (s.rrc.map fun e => e.2.use).foldl max 0 + 1

/-- The line an fload of a basin hits: its own basin, the current generation. -/
def State.rrcHit (s : State) (die b a : Nat) : Option RLine :=
  match s.rrc.find? fun e => e.1 == rrcKey die a with
  | some (_, l) => if l.basin = b ∧ l.gen = s.gen b then some l else none
  | none => none

/-- A hit becomes the last use of its set. -/
def State.rrcTouch (s : State) (die a : Nat) : State :=
  { s with rrc := s.rrc.map fun e => if e.1 = rrcKey die a then (e.1, { e.2 with use := s.rrcUse }) else e }

/-- Lines of a die go. -/
def State.rrcDrop (s : State) (p : Nat → RLine → Bool) : State := { s with rrc := s.rrc.filter fun e => !p e.1 e.2 }

/-- A line is filled; where its set holds 16 lines, the least recently used one goes. -/
def State.rrcFill (s : State) (die b a : Nat) (data : List Byte) (pois : Bool) : State :=
  let key := rrcKey die a
  let mates := s.rrc.filter fun e => e.1 != key && e.1 / 2 ^ 58 == die && e.1 % 8192 == key % 8192
  let s := if mates.length < 16 then s else
    match mates.map (fun e => e.2.use) |>.min? with
    | some u => s.rrcDrop fun k l => k / 2 ^ 58 == die && k % 8192 == key % 8192 && l.use == u
    | none => s
  let s := { s with flips := s.flips.filter fun f => match f.1 with
    | .cache d l _ => !(d == die && l == a / 64)
    | _ => true }
  { s with rrc := SMap.insert key { basin := b, gen := s.gen b, data, poison := pois, use := s.rrcUse } (SMap.erase s.rrc key) }

/-- A remote-read cache line is read: a corrected error counts; an uncorrectable one invalidates the line, with no poison and no
count (R160). -/
def State.meetCache (s : State) (die line : Nat) : State :=
  let mine := fun (f : EccLoc × Nat) => match f.1 with
    | .cache d l _ => d == die && l == line
    | _ => false
  let key := die * 2 ^ 58 + line
  let t := (s.flips.filter mine).foldl (fun s f => match f.1 with
    | .cache _ _ w => match eccClass false f.2 with
      | .corrected => s.eccCorrected (some (false, die)) die 5 (unitSrc (.region die))
      | .uncorrectable => s.rrcDrop fun k _ => k == key
      | .silent x => { s with rrc := s.rrc.map fun e =>
          if e.1 = key then (e.1, { e.2 with data := bytesOf 64 (natOf e.2.data ^^^ (x * 2 ^ (64 * (w % 8)))) }) else e }
    | _ => s) s
  { t with flips := t.flips.filter fun f => !mine f }

/-- A send of an fstore or fatom invalidates the matching line of its own die's cache (R315). -/
def State.rrcSend (s : State) (die a n : Nat) : State :=
  s.rrcDrop fun k _ => (linesOf a n).any fun l => k == die * 2 ^ 58 + l

end Sys2Proof.Machine
end

