-- ==== Sys2Proof/Machine/Operands.lean ====
section
/-! DEFINITION. Numbers and operand forms: element formats (R70, Table 3-2), rounding (R82, R84 to R86, R102), FP32
arithmetic, packed elements (R73), stream descriptors (R113, R114) and instruction words (R115). -/

namespace Sys2Proof.Machine

/-! Dyadic numbers and float formats -/

/-- A float operand: NaN, an infinity, or (−1)^neg × m × 2^e exactly. -/
inductive Val where
  | nan
  | inf (neg : Bool)
  | fin (neg : Bool) (m : Nat) (e : Int)
  deriving DecidableEq, Repr

/-- A float format: exponent and mantissa widths, bias, and which codes are special: 0 none, 1 only S.11…1 is NaN,
2 IEEE infinities and NaNs (Table 3-2). -/
structure FFmt where
  eb : Nat
  mb : Nat
  bias : Int
  special : Nat
  deriving DecidableEq, Repr

/-- The float format of an FMT code (Tables 3-2 and 4-2). -/
def ffmt (fmt : Nat) : Option FFmt :=
  match fmt with
  | 0 => some ⟨4, 3, 7, 1⟩
  | 1 => some ⟨5, 2, 15, 2⟩
  | 2 => some ⟨3, 2, 3, 0⟩
  | 3 => some ⟨2, 3, 1, 0⟩
  | 4 => some ⟨2, 1, 1, 0⟩
  | 7 => some ⟨8, 7, 127, 2⟩
  | 8 => some ⟨5, 10, 15, 2⟩
  | 10 => some ⟨8, 23, 127, 2⟩
  | _ => none

/-- The number a code of a float format stands for (Table 3-2). -/
def FFmt.decode (f : FFmt) (c : Nat) : Val :=
  let neg := bit c (f.eb + f.mb)
  let x := c / 2 ^ f.mb % 2 ^ f.eb
  let m := c % 2 ^ f.mb
  let top := 2 ^ f.eb - 1
  if f.special = 1 ∧ x = top ∧ m = 2 ^ f.mb - 1 then .nan
  else if f.special = 2 ∧ x = top then (if m = 0 then .inf neg else .nan)
  else if x = 0 then .fin neg m (1 - f.bias - f.mb)
  else .fin neg (2 ^ f.mb + m) (x - f.bias - f.mb)

/-- The code of the largest finite number. -/
def FFmt.maxCode (f : FFmt) : Nat :=
  match f.special with
  | 0 => 2 ^ (f.eb + f.mb) - 1
  | 1 => 2 ^ (f.eb + f.mb) - 2
  | _ => (2 ^ f.eb - 1) * 2 ^ f.mb - 1

/-- Rounding of a magnitude m × 2^sh to an integer: to nearest even, or by R86 with the 32-bit number r. -/
def roundInt (stoch : Option Nat) (m : Nat) (sh : Int) : Nat :=
  if 0 ≤ sh then m * 2 ^ sh.toNat
  else
    let d := 2 ^ (-sh).toNat
    let q := m / d
    let rem := m % d
    match stoch with
    | some r => if 2 ^ 32 ≤ rem * 2 ^ 32 / d + r then q + 1 else q
    | none => if d < 2 * rem ∨ (2 * rem = d ∧ q % 2 = 1) then q + 1 else q

/-- Position of the leading one bit. -/
def log2 (m : Nat) : Nat := Nat.log2 m

/-- The unsigned code of a magnitude in a float format, without the limit of overflow. -/
def FFmt.roundMag (f : FFmt) (stoch : Option Nat) (m : Nat) (e : Int) : Nat :=
  if m = 0 then 0 else
    let emin : Int := 1 - f.bias
    let l : Int := (log2 m : Int) + e
    let x := if l < emin then emin else l
    let q := x - f.mb
    (x - emin).toNat * 2 ^ f.mb + roundInt stoch m (e - q)

/-- The result of overflow (Table 3-5): with SAT the largest finite number, else infinity, NaN where there is none. -/
def FFmt.over (f : FFmt) (sat : Bool) : Nat :=
  if sat then f.maxCode else f.maxCode + 1

/-- A number rounded into a float format (R84, R85). -/
def FFmt.encode (f : FFmt) (stoch : Option Nat) (sat neg : Bool) (m : Nat) (e : Int) : Nat :=
  let k := f.roundMag stoch m e
  let k := if f.maxCode < k then f.over sat else k
  b2n neg * 2 ^ (f.eb + f.mb) + k

/-- Rounding a magnitude overflows the format. -/
def FFmt.overflows (f : FFmt) (m : Nat) (e : Int) : Bool := decide (f.maxCode < f.roundMag none m e)

/-! FP32 (R82, R102) -/

/-- FP32. -/
def fp32 : FFmt := ⟨8, 23, 127, 2⟩

/-- The NaN code of R82 and Table 3-5. -/
def nan32 : Nat := 0x7FC00000

/-- An FP32 infinity. -/
def inf32 (neg : Bool) : Nat := b2n neg * 2 ^ 31 + 0x7F800000

/-- A signed dyadic number as FP32, nearest even; an exact zero takes the sign given. -/
def round32 (zneg : Bool) (v : Int) (e : Int) : Nat :=
  if v = 0 then b2n zneg * 2 ^ 31 else fp32.encode none false (decide (v < 0)) v.natAbs e

/-- A finite value as an integer at exponent e0, no larger than its own exponent. -/
def scaled (neg : Bool) (m : Nat) (e e0 : Int) : Int :=
  (if neg then -1 else 1) * ((m * 2 ^ (e - e0).toNat : Nat) : Int)

/-- The exact sum of two finite numbers: value and exponent. -/
def sumExact (n1 : Bool) (m1 : Nat) (e1 : Int) (n2 : Bool) (m2 : Nat) (e2 : Int) : Int × Int :=
  let e := if e1 < e2 then e1 else e2
  (scaled n1 m1 e1 e + scaled n2 m2 e2 e, e)

/-- FP32 addition of two numbers, one rounding; NaN where no value is defined (R82, IEEE 754). -/
def addVal : Val → Val → Option Nat
  | .nan, _ => none
  | _, .nan => none
  | .inf a, .inf b => if a = b then some (inf32 a) else none
  | .inf a, _ => some (inf32 a)
  | _, .inf b => some (inf32 b)
  | .fin n1 m1 e1, .fin n2 m2 e2 =>
    let (v, e) := sumExact n1 m1 e1 n2 m2 e2
    some (round32 (n1 && n2) v e)

/-- The exact product of two numbers. -/
def mulVal : Val → Val → Val
  | .nan, _ => .nan
  | _, .nan => .nan
  | .inf a, .inf b => .inf (a != b)
  | .inf a, .fin n m _ => if m = 0 then .nan else .inf (a != n)
  | .fin n m _, .inf b => if m = 0 then .nan else .inf (n != b)
  | .fin n1 m1 e1, .fin n2 m2 e2 => .fin (n1 != n2) (m1 * m2) (e1 + e2)

/-- A number as FP32, one rounding; none for NaN. -/
def val32 : Val → Option Nat
  | .nan => none
  | .inf a => some (inf32 a)
  | .fin n m e => some (round32 n ((if n then -1 else 1) * (m : Int)) e)

/-- FP32 addition of codes. -/
def fadd (a b : Nat) : Option Nat := addVal (fp32.decode a) (fp32.decode b)

/-- FP32 multiplication of codes. -/
def fmul (a b : Nat) : Option Nat := val32 (mulVal (fp32.decode a) (fp32.decode b))

/-- Fused multiply-add of codes: a × b + c with one rounding. -/
def ffma (a b c : Nat) : Option Nat := addVal (mulVal (fp32.decode a) (fp32.decode b)) (fp32.decode c)

/-- Order of two FP32 codes: none where one is NaN; −0 equals +0. -/
def fcmp (a b : Nat) : Option Ordering :=
  match fp32.decode a, fp32.decode b with
  | .nan, _ => none
  | _, .nan => none
  | .inf x, .inf y => some (compare (b2n y) (b2n x))
  | .inf x, _ => some (if x then .lt else .gt)
  | _, .inf y => some (if y then .gt else .lt)
  | .fin n1 m1 e1, .fin n2 m2 e2 => some (compare (sumExact n1 m1 e1 (!n2) m2 e2).1 0)

/-- FP32 minimum (`mx` false) or maximum; none where an operand is NaN, or the operands are zeros of both signs: the
spec states no result there (log entry 32). -/
def fminmax (mx : Bool) (a b : Nat) : Option Nat :=
  match fcmp a b with
  | none => none
  | some .eq => if a = b then some a else none
  | some .lt => some (if mx then b else a)
  | some .gt => some (if mx then a else b)

/-- Integer square root by `n` bits from the top. -/
def isqrtFrom : Nat → Nat → Nat → Nat
  | 0, _, r => r
  | n + 1, v, r =>
    let c := r + 2 ^ n
    isqrtFrom n v (if c * c ≤ v then c else r)

/-- Integer square root. -/
def isqrt (v : Nat) : Nat := isqrtFrom (log2 v / 2 + 1) v 0

/-- Reciprocal, correctly rounded; none for 0 and NaN (log entry 32). -/
def frcp (a : Nat) : Option Nat :=
  match fp32.decode a with
  | .nan => none
  | .inf n => some (b2n n * 2 ^ 31)
  | .fin n m e =>
    if m = 0 then none
    else
      let q := 2 ^ 100 / m
      let v := 2 * q + (if 2 ^ 100 % m = 0 then 0 else 1)
      some (fp32.encode none false n v (-101 - e))

/-- Reciprocal square root, correctly rounded; none for 0, negative numbers and NaN (log entry 32). -/
def frsqrt (a : Nat) : Option Nat :=
  match fp32.decode a with
  | .nan => none
  | .inf n => if n then none else some 0
  | .fin n m e =>
    if m = 0 ∨ n then none
    else
      let (m, e) := if e % 2 = 0 then (m, e) else (2 * m, e - 1)
      let q := isqrt (2 ^ 200 / m)
      let v := 2 * q + (if q * q * m = 2 ^ 200 then 0 else 1)
      some (fp32.encode none false false v (-101 - e / 2))

/-- 2^(−i) powers: the factor 2^(f) for the bits of f below the point, from the first bit; each root kept to 160
bits. `r` is the running root. -/
def exp2Bits : Nat → Nat → Nat → Nat → Nat
  | 0, _, _, acc => acc
  | n + 1, f, r, acc =>
    let r := isqrt (r * 2 ^ 160)
    exp2Bits n (f % 2 ^ n) r (if 2 ^ n ≤ f then acc * r / 2 ^ 160 else acc)

/-- 2^x, correctly rounded: an exact power for an integer x; any other value lies further from every rounding boundary
of binary32 than the error of the 160-bit product. -/
def fexp2 (a : Nat) : Option Nat :=
  match fp32.decode a with
  | .nan => none
  | .inf n => some (if n then 0 else inf32 false)
  | .fin n m e =>
    if m = 0 then some 0x3F800000
    else if 9 ≤ (log2 m : Int) + e then some (if n then fp32.encode none false false 1 (-300) else inf32 false)
    else
      let x : Int := (if n then -1 else 1) * (if 0 ≤ e then (m * 2 ^ (e.toNat + 120) : Nat) else (m * 2 ^ 120 / 2 ^ (-e).toNat : Nat))
      let i := x / (2 ^ 120 : Nat)
      let f := (x % (2 ^ 120 : Nat)).toNat
      if 0 ≤ e ∨ m % 2 ^ (-e).toNat = 0 then some (fp32.encode none false false 1 i)
      else some (fp32.encode none false false (2 * exp2Bits 120 f (2 ^ 161) (2 ^ 160) + 1) (i - 161))

/-- `n` bits of the base-2 logarithm of y / 2^200, y from 2^200 to 2^201. -/
def log2Bits : Nat → Nat → Nat → Nat
  | 0, _, acc => acc
  | n + 1, y, acc =>
    let z := y * y / 2 ^ 200
    if 2 ^ 201 ≤ z then log2Bits n (z / 2) (2 * acc + 1) else log2Bits n z (2 * acc)

/-- The base-2 logarithm, correctly rounded; none for 0, negative numbers and NaN (log entry 32). -/
def flog2 (a : Nat) : Option Nat :=
  match fp32.decode a with
  | .nan => none
  | .inf n => if n then none else some (inf32 false)
  | .fin n m e =>
    if m = 0 ∨ n then none
    else
      let l := log2 m
      let i : Int := (l : Int) + e
      if m = 2 ^ l then some (round32 false i 0)
      else
        let fr := log2Bits 90 (m * 2 ^ (200 - l)) 0
        some (round32 false (2 * (i * (2 ^ 90 : Nat) + fr) + 1) (-91))

/-! Packed elements (R73) -/

/-- Bits of one element of a format (R73); 16-bit parts for CI16, 32-bit containers for CI24. -/
def elemBits (fmt : Nat) : Nat :=
  match fmt with
  | 2 => 6
  | 3 => 6
  | 4 => 4
  | 6 => 4
  | 7 => 16
  | 8 => 16
  | 9 => 32
  | 10 => 32
  | 11 => 32
  | 12 => 64
  | 13 => 128
  | _ => 8

/-- Logical rows of a pass and logical columns of a tile (Table 3-3). -/
def geom (fmt : Nat) : Nat × Nat :=
  match fmt with
  | 4 => (1024, 512)
  | 6 => (1024, 512)
  | 7 => (256, 256)
  | 8 => (256, 256)
  | 9 => (128, 128)
  | _ => (512, 512)

/-- Bytes of elements of an activation pass, and with its MX scales (R73). -/
def passLen (fmt : Nat) (mx : Bool) : Nat :=
  (geom fmt).1 * elemBits fmt / 8 + (if mx then (geom fmt).1 / 32 else 0)

/-- Bytes of a tile with its MX scales (Table 3-3, R121). -/
def tileLen (fmt : Nat) (mx : Bool) : Nat :=
  (geom fmt).1 * (geom fmt).2 * elemBits fmt / 8 + (if mx then (geom fmt).1 / 32 * (geom fmt).2 else 0)

/-- Element i of packed bytes, w bits each, the lower index in the lower bits (R73). -/
def elem (w : Nat) (d : List Byte) (i : Nat) : Nat :=
  let o := i * w / 8
  natOf (slice d o ((i * w % 8 + w + 7) / 8)) / 2 ^ (i * w % 8) % 2 ^ w

/-- Packed bytes of elements of w bits (R73). -/
def pack (w : Nat) (l : List Nat) : List Byte :=
  bytesOf ((l.length * w + 7) / 8) (l.foldr (fun e v => e % 2 ^ w + v * 2 ^ w) 0)

/-- The byte offsets element i touches. -/
def elemBytes (w i : Nat) : List Nat :=
  (List.range ((i * w % 8 + w + 7) / 8)).map (· + i * w / 8)

/-! Stream descriptors (Table 4-2) -/

/-- Position and width of the fields of a descriptor in table order (R113). -/
def sdField (i : Nat) : Nat × Nat :=
  match i with
  | 0 => (0, 48)
  | 1 => (48, 4)
  | 2 => (52, 1)
  | 3 => (53, 2)
  | 4 => (64, 20)
  | 5 => (84, 20)
  | 6 => (104, 20)
  | 7 => (128, 32)
  | 8 => (160, 32)
  | 9 => (192, 11)
  | 10 => (203, 10)
  | _ => (213, 20)

/-- A field of a descriptor. -/
def sdGet (d i : Nat) : Nat := d / 2 ^ (sdField i).1 % 2 ^ (sdField i).2

/-- A descriptor with one field replaced. -/
def sdPut (d i v : Nat) : Nat :=
  let (p, w) := sdField i
  d - sdGet d i * 2 ^ p + v % 2 ^ w * 2 ^ p

def sdBase (d : Nat) : Nat := sdGet d 0
def sdFmt (d : Nat) : Nat := sdGet d 1
def sdMx (d : Nat) : Bool := sdGet d 2 == 1
def sdKind (d : Nat) : Nat := sdGet d 3
def sdLen0 (d : Nat) : Nat := sdGet d 4
def sdCnt1 (d : Nat) : Nat := sdGet d 5
def sdCnt2 (d : Nat) : Nat := sdGet d 6
def sdKv (d : Nat) : Nat := sdGet d 9
def sdNv (d : Nat) : Nat := sdGet d 10
def sdMv (d : Nat) : Nat := sdGet d 11

/-- Total length of a stream (R113). -/
def sdLen (d : Nat) : Nat := sdLen0 d * sdCnt1 d * sdCnt2 d

/-- The descriptor is legal for a use as KIND (R114). -/
def sdOk (d kind : Nat) : Bool :=
  sdLen0 d != 0 && sdCnt1 d != 0 && sdCnt2 d != 0 && decide (sdKv d ≤ 1024 ∧ sdNv d ≤ 512) &&
    bits d 63 55 == 0 && bits d 127 124 == 0 && bits d 255 233 == 0 && sdKind d == kind

/-- The address of run j of plane p; an address below 0 or past 64 bits names nothing (R113). -/
def sdRun (d p j : Nat) : Nat :=
  wrap 64 ((sdBase d : Int) + p * sext 32 (sdGet d 8) + j * sext 32 (sdGet d 7))

/-- The runs of one plane in order. -/
def sdPlane (d p : Nat) : List Nat := (List.range (sdCnt1 d)).map (sdRun d p)

/-- The runs of a stream in order. -/
def sdRuns (d : Nat) : List Nat := (List.range (sdCnt2 d)).flatMap (sdPlane d)

/-! Instruction words (Table 4-3) -/

def iOp (w : Nat) : Nat := bits w 63 56
def iRd (w : Nat) : Nat := bits w 55 50
def iRa (w : Nat) : Nat := bits w 49 44
def iRb (w : Nat) : Nat := bits w 43 38
def iFn (w : Nat) : Nat := bits w 37 32
def iImm (w : Nat) : Nat := bits w 31 0
def iSd (w : Nat) : Nat := bits w 55 53
def iAmask (w : Nat) : Nat := bits w 52 49
def iMode (w : Nat) : Nat := bits w 48 44
def iSem (w : Nat) : Nat := bits w 55 44
def iCnt (w : Nat) : Nat := bits w 43 36
def iFnY (w : Nat) : Nat := bits w 35 32

/-- A specifier of an s or a register (R112). -/
def isSA (x : Nat) : Bool := decide (x < 48)

/-- A specifier of a stream descriptor register (R112). -/
def isSd (x : Nat) : Bool := decide (48 ≤ x ∧ x < 56)

/-- A specifier of a vector register (R112). -/
def isV (x : Nat) : Bool := decide (x < 16)

/-! mix (R86, R343) -/

/-- The mixing function of R86. -/
def mix (seed idx : Nat) : Nat :=
  let m := 2 ^ 64
  let z := (seed + (idx + 1) * 0x9E3779B97F4A7C15) % m
  let z := (z ^^^ (z / 2 ^ 30)) * 0xBF58476D1CE4E5B9 % m
  let z := (z ^^^ (z / 2 ^ 27)) * 0x94D049BB133111EB % m
  z ^^^ (z / 2 ^ 31)

/-- Σ mix(mix(key, i), wᵢ) over the 8-byte words of a byte sequence, from word index i (R343). -/
def digestFrom (key : Nat) : Nat → Nat → List Byte → Nat
  | 0, _, _ => 0
  | n + 1, i, d => (mix (mix key i) (natOf (d.take 8)) + digestFrom key n (i + 1) (d.drop 8)) % 2 ^ 64

/-- The digest of a byte sequence (R343). -/
def digest (key : Nat) (d : List Byte) : Nat := digestFrom key ((d.length + 7) / 8) 0 d

end Sys2Proof.Machine
end

