-- ==== Sys2Proof/Machine/Obs.lean ====
section
/-! DEFINITION. Obsidian's ring (R342 to R346) and the streams and signatures of lock-step (R350, R351), as the
operations every recorded input and every commit point uses. -/

namespace Sys2Proof.Machine

/-- Bytes of the ring (Table 11-7). -/
def State.obsSize (s : State) : Nat := 2 ^ clamp 20 36 (s.fld F.PKG_OBS_RING.LOG2)

/-- Base of the ring, aligned to its size. -/
def State.obsBase (s : State) : Nat := s.fld F.PKG_OBS_RING.BASE * 2 ^ 20 / s.obsSize * s.obsSize

/-- A record header (Table 11-2). -/
def obsHeader (kind : Nat) (dat poison : Bool) (npay cyc tick src aux value : Nat) : List Byte :=
  bytesOf 8 (kind + b2n dat * 16 + b2n poison * 32 + npay * 256 + cyc % 2 ^ 20 * 2 ^ 17) ++ bytesOf 8 tick ++
    bytesOf 4 src ++ bytesOf 4 aux ++ bytesOf 8 value

/-- A payload filled with zeros to whole units of 16 bytes (R342). -/
def obsPad (d : List Byte) : List Byte := d ++ List.replicate ((16 - d.length % 16) % 16) 0#8

/-- Bytes to the ring at an offset; they may wrap past its end (R342). -/
def State.obsBytes (s : State) (ofs : Nat) (d : List Byte) : State :=
  let n := s.obsSize - ofs
  (s.putRam 0 (s.obsBase + ofs) (d.take n)).putRam 0 s.obsBase (d.drop n)

/-- Size of the record at a ring offset. -/
def State.obsRecLen (s : State) (ofs : Nat) : Nat :=
  32 + (s.rd (s.obsBase + (ofs + 1) % s.obsSize)).toNat * 16 +
    (s.rd (s.obsBase + (ofs + 2) % s.obsSize)).toNat % 2 * 4096

/-- Overwrite the oldest whole records until `need` bytes are free (R345). -/
def State.obsFree : Nat → Nat → State → State
  | 0, _, s => s
  | f + 1, need, s =>
    if s.obsd.used + need ≤ s.obsSize ∨ s.obsd.used = 0 then s
    else
      let o := s.fld F.PKG_OBS_OLD.OLD % s.obsSize
      let l := s.obsRecLen o
      State.obsFree f need
        { s.setFld F.PKG_OBS_OLD.OLD 0 ((o + l) % s.obsSize) with obsd := { s.obsd with used := s.obsd.used - l } }

/-- Append one record, or lose it when the ring is full (R345). -/
def State.obsAppend (s : State) (rec : List Byte) : State :=
  let loss := if s.obsd.lost = 0 then [] else
    obsHeader 12 false false 0 s.frameCyc s.tickNo 0 (min s.obsd.lost (2 ^ 32 - 1)) 0
  let d := loss ++ rec
  let s := if s.flag F.PKG_OBS_CTRL.FLIGHT then s.obsFree 300 d.length else s
  if s.obsSize < s.obsd.used + d.length then
    { s.incFld F.PKG_OBS_STATUS.LOST with obsd := { s.obsd with lost := s.obsd.lost + 1 } }
  else
    let s := s.obsBytes s.obsd.head d
    { s with obsd := { s.obsd with head := (s.obsd.head + d.length) % s.obsSize, used := s.obsd.used + d.length,
                                   count := s.obsd.count + 1 +
                                     (if s.obsd.lost = 0 then 0 else 1), lost := 0 } }

/-- Obsidian records: it runs, in record mode, not frozen (R342, R346). -/
def State.obsOn (s : State) : Bool :=
  s.obsd.on && (s.fld F.PKG_OBS_CTRL.OP == 0) && !s.flag F.PKG_OBS_STATUS.FROZEN

/-- Kind k is enabled (R344). -/
def State.obsClass (s : State) (k : Nat) : Bool := k == 0 || k == 12 || bit (s.fld F.PKG_OBS_CTRL.CLASS) k

/-- The lock-step primary sends a record to its partner as a MGMT packet (R350). -/
def State.lockSend (s : State) (kind : Nat) (rec : List Byte) : State :=
  if s.flag F.PKG_LOCK_CTRL.EN && !s.flag F.PKG_LOCK_CTRL.ROLE && [1, 2, 3, 4, 6, 7, 9].contains kind then
    { s with out := s.out ++ [.mgmt { ty := 10, addr := 4, dst := s.fld F.PKG_LOCK_CTRL.PARTNER, src := s.fld F.FAB_ID.SYSID,
                                      plen := rec.length, payload := rec }] }
  else s

/-- One record of at most 4,096 payload bytes. -/
def State.obsOne (s : State) (kind : Nat) (poison : Bool) (src aux value : Nat) (data : List Byte) (keep : Bool) :
    State :=
  let pay := obsPad data
  let full := obsHeader kind (!data.isEmpty) poison (pay.length / 16) s.frameCyc s.tickNo src aux value ++ pay
  let cut := obsHeader kind false poison 0 s.frameCyc s.tickNo src aux value
  let s := s.lockSend kind full
  if s.obsOn && s.obsClass kind then s.obsAppend (if keep then full else cut) else s

/-- A record of kind `kind` (R344); data longer than 4,096 bytes take several records (log entry 34): a message's keep
its queue and digest, the others count their own bytes and address. With `keep` false the ring's record carries no
payload and VALUE holds its digest. -/
def State.obs (s : State) (kind src aux value : Nat) (data : List Byte := []) (poison : Bool := false)
    (keep : Bool := true) : State :=
  if data.length ≤ 4096 then s.obsOne kind poison src aux value data keep
  else (List.range ((data.length + 4095) / 4096)).foldl (fun s i =>
    let d := (data.drop (i * 4096)).take 4096
    s.obsOne kind poison src d.length (value + i * 4096) d keep) s

/-- A freeze trigger (R346); one that comes while POST ticks are counted is ignored. -/
def State.obsFreeze (s : State) : State :=
  if s.obsOn && s.obsd.post.isNone then { s with obsd := { s.obsd with post := some (s.fld F.PKG_OBS_CTRL.POST) } } else s

/-- A fault event (R338, R341, R346): its record of kind 10, and a freeze where TRIG_FLT is 1. -/
def State.obsFault (s : State) (src kind ev : Nat) : State :=
  (s.obs 10 src kind ev).when (s.flag F.PKG_OBS_CTRL.TRIG_FLT) State.obsFreeze

/-- An event of R338 that has no event record: a residue retry, a link replay, a tick kill (log entry 183). -/
def State.obsTiming (s : State) (src kind : Nat) : State := s.obs 10 src kind 0

/-- A mechanism's detection acted on at a level: counted, and held as the region's last fault (R378). An action above tile
is journaled and reported through the region's source (R382, Table 14-5b); a tile action is counted only. -/
def State.detect (s : State) (d mech level src data : Nat) (rung : Nat := 0) (inj perm : Bool := false) : State :=
  let s := (s.countAction d level).lastFault d mech src level inj
  if level = 0 then s.when (mech == 1) fun s => s.obsTiming src mech
  else
    let s := s.journal mech level src data (perm && !inj)
    let k := if mech = 17 then 13 else if mech = 15 then 15 else if mech ≤ 12 then mech else 0
    let c : EvCap := { gen := s.gen 0, mech, level, data := src % 2 ^ 16, ext := decide (data ≠ 0), xdata := data }
    let s := s.obsFault src mech (regSrc d k + s.rungOf (regSrc d k) c rung * 2 ^ 12 + b2n (decide (data ≠ 0)) * 2 ^ 15 +
      s.gen 0 * 2 ^ 24 + mech * 2 ^ 36 + level * 2 ^ 44 + src % 2 ^ 16 * 2 ^ 48)
    s.raise (regSrc d k) c rung

/-- A fence, a release or an escalation that the region controller or Caldera carries out: counted by level, journaled
(R382), and reported through group 0 of the region (Table 14-5b). -/
def State.fenceEvent (s : State) (d mech lvl : Nat) (u : FUnit) (rung : Nat) : State :=
  let s := (s.countAction d lvl).journal mech lvl (unitSrc u) 0
  let c : EvCap := { mech, level := lvl, data := unitSrc u % 2 ^ 16 }
  let s := s.obsFault (unitSrc u) mech (regSrc d 0 + s.rungOf (regSrc d 0) c rung * 2 ^ 12 + mech * 2 ^ 36 + lvl * 2 ^ 44 +
    unitSrc u % 2 ^ 16 * 2 ^ 48)
  s.raise (regSrc d 0) c rung

/-- A fault would fence a unit on which a test fence stands (Table 13-8): the test fence stands, the action is discarded
(R22), and the fault is journaled and reported. -/
def State.testStands (s : State) (mech lvl : Nat) (u : FUnit) : State :=
  s.when (s.testFenced u) fun s => (s.incFld F.FLT_RG_CNT.DISCARD (unitDie u)).detect (unitDie u) mech lvl (unitSrc u) 0

/-- The signature takes the words of one committed byte range (R351): 8-byte words at 8-byte addresses. -/
def State.sign (s : State) (addr : Nat) (d : List Byte) : State :=
  if s.flag F.PKG_LOCK_CTRL.EN then
    let k := s.fld F.PKG_LOCK_KEY.LKEY
    let sum := (List.range ((d.length + 7) / 8)).foldl
      (fun v i => (v + mix (mix k (addr + 8 * i)) (natOf ((d.drop (8 * i)).take 8))) % 2 ^ 64) s.lock.sig
    { s with lock := { s.lock with sig := sum } }
  else s

/-- A replay runs (R347). -/
def State.replaying (s : State) : Bool := s.obsd.on && (s.fld F.PKG_OBS_CTRL.OP == 1) && !s.obsd.stopped

/-- A lock-step shadow takes its inputs from its primary (R350). -/
def State.shadowing (s : State) : Bool := s.flag F.PKG_LOCK_CTRL.EN && s.flag F.PKG_LOCK_CTRL.ROLE && !s.lock.stopped

/-- The device sends no read to host memory: its data come from records (R347, R350). -/
def State.noHostRead (s : State) : Bool := s.replaying || s.shadowing

/-- The host data a record has brought for the stream run of a core at an address (Table 11-4). -/
def State.hostFor (s : State) (g a : Nat) (used : Bool) : Option HostData :=
  s.obsd.host.find? fun e => e.core == g && e.addr == a && e.used == used

/-- What a run of a stream reads from host memory: the data of records where no read goes out, else free bytes (R344, R347; log
entry 188). -/
def State.hostBytes (s : State) (g a n : Nat) : List (Byte × Bool) :=
  match if s.noHostRead then s.hostFor g a true else none with
  | some e => (slice e.data 0 n).map (·, e.poison)
  | none => (List.range n).map fun i => (Config.hostByte s.free (a + i), false)

/-- Runs of `n` bytes of a stream of core g are read from host memory: they are recorded (R344), or their records are taken (R347). -/
def State.hostRuns (s : State) (g n : Nat) (runs : List Nat) : State :=
  if runs.isEmpty then s
  else if s.noHostRead then
    { s with obsd := { s.obsd with host := s.obsd.host.map fun e =>
        if e.core = g ∧ runs.contains e.addr then { e with used := true } else e } }
  else runs.foldl (fun s a => s.obs 2 g n a ((s.hostBytes g a n).map Prod.fst)) { s with free := s.free + 1 }

/-- A replay stops at its first divergence (R348). -/
def State.diverge (s : State) (cause : Nat) : State :=
  if s.obsd.on && (s.fld F.PKG_OBS_CTRL.OP == 1) && !s.obsd.stopped then
    ({ s.setFld F.PKG_OBS_STATUS.DIVERGE 0 cause with obsd := { s.obsd with stopped := true } }).raise 0x00A
      { data := cause }
  else s

/-! Cell fault words (R371, R381) -/

/-- The radio dies in service. -/
def State.radioDies (s : State) : List Nat := (List.range 4).filter (fun n => !s.dieOut (24 + n))

/-- Address of the cell fault word of local cell j of radio die n for tick t (R371). -/
def State.cfwAddr (s : State) (n j t : Nat) : Nat := (s.rdFault n).cfw / 4096 * 4096 + (t % 4 * 96 + j) * 8

/-- An address lies in the radio SRAM of die n. -/
def inRsram (n a : Nat) : Bool :=
  match place a with
  | .rsram m _ => m == n
  | _ => false

/-- OR a flag into the cell fault word of a cell (R371). -/
def State.cfwFlag (s : State) (n j t flag : Nat) : State :=
  let a := s.cfwAddr n j t
  if inRsram n a then s.write a [s.rd a ||| BitVec.ofNat 8 (2 ^ flag)] else s

/-- The word of cell j for tick t carries a flag. -/
def State.cfwHas (s : State) (n j t flag : Nat) : Bool :=
  let a := s.cfwAddr n j t
  inRsram n a && s.readNat (a + 4) 4 == t % 2 ^ 32 && bit (s.rd a).toNat flag

/-- The active cells of radio die n (Table 8-22). -/
def State.activeCells (s : State) (n : Nat) : List Nat := (List.range 96).filter fun j => s.flag F.RDP_CELL_CFGj.ACTIVE (96 * n + j)

/-- A flag for every active cell of radio die n in the words of tick t. -/
def State.cellsFlag (s : State) (n t flag : Nat) : State := (s.activeCells n).foldl (fun s j => s.cfwFlag n j t flag) s

/-- The cells of radio die n that a piece of radio work serves: some of the active ones, which the spec ties to no command, no
task and no flow: a free choice (log entry 65). None where the die keeps no words, or is out of
service. -/
def State.cellsOf (s : State) (n : Nat) : List Nat × State :=
  if (s.activeCells n).isEmpty || !inRsram n (s.cfwAddr n 0 0) || s.dieOut (24 + n) then ([], s)
  else
    let (m, s) := s.fresh 96
    ((s.activeCells n).filter fun j => bit m j, s)

/-- A fault of radio work ORs its flag into the words of the cells it serves on the given radio dies (R371, R381). -/
def State.workCells (s : State) (dies : List Nat) (flag : Nat) : State :=
  dies.foldl (fun s n =>
    let r := State.cellsOf s n
    r.1.foldl (fun s j => State.cfwFlag s n j s.tickNo flag) r.2) s

/-! Shapers and policers -/

/-- A field of a 256-bit entry of the fronthaul. -/
def flw (v : Nat) (f : Field) : Nat := bits v f.hi f.lo

/-- EN, RATE and BURST a shaper works by: what was written before the running reference period (R294). -/
def State.shapeCfg (s : State) (k p q : Nat) : Nat × Nat × Nat :=
  let x := (4 * k + p) * 7 + q
  (SMap.get none (s.edge k).shapeOld (8 * p + q)).getD
    (s.fld F.FHL_Pp_SHq.EN x, s.fld F.FHL_Pp_SHq.RATE x, s.fld F.FHL_Pp_SHq.BURST x)

/-- The register a policer works by (Table 9-11). -/
def State.polCfg (s : State) (i : Nat) : Nat := (SMap.get none (s.edge (i / 64)).polOld (i % 64)).getD (s.regBits .FHL_POLi i)

/-- Bytes a shaper's bucket lacks now, in units of 1/1250 byte (R294). -/
def State.shapeLack (s : State) (k p q : Nat) : Nat :=
  let m := SMap.get ({} : Meter) (s.edge k).shape (8 * p + q)
  m.c - (s.shapeCfg k p q).2.1 * (s.tmb.clk - m.clk)

def State.setShape (s : State) (k p q lack : Nat) : State :=
  s.modEdge k fun e => { e with shape := SMap.set {} e.shape (8 * p + q) { c := lack, clk := s.tmb.clk } }

/-- A meter's buckets now: RFC 2697 fills the committed one first and the excess one with what is left; RFC 2698 fills
each at its own rate. -/
def State.meterNow (s : State) (i : Nat) : Meter :=
  let m := SMap.get ({} : Meter) (s.edge (i / 64)).pol (i % 64)
  let v := s.polCfg i
  let t := s.tmb.clk - m.clk
  let g := flw v F.FHL_POLi.CIR * t
  if flw v F.FHL_POLi.MODE = 1 then { c := m.c - g, e := m.e - flw v F.FHL_POLi.PIR * t, clk := s.tmb.clk }
  else { c := m.c - g, e := m.e - (g - m.c), clk := s.tmb.clk }

/-- What a bucket lacks of a new size, where it keeps its content, capped at that size. -/
def resized (old new lack : Nat) : Nat := new * 1250 - min (old * 1250 - lack) (new * 1250)

/-- At a reference period the written shapers and policers of edge die k work by their registers; a bucket keeps its content, capped
at its new size (R294, Table 9-11). -/
def State.fhPeriod (s : State) (k : Nat) : State :=
  let e := s.edge k
  let s := e.shapeOld.foldl (fun s x => s.setShape k (x.1 / 8) (x.1 % 8)
    (resized ((x.2.map (·.2.2)).getD 0) (s.fld F.FHL_Pp_SHq.BURST ((4 * k + x.1 / 8) * 7 + x.1 % 8)) (s.shapeLack k (x.1 / 8) (x.1 % 8)))) s
  let s := e.polOld.foldl (fun s x =>
    let m := s.meterNow (64 * k + x.1)
    let old := x.2.getD 0
    let new := s.regBits .FHL_POLi (64 * k + x.1)
    let m' : Meter :=
      { c := resized (flw old F.FHL_POLi.CBS) (flw new F.FHL_POLi.CBS) m.c
        e := resized (flw old F.FHL_POLi.EPBS) (flw new F.FHL_POLi.EPBS) m.e
        clk := s.tmb.clk }
    s.modEdge k fun d => { d with pol := SMap.set {} d.pol x.1 m' }) s
  if e.shapeOld.isEmpty && e.polOld.isEmpty then s else s.modEdge k fun d => { d with shapeOld := [], polOld := [] }

end Sys2Proof.Machine
end

