-- ==== Sys2Proof/Machine/Seq.lean ====
section
/-! DEFINITION. The life of a command on a matrix core: contexts (R106, R107), semaphores (R143), kills (R134, R135),
completion records (R133), accounting (R194), staging (R136) and the reads of a core (R119). -/

namespace Sys2Proof.Machine

/-! Contexts -/

/-- The command held in context c of core g (R106). -/
def State.ctx (s : State) (g c : Nat) : Option Ctx := SMap.get none (s.core g).ctxs c

/-- Put a command into a context, or free it. -/
def State.setCtx (s : State) (g c : Nat) (x : Option Ctx) : State :=
  s.modCore g fun m => { m with ctxs := SMap.set none m.ctxs c x }

/-- The held contexts of a core, with their numbers. -/
def State.held4 (s : State) (g : Nat) : List (Nat × Ctx) :=
  (List.range 4).filterMap fun c => (s.ctx g c).map (c, ·)

/-- Cycles from the dispatch of a command to now. -/
def State.since (s : State) (t0 : Nat) : Nat := (s.gey.arr - t0) / 625

/-- The index of a queue of a matrix core in the queue registers. -/
def qIx (g q : Nat) : Nat := g * 8 + q

/-- The requester of a command's accesses (R32, R33). -/
def State.coreWho (_ : State) (g : Nat) (x : Ctx) : Who :=
  { basin := x.basin, die := g / 2, src := unitSrc (.block (g / 2) (g % 2)), tag := x.cmd.tag }

/-! Accounting (Table 6-7): words 0 ARRAY_CYC, 1 PREEMPT_CYC, 2 PREEMPTS, 3 DSP_CYC, 4 STORE_BS, 5 FAB_BYTES, 6 QWAIT,
7 ENERGY_MJ -/

/-- Add to a counter of a basin, modulo 2^64. -/
def State.charge (s : State) (b word n : Nat) : State :=
  { s with acct := SMap.set 0 s.acct (b * 8 + word) ((SMap.get 0 s.acct (b * 8 + word) + n) % 2 ^ 64) }

/-- Frame usage of a basin on a core so far, the running hold included (R188). -/
def State.usageNow (s : State) (g b : Nat) : Nat :=
  let m := s.core g
  SMap.get 0 m.usage b + (match m.hold with
    | some t => if m.basin = b then s.since t else 0
    | none => 0)

/-- A context is free again; when it was the last, the hold of its basin on the core ends (R188). -/
def State.freeCtx (s : State) (g c : Nat) : State :=
  let s := s.setCtx g c none
  if (s.held4 g).isEmpty then
    match (s.core g).hold with
    | some t => s.modCore g fun m =>
      { m with hold := none, usage := SMap.set 0 m.usage m.basin (SMap.get 0 m.usage m.basin + s.since t) }
    | none => s
  else s

/-! Semaphores (R143) -/

/-- The owner of a semaphore: 0 to 255 belong to basin 0. -/
def State.semOwner (s : State) (g n : Nat) : Nat := if n < 256 then 0 else s.fld F.MXC_SEMn.OWNER (g * 4096 + n)

/-- A signal adds to VAL; the excess over 255 is lost and recorded under the source of queue q (R143, R427). -/
def State.semAdd (s : State) (g n cnt q : Nat) : State :=
  let ix := g * 4096 + n
  let v := s.fld F.MXC_SEMn.VAL ix
  let r := s.fld F.MXC_SEMn.RSV ix
  if v + cnt + r ≤ 255 then s.setFld F.MXC_SEMn.VAL ix (v + cnt)
  else
    ((s.setFld F.MXC_SEMn.VAL ix (255 - r)).setFld F.MXC_SEMn.OVF ix 1).raise (coreSrc g q)
      { basin := s.semOwner g n, gen := s.gen (s.semOwner g n), data := n }

/-- A reservation returns to VAL (R143). -/
def State.semReturn (s : State) (g : Nat) (rsv : List (Nat × Nat)) : State :=
  rsv.foldl (fun s (n, k) =>
    let ix := g * 4096 + n
    (s.setFld F.MXC_SEMn.RSV ix (s.fld F.MXC_SEMn.RSV ix - k)).setFld F.MXC_SEMn.VAL ix (s.fld F.MXC_SEMn.VAL ix + k)) s

/-- Reservations end at the commit point (R143). -/
def State.semDrop (s : State) (g : Nat) (rsv : List (Nat × Nat)) : State :=
  rsv.foldl (fun s (n, k) =>
    let ix := g * 4096 + n
    s.setFld F.MXC_SEMn.RSV ix (s.fld F.MXC_SEMn.RSV ix - k)) s

/-! Completion records (R133) -/

/-- A completion record (Table 4-7). -/
def recData (c : Cmd) (status user cycles tick : Nat) : List Byte :=
  bytesOf 2 c.tag ++ bytesOf 2 (c.gen + status * 2 ^ 12) ++
    bytesOf 2 (min c.kills 255 + c.q % 8 * 2 ^ 8 + c.q / 8 * 2 ^ 11) ++ bytesOf 2 user ++ bytesOf 4 (cycles % 2 ^ 32) ++
    bytesOf 4 (tick % 2 ^ 32)

/-- The completion ring of a queue is full (R185). -/
def State.cqFull (s : State) (q : Nat) : Bool := decide (s.queueSize q ≤ diff32 (s.queue q).cqTail (s.queue q).cqHead)

/-- The record of a command that has ended waits in the side queue (R136). -/
def State.record (s : State) (g : Nat) (c : Cmd) (b status user cycles tick arrays : Nat) (ivl : Option (Nat × Nat) := none) :
    State :=
  s.modCore g fun m => { m with recs := m.recs ++
    [{ q := c.q, data := recData c status user cycles tick, basin := b, gen := c.gen, tag := c.tag, status,
       cycles, arrays, evreq := c.evreq, wait := s.cqFull c.q, ivl }] }

/-! Kills (R134, R135) -/

/-- A command boundary of the core: waiting map-outs may take effect (R97). -/
def State.boundary (s : State) (g : Nat) : State :=
  s.modCore g fun m => { m with mapDue := m.mapDue ++ m.mapPend, mapPend := [] }

/-- The shadow planes of all arrays of a core become invalid (R69). -/
def State.shdInvalid (s : State) (g : Nat) : State :=
  (List.range 4).foldl (fun s a => (s.setFld F.MXC_ARR_STATUS.SHD_VALID (g * 4 + a) 0).setFld
    F.MXC_ARR_STATUS.LOADING (g * 4 + a) 0) s

/-- A command leaves its context by a kill (R135): its passes, its load, its staged lines and its reservations go. -/
def State.drop (s : State) (g c : Nat) : State :=
  match s.ctx g c with
  | none => s
  | some x =>
    let s := s.semReturn g x.rsv
    let s := s.when (!x.staged.isEmpty) (fun s => s.incFld F.SNT_CNT.DISCARDS g)
    let s := s.when ((s.core g).loading == some (c, x.seq)) (fun s =>
      (s.modCore g fun m => { m with loading := none }).shdInvalid g)
    let s := s.modCore g fun m =>
      { m with passT := min m.passT s.gey.arr
               passes := (m.passes.map fun (a, l) => (a, l.filter fun p => p.seq != x.seq)).filter fun p => !p.2.isEmpty }
    (s.freeCtx g c).boundary g

/-- A kill without re-run: the command ends with a status (Table 4-8). -/
def State.killEnd (s : State) (g c status : Nat) (user : Nat := 0) : State :=
  match s.ctx g c with
  | none => s
  | some x => (s.drop g c).record g x.cmd x.basin status user (s.since x.t0) s.tickNo x.arrays

/-- Place a command among those waiting for re-run, in order of first dispatch (R187). -/
def rerunInsert (c : Cmd) : List Cmd → List Cmd
  | [] => [c]
  | d :: l => if c.order < d.order then c :: d :: l else d :: rerunInsert c l

/-- A kill for re-run: the command returns to the head of its queue, its kill count rises by 1, and its time is
charged to PREEMPT_CYC, of queue 0 as of any other (R134, R187, R194; log entry 35). A radio command's kill sets KILLRR in
the words of its cells (R381). -/
def State.killRerun (s : State) (g c : Nat) (tick : Bool := false) : State :=
  match s.ctx g c with
  | none => s
  | some x =>
    let cmd := { x.cmd with kills := min (x.cmd.kills + 1) 255, tickKilled := x.cmd.tickKilled || tick }
    let s := s.when (x.cmd.q % 8 == 0) fun s => s.workCells s.radioDies 7
    let s := s.charge x.basin 2 1
    let s := s.charge x.basin 1 (s.since x.t0 * x.arrays)
    (s.drop g c).modCore g fun m => { m with rerun := rerunInsert cmd m.rerun }

/-- Kill every command of a core for re-run. -/
def State.killAll (s : State) (g : Nat) : State := (List.range 4).foldl (fun s c => s.killRerun g c) s

/-- An address fault of a command (R32): the event record, and the end with ADDR (Table 4-8). -/
def State.killAddr (s : State) (g c a : Nat) : State :=
  match s.ctx g c with
  | none => s
  | some x => (s.addrFault (s.coreWho g x) a).killEnd g c 2

/-! Reads of a core (R119) -/

/-- The newest staged byte at a local address. -/
def stagedByte (l : List Staged) (a : Nat) : Option (Byte × Bool) :=
  l.foldl (fun r t => match t with
    | .store x d p => if x ≤ a ∧ a < x + d.length then some (d.getD (a - x) 0, p) else r
    | _ => r) none

/-- The staged lines that stand poisoned, by address / 64: Table 5-3 over the staged writes in order (R149, R158). -/
def linesPoisoned (l : List Staged) : List Nat :=
  l.foldl (fun ps t => match t with
    | .store a d p =>
      if p then a / 64 :: ps.filter (· != a / 64)
      else if a % 64 = 0 ∧ d.length = 64 then ps.filter (· != a / 64) else ps
    | _ => ps) []

/-- A staged effect with an error of a word of its line: uncorrectable, it is poisoned; not detected, its data are wrong (R155,
Table 5-4). -/
def Staged.struck (t : Staged) (word p : Nat) : Staged :=
  let wrong := fun (d : List Byte) (x : Nat) => bytesOf d.length (natOf d ^^^ (x * 2 ^ (64 * word)))
  match t, eccClass false p with
  | .store a d _, .uncorrectable => .store a d true
  | .store a d q, .silent x => .store a (wrong d x) q
  | .fstore a d _, .uncorrectable => .fstore a d true
  | .fstore a d q, .silent x => .fstore a (wrong d x) q
  | .fatom fn sg a op n ret _, .uncorrectable => .fatom fn sg a op n ret true
  | .fsend v q d ps, .uncorrectable => .fsend v q d (ps.set (word / 8) true)
  | .fsend v q d ps, .silent x => .fsend v q (wrong d x) ps
  | t, _ => t

/-- The staged effects of the command of dispatch order `seq` as a read of the Sinter gives them. -/
def State.sinterRead (s : State) (g seq : Nat) (l : List Staged) : List Staged :=
  s.flips.foldl (fun l f => match f.1 with
    | .sinter k q i w => if k = g ∧ q = seq then l.modify i fun t => t.struck w f.2 else l
    | _ => l) l

/-- The Sinter words of a command are read to commit or to drain: errors in them are counted and reported, and stay in the staged
lines as they were read (R156; log entry 162). -/
def State.meetSinter (s : State) (g seq : Nat) (l : List Staged) : List Staged × State :=
  let mine := fun (f : EccLoc × Nat) => match f.1 with
    | .sinter k q _ _ => k == g && q == seq
    | _ => false
  let src := unitSrc (.block (g / 2) (g % 2))
  let t := (s.flips.filter mine).foldl (fun s f => match f.1 with
    | .sinter _ _ i _ =>
      match eccClass false f.2 with
      | .corrected => s.eccCorrected (some (false, g / 2)) (g / 2) 5 src
      | .uncorrectable =>
        let line := match l[i]? with
          | some (.store a _ _) => a / 64 * 64
          | some (.fstore a _ _) => a / 64 * 64
          | _ => 0
        s.eccLost (some (false, g / 2)) (g / 2) 5 src line
      | .silent _ => s
    | _ => s) s
  (s.sinterRead g seq l, { t with flips := t.flips.filter fun f => !mine f })

/-- The newest byte that one command's staged lines give, with the poison of its line. -/
def stagedNewest (l : List Staged) (a : Nat) : Option (Byte × Bool) :=
  (stagedByte l a).map fun r => (r.1, (linesPoisoned l).contains (a / 64))

/-- Bytes of a range, with their poison, as a command sees them: its own staged lines first, then lines of earlier commands of the
core not yet drained, the newest first, then what `base` gives (R119, R157). -/
def State.newest (s : State) (g : Nat) (x : Ctx) (a : Nat) (base : List (Byte × Bool)) : List (Byte × Bool) :=
  let l := s.sinterRead g x.seq x.staged :: ((s.core g).drains.map fun d => s.sinterRead g d.seq d.staged).reverse
  base.zipIdx.map fun (b, i) => (l.findSome? fun st => stagedNewest st (a + i)).getD b

/-- Bytes in order over ranges, as a command sees them (R119). -/
def State.newestOver (s : State) (g : Nat) (x : Ctx) (ranges : List (Nat × Nat)) (base : List (Byte × Bool)) : List (Byte × Bool) :=
  (ranges.foldl (fun (r : List (Byte × Bool) × List (Byte × Bool)) q =>
    (r.1 ++ s.newest g x q.1 (r.2.take q.2), r.2.drop q.2)) ([], base)).1

/-- Bytes read by a command at a local address, with the poison of each (R119, R157). -/
def State.coreRead (s : State) (g : Nat) (x : Ctx) (a n : Nat) : List (Byte × Bool) :=
  s.newest g x a (match place a with
    | .host _ => s.hostBytes g a n
    | _ => (s.view a n).zipIdx.map fun (b, i) => (b, s.linePoison ((a + i) / 64)))

/-- The bytes of a stream in order, with their poison. -/
def State.streamRead (s : State) (g : Nat) (x : Ctx) (d : Nat) : List (Byte × Bool) :=
  (sdRuns d).flatMap fun a => s.coreRead g x a (sdLen0 d)

/-- The runs of a stream that lie in host memory. -/
def sdHost (d : Nat) : List Nat := (sdRuns d).filter fun a => match place a with
  | .host _ => true
  | _ => false

/-- A stream of core g reads its words: memory errors are met (R156), and reads of host memory go to Obsidian (R344). -/
def State.meetStream (s : State) (g d : Nat) : State :=
  (s.meetAll ((sdRuns d).map fun a => (a, sdLen0 d))).hostRuns g (sdLen0 d) (sdHost d)

/-- The first address of a stream the command may not access. -/
def State.streamBad (s : State) (g : Nat) (x : Ctx) (write : Bool) (d : Nat) : Option Nat :=
  (sdRuns d).findSome? fun a => s.badAddr (s.coreWho g x) write a (sdLen0 d)

/-! Staging (R136, R140) -/

/-- Distinct elements. -/
def distinct : List Nat → List Nat
  | [] => []
  | a :: l => if l.contains a then distinct l else a :: distinct l

/-- Quota lines of staged effects: distinct 64-byte lines of stores and of fabric stores, one line an atomic, and the
payload lines of messages (R136; log entry 36). -/
def quotaLines (l : List Staged) : Nat :=
  (distinct (l.flatMap fun t => match t with
    | .store a d _ => linesOf a d.length
    | _ => [])).length +
  (distinct (l.flatMap fun t => match t with
    | .fstore a d _ => linesOf a d.length
    | _ => [])).length +
  (l.map fun t => match t with
    | .fatom _ _ _ _ _ _ _ => 1
    | .fsend _ _ d _ => (d.length + 63) / 64
    | _ => 0).sum

/-- Signals and barrier arrivals of a command, which use the side queue (R136). -/
def sideCount (l : List Staged) : Nat :=
  (l.filter fun t => match t with
    | .signal _ _ _ => true
    | .fbar _ _ => true
    | _ => false).length

/-- Side-queue entries in use (R136). -/
def State.sideUsed (s : State) (g : Nat) : Nat :=
  ((s.held4 g).map fun (_, x) => sideCount x.staged).sum +
    ((s.core g).drains.map fun d => sideCount d.staged).sum + (s.core g).recs.length

/-- Split a run of bytes into stores of at most one line, each poisoned where a byte of it is (R149). -/
def lineStores (a : Nat) (d : List (Byte × Bool)) : List Staged :=
  (linesOf a d.length).map fun l =>
    let lo := max a (l * 64)
    let hi := min (a + d.length) (l * 64 + 64)
    let part := (d.drop (lo - a)).take (hi - lo)
    .store lo (part.map Prod.fst) (part.any Prod.snd)

/-- A command stages effects; the first line beyond its SNTQ kills it with QUOTA (R136). -/
def State.stage (s : State) (g c : Nat) (x : Ctx) (l : List Staged) : State :=
  let x := { x with staged := x.staged ++ l }
  let s := s.setCtx g c (some x)
  if x.cmd.sntq * 64 < quotaLines x.staged then s.killEnd g c 5 else s

/-- Stage a stream's bytes to the runs of its descriptor in order. -/
def sdStores (d : Nat) (data : List (Byte × Bool)) : List Staged :=
  let n := sdLen0 d
  (sdRuns d).zipIdx.flatMap fun (a, i) => lineStores a ((data.drop (i * n)).take n)

/-! Sinter units (R136, Table 4-16) -/

/-- Units held by the tenant side (`radio` false) or by queue 0. -/
def State.unitsHeld (s : State) (g : Nat) (radio : Bool) : Nat :=
  ((s.held4 g).map fun (_, x) => if (x.cmd.q % 8 == 0) == radio then x.cmd.sntq else 0).sum +
    ((s.core g).drains.map fun d => if (d.cmd.q % 8 == 0) == radio then d.units else 0).sum

/-- Capacity of a side under the split in effect (R136, R142). -/
def State.sideCap (s : State) (g : Nat) (radio : Bool) : Nat :=
  if radio then (s.core g).rsvNow else 1024 - (s.core g).rsvNow

/-- No command is held in a context of the core. -/
def State.idle (s : State) (g : Nat) : Bool := (s.held4 g).isEmpty

/-- Gated units wake (R450, R451): arrays are numbered 4g + a, ETV-D cores 1024 + d. -/
def State.wakeUnits (s : State) (p : Nat → Bool) : State := s.modPwr fun w => { w with gated := w.gated.filter fun i => !p i }

/-- A radio reservation holds the core (Table 4-10, RADIO). -/
def State.radioLane (s : State) (g : Nat) : Bool := (s.core g).run.isSome

end Sys2Proof.Machine
end

