-- ==== Sys2Proof/Machine/Fault.lean ====
section
/-! DEFINITION. The block and region handlers of the matrix dies (R21, R22, R98, R377, R378, R390): fences of arrays and
cores, escalation, and the repeated misses that lead to them (R362, R363). -/

namespace Sys2Proof.Machine

/-- The unit of an array (Table 12-6). -/
def arrayUnit (g a : Nat) : FUnit := .tile (g / 2) (g % 2) a

/-- The unit of a matrix core. -/
def coreUnit (g : Nat) : FUnit := .block (g / 2) (g % 2)

/-- Reference periods of one second. -/
def oneSecond : Nat := 156250000

/-- An injection of a mechanism is armed on a unit (R380): the die field of UNIT is the window's own. -/
def State.injArmed (s : State) (d mech src : Nat) : Bool :=
  s.flag F.FLT_INJECT.ARM d && s.fld F.FLT_INJECT.MECH d == mech && s.fld F.FLT_INJECT.UNIT d % 2048 == src % 2048

/-- The injection has been made: ARM clears. -/
def State.injMade (s : State) (d mech src : Nat) : State := s.when (s.injArmed d mech src) fun s => s.setFld F.FLT_INJECT.ARM d 0

/-- Detections of a mechanism on a unit within the last second (R362 to R364, Table 12-3). -/
def State.recent (s : State) (mech src : Nat) : Nat :=
  (s.flt.misses.filter fun m => m.mech == mech && m.src == src && decide (s.tmb.clk < m.clk + oneSecond)).length

/-- Remember a detection for a second. -/
def State.note (s : State) (mech src : Nat) : State :=
  s.modFlt fun h => { h with misses := (h.misses.filter fun m => decide (s.tmb.clk < m.clk + oneSecond)) ++
    [{ mech, src, clk := s.tmb.clk }] }

/-- A region controller escalates to Caldera (R21, R378): counted in ESC, reported through group 0 of the region, and
kept until a fence of the region or its release (R26). -/
def State.escalate (s : State) (d src mech : Nat) : State :=
  let s := s.incFld F.FLT_RG_CNT.ESC d
  let s := s.modFlt fun h => { h with waiting := h.waiting ++ [⟨.region d, 3, false, false⟩] }
  s.raise (regSrc d 0) { mech, level := 2, data := src % 2 ^ 16 }

/-- Actions of a lower handler are discarded, and counted in the region (R22, R378). -/
def State.discard (s : State) (d n : Nat) : State := s.when (n != 0) fun s => s.incFld F.FLT_RG_CNT.DISCARD d n

/-- Retries that wait in array a of core g (R96). -/
def State.retries (s : State) (g a : Nat) : Nat := ((SMap.get [] (s.core g).passes a).filter (·.retried)).length

/-- The map-outs that wait in array a of core g are discarded, and with them MAP_PEND (R22, R98). -/
def State.dropMaps (s : State) (g a : Nat) : State :=
  let m := s.core g
  let s := s.discard (g / 2) ((m.mapPend ++ m.mapDue).filter fun p => p.1 == a).length
  (s.setCore g { m with mapPend := m.mapPend.filter fun p => p.1 != a, mapDue := m.mapDue.filter fun p => p.1 != a }).setFld
    F.MXC_ARR_STATUS.MAP_PEND (g * 4 + a) 0

/-- A third block of a region fenced within a second escalates (Table 12-3). -/
def State.thirdBlock (s : State) (d mech : Nat) : State :=
  if 3 ≤ s.recent 0x102 (unitSrc (.region d)) then s.escalate d (unitSrc (.region d)) mech else s

/-- The region controller of die d has fenced block k, which takes no further work; radio work that no block can take escalates
(R21, Table 12-3). -/
def State.blockDown (s : State) (d k mech : Nat) (radio : Bool) : State :=
  let u := FUnit.block d k
  let s := s.addFence ⟨u, 2, false, false⟩
  let s := s.setFld F.FLT_RG_STATUS.BFENCE d (putBit (s.fld F.FLT_RG_STATUS.BFENCE d) k true)
  let s := ((s.note 0x102 (unitSrc (.region d))).lastFault d mech (unitSrc u) 2).fenceEvent d mech 2 u 2
  let s := s.when radio fun s => s.escalate d (unitSrc u) mech
  s.thirdBlock d mech

/-- A tile of block k is fenced: the third one within a second is left to the region controller, which fences the block
(Table 12-3). -/
def State.tileFenced (s : State) (d k : Nat) (block : State → State) : State :=
  let src := unitSrc (.block d k)
  let third := decide (2 ≤ s.recent 0x101 src) && !s.unitOut (.block d k)
  let s := s.note 0x101 src
  s.when third block

/-- The region controller fences a matrix core (R21, R22, R390): pending retries, re-runs and spare mappings below it are
discarded with the kills and counted, and its windows and queue 0 pass to the other core of the die. A command whose re-run is
discarded ends with FENCED (log entry 119). -/
def State.fenceCore (s : State) (g mech : Nat) : State :=
  if s.fencedUnit (coreUnit g) then s.testStands mech 2 (coreUnit g)
  else
    let d := g / 2
    let p := g + 1 - 2 * (g % 2)
    let src := unitSrc (coreUnit g)
    let s := s.discard d ((List.range 4).map fun a => s.retries g a).sum
    let s := s.killAll g
    let s := (List.range 4).foldl (fun s a => s.dropMaps g a) s
    let s := s.addFence ⟨coreUnit g, 2, false, false⟩
    let s := s.setFld F.FLT_RG_STATUS.BFENCE d (putBit (s.fld F.FLT_RG_STATUS.BFENCE d) (g % 2) true)
    let m := s.core g
    let q0 := if s.coreOut p then [] else m.rerun.filter fun c => c.q == qIx g 0
    let gone := m.rerun.filter fun c => !q0.contains c
    let s := (s.discard d gone.length).setCore g { m with wins := [], next := [], run := none, rerun := [] }
    let s := gone.foldl (fun s c => s.record g c (s.queueBasin c.q) 11 0 0 s.tickNo 0) s
    let s := s.note 0x102 (unitSrc (.region d))
    let s := (s.lastFault d mech src 2).fenceEvent d mech 2 (coreUnit g) 2
    if s.coreOut p then s.when (s.flag F.MXC_TPROG_BASE.RADIO_CORE g) (fun s => s.escalate d src mech)
    else s.modCore p fun n =>
      { n with wins := n.wins ++ m.wins ++ (m.run.map fun r => r.w).toList, next := n.next ++ m.next
               rerun := q0.foldl (fun l c => rerunInsert c l) n.rerun, nextOrder := max n.nextOrder m.nextOrder }

/-- The block handler fences an array: commands with passes in it are killed for re-run (R95, R98, log entry 38), and the retries
and map-outs that wait in it are discarded and counted (R22). The last array in service, and a third array within a second, escalate, and the region fences the core (Table 12-3). -/
def State.fenceArray (s : State) (g a : Nat) : State :=
  if s.flag F.MXC_ARR_STATUS.FENCED (g * 4 + a) then s.testStands 1 1 (arrayUnit g a)
  else
    let src := unitSrc (coreUnit g)
    let hit := (SMap.get [] (s.core g).passes a).map (·.seq)
    let s := (s.discard (g / 2) (s.retries g a)).dropMaps g a
    let s := (s.held4 g).foldl (fun s (c, x) => if hit.contains x.seq then s.killRerun g c else s) s
    if (s.arraysIn g).length ≤ 1 ∨ 2 ≤ s.recent 0x101 src then s.fenceCore g 1
    else
      let s := (s.addFence ⟨arrayUnit g a, 1, false, false⟩).setFld F.MXC_ARR_STATUS.FENCED (g * 4 + a) 1
      (s.note 0x101 src).detect (g / 2) 1 1 (unitSrc (arrayUnit g a)) 0

/-- A fault inside a core kills a command, or every command, for re-run; a second one within a second escalates, and the
region controller fences the core (R362, R363). -/
def State.coreMiss (s : State) (g mech : Nat) (kill : State → State) : State :=
  let src := unitSrc (coreUnit g)
  let again := 1 ≤ s.recent mech src
  let s := ((kill s).note mech src).detect (g / 2) mech 1 src 0
  if again then s.fenceCore g mech else s

end Sys2Proof.Machine
end

