-- ==== Sys2Proof/Machine/Array.lean ====
section
/-! DEFINITION. The matrix arrays (R65 to R101): products and sums to the bit, output conversion, residue handling,
column map-outs, loads, scrubs. -/

namespace Sys2Proof.Machine

/-! Operands of a pass -/

/-- The number an element code stands for (Table 3-2). -/
def elemVal (fmt code : Nat) : Val :=
  match ffmt fmt with
  | some f => f.decode code
  | none =>
    let v := sext (elemBits fmt) code
    .fin (decide (v < 0)) v.natAbs 0

/-- A value times a power of two given by E8M0 scale codes; 0xFF makes it NaN (R71). -/
def scaleVal (v : Val) (scale : Nat) : Val :=
  if scale = 255 then .nan
  else match v with
    | .fin n m e => .fin n m (e + scale - 127)
    | v => v

/-- Element r of an activation vector with its MX scale (R71, R73). -/
def actVal (pm : PassMode) (d : List Byte) (r : Nat) : Val :=
  let v := elemVal pm.fa (elem (elemBits pm.fa) d r)
  if pm.mx then scaleVal v (d.getD ((geom pm.fa).1 * elemBits pm.fa / 8 + r / 32) 0).toNat else v

/-- Element (r, c) of a weight tile with its MX scale (R71, R73). -/
def wtVal (pm : PassMode) (d : List Byte) (r c : Nat) : Val :=
  let (rows, cols) := geom pm.fw
  let v := elemVal pm.fw (elem (elemBits pm.fw) d (r * cols + c))
  if pm.mx then scaleVal v (d.getD (rows * cols * elemBits pm.fw / 8 + r / 32 * cols + c) 0).toNat else v

/-- Part 0 (real) or 1 (imaginary) of complex element i of packed CI16 bytes (R73). -/
def ciPart (d : List Byte) (i part : Nat) : Int := sext 16 (elem 16 d (2 * i + part))

/-- The BF16 and FP16 path (R82). -/
def fpPath (fmt : Nat) : Bool := fmt == 7 || fmt == 8

/-- The exponent B of the accumulator (R75, R88). -/
def PassMode.b (pm : PassMode) : Int :=
  if pm.mx then pm.accExp - 32
  else if pm.mode = 5 ∨ pm.mode = 6 ∨ ((pm.fa = 5 ∨ pm.fa = 6) ∧ (pm.fw = 5 ∨ pm.fw = 6)) then 0
  else -32

/-- Logical columns an entry has for an operand format (Table 3-3, R90). -/
def PassMode.cols (pm : PassMode) : Nat := if fpPath pm.fw then 256 else 512

/-- Unmasked logical rows (R91). -/
def PassMode.rows (pm : PassMode) : List Nat := List.range (min pm.kv (geom pm.fa).1)

/-! The exact accumulator -/

/-- A product as an integer multiple of 2^B: truncated toward zero with INEXACT, limited with RANGE (R76). -/
def toMultiple (b : Int) (neg : Bool) (m : Nat) (e : Int) : Int × Bool × Bool :=
  let k := e - b
  let mag := if 0 ≤ k then m * 2 ^ k.toNat else m / 2 ^ (-k).toNat
  let inex := decide (k < 0) && decide (m % 2 ^ (-k).toNat ≠ 0)
  let big := decide (2 ^ 91 ≤ mag)
  let mag := if big then 2 ^ 91 - 1 else mag
  ((if neg then -(mag : Int) else mag), inex, big)

/-- Bits set in the low n bits of a number. -/
def popcount : Nat → Nat → Nat
  | 0, _ => 0
  | n + 1, v => v % 2 + popcount n (v / 2)

/-- The operation of a cell on one element pair (R88, Table 3-6). -/
def cellOp (mode : Nat) : Val → Val → Val
  | .fin n1 m1 e1, .fin n2 m2 e2 =>
    match mode with
    | 0 => .fin (n1 != n2) (m1 * m2) (e1 + e2)
    | 1 => let (v, e) := sumExact n1 m1 e1 (!n2) m2 e2; .fin false v.natAbs e
    | 2 => let (v, e) := sumExact n1 m1 e1 (!n2) m2 e2; .fin false (v.natAbs * v.natAbs) (2 * e)
    | _ => let (v, e) := sumExact n1 m1 e1 n2 m2 e2; .fin (decide (v < 0)) v.natAbs e
  | _, _ => .nan

/-- The residue of a value's signed integer significand (R92). -/
def valRes : Val → Nat
  | .fin n m _ => mod7 (if n then -(m : Int) else m)
  | _ => 0

/-- The residue of an aligned product whose significand has residue r: r × 2^(k mod 3) for the shift k of R76, less the residue of
the truncated bits (R92); a limited product takes the residue of its limit, 2^91 − 1 ≡ 1. -/
def alignRes (b : Int) (neg : Bool) (m : Nat) (e : Int) (r : Nat) : Nat :=
  let k := e - b
  let sgn : Int := if neg then -1 else 1
  let cut : Int := if k < 0 then (m % 2 ^ (-k).toNat : Nat) else 0
  if (toMultiple b neg m e).2.2 then mod7 sgn else mod7 (((r : Int) - sgn * cut) * (2 ^ (k % 3).toNat : Nat))

/-- A product reaches an accumulator (R76, R79, R89), and its residue the column's (R92). `r` is the residue of the product's
significand. -/
def Accum.take (mode : Nat) (b : Int) (a : Accum) (v : Val) (r : Nat) : Accum :=
  match v with
  | .fin n m e =>
    let (p, inex, big) := toMultiple b n m e
    let q := alignRes b n m e r
    let a := { a with inexact := a.inexact || inex, range := a.range || big }
    match mode with
    | 3 => if a.empty ∨ p < a.sum then { a with sum := p, res := q, empty := false } else a
    | 4 => if a.empty ∨ a.sum < p then { a with sum := p, res := q, empty := false } else a
    | _ => { a with sum := a.sum + p, res := (a.res + q) % 7, empty := false }
  | _ => { a with nan := true, empty := false }

/-- The four real products of a complex pair (R90). -/
def ciTerm (conj : Bool) (t : Nat) (ar ai wr wi : Int) : Int :=
  match t with
  | 0 => ar * wr
  | 1 => if conj then ai * wi else -(ai * wi)
  | 2 => if conj then -(ar * wi) else ar * wi
  | _ => ai * wr

/-- The residue the activation array generates for element r of a vector (R92). -/
def actRes (pm : PassMode) (d : List Byte) (r : Nat) : Nat := valRes (elemVal pm.fa (elem (elemBits pm.fa) d r))

/-- The residue stored beside weight (r, c) of a plane (R92). -/
def Plane.resAt (w : Plane) (r c : Nat) : Nat := w.res.getD (r * (geom w.fmt).2 + c) 0

/-- The residues of a tile's weights, generated as it is loaded (R92): one an element, one a part in CI16. -/
def tileRes (fmt : Nat) (d : List Byte) : List Nat :=
  let n := (geom fmt).1 * (geom fmt).2
  if fmt = 9 then (List.range (2 * n)).map fun i => mod7 (sext 16 (elem 16 d i))
  else (List.range n).map fun i => valRes (elemVal fmt (elem (elemBits fmt) d i))

/-- The residue of a cell's result: the product of the operands' residues in MAC; the result's own in the other modes. -/
def cellRes (pm : PassMode) (act : List Byte) (w : Plane) (r c : Nat) (v : Val) : Nat :=
  if pm.mode = 0 then actRes pm act r * w.resAt r c % 7 else valRes v

/-- The residue of a term of R90 from the residues of its parts. -/
def ciRes (conj : Bool) (t : Nat) (ar ai wr wi : Nat) : Nat := mod7 (ciTerm conj t ar ai wr wi)

/-- One column's products of a pass, exact modes and CI16, with the column's residue (R92). -/
def colExact (pm : PassMode) (act : List Byte) (w : Plane) (c : Nat) (a : Accum) : Accum :=
  let wt := w.data
  pm.rows.foldl (fun a r =>
    match pm.mode with
    | 5 =>
      let n := popcount 8 ((act.getD r 0) ^^^ (wt.getD (r * 512 + c) 0)).toNat
      { a with sum := a.sum + n, res := (a.res + n) % 7 }
    | 6 =>
      let k := 2 * (r * 128 + c / 4)
      let p := ciTerm pm.conj (c % 4) (ciPart act r 0) (ciPart act r 1) (ciPart wt (r * 128 + c / 4) 0)
        (ciPart wt (r * 128 + c / 4) 1)
      let q := ciRes pm.conj (c % 4) (mod7 (ciPart act r 0)) (mod7 (ciPart act r 1)) (w.res.getD k 0) (w.res.getD (k + 1) 0)
      { a with sum := a.sum + p, res := (a.res + q) % 7 }
    | m =>
      let v := cellOp m (actVal pm act r) (wtVal pm wt r c)
      a.take m pm.b v (cellRes pm act w r c v)) a

/-- One column's products of a pass in FP32, partial sum first (R82). The residues of R93 follow each product, addition and
rounding, so that without a fault they give the residue of the result (log entry 159). -/
def colFp (pm : PassMode) (act : List Byte) (w : Plane) (c : Nat) (a : Accum) : Accum :=
  let part := pm.rows.foldl (fun (p : Option Nat) r =>
    match p, val32 (mulVal (actVal pm act r) (wtVal pm w.data r c)) with
    | some p, some q => fadd p q
    | _, _ => none) (some 0)
  let v := match part with
    | some p => if a.nan then none else fadd (wrap 32 a.sum) p
    | none => none
  match v with
  | some v => { a with sum := v, res := mod7 v, empty := false }
  | none => { a with sum := nan32, res := mod7 nan32, nan := true, empty := false }

/-- A poisoned byte lies in one of the rows' activation elements or their scales (R100). -/
def actPoison (pm : PassMode) (pois : List Nat) : Bool :=
  !pois.isEmpty && pm.rows.any fun r =>
    (elemBytes (elemBits pm.fa) r).any pois.contains ||
      (pm.mx && pois.contains ((geom pm.fa).1 * elemBits pm.fa / 8 + r / 32))

/-- A poisoned byte lies in a column's weights or their scales (R100). -/
def wtPoison (pm : PassMode) (pois : List Nat) (c : Nat) : Bool :=
  let (rows, cols) := geom pm.fw
  let k := if pm.mode = 6 then c / 4 else c
  !pois.isEmpty && pm.rows.any fun r =>
    (elemBytes (elemBits pm.fw) (r * cols + k)).any pois.contains ||
      (pm.mx && pois.contains (rows * cols * elemBits pm.fw / 8 + r / 32 * cols + k))

/-- The start value of an entry's column in a mode (Table 3-6). -/
def startAccum (mode : Nat) : Accum := { empty := mode == 3 || mode == 4 }

/-- Column c of an entry; a column never written holds 0 (log entry 37). -/
def Entry.col (e : Entry) (c : Nat) : Accum := e.cols.getD c {}

/-- The start of an entry (Table 3-6). -/
def startEntry (mode : Nat) : Entry := { cols := List.replicate 512 (startAccum mode), mode }

/-- A pass reaches its entry (R75 to R79, R82, R91, R100). -/
def Entry.addPass (e : Entry) (p : Pass) (w : Plane) : Entry :=
  let pm := p.pm
  let e : Entry := if p.init then startEntry pm.mode else e
  let e := { e with mode := pm.mode, pm := some pm }
  if p.masked then { e with passes := e.passes + 1, mark := true }
  else
    let all := (List.range 512).map e.col
    if 1024 ≤ e.passes then { e with cols := all.map fun a => { a with range := true }, passes := e.passes + 1 }
    else
      let pa := actPoison pm p.poison
      let cols := all.zipIdx.map fun (a, c) =>
        if pm.cols ≤ c then a
        else
          let a := if fpPath pm.fw then colFp pm p.data w c a else colExact pm p.data w c a
          { a with poison := a.poison || pa || wtPoison pm w.poison c }
      { e with cols, passes := e.passes + 1 }

/-! The residue check (R93) -/

/-- The output column a logical column of cells belongs to: two of them form one in the BF16 and FP16 path (R73). -/
def PassMode.outCol (pm : PassMode) (l : Nat) : Nat := if fpPath pm.fw then l / 2 else l

/-- A fault changes the new contents of a column. -/
def Accum.fault (a : Accum) (f : ColFault) : Accum := { a with sum := a.sum + f.sum, res := (a.res + f.res) % 7 }

/-- The residue of the new SUM differs from the column's. -/
def Accum.misses (a : Accum) : Bool := mod7 a.sum != a.res

/-! Output conversion (Table 3-5): targets 0 FP32, 1 BF16, 2 FP16, 3 E5M2, 4 E4M3, 5 INT8, 6 INT32, 7 CI16, 8 CI24 -/

/-- The float format of a target. -/
def tgtFmt (t : Nat) : Option FFmt :=
  match t with
  | 0 => some fp32
  | 1 => ffmt 7
  | 2 => ffmt 8
  | 3 => ffmt 1
  | 4 => ffmt 0
  | _ => none

/-- Bits of one output part in memory (R73): CI24 parts stand in 32-bit containers. -/
def tgtBits (t : Nat) : Nat :=
  match t with
  | 0 => 32
  | 1 => 16
  | 2 => 16
  | 3 => 8
  | 4 => 8
  | 5 => 8
  | 6 => 32
  | 7 => 16
  | _ => 32

/-- Significant bits of an integer target. -/
def tgtInt (t : Nat) : Nat :=
  match t with
  | 5 => 8
  | 6 => 32
  | 7 => 16
  | _ => 24

/-- The result where NAN or RANGE is set (Table 3-5). -/
def nanResult (t : Nat) : Nat :=
  match t with
  | 0 => 0x7FC00000
  | 1 => 0x7FC0
  | 2 => 0x7E00
  | 3 => 0x7F
  | 4 => 0x7F
  | 5 => 0x80
  | 6 => 0x80000000
  | 7 => 0x8000
  | _ => 0xFF800000

/-- A signed dyadic number as a target's code (R84 to R86). -/
def convExact (t : Nat) (sat : Bool) (stoch : Option Nat) (v : Int) (e : Int) : Nat :=
  match tgtFmt t with
  | some f => if v = 0 then 0 else f.encode stoch sat (decide (v < 0)) v.natAbs e
  | none =>
    let w := tgtInt t
    let mag := roundInt stoch v.natAbs e
    let r : Int := if v < 0 then -(mag : Int) else mag
    wrap (tgtBits t) (clampInt (-(2 ^ (w - 1) : Nat)) ((2 ^ (w - 1) - 1 : Nat)) r)

/-- An infinity of a float target; E4M3 has none (R84). -/
def convInf (t : Nat) (sat neg : Bool) : Nat :=
  match tgtFmt t with
  | some f => b2n neg * 2 ^ (f.eb + f.mb) + (if f.special = 1 ∧ sat then f.maxCode else f.maxCode + 1)
  | none => if neg then wrap (tgtBits t) (-(2 ^ (tgtInt t - 1) : Nat)) else 2 ^ (tgtInt t - 1) - 1

/-- An FP32 code scaled by 2^sh as a target's code (R84, R85). -/
def convFp (t : Nat) (sat : Bool) (stoch : Option Nat) (code : Nat) (sh : Int) : Nat :=
  match fp32.decode code with
  | .nan => nanResult t
  | .inf n => convInf t sat n
  | .fin n m e =>
    match tgtFmt t with
    | some f => if m = 0 then b2n n * 2 ^ (f.eb + f.mb) else f.encode stoch sat n m (e + sh)
    | none => convExact t sat stoch ((if n then -1 else 1) * (m : Int)) (e + sh)

/-- An entry still EMPTY (R89); of the two NaNs of E4M3 it gives that of Table 3-5 (log entry 152). -/
def convEmpty (t : Nat) (max : Bool) : Nat := if t = 4 then nanResult 4 else convInf t false max

/-- One real output of an entry column (R84, R85, R89); none where the exponent B of a sum is not known, because no
pass fixed the formats (R75, log entry 42). -/
def convAccum (e : Entry) (t : Nat) (sat : Bool) (stoch : Option Nat) (osh : Int) (a : Accum) : Option Nat :=
  if a.nan || a.range then some (nanResult t)
  else if a.empty then some (convEmpty t (e.mode == 4))
  else match e.pm with
    | some pm =>
      if fpPath pm.fw then some (convFp t sat stoch (wrap 32 a.sum) osh) else some (convExact t sat stoch a.sum (pm.b + osh))
    | none => if a.sum = 0 then some 0 else none

/-- A part of a complex output: the sum of two columns, the flags of both pairs together (R90). -/
def convPair (t : Nat) (sat : Bool) (stoch : Option Nat) (osh : Int) (a b : Accum) : Option Nat :=
  if a.nan || a.range || b.nan || b.range then some (nanResult t)
  else some (convExact t sat stoch (a.sum + b.sum) osh)

/-- The entry holds CI16 columns (R90). -/
def Entry.complex (e : Entry) : Bool := e.mode == 6

/-- Output columns of an entry: real outputs, or parts of complex ones in order real, imaginary. -/
def Entry.outs (e : Entry) : Nat :=
  if e.complex then 256 else match e.pm with
    | some pm => pm.cols
    | none => 512

/-- Output j of an entry (real output j, or part j mod 2 of complex output j div 2), and its poison (R84, R85, R90). -/
def Entry.out (e : Entry) (t : Nat) (sat : Bool) (stoch : Option Nat) (osh : Int) (j : Nat) : Option Nat × Bool :=
  if e.complex then
    let c := j / 2 * 4
    let q := [e.col c, e.col (c + 1), e.col (c + 2), e.col (c + 3)]
    let bad := q.any fun a => a.nan || a.range
    let v := if bad then some (nanResult t)
      else convPair t sat stoch osh (e.col (c + j % 2 * 2)) (e.col (c + j % 2 * 2 + 1))
    (v, q.any (·.poison))
  else
    let a := e.col j
    (convAccum e t sat stoch osh a, a.poison)

/-! Accumulator images (Table 3-4) -/

/-- The image of a column; `sum` is what SUM shows, and RES its residue. -/
def Accum.image (a : Accum) (sum : Int) : Nat :=
  wrap 112 sum + b2n a.inexact * 2 ^ 112 + b2n a.range * 2 ^ 113 + b2n a.nan * 2 ^ 114 + b2n a.poison * 2 ^ 115 +
    b2n a.empty * 2 ^ 116 + mod7 sum * 2 ^ 117

/-- A column loaded from an image, its RES computed from the loaded SUM (R126). -/
def accumOf (img : Nat) (poisoned : Bool) : Accum :=
  { sum := sext 112 img, res := mod7 (sext 112 img), inexact := bit img 112, range := bit img 113, nan := bit img 114,
    poison := bit img 115 || poisoned, empty := bit img 116 }

/-- Two images combined (R81). -/
def combineImages (x y : Nat) : Nat :=
  let t := sext 112 x + sext 112 y
  let lo : Int := -(2 ^ 111 : Nat)
  let hi : Int := (2 ^ 111 - 1 : Nat)
  let sum := clampInt lo hi t
  let f := (bits x 116 112 ||| bits y 116 112) ||| (if sum = t then 0 else 2)
  wrap 112 sum + f * 2 ^ 112 + mod7 sum * 2 ^ 117

/-! Residue handling (R95 to R99) -/

/-- Spare k of an array carries logical column l (R97). -/
def State.spareOf (s : State) (ga k l : Nat) : Bool :=
  s.flag F.MXC_ARR_SPAREs.VALID (ga * 8 + k) && s.fld F.MXC_ARR_SPAREs.LCOL (ga * 8 + k) == l

/-- The logical column a physical column carries: its own below 512, the one of its spare entry above, unless a later map has
moved it on (R97). -/
def State.lcol (s : State) (ga pcol : Nat) : Option Nat :=
  if pcol < 512 then (if (List.range 8).any fun k => s.spareOf ga k pcol then none else some pcol)
  else
    let k := pcol - 512
    let l := s.fld F.MXC_ARR_SPAREs.LCOL (ga * 8 + k)
    if s.spareOf ga k l && !(List.range 8).any (fun j => decide (k < j) && s.spareOf ga j l) then some l else none

/-- The physical column that carries a logical column (R97). -/
def State.pcol (s : State) (ga l : Nat) : Nat :=
  match ((List.range 8).filter fun k => s.spareOf ga k l).getLast? with
  | some k => 512 + k
  | none => l

/-- The free spares of an array, lowest first. -/
def State.freeSpares (s : State) (ga : Nat) : List Nat :=
  (List.range 8).filter fun k => !s.flag F.MXC_ARR_SPAREs.VALID (ga * 8 + k)

/-- A column wants a map-out: it waits for the next command boundary, or no spare is left and the array is fenced. -/
def State.wantMap (s : State) (g a pcol : Nat) : State :=
  let ga := g * 4 + a
  match s.lcol ga pcol with
  | none => s
  | some l =>
    let m := s.core g
    let waiting := ((m.mapPend ++ m.mapDue).filter fun p => p.1 == a).length
    if (m.mapPend ++ m.mapDue).contains (a, l) then s
    else if (s.freeSpares ga).length ≤ waiting then s.fenceArray g a
    else (s.modCore g fun m => { m with mapPend := m.mapPend ++ [(a, l)] }).setFld F.MXC_ARR_STATUS.MAP_PEND ga 1

/-- One more miss of a physical column; at 2 it is mapped out (Table 3-8). -/
def State.bumpMiss (s : State) (g a pcol : Nat) : State :=
  let k := 520 * a + pcol
  let n := (SMap.get (0, 0) (s.core g).miss k).1 + 1
  let s := s.modCore g fun m => { m with miss := SMap.set (0, 0) m.miss k (n, s.tmb.clk) }
  if 2 ≤ n then s.wantMap g a pcol else s

/-- Missing columns whose count does not rise have still missed now (R95). -/
def State.touchMiss (s : State) (g a : Nat) (cols : List Nat) : State :=
  cols.foldl (fun s c => s.modCore g fun m =>
    { m with miss := SMap.set (0, 0) m.miss (520 * a + c) ((SMap.get (0, 0) m.miss (520 * a + c)).1, s.tmb.clk) }) s

/-- Counts of every missing column rise by 1. -/
def State.bumpAll (s : State) (g a : Nat) (cols : List Nat) : State := cols.foldl (fun s c => s.bumpMiss g a c) s

/-- Kill the command of a pass for re-run by residue handling (Table 3-8). -/
def State.killPass (s : State) (g a : Nat) (p : Pass) : State :=
  match s.ctx g p.ctx with
  | some x => if x.seq = p.seq then (s.incFld F.MXC_ARR_RESCNT.KILL (g * 4 + a)).killRerun g p.ctx else s
  | none => s

/-- Put the passes of an array back. -/
def State.setPasses (s : State) (g a : Nat) (l : List Pass) : State :=
  s.modCore g fun m => { m with passes := SMap.set [] m.passes a l }

/-- The plane of a pass is intact: no load has begun to overwrite it (Table 3-8). -/
def MCore.intact (m : MCore) (a : Nat) (p : Pass) : Bool := p.plane == SMap.get 0 m.act a || p.plane == SMap.get 0 m.shd a

/-- The entry of a pass as the pass leaves it, its faults included, and the physical columns that miss (R93): those of an output
column whose residues differ, or whose selection a fault turned. A fault in a column that carries no logical column changes
nothing (R97). -/
def State.checkPass (s : State) (g a : Nat) (p : Pass) (faults : List ColFault) : Entry × List Nat :=
  let ga := g * 4 + a
  let e := (SMap.get {} (s.core g).entries (a * 1024 + p.entry)).addPass p (SMap.get {} (s.core g).planes p.plane)
  if p.masked || decide (1024 < e.passes) then (e, [])
  else
    let hits := faults.filterMap fun f => (s.lcol ga f.pcol).map fun l => (p.pm.outCol l, f)
    let cols := e.cols.zipIdx.map fun (x, c) => (hits.filter fun h => h.1 == c).foldl (fun x h => x.fault h.2) x
    let bad := (List.range p.pm.cols).filter fun c => ((cols.getD c {}).misses) ||
      ((p.pm.mode == 3 || p.pm.mode == 4) && hits.any fun h => h.1 == c && h.2.select)
    let at' := fun c => match (hits.filter fun h => h.1 == c).map (·.2.pcol) with
      | [] => [s.pcol ga (if fpPath p.pm.fw then 2 * c else c)]
      | l => l
    ({ e with cols }, distinct (bad.flatMap at'))

/-- Place a pass among others in order of issue. -/
def passInsert (p : Pass) : List Pass → List Pass
  | [] => [p]
  | q :: l => if p.t < q.t then p :: q :: l else q :: passInsert p l

/-- A failed pass is re-issued in the next issue slot, and passes still to issue wait one cycle more; in BF16 and FP16 the passes
issued after it are issued again too, in their order (R96). -/
def reissue (now : Nat) (p : Pass) (rest : List Pass) : List Pass :=
  let p := { p with retried := true, init := false, t := now + 625 }
  if fpPath p.pm.fw then p :: rest.zipIdx.map fun (q, i) => { q with t := max (q.t + 625) (now + (i + 2) * 625) }
  else passInsert p (rest.map fun q => if now < q.t then { q with t := q.t + 625 } else q)

/-- A residue miss in columns no injection explains is handled as Table 3-8 states. -/
def State.handleMiss (s : State) (g a : Nat) (p : Pass) (rest : List Pass) (cols : List Nat) : State :=
  let ga := g * 4 + a
  let src := unitSrc (arrayUnit g a)
  let col := cols.foldl min 519
  if p.retried then
    let fence := s.flag F.MXC_ARR_STATUS.ARRAY_SUSPECT ga || decide (3 ≤ cols.length)
    let s := (s.killPass g a p).detect (g / 2) 1 1 src col
    if fence then (s.touchMiss g a cols).fenceArray g a else (s.bumpAll g a cols).boundary g
  else if !(s.core g).intact a p then
    (((s.killPass g a p).detect (g / 2) 1 1 src col).bumpAll g a cols).boundary g
  else
    let s := (s.setPasses g a (reissue s.gey.arr p rest)).detect (g / 2) 1 0 src col
    if 3 ≤ cols.length then (s.touchMiss g a cols).setFld F.MXC_ARR_STATUS.ARRAY_SUSPECT ga 1 else s.bumpAll g a cols

/-- R66, R92 to R96, R99: the residue check of the oldest pass in an array, 1,026 cycles after its issue, and its commit. An armed
injection makes its column miss (log entry 155); that miss is retried and counted in MISS, and the columns that miss beside
it are handled as ever. An entry that the pass initialises is initialised even where the pass contributes nothing. -/
def passCommit (g a : Nat) (faults : List ColFault) (s : State) : State :=
  let ga := g * 4 + a
  match SMap.get [] (s.core g).passes a with
  | [] => s
  | p :: rest =>
    if s.gey.arr < p.t + 1026 * 625 then s
    else
      let inj := s.flag F.MXC_ARR_INJECT.ARM ga && (s.fld F.MXC_ARR_INJECT.KIND ga == 1 || s.fld F.MXC_ARR_INJECT.KIND ga == 2)
      let (e, miss) := s.checkPass g a p faults
      let forced := if inj then [s.fld F.MXC_ARR_INJECT.PCOL ga] else []
      let own := miss.filter fun c => !forced.contains c
      let cols := forced ++ own
      let k := a * 1024 + p.entry
      if cols.isEmpty then
        let s := s.when p.retried (fun s => s.incFld F.MXC_ARR_RESCNT.RETRY_OK ga)
        (s.setPasses g a rest).modCore g fun m => { m with entries := SMap.set {} m.entries k e }
      else
        let s := s.incFld F.MXC_ARR_RESCNT.MISS ga cols.length
        let s := (((s.setFld F.MXC_ARR_LASTMISS.PCOL ga (cols.foldl min 519)).setFld F.MXC_ARR_LASTMISS.NCOL ga
          (min cols.length 7)).setFld F.MXC_ARR_LASTMISS.FP32 ga (b2n (fpPath p.pm.fw))).setFld F.MXC_ARR_LASTMISS.INJ ga (b2n inj)
        let s := (s.setFld F.MXC_ARR_LASTMISS.CYCLE ga s.frameCyc).setFld F.MXC_ARR_LASTMISS.TICK ga s.tickNo
        let s := s.when p.init fun s => s.modCore g fun m => { m with entries := SMap.set {} m.entries k (startEntry p.pm.mode) }
        let src := unitSrc (arrayUnit g a)
        let s := s.when inj fun s => (s.setFld F.MXC_ARR_INJECT.ARM ga 0).injMade (g / 2) 1 src
        if own.isEmpty then (s.setPasses g a (reissue s.gey.arr p rest)).detect (g / 2) 1 0 src 0 0 true
        else s.handleMiss g a p rest own

def execPassCommit (g a : Nat) (faults : List ColFault) (s : State) : Out :=
  run (.passCommit g a faults) s (passCommit g a faults s)

/-- A context blocked in swait goes on once no stream uses the descriptor (Table 4-4, swait). -/
def Ctx.wake (x : Ctx) : Ctx :=
  match x.blk with
  | .swait d => if x.streams.any fun t => t.sd == d then x else { x with blk := .none, pc := x.pc + 1 }
  | _ => x

/-- Streams of a command end: they no longer hold their descriptors (R116, R122). -/
def State.endStream (s : State) (g c : Nat) (p : Stream → Bool) : State :=
  match s.ctx g c with
  | some x => s.setCtx g c (some { x with streams := x.streams.filter fun t => !p t }.wake)
  | none => s

/-- R67: the running weight load is in its last cycle (R122), and the shadow planes of the arrays in service are valid. -/
def weightLoadEnd (g : Nat) (s : State) : State :=
  match (s.core g).loading with
  | none => s
  | some (c, q) =>
    if s.gey.arr < (s.core g).loadT then s else
    let s := s.modCore g fun m => { m with loading := none }
    let s := (s.arraysIn g).foldl (fun s a => s.setFld F.MXC_ARR_STATUS.SHD_VALID (g * 4 + a) 1) s
    let s := (List.range 4).foldl (fun s a => s.setFld F.MXC_ARR_STATUS.LOADING (g * 4 + a) 0) s
    if (s.ctx g c).any (fun x => x.seq == q) then s.endStream g c (fun t => t.op == 0x60) else s

def execWeightLoadEnd (g : Nat) (s : State) : Out := run (.weightLoadEnd g) s (weightLoadEnd g s)

/-- One map-out: the lowest free spare takes the logical column, and both planes of the array become invalid (R97). PERM follows
when Caldera has written the journal record (Table 3-11). -/
def State.mapOut (s : State) (g a l : Nat) : State :=
  let ga := g * 4 + a
  match s.freeSpares ga with
  | [] => s
  | k :: _ =>
    let ix := ga * 8 + k
    let s := ((s.setFld F.MXC_ARR_SPAREs.LCOL ix l).setFld F.MXC_ARR_SPAREs.VALID ix 1).setFld F.MXC_ARR_SPAREs.PERM ix 0
    let s := s.setFld F.MXC_ARR_STATUS.SPARES_USED ga (s.fld F.MXC_ARR_STATUS.SPARES_USED ga + 1)
    let s := (s.setFld F.MXC_ARR_STATUS.ACT_VALID ga 0).setFld F.MXC_ARR_STATUS.SHD_VALID ga 0
    s.detect (g / 2) 1 1 (unitSrc (arrayUnit g a)) l 0 false true

/-- R97: the map-outs of an array that have reached a command boundary take effect. -/
def columnMapOut (g a : Nat) (s : State) : State :=
  let mine := (s.core g).mapDue.filter fun p => p.1 == a
  if mine.isEmpty then s
  else
    let s := mine.foldl (fun s p => s.mapOut g a p.2) s
    let s := s.modCore g fun m => { m with mapDue := m.mapDue.filter fun p => p.1 != a }
    s.setFld F.MXC_ARR_STATUS.MAP_PEND (g * 4 + a) (b2n ((s.core g).mapPend.any fun p => p.1 == a))

def execColumnMapOut (g a : Nat) (s : State) : Out := run (.columnMapOut g a) s (columnMapOut g a s)

/-- R95: a column's miss count is cleared when the column has had no miss for 1 s. -/
def missCountClear (g a col : Nat) (s : State) : State :=
  let k := 520 * a + col
  if (SMap.get (0, 0) (s.core g).miss k).2 + 156250000 ≤ s.tmb.clk then
    s.modCore g fun m => { m with miss := SMap.set (0, 0) m.miss k (0, 0) }
  else s

def execMissCountClear (g a col : Nat) (s : State) : Out := run (.missCountClear g a col) s (missCountClear g a col s)

/-- The effect of one write of MXC_ARR_INJECT (Table 3-14). -/
def arrInjectWrite (g a v : Nat) (s : State) : State :=
  let ga := g * 4 + a
  ((s.setFld F.MXC_ARR_INJECT.PCOL ga (bits v 9 0)).setFld F.MXC_ARR_INJECT.KIND ga (bits v 11 10)).setFld
    F.MXC_ARR_INJECT.ARM ga (bits v 12 12)

/-- R99: a write of MXC_ARR_INJECT with ARM 1. -/
def arrInjectArm (g a : Nat) (v : BitVec 32) (s : State) : State := arrInjectWrite g a (putBit v.toNat 12 true) s

def execArrInjectArm (g a : Nat) (v : BitVec 32) (s : State) : Out := run (.arrInjectArm g a v) s (s.wr .MXC_ARR_INJECT (4 * g + a) (arrInjectArm g a v))

/-- A scrub starts (R101). -/
def State.startScrub (s : State) (g : Nat) : State := s.modCore g fun m => { m with scrub := true, scrubT := s.gey.arr + 512 * 625, clean := false }

/-- R101: a scrub ends: planes, entries, replay buffers and top-k state are clear, and the core is clean. A scrub of a
hand-back ends the window (R178). -/
def scrubEnd (g : Nat) (s : State) : State :=
  let m := s.core g
  if !m.scrub || decide (s.gey.arr < m.scrubT) then s
  else
    let s := (s.shdInvalid g)
    let s := (List.range 4).foldl (fun s a => s.setFld F.MXC_ARR_STATUS.ACT_VALID (g * 4 + a) 0) s
    s.setCore g { m with scrub := false, clean := true, planes := [], act := [], shd := [], loading := none, passes := [],
                         entries := [], topk := {}, run := if m.run.any (·.back) then none else m.run }

def execScrubEnd (g : Nat) (s : State) : Out := run (.scrubEnd g) s (scrubEnd g s)

end Sys2Proof.Machine
end

