-- ==== Sys2Proof/Machine/FabSend.lean ====
section
/-! DEFINITION. The device as a requester on the fabric: routes and first hops (R318, R396), packets on links (R302,
R398), outstanding requests (R313, R314), replies and dead targets (R317 to R321), and the job table (R322). -/

namespace Sys2Proof.Machine

/-! Sources of fabric events: 0x640 dead targets, 0x641 teardown, 0x642 barriers, 0x643 lock-step, 0x644 membership and
links (log entry 39) -/

def srcDead : Nat := 0x640
def srcBarrier : Nat := 0x642
def srcLock : Nat := 0x643
def srcMember : Nat := 0x644

def State.modFab (s : State) (f : Fabric → Fabric) : State := { s with fab := f s.fab }
def State.link (s : State) (l : Nat) : Link := SMap.get {} s.fab.links l
def State.setLink (s : State) (l : Nat) (x : Link) : State := s.modFab fun f => { f with links := SMap.set {} f.links l x }
def State.mq (s : State) (q : Nat) : MQ := SMap.get {} s.fab.mqs q
def State.setMq (s : State) (q : Nat) (x : MQ) : State := s.modFab fun f => { f with mqs := SMap.set {} f.mqs q x }
def State.bar (s : State) (b : Nat) : Barrier := SMap.get {} s.fab.bars b
def State.setBar (s : State) (b : Nat) (x : Barrier) : State := s.modFab fun f => { f with bars := SMap.set {} f.bars b x }

/-- The device's own index and pod (R299, R301). -/
def State.pidx (s : State) : Nat := s.fld F.FAB_ID.PIDX
def State.sysid (s : State) : Nat := s.fld F.FAB_ID.SYSID

/-! Fabric addresses (Table 10-1) -/

def faPidx (a : Nat) : Nat := bits a 63 55
def faClass (a : Nat) : Nat := bits a 54 52
def faOfs (a : Nat) : Nat := bits a 47 0

/-- CLASS is assigned, reserved bits are 0, and OFFSET lies in the region CLASS names (R308). -/
def faOk (a : Nat) : Bool :=
  bits a 51 48 == 0 &&
    match faClass a, place (faOfs a) with
    | 0, .store _ _ _ => true
    | 1, .sram _ _ => true
    | 2, .rsram _ _ => true
    | 3, .regs _ => true
    | _, _ => false

/-! Routes -/

/-- The route entry for a target: FAB_ROUTEi within the pod, FAB_PODRTp for another pod (R318). -/
def State.rtFld (s : State) (dst : Nat) (a b : Field) : Nat :=
  if dst / 512 = s.sysid / 512 then s.fld a (dst % 512) else s.fld b (dst / 512)

def State.rtValid (s : State) (dst : Nat) : Bool := s.rtFld dst F.FAB_ROUTEi.VALID F.FAB_PODRTp.VALID != 0
def State.rtDead (s : State) (dst : Nat) : Bool := s.rtFld dst F.FAB_ROUTEi.DEAD F.FAB_PODRTp.DEAD != 0
def State.rtLvl (s : State) (dst : Nat) : Nat := s.rtFld dst F.FAB_ROUTEi.LVL F.FAB_PODRTp.LVL
def State.rtClass (s : State) (dst : Nat) : Nat := s.rtFld dst F.FAB_ROUTEi.CLASS F.FAB_PODRTp.CLASS

/-- The eligible first-hop links of a target in slot order. -/
def State.rtLinks (s : State) (dst : Nat) : List Nat :=
  let v := s.rtFld dst F.FAB_ROUTEi.LINKk F.FAB_PODRTp.LINKk
  (List.range (s.rtFld dst F.FAB_ROUTEi.NLINK F.FAB_PODRTp.NLINK + 1)).map fun k => v / 2 ^ (6 * k) % 64

/-- A link is in service (R305). -/
def State.linkUp (s : State) (l : Nat) : Bool := s.fld F.FAB_Ll_STATUS.STATE l == 5

/-- The hash of a fabric address (R318). -/
def hashAddr (a : Nat) : Nat := bits a 13 6 ^^^ bits a 21 14 ^^^ bits a 29 22 ^^^ bits a 37 30 ^^^ bits a 45 38

/-- The hash of a message to queue q from core g (R318). -/
def hashMsg (q g : Nat) : Nat := bits q 7 0 ^^^ bits q 11 8 ^^^ g

/-- The detour links of a link (Table 13-15, R396). -/
def State.detours (s : State) (l : Nat) : List Nat :=
  if s.flag F.FAB_Ll_DTR.VALID l then
    ([s.fld F.FAB_Ll_DTR.DLINK0 l, s.fld F.FAB_Ll_DTR.DLINK1 l, s.fld F.FAB_Ll_DTR.DLINK2 l,
      s.fld F.FAB_Ll_DTR.DLINK3 l].take (s.fld F.FAB_Ll_DTR.NDTR l + 1))
  else []

/-- The first hop of a packet (R318, R396). A detour link out of service leaves the choice to those in service (log
entry 91). -/
def State.firstHop (s : State) (dst h : Nat) : Option Nat :=
  let ls := s.rtLinks dst
  let up := ls.filter s.linkUp
  if !up.isEmpty then up[h % up.length]?
  else if s.rtClass dst = 0 then
    let all := s.detours (ls.getD (h % ls.length) 0)
    let d := all.filter s.linkUp
    match all[h % all.length]? with
    | some l => if s.linkUp l then some l else d[h % d.length]?
    | none => none
  else none

/-! Packets on links -/

/-- The device may send and accept packets of a type: PVALID for memory-semantic ones, SVALID for messages, either for
acknowledgements, which serve both, and for management (R301). -/
def State.fabOn (s : State) (ty : Nat) : Bool :=
  s.flag F.FAB_CTRL.EN &&
    (if ty = 5 then s.flag F.FAB_ID.SVALID
     else if ty = 9 ∨ ty = 10 then s.flag F.FAB_ID.PVALID || s.flag F.FAB_ID.SVALID
     else s.flag F.FAB_ID.PVALID)

/-- Flits a packet takes: 240 bytes of header and payload lines each (R302, R312). -/
def flits (p : Packet) : Nat := (32 + (p.payload.length + 63) / 64 * 64 + 239) / 240

/-- What the device puts on a link: nothing while it may send no packet of the type (R301), and nothing once the watchdog has
stopped every send (R376). Such a packet stays in the retry buffer, as one lost on its way (log entry 177). -/
def State.wire (s : State) (l : Nat) (p : Packet) : State :=
  if s.fabOn p.ty && !s.flt.wdtStop then s.emit (.packet l p) else s

/-- A packet that goes out later than array time t: the cycles add to RES, which saturates by the level of the link (R307, R332;
log entry 178). -/
def State.delayed (s : State) (l t : Nat) (p : Packet) : Packet :=
  { p with res := min (p.res + (s.gey.arr - t) / 625) (if s.fld F.FAB_Ll_STATUS.LVL l < 3 then 0xFFF else 0xFFFF) }

/-- Flits of a link sent and not acknowledged. -/
def Link.unacked (k : Link) : Nat := (k.buf.map fun e => flits e.pkt).sum

/-- A packet goes out on a link, into its retry buffer. -/
def State.sendOn (s : State) (l : Nat) (e : OnLink) : State :=
  let k := s.link l
  let p := s.delayed l e.t e.pkt
  (s.setLink l { k with txSeq := k.txSeq + flits p, buf := k.buf ++ [{ last := k.txSeq + flits p - 1, t := s.gey.arr, pkt := p }] }).wire l p

/-- A packet on a link: sent, or waiting while 2,048 flits are unacknowledged (R398). -/
def State.onLink (s : State) (l : Nat) (e : OnLink) : State :=
  let k := s.link l
  if !k.queue.isEmpty ∨ 2048 < k.unacked + flits e.pkt then s.setLink l { k with queue := k.queue ++ [e] }
  else s.sendOn l e

/-- DEAD is set in the entry of a target without a path, and an event record is written (R396). -/
def State.setDead (s : State) (dst : Nat) : State :=
  if s.rtDead dst then s
  else
    let s := if dst / 512 = s.sysid / 512 then s.setFld F.FAB_ROUTEi.DEAD (dst % 512) 1
      else s.setFld F.FAB_PODRTp.DEAD (dst / 512) 1
    s.raise srcDead { level := 3, data := dst % 2 ^ 16 }

/-- A message in segments of at most 4 KiB, each with its payload's length (R312); other packets as they are. -/
def segments (p : Packet) : List Packet :=
  if p.ty ≠ 5 then [p]
  else (List.range (max 1 ((p.payload.length + 4095) / 4096))).map fun i =>
    let d := (p.payload.drop (4096 * i)).take 4096
    { p with payload := d, payPoison := (p.payPoison.drop (64 * i)).take 64, plen := d.length, seg := i }

/-- Send a packet on its first hop; the watchdog stops every send (R376). -/
def State.send (s : State) (p : Packet) (h : Nat) : State :=
  if !s.fabOn p.ty || s.flt.wdtStop then s
  else match s.firstHop p.dst h with
    | some l => (segments p).foldl (fun s q => s.onLink l { t := s.gey.arr, pkt := { q with lvl := s.fld F.FAB_CTRL.NATIVE } }) s
    | none => s.setDead p.dst

/-- The die of a core reaches the edge die of a packet's first hop (R16). -/
def State.fabReach (s : State) (g dst h : Nat) : Bool :=
  match s.firstHop dst h with
  | some l => s.reach (g / 2) (28 + l / 16)
  | none => true

/-- A packet's payload has poison. -/
def pktDirty (p : Packet) : Bool := p.poison || p.payPoison.any id

/-! Message queues (R323, Table 10-19) -/

/-- Slots and slot size of a queue. -/
def State.mqSlots (s : State) (q : Nat) : Nat := 2 ^ s.fld F.FAB_MQn.LOG2 q
def State.mqSlot (s : State) (q : Nat) : Nat := 1024 * 2 ^ s.fld F.FAB_MQn.SLOT q
def State.mqBase (s : State) (q : Nat) : Nat := s.fld F.FAB_MQn.BASE q
def State.mqOwner (s : State) (q : Nat) : Nat := s.fld F.FAB_MQn.OWNER q

/-- Producer and consumer counts of the control line. -/
def State.mqProd (s : State) (q : Nat) : Nat := s.readNat (s.mqBase q) 4
def State.mqCons (s : State) (q : Nat) : Nat := s.readNat (s.mqBase q + 4) 4

/-- The slot of message i; the ring follows the control line (log entry 46). -/
def State.mqAddr (s : State) (q i : Nat) : Nat := s.mqBase q + 64 + i % s.mqSlots q * s.mqSlot q

/-- A basin is OPEN; basin 0 always is. -/
def State.isOpen (s : State) (b : Nat) : Bool := b == 0 || s.fld F.BSN_STATEb.STATE b == 2

/-- A basin's FTID is enabled and is the one given; basin 0 has FTID 0, enabled (R310, Table 10-16). -/
def State.ftidOk (s : State) (b ftid : Nat) : Bool :=
  if b = 0 then ftid == 0 else s.flag F.FAB_FTIDb.EN b && s.fld F.FAB_FTIDb.FTID b == ftid

/-- Why a message of n bytes is refused, as a reply status (R311, R323); none where it is accepted. -/
def State.msgRefused (s : State) (q ftid n : Nat) : Option Nat :=
  let b := s.mqOwner q
  if !s.flag F.FAB_MQn.EN q || !s.isOpen b then some 2
  else if !s.ftidOk b ftid then some 1
  else if s.mqSlot q < n + 64 then some 6
  else if (s.badAddr { basin := b, die := 28 } true (s.mqBase q) 64).isSome ||
      (s.badAddr { basin := b, die := 28 } true (s.mqAddr q (s.mqProd q)) (n + 64)).isSome then some 6
  else if s.mqSlots q ≤ diff32 (s.mqProd q) (s.mqCons q) then some 3
  else none

/-- A whole message becomes visible in its queue (R323): payload, descriptor, producer count, and its record (R344). -/
def State.deliver (s : State) (q src : Nat) (data : List Byte) (lines : List Bool) : State :=
  let b := s.mqOwner q
  let i := s.mqProd q
  let a := s.mqAddr q i
  let pois := lines.any id
  let s := (List.range ((data.length + 63) / 64)).foldl (fun s k =>
    s.putRam b (a + 64 + 64 * k) ((data.drop (64 * k)).take 64) (lines.getD k false)) s
  let s := s.putRam b a (bytesOf 4 src ++ bytesOf 4 data.length ++ bytesOf 8 s.tickNo ++ bytesOf 48 (b2n pois))
  let s := s.putRam b (s.mqBase q) (bytesOf 4 (i + 1))
  (s.when (src != s.sysid) fun s => s.charge b 5 data.length).obs 6 src q (digest (s.fld F.PKG_OBS_KEY.KEY) data) data pois (s.flag F.PKG_OBS_CTRL.FABDATA)

/-- A message to a queue of this device (R323): the status of its reply, and the state after it. -/
def State.accept (s : State) (q src ftid : Nat) (data : List Byte) (lines : List Bool) : Nat × State :=
  match s.msgRefused q ftid data.length with
  | none => (0, s.deliver q src data lines)
  | some 3 => (3, s.incFld F.FAB_MQn.BUSYCNT q)
  | some k => (k, s)

/-! Outstanding requests -/

/-- What the order of R314 compares: the line of one target, or the endpoint and the core that sends to it. -/
def txnKey (t : Txn) : Nat × Nat × Nat := (t.pkt.dst, if t.pkt.ty = 5 then (t.pkt.addr + 2 ^ 70, t.g) else (t.pkt.addr / 64, 0))

/-- A request as it now is, in its place in the order of issue. -/
def State.setTxn (s : State) (t : Txn) : State :=
  s.modFab fun f => { f with txns := if f.txns.any (·.tag == t.tag) then f.txns.map fun u => if u.tag = t.tag then t else u
                                     else f.txns ++ [t] }

/-- A request is no longer outstanding. -/
def State.dropTxn (s : State) (tag : Nat) : State := s.modFab fun f => { f with txns := f.txns.filter fun t => t.tag != tag }

/-- Edge die k can track another request (R313). -/
def State.tagRoom (s : State) (k : Nat) : Bool :=
  decide ((s.fab.txns.filter fun t => t.link.isSome && t.ed == k).length < 4096)

/-- A free tag for a request to a target (R313). -/
def State.tagFree (s : State) (dst h : Nat) : Bool := s.tagRoom ((s.firstHop dst h).getD 0 / 16)

/-- Change the drain a request belongs to. -/
def State.modDrain (s : State) (g seq : Nat) (f : Drain → Drain) : State :=
  s.modCore g fun m => { m with drains := m.drains.map fun d => if d.seq = seq then f d else d }

/-- A committed operation is answered: the drain no longer waits for it (R140); `bad`: it failed (R147, R326). -/
def State.drainDone (s : State) (t : Txn) (bad : Bool) : State :=
  if t.g < 24 then
    s.modDrain t.g t.seq fun d =>
      { d with waiting := d.waiting.filter (· != t.tag), failed := d.failed || bad
               mcFail := if bad && t.pkt.mc then d.mcFail ++ [(t.fn - 1, t.rd)] else d.mcFail }
  else s

/-- A message to a queue of this device (R308, R323, R324): one that finds the ring full is tried again as any other. -/
def State.deliverOwn (s : State) (t : Txn) : State :=
  let r := s.accept (t.pkt.addr % 4096) s.sysid t.pkt.ftid t.pkt.payload t.pkt.payPoison
  if r.1 = 3 ∧ t.tries < 3 then r.2.setTxn t else (r.2.dropTxn t.tag).drainDone t (r.1 != 0)

/-- Send a request, unless an earlier message of the core to the endpoint is unacknowledged (R314), one to the same line is
outstanding on another path (R318) or waits before it, or its edge die has no free tag (R313). -/
def State.launch (s : State) (t : Txn) : State :=
  let own := t.pkt.dst == s.sysid
  let hop := if own then some 64 else s.firstHop t.pkt.dst t.hash
  let clash := (s.fab.txns.takeWhile fun u => u.tag != t.tag).any fun u =>
    txnKey u == txnKey t && (t.pkt.ty == 5 || u.link.isNone || u.link != hop)
  if clash || (!own && !s.tagFree t.pkt.dst t.hash) then s.setTxn { t with link := none, clk := s.tmb.clk }
  else
    let t := { t with link := hop, ed := hop.getD 0 / 16, clk := s.tmb.clk }
    if own then s.deliverOwn t else (s.setTxn t).send t.pkt t.hash

/-- Requests that wait for an earlier one, or for a tag, are sent when they can be (R313, R314, R318). -/
def State.relaunch (s : State) : State :=
  (s.fab.txns.filter fun t => t.link.isNone).foldl (fun s t => s.launch t) s

/-- Forget a request. -/
def State.forget (s : State) (tag : Nat) : State := (s.dropTxn tag).relaunch

/-- The next free TAG, 20 bits. -/
def State.newTag (s : State) : Nat × State :=
  (s.fab.nextTag, s.modFab fun f => { f with nextTag := (f.nextTag + 1) % 2 ^ 20 })

/-- A command's request: header fields of Table 10-2 from the command. -/
def State.request (s : State) (g c seq basin : Nat) (cmd : Cmd) (p : Packet) (hash rd fn ret : Nat) : Nat × State :=
  let (tag, s) := s.newTag
  let s := s.when (p.dst != s.sysid) fun s => s.charge basin 5 p.payload.length
  let pkt := { p with src := s.sysid, tag := tag, gen := cmd.gen, ftid := s.fld F.FAB_FTIDb.FTID basin, job := cmd.job }
  (tag, s.launch { tag, g, c, seq, basin, job := cmd.job, fmode := cmd.fmode, cmdTag := cmd.tag, rd, fn, ret, pkt, hash,
                   clk := s.tmb.clk })

/-! Results at the requester -/

/-- The value a dead target returns (R147). -/
def deadValue : Nat := 0xFFFFFFFFFFFFDEAD

/-- A register write of a context. -/
def Ctx.setR (x : Ctx) (i v : Nat) (p : Bool) : Ctx :=
  if i = 0 then x else { x with r := SMap.set 0 x.r i (v % 2 ^ 64), rp := SMap.set false x.rp i p }

/-- A blocked fload returns: the register is written and the context goes on (R145). -/
def State.floadDone (s : State) (t : Txn) (v : Nat) (p : Bool) : State :=
  match s.ctx t.g t.c with
  | some x =>
    if x.seq = t.seq ∧ x.blk = .fload t.tag t.rd t.fn then
      s.setCtx t.g t.c (some { x.setR t.rd v p with blk := .none, pc := x.pc + 1 })
    else s
  | none => s

/-- The job table has an entry (R321, R322). -/
def State.jobHeld (s : State) (j : Nat) : Bool := s.fab.jobs.any fun e => e.1 == j && !e.2
def State.jobTorn (s : State) (j : Nat) : Bool := s.fab.jobs.any fun e => e.1 == j && e.2

/-- Entries of the job table in use show in FAB_TEARDOWN.USED. -/
def State.setJobs (s : State) (l : List (Nat × Bool)) : State :=
  (s.modFab fun f => { f with jobs := l }).setFld F.FAB_TEARDOWN.USED 0 l.length

/-- A request is declared unanswered (R319 to R321, R147). -/
def State.unanswered (s : State) (t : Txn) : State :=
  let s := s.forget t.tag
  let load := t.pkt.ty = 1 ∨ t.pkt.ty = 2
  let room := s.jobHeld t.job || s.jobTorn t.job || decide (s.fab.jobs.length < 64)
  let hold := load && !t.fmode && room && !s.jobTorn t.job
  let s := s.when (hold && !s.jobHeld t.job) (fun s => s.setJobs (s.fab.jobs ++ [(t.job, false)]))
  let s := ((s.setFld F.FAB_DEAD.JOB 0 t.job).setFld F.FAB_DEAD.SYSID 0 t.pkt.dst).setFld F.FAB_DEAD.FMODE 0 (b2n t.fmode)
  let s := (s.setFld F.FAB_DEAD.HELD 0 (b2n hold)).incFld F.FAB_DEAD.COUNT
  let s := s.report srcDead
    { basin := t.basin, gen := s.gen t.basin, level := 3, data := t.cmdTag, ext := true,
      xdata := t.job + t.pkt.dst * 2 ^ 32 + b2n (load && !t.fmode && !room) * 2 ^ 63 }
    (unitSrc (if t.g < 24 then .block (t.g / 2) (t.g % 2) else .region 28)) (b2n t.fmode)
  if load then s.when t.fmode (fun s => s.floadDone t deadValue true)
  else
    let s := s.when (t.pkt.ty == 4 && decide (t.g < 24)) (fun s => s.put t.basin t.ret (bytesOf 8 deadValue) true)
    s.drainDone t true

/-- Every outstanding request to a target whose entry has DEAD set is declared unanswered (R319, Table 10-8). -/
def State.sweepDead (s : State) : State :=
  (s.fab.txns.filter fun t => s.rtDead t.pkt.dst).foldl (fun s t => s.unanswered t) s

/-- Requests to a target whose entry has DEAD set are declared unanswered when issued (R319). -/
def State.issueReq (r : Nat × State) : Nat × State := (r.1, r.2.sweepDead)

end Sys2Proof.Machine
end

