-- ==== Sys2Proof/Machine/Issue.lean ====
section
/-! DEFINITION. Issue on a matrix core: which words are legal (R112, R115 to R118, Table 4-1a, Table 4-4), which
context issues (R108), and the one way an instruction row issues. -/

namespace Sys2Proof.Machine

/-! Legal instruction words -/

/-- The 32-bit words of format R whose unused fields are 0: used fields are those the mask leaves out. -/
def zeroR (w : Nat) (rd ra rb fn imm : Bool) : Bool :=
  (rd || iRd w == 0) && (ra || iRa w == 0) && (rb || iRb w == 0) && (fn || iFn w == 0) && (imm || iImm w == 0)

/-- A legal vop word (R127). -/
def legalVop (w : Nat) : Bool :=
  isV (iRd w) && isV (iRa w) && decide (iFn w ≤ 17) &&
    if iFn w = 17 then iRb w == 0 && bits w 31 8 == 0
    else if 13 ≤ iFn w then iRb w == 0 && iImm w == 0
    else if bit w 31 then iRb w == 0 && bits w 30 5 == 0
    else isV (iRb w) && iImm w == 0

/-- A legal accflush word (R125). -/
def legalFlush (w : Nat) : Bool :=
  decide (iMode w ≤ 9) && isSA (iRb w) && bits w 31 29 == 0 &&
    (if bit w 28 then iFn w % 2 == 0 else iFn w % 32 == 0)

/-- The word is a legal instruction (R112, R116, Tables 4-1a and 4-4). -/
def legal (w : Nat) : Bool :=
  match iOp w with
  | 0x00 => zeroR w false false false false false
  | 0x01 => zeroR w false false false false true
  | 0x02 => isSA (iRd w) && zeroR w true false false false true
  | 0x03 => isSA (iRa w) && zeroR w false true false false false
  | 0x04 => isSA (iRa w) && isSA (iRb w) && zeroR w false true true false true
  | 0x05 => isSA (iRa w) && isSA (iRb w) && zeroR w false true true false true
  | 0x06 => isSA (iRa w) && isSA (iRb w) && zeroR w false true true false true
  | 0x07 => isSA (iRa w) && isSA (iRb w) && zeroR w false true true false true
  | 0x08 => isSA (iRa w) && zeroR w false true false false true
  | 0x20 => isSA (iRd w) && isSA (iRa w) && decide (iFn w % 16 ≤ 11) && !bit (iFn w) 4 &&
      (if bit (iFn w) 5 then iRb w == 0 else isSA (iRb w) && iImm w == 0)
  | 0x21 => isSA (iRd w) && isSA (iRa w) && isSA (iRb w) && decide (iFn w ≤ 2) && zeroR w true true true true false
  | 0x22 => isSA (iRd w) && bits w 49 48 == 0
  | 0x23 => isSA (iRd w) && isSA (iRa w) && decide (iFn w < 8) && zeroR w true true false true true
  | 0x24 => isSA (iRa w) && isSA (iRb w) && decide (iFn w < 4) && zeroR w false true true true true
  | 0x25 => isSA (iRd w) && decide (iFn w ≤ 6) && zeroR w true false false true false
  | 0x40 => isSd (iRd w) && isSA (iRa w) && zeroR w true true false false true
  | 0x41 => isSd (iRd w) && isSA (iRb w) && decide (iFn w % 16 ≤ 11) && !bit (iFn w) 5 && zeroR w true false true true false
  | 0x42 => isSd (iRd w) && isSd (iRa w) && zeroR w true true false false false
  | 0x43 => isSd (iRa w) && zeroR w false true false false false
  | 0x60 => bits w 52 0 == 0
  | 0x61 => bits w 55 0 == 0
  | 0x62 => decide (bits w 46 44 ≤ 6) && !bit w 48 && isSA (iRb w) && iFn w == 0 && bits w 31 21 == 0 &&
      (!bit w 47 || (bits w 20 12 != 256 && bits w 20 12 != 257 && bits w 20 12 != 255))
  | 0x63 => legalFlush w
  | 0x64 => decide (bits w 46 44 ≤ 6) && bits w 48 47 == 0 && isSA (iRb w) && iFn w == 0 && bits w 31 21 == 0 &&
      (bit w 20 || iSd w == 0)
  | 0x80 => legalVop w
  | 0x81 => isV (iRd w) && isSd (iRa w) && zeroR w true true false false false
  | 0x82 => isSd (iRd w) && isV (iRa w) && zeroR w true true false false false
  | 0x83 => isV (iRd w) && isV (iRa w) && decide (iFn w ≤ 2) && zeroR w true true false true false
  | 0x84 => isV (iRd w) && isV (iRa w) && isV (iRb w) && zeroR w true true true false false
  | 0x85 => decide (iRd w < 15) && isV (iRa w) && isV (iRb w) && decide (iFn w < 8) && bits w 31 9 == 0 &&
      decide (1 ≤ bits w 8 0 ∧ bits w 8 0 ≤ 256)
  | 0x86 => isV (iRa w) && decide (iFn w < 16) && bits w 31 16 == 0 && zeroR w false true false true true
  | 0xA0 => iFnY w == 0 && bits w 31 5 == 0
  | 0xA1 => iCnt w != 0 && iFnY w == 0 && iImm w == 0
  | 0xA2 => iSem w == 0 && iCnt w == 0 && iFnY w == 0 && bits w 31 20 == 0
  | 0xA3 => iCnt w == 0 && iFnY w == 0 && bits w 31 12 == 0
  | 0xC0 => zeroR w false false false false true && bits w 31 16 == 0
  | 0xC1 => zeroR w false false false false true && bits w 31 16 == 0
  | 0xE0 => isSA (iRd w) && isSA (iRa w) && decide (iFn w < 16) && zeroR w true true false true true
  | 0xE1 => isSA (iRa w) && isSA (iRb w) && decide (iFn w < 4) && zeroR w false true true true true
  | 0xE2 => isSA (iRd w) && isSA (iRa w) && isSA (iRb w) && decide (iFn w < 8) && zeroR w true true true true false &&
      (iFn w % 4 != 3 || (iRb w != 31 && iRb w != 47))
  | 0xE3 => isSA (iRa w) && isSA (iRb w) && zeroR w false true true false false
  | 0xE4 => isSd (iRd w) && isSA (iRa w) && zeroR w true true false false false
  | 0xE5 => isSd (iRd w) && bits w 31 12 == 0 && zeroR w true false false false true
  | _ => false

/-- The opcode is one of Table 4-4. -/
def knownOp (op : Nat) : Bool :=
  op ≤ 8 || (0x20 ≤ op && op ≤ 0x25) || (0x40 ≤ op && op ≤ 0x43) || (0x60 ≤ op && op ≤ 0x64) || (0x80 ≤ op && op ≤ 0x86) ||
    (0xA0 ≤ op && op ≤ 0xA3) || op == 0xC0 || op == 0xC1 || (0xE0 ≤ op && op ≤ 0xE5)

/-! Registers of a context -/

def Ctx.val (x : Ctx) (i : Nat) : Nat := if i = 0 then 0 else SMap.get 0 x.r i
def Ctx.poisoned (x : Ctx) (i : Nat) : Bool := i != 0 && SMap.get false x.rp i
/-- The specifier of a stream descriptor register (R112). -/
def sdSpec (i : Nat) : Nat := 48 + i % 8
def Ctx.sdReg (x : Ctx) (i : Nat) : Nat := SMap.get 0 x.sd (i % 8)
def Ctx.setSd (x : Ctx) (i v : Nat) : Ctx := { x with sd := SMap.set 0 x.sd (i % 8) (v % 2 ^ 256) }
def Ctx.lanes (x : Ctx) (i : Nat) : List Nat := SMap.get (List.replicate 2048 0) x.v i
def Ctx.lanePois (x : Ctx) (i : Nat) : List Bool := SMap.get (List.replicate 2048 false) x.vp i
def Ctx.setV (x : Ctx) (i : Nat) (v : List Nat) (p : List Bool) : Ctx :=
  { x with v := SMap.set (List.replicate 2048 0) x.v i v, vp := SMap.set (List.replicate 2048 false) x.vp i p }
def Ctx.next (x : Ctx) : Ctx := { x with pc := x.pc + 1 }

/-- The instruction the context comes to next; none past the last one (R117). -/
def Ctx.word (x : Ctx) : Option Nat := x.prog[x.pc]?

/-- Sign-extended IMM added to a 64-bit value, modulo 2^64 (R115). -/
def addImm (v w : Nat) : Nat := wrap 64 ((v : Int) + sext 32 (iImm w))

/-- Arrays an AMASK selects, ascending (R123). -/
def arraysOf (mask : Nat) : List Nat := (List.range 4).filter (bit mask)

/-! Selection (R108) -/

/-- The entries of a flush or accinit: the first, and how many (R125). -/
def entry0 (x : Ctx) (w : Nat) : Nat := (x.val (iRb w) + bits w 9 0) % 1024
def entryCnt (w : Nat) : Nat := bits w 19 10 + 1
def entryAt (x : Ctx) (w k : Nat) : Nat := (entry0 x w + k) % 1024

/-- A pass already issued to one of the entries has not committed (R125). -/
def State.passesTo (s : State) (g : Nat) (x : Ctx) (w : Nat) : Bool :=
  (arraysOf (iAmask w)).any fun a => (SMap.get [] (s.core g).passes a).any fun p =>
    decide ((p.entry + 1024 - entry0 x w) % 1024 < entryCnt w)

/-- An fload needs a request, and its edge die has no free tag (R313). -/
def State.floadWaits (s : State) (g : Nat) (x : Ctx) (w : Nat) : Bool :=
  let a := addImm (x.val (iRa w)) w
  !x.poisoned (iRa w) && a % 2 ^ (iFn w % 4) == 0 && faOk a && faPidx a != s.pidx && s.flag F.FAB_ROUTEi.VALID (faPidx a) &&
    (bit (iFn w) 3 || (s.rrcHit (g / 2) x.basin a).isNone) && !s.tagFree (s.sysid / 512 * 512 + faPidx a) (hashAddr a)

/-- The descriptor register of the stream an instruction reads as it issues (Table 4-4). -/
def readSd (w : Nat) : Option Nat :=
  match iOp w with
  | 0x42 => some (iRa w)
  | 0x60 => some (iSd w)
  | 0x62 => some (iSd w)
  | 0x64 => if bit w 20 then some (iSd w) else none
  | 0xE4 => some (iRd w)
  | _ => none

/-- The runs in host memory that an instruction reads as it issues. -/
def Ctx.hostRuns (x : Ctx) (w : Nat) : List (Nat × Nat) :=
  match readSd w with
  | some i => (sdHost (x.sdReg i)).map (·, sdLen0 (x.sdReg i))
  | none => []

/-- In a replay a stream waits for the records that hold its host data (R347, Table 11-4). -/
def State.recordWaits (s : State) (g : Nat) (x : Ctx) (w : Nat) : Bool :=
  s.noHostRead && (x.hostRuns w).any fun q => ((s.hostFor g q.1 false).map (·.data.length)).getD 0 < q.2

/-- The unit an instruction needs is busy (R68, R121, R122, R125, R136, R313), or its host data have yet to come (R347). -/
def State.busy (s : State) (g : Nat) (x : Ctx) (w : Nat) : Bool :=
  s.recordWaits g x w || match iOp w with
  | 0x60 => (s.core g).loading.isSome || (s.core g).swapT.any fun t => decide (s.gey.arr < t + 256 * 625)
  | 0x61 => (s.core g).loading.isSome || ((s.core g).swapT.any fun t => decide (s.gey.arr + 625 < t + 512 * 625)) ||
      (s.core g).passes.any fun e => e.2.any fun p => decide (s.gey.arr < p.t)
  | 0x63 => s.passesTo g x w
  | 0xA0 => decide (256 ≤ s.sideUsed g)
  | 0xA3 => decide (256 ≤ s.sideUsed g)
  | 0xE0 => s.floadWaits g x w
  | _ => false

/-- A context can issue: it is not blocked, no scrub runs, no map-out that has reached its boundary waits to be made (R97), its first
cycle has come, and the unit is free (R108). -/
def State.ready (s : State) (g c : Nat) : Bool :=
  match s.ctx g c with
  | none => false
  | some x =>
    x.blk == .none && !(s.core g).scrub && (s.core g).mapDue.isEmpty && decide (x.notBefore ≤ s.gey.arr) &&
      match x.word with
      | some w => !(legal w && s.busy g x w)
      | none => true

/-- The context issue passes to: the last one that issued, if ready, else the first ready one after it (R108). -/
def State.selected (s : State) (g : Nat) : Option Nat :=
  let n := (s.core g).last
  [n, (n + 1) % 4, (n + 2) % 4, (n + 3) % 4].find? fun c => s.ready g c

/-- The core runs: its clock, its block and its die are in service. -/
def State.coreRuns (s : State) (g : Nat) : Bool := !s.coreOut g

/-- An instruction row on context c: where the context is selected and its next word is this row's, the instruction
issues; an illegal word, and a PC past the last instruction, kill the command with ILLEGAL (R116, R117). -/
def State.issue (s : State) (g c : Nat) (ops : List Nat) (f : Nat → Ctx → State → State) : State :=
  if !s.coreRuns g || s.selected g != some c then s
  else match s.ctx g c with
    | none => s
    | some x =>
      let t := s.modCore g fun m => { m with last := c }
      match x.word with
      | none => t.killEnd g c 3
      | some w =>
        if !knownOp (iOp w) then t.killEnd g c 3
        else if !ops.contains (iOp w) then s
        else if !legal w then t.killEnd g c 3
        else f w x t

/-- The context's new contents. -/
def State.put1 (s : State) (g c : Nat) (x : Ctx) : State := s.setCtx g c (some x)

/-- A steering use of a poisoned register kills with POISON (R148). -/
def State.steer (s : State) (g c : Nat) (x : Ctx) (regs : List Nat) (f : State → State) : State :=
  if regs.any x.poisoned then s.killEnd g c 6 else f s

/-- A jump to an instruction index (R117). -/
def State.goto (s : State) (g c : Nat) (x : Ctx) (t : Int) : State :=
  if 0 ≤ t ∧ t < x.prog.length then s.put1 g c { x with pc := t.toNat } else s.killEnd g c 3

/-- Result with poison to a register, and the next instruction. -/
def State.result (s : State) (g c : Nat) (x : Ctx) (rd v : Nat) (p : Bool) : State :=
  s.put1 g c (x.setR rd v p).next

end Sys2Proof.Machine
end

