-- ==== Sys2Proof/Machine/Scalar.lean ====
section
/-! DEFINITION. The control, scalar and stream instructions of ETV-M (Table 4-4, R117 to R120). -/

namespace Sys2Proof.Machine

/-- The scalar operations of opcode 0x20 in the order of FN; shifts take the low 6 bits of B (log entry 41). -/
def alu (fn a b : Nat) : Nat :=
  match fn with
  | 0 => (a + b) % 2 ^ 64
  | 1 => (a + 2 ^ 64 - b) % 2 ^ 64
  | 2 => a &&& b
  | 3 => a ||| b
  | 4 => a ^^^ b
  | 5 => a * 2 ^ (b % 64) % 2 ^ 64
  | 6 => a / 2 ^ (b % 64)
  | 7 => wrap 64 (sext 64 a / (2 ^ (b % 64) : Nat))
  | 8 => b2n (decide (sext 64 a < sext 64 b))
  | 9 => b2n (decide (a < b))
  | 10 => if sext 64 b < sext 64 a then b else a
  | _ => if sext 64 a < sext 64 b then b else a

/-- The products of opcode 0x21. -/
def mulHalf (fn a b : Nat) : Nat :=
  match fn with
  | 0 => a * b % 2 ^ 64
  | 1 => wrap 64 (sext 64 a * sext 64 b / (2 ^ 64 : Nat))
  | _ => a * b / 2 ^ 64

/-- The values of rdsys (R118). -/
def State.sysValue (s : State) (g c : Nat) (x : Ctx) (fn : Nat) : Nat :=
  match fn with
  | 0 => s.frameCyc
  | 1 => s.tickNo
  | 2 => x.cmd.tag
  | 3 => x.basin
  | 4 => c
  | 5 => x.cmd.kills
  | _ => g

/-- A conditional branch (R117); a poisoned operand kills (R148). -/
def State.branch (s : State) (g c : Nat) (x : Ctx) (w : Nat) (taken : Bool) (regs : List Nat) : State :=
  s.steer g c x regs fun s =>
    if taken then s.goto g c x (x.pc + sext 32 (iImm w)) else s.put1 g c x.next

/-- A local read starts: the address is checked, and the context blocks (R32, R120). -/
def State.startLoad (s : State) (g c : Nat) (x : Ctx) (a n rd fn : Nat) : State :=
  match s.badAddr (s.coreWho g x) false a n with
  | some p => s.killAddr g c p
  | none => s.put1 g c { x with blk := .load a n rd fn }

/-- Stage bytes at a local address and go on (R32, R136). -/
def State.stageAt (s : State) (g c : Nat) (x : Ctx) (a : Nat) (d : List (Byte × Bool)) : State :=
  match s.badAddr (s.coreWho g x) true a d.length with
  | some p => s.killAddr g c p
  | none => s.stage g c x.next (lineStores a d)

/-- No operation. -/
def nop (g c : Nat) (s : State) : State :=
  s.issue g c [0x00] fun _ x s =>
    s.put1 g c x.next

def execNop (g c : Nat) (s : State) : Out := run (.nop g c) s (nop g c s)

/-- PC ← PC + IMM (R117). -/
def j (g c : Nat) (s : State) : State :=
  s.issue g c [0x01] fun w x s =>
    s.goto g c x (x.pc + sext 32 (iImm w))

def execJ (g c : Nat) (s : State) : Out := run (.j g c) s (j g c s)

/-- RD ← PC + 1; PC ← PC + IMM (R117). -/
def jal (g c : Nat) (s : State) : State :=
  s.issue g c [0x02] fun w x s =>
    s.goto g c (x.setR (iRd w) (x.pc + 1) false) (x.pc + sext 32 (iImm w))

def execJal (g c : Nat) (s : State) : Out := run (.jal g c) s (jal g c s)

/-- PC ← s(RA); a poisoned target kills (R117, R148). -/
def jr (g c : Nat) (s : State) : State :=
  s.issue g c [0x03] fun w x s =>
    s.steer g c x [iRa w] fun s => s.goto g c x (x.val (iRa w))

def execJr (g c : Nat) (s : State) : Out := run (.jr g c) s (jr g c s)

/-- Branch if equal (R117, R148). -/
def beq (g c : Nat) (s : State) : State :=
  s.issue g c [0x04] fun w x s =>
    s.branch g c x w (decide (x.val (iRa w) = x.val (iRb w))) [iRa w, iRb w]

def execBeq (g c : Nat) (s : State) : Out := run (.beq g c) s (beq g c s)

/-- Branch if not equal (R117, R148). -/
def bne (g c : Nat) (s : State) : State :=
  s.issue g c [0x05] fun w x s =>
    s.branch g c x w (decide (x.val (iRa w) ≠ x.val (iRb w))) [iRa w, iRb w]

def execBne (g c : Nat) (s : State) : Out := run (.bne g c) s (bne g c s)

/-- Branch if less, signed (R117, R148). -/
def blt (g c : Nat) (s : State) : State :=
  s.issue g c [0x06] fun w x s =>
    s.branch g c x w (decide (sext 64 (x.val (iRa w)) < sext 64 (x.val (iRb w)))) [iRa w, iRb w]

def execBlt (g c : Nat) (s : State) : Out := run (.blt g c) s (blt g c s)

/-- Branch if greater or equal, signed (R117, R148). -/
def bge (g c : Nat) (s : State) : State :=
  s.issue g c [0x07] fun w x s =>
    s.branch g c x w (decide (sext 64 (x.val (iRb w)) ≤ sext 64 (x.val (iRa w)))) [iRa w, iRb w]

def execBge (g c : Nat) (s : State) : Out := run (.bge g c) s (bge g c s)

/-- RA ← RA − 1; branch if RA is not 0 (R117, R148). -/
def dbnz (g c : Nat) (s : State) : State :=
  s.issue g c [0x08] fun w x s =>
    let v := (x.val (iRa w) + 2 ^ 64 - 1) % 2 ^ 64
    s.steer g c x [iRa w] fun s => s.branch g c (x.setR (iRa w) v false) w (decide ((if iRa w = 0 then 0 else v) ≠ 0)) []

def execDbnz (g c : Nat) (s : State) : Out := run (.dbnz g c) s (dbnz g c s)

/-- RD ← RA op B (opcode 0x20). -/
def scalarOp (g c : Nat) (s : State) : State :=
  s.issue g c [0x20] fun w x s =>
    let imm := bit (iFn w) 5
    let b := if imm then wrap 64 (sext 32 (iImm w)) else x.val (iRb w)
    s.result g c x (iRd w) (alu (iFn w % 16) (x.val (iRa w)) b) (x.poisoned (iRa w) || (!imm && x.poisoned (iRb w)))

def execScalarOp (g c : Nat) (s : State) : Out := run (.scalarOp g c) s (scalarOp g c s)

/-- RD ← low, signed high or unsigned high half of RA × RB. -/
def mul (g c : Nat) (s : State) : State :=
  s.issue g c [0x21] fun w x s =>
    s.result g c x (iRd w) (mulHalf (iFn w) (x.val (iRa w)) (x.val (iRb w))) (x.poisoned (iRa w) || x.poisoned (iRb w))

def execMul (g c : Nat) (s : State) : Out := run (.mul g c) s (mul g c s)

/-- RD ← IMM48, sign-extended. -/
def li (g c : Nat) (s : State) : State :=
  s.issue g c [0x22] fun w x s =>
    s.result g c x (iRd w) (wrap 64 (sext 48 (bits w 47 0))) false

def execLi (g c : Nat) (s : State) : Out := run (.li g c) s (li g c s)

/-- The read of RA + IMM starts; the context blocks until the data return (R119, R120, R148). -/
def ld (g c : Nat) (s : State) : State :=
  s.issue g c [0x23] fun w x s =>
    s.steer g c x [iRa w] fun s => s.startLoad g c x (addImm (x.val (iRa w)) w) (2 ^ (iFn w % 4)) (iRd w) (iFn w)

def execLd (g c : Nat) (s : State) : Out := run (.ld g c) s (ld g c s)

/-- Stage RB at RA + IMM (R136, R148). -/
def st (g c : Nat) (s : State) : State :=
  s.issue g c [0x24] fun w x s =>
    s.steer g c x [iRa w] fun s =>
      let n := 2 ^ (iFn w % 4)
      s.stageAt g c x (addImm (x.val (iRa w)) w) ((bytesOf n (x.val (iRb w))).map (·, x.poisoned (iRb w)))

def execSt (g c : Nat) (s : State) : Out := run (.st g c) s (st g c s)

/-- RD ← system value FN (R118). -/
def rdsys (g c : Nat) (s : State) : State :=
  s.issue g c [0x25] fun w x s =>
    s.result g c x (iRd w) (s.sysValue g c x (iFn w)) false

def execRdsys (g c : Nat) (s : State) : Out := run (.rdsys g c) s (rdsys g c s)

/-- The read of a descriptor starts (R120, R148). -/
def sdld (g c : Nat) (s : State) : State :=
  s.issue g c [0x40] fun w x s =>
    s.steer g c x [iRa w] fun s => s.startLoad g c x (addImm (x.val (iRa w)) w) 32 (iRd w) 0

def execSdld (g c : Nat) (s : State) : Out := run (.sdld g c) s (sdld g c s)

/-- A field of RD takes RB, or the field plus RB (R113, R148). -/
def sdset (g c : Nat) (s : State) : State :=
  s.issue g c [0x41] fun w x s =>
    s.steer g c x [iRb w] fun s =>
      let d := x.sdReg (iRd w)
      let i := iFn w % 16
      let v := x.val (iRb w) + (if bit (iFn w) 4 then sdGet d i else 0)
      s.put1 g c (x.setSd (iRd w) (sdPut d i v)).next

def execSdset (g c : Nat) (s : State) : Out := run (.sdset g c) s (sdset g c s)

/-- Copy stream RA to stream RD (R113, R114). -/
def scopy (g c : Nat) (s : State) : State :=
  s.issue g c [0x42] fun w x s =>
    let a := x.sdReg (iRa w)
    let d := x.sdReg (iRd w)
    s.steer g c x [sdSpec (iRa w), sdSpec (iRd w)] fun s =>
    if !sdOk a 0 || !sdOk d 1 then s.killEnd g c 3
    else match s.streamBad g x false a, s.streamBad g x true d with
      | some p, _ => s.killAddr g c p
      | none, some p => s.killAddr g c p
      | none, none =>
        let x' := { x with streams := x.streams ++ [Stream.mk (iRa w % 8) 0x42, Stream.mk (iRd w % 8) 0x42] }
        let s := s.meetStream g a
        s.stage g c x'.next (sdStores d (s.streamRead g x a))

def execScopy (g c : Nat) (s : State) : Out := run (.scopy g c) s (scopy g c s)

/-- Block until every stream using RA has ended (R108). -/
def swait (g c : Nat) (s : State) : State :=
  s.issue g c [0x43] fun w x s =>
    if x.streams.any fun t => t.sd == iRa w % 8 then s.put1 g c { x with blk := .swait (iRa w % 8) }
    else s.put1 g c x.next

def execSwait (g c : Nat) (s : State) : Out := run (.swait g c) s (swait g c s)

/-- A stream using descriptor sd ends (R116): a context blocked in swait on it goes on when it was the last. -/
def streamEnd (g c sd : Nat) (s : State) : State :=
  match s.ctx g c with
  | none => s
  | some x =>
    let streams := match x.streams.findIdx? (fun t => t.sd == sd && t.op != 0x60) with
      | some i => x.streams.eraseIdx i
      | none => x.streams
    s.put1 g c { x with streams }.wake

def execStreamEnd (g c sd : Nat) (s : State) : Out := run (.streamEnd g c sd) s (streamEnd g c sd s)

end Sys2Proof.Machine
end

