-- ==== Sys2Proof/Machine/ArrayOps.lean ====
section
/-! DEFINITION. The array instructions of ETV-M: wload, wswap, astream, accflush, accinit (R121 to R126). -/

namespace Sys2Proof.Machine

/-- Formats arrays accept as weights (R121). -/
def weightFmt (f : Nat) : Bool := f ≤ 9 || f == 14

/-- Operand formats that may pair (R72). -/
def pairOk (fa fw : Nat) : Bool :=
  (fa ≤ 3 && fw ≤ 3) || ((fa == 4 || fa == 6) && (fw == 4 || fw == 6)) || (fa == fw && weightFmt fa)

/-- The mode allows the format of an operand (Table 3-6, R88, R90). -/
def modeOk (mode f : Nat) (mx : Bool) : Bool :=
  match mode with
  | 0 => f ≤ 8 && (!mx || f ≤ 4)
  | 5 => f == 14 && !mx
  | 6 => f == 9 && !mx
  | _ => (f == 0 || f == 1 || f == 5) && !mx

/-- A stream's bytes and the offsets of its poisoned bytes. -/
def splitPoison (l : List (Byte × Bool)) : List Byte × List Nat :=
  (l.map Prod.fst, l.zipIdx.filterMap fun (b, i) => if b.2 then some i else none)

/-- A stream of the command begins. -/
def Ctx.addStream (x : Ctx) (sd op : Nat) : Ctx := { x with streams := x.streams ++ [⟨sd % 8, op⟩] }

/-- Planes no pass and no array uses any more go. -/
def MCore.cleanPlanes (m : MCore) : MCore :=
  { m with planes := m.planes.filter fun (i, _) =>
      m.act.any (·.2 == i) || m.shd.any (·.2 == i) || m.passes.any fun (_, l) => l.any fun p => p.plane == i }

/-- R121: wload streams a tile into the shadow planes of the arrays in service. -/
def wload (g c : Nat) (s : State) : State :=
  s.issue g c [0x60] fun w x s =>
    s.steer g c x [sdSpec (iSd w)] fun s =>
    let d := x.sdReg (iSd w)
    if !sdOk d 0 || !weightFmt (sdFmt d) || (sdMx d && 4 < sdFmt d) || sdLen d != tileLen (sdFmt d) (sdMx d) then s.killEnd g c 3
    else match s.streamBad g x false d with
      | some p => s.killAddr g c p
      | none =>
        let s := s.meetStream g d
        let (data, poison) := splitPoison (s.streamRead g x d)
        let pl : Plane := { fmt := sdFmt d, mx := sdMx d, data, poison, res := tileRes (sdFmt d) data }
        let s := s.modCore g fun m =>
          { m with planes := SMap.set {} m.planes m.nextPlane pl
                   shd := (s.arraysIn g).foldl (fun l a => SMap.set 0 l a m.nextPlane) m.shd
                   nextPlane := m.nextPlane + 1, loading := some (c, x.seq)
                   loadT := s.gey.arr + ((data.length + 1023) / 1024 - 1) * 625 }.cleanPlanes
        let s := (s.arraysIn g).foldl (fun s a => (s.setFld F.MXC_ARR_STATUS.SHD_VALID (g * 4 + a) 0).setFld
          F.MXC_ARR_STATUS.LOADING (g * 4 + a) 1) s
        s.put1 g c (x.addStream (iSd w) 0x60).next

def execWload (g c : Nat) (s : State) : Out := run (.wload g c) s (wload g c s)

/-- R69, R122: wswap exchanges the planes of all arrays in service from the next cycle on; an invalid shadow plane kills with PLANE. -/
def wswap (g c : Nat) (s : State) : State :=
  s.issue g c [0x61] fun _ x s =>
    let l := s.arraysIn g
    if l.any fun a => !s.flag F.MXC_ARR_STATUS.SHD_VALID (g * 4 + a) then s.killEnd g c 8
    else
      let s := l.foldl (fun s a =>
        let v := s.fld F.MXC_ARR_STATUS.ACT_VALID (g * 4 + a)
        (s.setFld F.MXC_ARR_STATUS.ACT_VALID (g * 4 + a) 1).setFld F.MXC_ARR_STATUS.SHD_VALID (g * 4 + a) v) s
      (s.modCore g fun m =>
        { m with act := l.foldl (fun y a => SMap.set 0 y a (SMap.get 0 m.shd a)) m.act
                 shd := l.foldl (fun y a => SMap.set 0 y a (SMap.get 0 m.act a)) m.shd
                 swapT := some (s.gey.arr + 625) }).put1 g c x.next

def execWswap (g c : Nat) (s : State) : Out := run (.wswap g c) s (wswap g c s)

/-- The operands of an astream (R75, R91, R123). -/
def streamMode (w d : Nat) (fw : Nat) : PassMode :=
  { mode := bits w 46 44, fa := sdFmt d, fw, mx := bit w 47, conj := bit w 11, accExp := sext 9 (bits w 20 12),
    kv := sdKv d, nv := sdNv d }

/-- Cycles between one pass and the next of a mode on an array (R74, R124). -/
def passGap (mode : Nat) : Nat := if mode = 6 then 125 * 625 else 625

/-- The array time at which a stream's first pass issues on an array: its own issue cycle, or the cycle after the last pass still to
issue (R124); CI16 passes keep their distance (R74). -/
def State.firstSlot (s : State) (g a mode : Nat) : Nat :=
  match (SMap.get [] (s.core g).passes a).getLast? with
  | some p =>
    let t := p.t + if p.pm.mode = 6 then passGap mode else 625
    max s.gey.arr t
  | none => s.gey.arr

/-- The array time at which the last pass of an array issues. -/
def lastSlot (ps : List Pass) (t : Nat) : Nat := (ps.getLast?.map (·.t)).getD t

/-- The weight tile active in an array. -/
def State.actPlane (s : State) (g a : Nat) : Plane := SMap.get {} (s.core g).planes (SMap.get 0 (s.core g).act a)

/-- The passes of plane p of an astream for array a, from array time t on (R123, R124). -/
def State.planePasses (s : State) (g c : Nat) (x : Ctx) (w d : Nat) (a p t : Nat) : List Pass :=
  let pm := streamMode w d (s.actPlane g a).fmt
  (List.range (sdCnt1 d)).map fun j =>
    let (data, poison) := splitPoison (s.coreRead g x (sdRun d p j) (sdLen0 d))
    { seq := x.seq, ctx := c, pm, plane := SMap.get 0 (s.core g).act a, entry := entryAt x w j, data, poison,
      init := bit w 10 && decide (j < 1024), masked := decide (sdMv d ≤ j), t := t + j * passGap pm.mode }

/-- The operand formats an astream brings to an array may not be used together, or not in its mode (R72, R88, R124). -/
def State.streamFmtBad (s : State) (g w d a : Nat) : Bool :=
  let pl := s.actPlane g a
  let pm := streamMode w d pl.fmt
  !pairOk pm.fa pm.fw || !modeOk pm.mode pm.fw pm.mx || pl.mx != pm.mx

/-- R72, R123, R124: astream presents activation passes to the arrays of AMASK. -/
def astream (g c : Nat) (s : State) : State :=
  s.issue g c [0x62] fun w x s =>
    let d := x.sdReg (iSd w)
    let arrs := arraysOf (iAmask w)
    let pm := streamMode w d 0
    let valid := fun a => s.arrayOut g a || s.flag F.MXC_ARR_STATUS.ACT_VALID (g * 4 + a)
    s.steer g c x [iRb w, sdSpec (iSd w)] fun s =>
      if !sdOk d 0 || sdCnt2 d != arrs.length || !weightFmt (sdFmt d) || sdMx d != pm.mx || !modeOk pm.mode pm.fa pm.mx ||
          sdLen0 d != passLen (sdFmt d) pm.mx ||
          arrs.any (fun a => !s.arrayOut g a && s.flag F.MXC_ARR_STATUS.ACT_VALID (g * 4 + a) && s.streamFmtBad g w d a) then
        s.killEnd g c 3
      else if !arrs.all valid then s.killEnd g c 8
      else if arrs.any (s.arrayOut g) then s.killEnd g c 11
      else match s.streamBad g x false d with
        | some p => s.killAddr g c p
        | none =>
          let s := s.meetStream g d
          let late := fun a => if s.pwr.gated.contains (4 * g + a) then 32 * 625 else 0
          let add := arrs.zipIdx.map fun (a, p) => (a, s.planePasses g c x w d a p (s.firstSlot g a pm.mode + late a))
          let s := s.modCore g fun m =>
            { m with passes := add.foldl (fun l (a, ps) => SMap.set [] l a (SMap.get [] l a ++ ps)) m.passes,
                     passT := if x.cmd.q % 8 = 0 then m.passT else add.foldl (fun t (_, ps) => max t (lastSlot ps t)) m.passT
                     idleT := add.foldl (fun l (a, ps) => SMap.set 0 l a (lastSlot ps s.gey.arr)) m.idleT }
          let s := s.wakeUnits fun i => decide (i / 4 = g) && arrs.contains (i % 4)
          s.put1 g c (x.addStream (iSd w) 0x62).next

def execAstream (g c : Nat) (s : State) : Out := run (.astream g c) s (astream g c s)

/-! accflush -/

/-- Values the spec leaves open take free values (log entry 5). -/
def State.fill (s : State) (wd : Nat) (l : List (Option Nat × Bool)) : List (Nat × Bool) × State :=
  if l.all fun o => o.1.isSome then (l.map fun (o, p) => (o.getD 0, p), s)
  else (l.zipIdx.map fun ((o, p), i) => (o.getD (Config.freeValue (s.free + i) % 2 ^ wd), p),
        { s with free := s.free + l.length })

/-- The number r of R86 for an output at a global row and column. -/
def stochR (seed row col : Nat) : Nat := mix seed (row % 2 ^ 40 * 2 ^ 24 + col % 2 ^ 24) / 2 ^ 32

/-- Outputs of one entry, `n` of them, before free values (R125). `st` holds seed, global row and column base. -/
def Entry.flush (e : Entry) (t : Nat) (sat : Bool) (osh : Int) (st : Option (Nat × Nat × Nat)) (n : Nat) :
    List (Option Nat × Bool) :=
  (List.range n).map fun j =>
    let r := st.map fun (seed, row, cb) => stochR seed row (if e.complex then 2 * (cb + j / 2) + j % 2 else cb + j)
    e.out t sat r osh j

/-- The raw images of an entry, `n` of them; SUM is free where the spec leaves it open (R79, Table 3-4). -/
def Entry.images (e : Entry) (n : Nat) (free : Nat → Nat) : List (Nat × Bool) :=
  (List.range n).map fun j =>
    let a := e.col j
    let fp := match e.pm with
      | some pm => fpPath pm.fw
      | none => false
    let sum : Int := if (a.nan && !fp) || a.empty then sext 112 (free j) else a.sum
    (a.image sum, a.poison)

/-- Outputs of an entry under a valid-column count: parts for complex entries, images for a raw flush (R125). -/
def Entry.width (e : Entry) (raw : Bool) (nv : Nat) : Nat :=
  if raw then (if e.complex then min (4 * nv) 512 else min nv 512)
  else if e.complex then min (2 * nv) 256 else min nv e.outs

/-- Outputs a flush writes of an entry: its Nv is the smaller one of the output stream and of the activation stream that last
reached it (R91, R125; log entry 160). -/
def Entry.count (e : Entry) (raw : Bool) (nv : Nat) : Nat :=
  match e.pm with
  | some pm => e.width raw (min nv pm.nv)
  | none => e.width raw nv

/-- Bytes of one output of a target (R125). -/
def outBytes (t : Nat) : Nat := if t = 9 then 16 else tgtBits t / 8

/-- The bytes one entry's flush writes, with poison, and the state after any free value. -/
def State.flushEntry (s : State) (e : Entry) (w nv : Nat) (st : Option (Nat × Nat × Nat)) : List (Byte × Bool) × State :=
  let t := iMode w
  let sat := bit w 27
  let osh := sext 7 (bits w 26 20)
  let n := e.count (t == 9) nv
  let wd := outBytes t
  let (vals, s) :=
    if t = 9 then (e.images n (fun j => Config.freeValue (s.free + j)), { s with free := s.free + 512 })
    else s.fill (tgtBits t) (e.flush t sat osh st n)
  (vals.flatMap fun (v, p) => (bytesOf wd v).map (·, p), s)

/-- An entry of an array. -/
def State.entry (s : State) (g a k : Nat) : Entry := SMap.get {} (s.core g).entries (a * 1024 + k)

/-- The seed, row base and column base a stochastic flush names (R125). -/
def flushSeed (x : Ctx) (w : Nat) : Option (Nat × Nat × Nat) :=
  if bit w 28 then
    let k := iFn w % 32
    some (x.val k, x.val (k + 1) % 2 ^ 40, x.val (k + 1) / 2 ^ 40)
  else none

/-- All rows of a flush in order: plane, entry of the range, bytes; entries a masked pass has reached give none (R91). -/
def State.flushRows (s : State) (g : Nat) (x : Ctx) (w nv : Nat) : List (Nat × Nat × Option (List (Byte × Bool))) × State :=
  let cnt := entryCnt w
  let jobs := (arraysOf (iAmask w)).zipIdx.flatMap fun (a, p) => (List.range cnt).map fun k => (a, p, k)
  jobs.foldl (fun (out, s) (a, p, k) =>
    let e := s.entry g a (entryAt x w k)
    if e.mark then (out ++ [(p, k, none)], s)
    else
      let st := (flushSeed x w).map fun (seed, row, cb) => (seed, row + p * cnt + k, cb)
      let (d, s) := s.flushEntry e w nv st
      (out ++ [(p, k, some d)], s)) ([], s)

/-- The bytes of v registers from `first` on, with the poison of their lanes. -/
def Ctx.vbytes (x : Ctx) (first : Nat) : List (Byte × Bool) :=
  (List.range (16 - first)).flatMap fun i =>
    (List.zip (x.lanes (first + i)) (x.lanePois (first + i))).flatMap fun (v, p) => (bytesOf 4 v).map (·, p)

/-- v registers written from bytes: 8 KiB each, a lane poisoned where a byte of it is. -/
def Ctx.setVbytes (x : Ctx) (first : Nat) (d : List (Byte × Bool)) : Ctx :=
  (List.range ((d.length + 8191) / 8192)).foldl (fun x i =>
    let b := (d.drop (8192 * i)).take 8192
    let lane := fun l => (b.drop (4 * l)).take 4
    x.setV (first + i) ((List.range 2048).map fun l => natOf ((lane l).map Prod.fst))
      ((List.range 2048).map fun l => (lane l).any Prod.snd)) x

/-- Overlay bytes on a list at a position. -/
def overlay (l : List (Byte × Bool)) (i : Nat) (d : List (Byte × Bool)) : List (Byte × Bool) :=
  l.take i ++ d ++ l.drop (i + d.length)

/-- Bytes of one row of a flush to vector registers: all outputs of the widest entry of the range (log entry 43). -/
def State.flushSize (s : State) (g : Nat) (x : Ctx) (w : Nat) : Nat :=
  (arraysOf (iAmask w)).foldl (fun n a => (List.range (entryCnt w)).foldl (fun n k =>
    max n ((s.entry g a (entryAt x w k)).width (iMode w == 9) 512 * outBytes (iMode w))) n) 0

/-- Outputs to vector registers (FN[5] = 1): row p × count + k of the flush takes the next `size` bytes (log entry 43). -/
def flushToV (x : Ctx) (w size : Nat) (rows : List (Nat × Nat × Option (List (Byte × Bool)))) : Option Ctx :=
  let all := x.vbytes (iSd w)
  if all.length < rows.length * size ∨ 16 ≤ iSd w then none
  else
    let used := (rows.length * size + 8191) / 8192 * 8192
    let l := rows.zipIdx.foldl (fun l (r, i) => match r.2.2 with
      | some d => overlay l (i * size) d
      | none => l) (all.take used)
    some (x.setVbytes (iSd w) l)

/-- The shape of the output stream is legal (R125). -/
def State.flushShape (s : State) (g : Nat) (x : Ctx) (w d : Nat) : Bool :=
  let arrs := arraysOf (iAmask w)
  let wd := tgtBits (iMode w) / 8
  sdOk d 1 && sdCnt2 d == arrs.length && sdCnt1 d == entryCnt w &&
    if iMode w = 9 then sdLen0 d == 8192
    else arrs.all fun a => (List.range (entryCnt w)).all fun k =>
      decide ((s.entry g a (entryAt x w k)).width false (sdNv d) * wd ≤ sdLen0 d)

/-- From BF16 and FP16 entries only float targets and the raw image are allowed (R85). -/
def State.flushFpBad (s : State) (g : Nat) (x : Ctx) (w : Nat) : Bool :=
  decide (5 ≤ iMode w ∧ iMode w ≤ 8) && (arraysOf (iAmask w)).any fun a => (List.range (entryCnt w)).any fun k =>
    (s.entry g a (entryAt x w k)).pm.any fun pm => fpPath pm.fw

/-- A stochastic flush leaves its seed with Obsidian (Table 11-3, SEED); a replay compares nothing here, since the
record's comparison is the command of R347. -/
def State.seedRecord (s : State) (g c : Nat) (x : Ctx) (w : Nat) : State :=
  match flushSeed x w with
  | some (seed, _, _) => s.obs 8 (g + c * 32) x.cmd.tag seed
  | none => s

/-- R84 to R87, R125: accflush converts entries into the output stream, staged, or into vector registers. -/
def accflush (g c : Nat) (s : State) : State :=
  s.issue g c [0x63] fun w x s =>
    let k := iFn w % 32
    s.steer g c x (iRb w :: (if bit w 28 then [k, k + 1] else []) ++ if bit (iFn w) 5 then [] else [sdSpec (iSd w)]) fun s =>
      if (arraysOf (iAmask w)).any (s.arrayOut g) then s.killEnd g c 11
      else if s.flushFpBad g x w then s.killEnd g c 3
      else if bit (iFn w) 5 then
        let (rows, s) := s.flushRows g x w 512
        match flushToV x w (s.flushSize g x w) rows with
        | some x => (s.seedRecord g c x w).put1 g c x.next
        | none => s.killEnd g c 3
      else
        let d := x.sdReg (iSd w)
        if !s.flushShape g x w d then s.killEnd g c 3
        else match s.streamBad g x true d with
          | some p => s.killAddr g c p
          | none =>
            let (rows, s) := s.flushRows g x w (sdNv d)
            let st := rows.flatMap fun (p, k, r) => match r with
              | some b => lineStores (sdRun d p k) b
              | none => []
            (s.seedRecord g c x w).stage g c (x.addStream (iSd w) 0x63).next st

def execAccflush (g c : Nat) (s : State) : Out := run (.accflush g c) s (accflush g c s)

/-- The entries of an accinit, changed one by one. -/
def State.setEntries (s : State) (g : Nat) (x : Ctx) (w : Nat) (f : Nat → Nat → Entry) : State :=
  let jobs := (arraysOf (iAmask w)).zipIdx.flatMap fun (a, p) => (List.range (entryCnt w)).map fun k => (a, p, k)
  let put := fun (es : SMap Entry) (j : Nat × Nat × Nat) => SMap.set {} es (j.1 * 1024 + entryAt x w j.2.2) (f j.2.1 j.2.2)
  s.modCore g fun m => { m with entries := jobs.foldl put m.entries }

/-- R126: accinit sets entries to a start value or to raw images. -/
def accinit (g c : Nat) (s : State) : State :=
  s.issue g c [0x64] fun w x s =>
    let arrs := arraysOf (iAmask w)
    let mode := bits w 46 44
    s.steer g c x (iRb w :: if bit w 20 then [sdSpec (iSd w)] else []) fun s =>
      if arrs.any (s.arrayOut g) then s.killEnd g c 11
      else if !bit w 20 then
        (s.setEntries g x w fun _ _ => startEntry mode).put1 g c x.next
      else
        let d := x.sdReg (iSd w)
        if !sdOk d 0 || sdLen0 d != 8192 || sdCnt1 d != entryCnt w || sdCnt2 d != arrs.length then s.killEnd g c 3
        else match s.streamBad g x false d with
          | some p => s.killAddr g c p
          | none =>
            let s := s.meetStream g d
            let img := fun p k => s.coreRead g x (sdRun d p k) 8192
            let t := s.setEntries g x w fun p k =>
              let b := img p k
              { mode, cols := (List.range 512).map fun j =>
                  let y := (b.drop (16 * j)).take 16
                  accumOf (natOf (y.map Prod.fst)) (y.any Prod.snd) }
            t.put1 g c (x.addStream (iSd w) 0x64).next

def execAccinit (g c : Nat) (s : State) : Out := run (.accinit g c) s (accinit g c s)

end Sys2Proof.Machine
end

