-- ==== Sys2Proof/Machine/Vector.lean ====
section
/-! DEFINITION. The vector unit (R81, R102 to R104, R127, R128, R353): lane operations, loads and stores of v registers,
reductions, images, top-k, digests. -/

namespace Sys2Proof.Machine

/-! Lane operations; none where the spec states no result (log entry 32) -/

/-- A 32-bit lane operation of vop but cvt (R102, R127). -/
def laneOp (fn a b d : Nat) : Option Nat :=
  match fn with
  | 0 => fadd a b
  | 1 => fadd a (b ^^^ 2 ^ 31)
  | 2 => fmul a b
  | 3 => ffma a b d
  | 4 => fminmax false a b
  | 5 => fminmax true a b
  | 6 => some (Config.cmpResult (fcmp a b == some .lt) % 2 ^ 32)
  | 7 => some (Config.cmpResult (fcmp a b == some .eq) % 2 ^ 32)
  | 8 => some ((a + b) % 2 ^ 32)
  | 9 => some ((a + 2 ^ 32 - b) % 2 ^ 32)
  | 10 => some (a &&& b)
  | 11 => some (a ||| b)
  | 12 => some (a ^^^ b)
  | 13 => fexp2 a
  | 14 => flog2 a
  | 15 => frcp a
  | _ => frsqrt a

/-- Lanes with free values where an operation states no result. -/
def State.fillLanes (s : State) (l : List (Option Nat)) : List Nat × State :=
  let r := s.fill 32 (l.map (·, false))
  (r.1.map Prod.fst, r.2)

/-- The conversion target of an FMT code as accflush numbers targets (Table 3-5). -/
def cvtTarget (fmt : Nat) : Option Nat :=
  match fmt with
  | 10 => some 0
  | 7 => some 1
  | 8 => some 2
  | 1 => some 3
  | 0 => some 4
  | 5 => some 5
  | 11 => some 6
  | 9 => some 7
  | 12 => some 8
  | 13 => some 9
  | _ => none

/-- The value of a lane read as an element of a format (R127): one element or part a lane, in the low bits. -/
def cvtSource (fmt v : Nat) : Val :=
  match ffmt fmt with
  | some f => f.decode (v % 2 ^ (1 + f.eb + f.mb))
  | none =>
    let i := sext (if fmt = 5 then 8 else if fmt = 9 then 16 else 32) v
    .fin (decide (i < 0)) i.natAbs 0

/-- A value as a target's code; none where Table 3-5 makes the result depend on SAT, which cvt does not have, and for
an infinity into an integer (log entry 32). -/
def cvtCode (t : Nat) : Val → Option Nat
  | .nan => some (nanResult t)
  | .inf n => match tgtFmt t with
    | some f => if f.special = 2 then some (convInf t false n) else none
    | none => none
  | .fin n m e => match tgtFmt t with
    | some f =>
      if m = 0 then some (b2n n * 2 ^ (f.eb + f.mb))
      else if f.overflows m e then none else some (f.encode none false n m e)
    | none => some (convExact t false none ((if n then -1 else 1) * (m : Int)) e)

/-- A converted lane: the code in the low bits, free bits above it (log entry 32). -/
def cvtLane (t free : Nat) (c : Option Nat) : Nat :=
  let w := tgtBits t
  (c.getD free) % 2 ^ w + (if w = 32 then 0 else free / 2 ^ w % 2 ^ (32 - w) * 2 ^ w)

/-- A value as a raw image (Table 3-4): exact for 0, NAN for a NaN or an infinity (R79), and a free SUM and free INEXACT
and RANGE otherwise, since no exponent B is given (R81, log entry 42). -/
def cvtImage (free : Nat) (v : Val) (pois : Bool) : Nat :=
  let nan := match v with
    | .fin _ _ _ => false
    | _ => true
  let zero := match v with
    | .fin _ m _ => m == 0
    | _ => false
  let sum : Int := if zero then 0 else sext 112 free
  { sum, inexact := !zero && !nan && bit free 112, range := !zero && !nan && bit free 113, nan, poison := pois : Accum }.image sum

/-- Image k of raw images held four lanes each, with its poison (log entry 42). -/
def laneImage (l : List Nat) (p : List Bool) (k : Nat) : Nat × Bool :=
  (natOf (((l.drop (4 * k)).take 4).flatMap (bytesOf 4)), ((p.drop (4 * k)).take 4).any id)

/-- An image in four lanes. -/
def imageLanes (img : Nat) : List Nat := (List.range 4).map fun i => img / 2 ^ (32 * i) % 2 ^ 32

/-- cvt over all lanes. From raw images, image k of lanes 4k to 4k + 3 gives lane k, and to raw images lane k gives image k;
an image's exponent B is not known here (R81, log entry 42). -/
def State.cvt (s : State) (x : Ctx) (ra rd src t : Nat) : List Nat × List Bool × State :=
  let a := x.lanes ra
  let ap := x.lanePois ra
  let s' := { s with free := s.free + 2048 }
  let fr := fun i => Config.freeValue (s.free + i)
  if t = 9 then
    let imgs := (List.range 512).map fun k =>
      let (img, p) := if src = 13 then laneImage a ap k
        else (cvtImage (fr k) (cvtSource src (a.getD k 0)) (ap.getD k false), ap.getD k false)
      let acc := accumOf img p
      (acc.image acc.sum, acc.poison)
    (imgs.flatMap fun o => imageLanes o.1, imgs.flatMap fun o => List.replicate 4 o.2, s')
  else if src = 13 then
    let d := x.lanes rd
    let dp := x.lanePois rd
    let out := (List.range 512).map fun k =>
      let (img, p) := laneImage a ap k
      let acc := accumOf img p
      (cvtLane t (fr k) (if acc.empty && !acc.nan && !acc.range then none else convAccum {} t false none 0 acc), acc.poison)
    (out.map Prod.fst ++ d.drop 512, out.map Prod.snd ++ dp.drop 512, s')
  else (a.zipIdx.map fun (v, i) => cvtLane t (fr i) (cvtCode t (cvtSource src v)), ap, s')

/-- The operand RB of a vop, or the broadcast scalar (R127), with its poison. -/
def vopB (x : Ctx) (w : Nat) : List Nat × List Bool :=
  if bit w 31 then
    (List.replicate 2048 (x.val (w % 32) % 2 ^ 32), List.replicate 2048 (x.poisoned (w % 32)))
  else (x.lanes (iRb w), x.lanePois (iRb w))

/-- Three lists lane by lane. -/
def zip3 (f : Nat → Nat → Nat → Option Nat) (a b d : List Nat) : List (Option Nat) :=
  (List.zip a (List.zip b d)).map fun (x, y, z) => f x y z

/-- The operation reads RB, and RD as an operand. -/
def usesB (fn : Nat) : Bool := fn < 13

/-- A failed check of the vector unit kills the command for re-run (R362). -/
def State.vecMiss (s : State) (g c : Nat) : State := s.coreMiss g 2 fun s => s.killRerun g c

/-- R127: one lane-wise operation. -/
def vop (g c : Nat) (miss : Bool) (s : State) : State :=
  s.issue g c [0x80] fun w x s =>
    if miss then s.vecMiss g c
    else if iFn w = 17 then
      match cvtTarget (bits w 7 4), (cvtTarget (bits w 3 0)).isSome with
      | some t, true =>
        let (v, p, s) := s.cvt x (iRa w) (iRd w) (bits w 3 0) t
        s.put1 g c (x.setV (iRd w) v p).next
      | _, _ => s.killEnd g c 3
    else
      let fn := iFn w
      let (b, bp) := vopB x w
      let (v, s) := s.fillLanes (zip3 (laneOp fn) (x.lanes (iRa w)) b (x.lanes (iRd w)))
      let p := (List.zip (x.lanePois (iRa w)) (List.zip bp (x.lanePois (iRd w)))).map fun (a, b, d) =>
        a || (usesB fn && b) || (fn == 3 && d)
      s.put1 g c (x.setV (iRd w) v p).next

def execVop (g c : Nat) (miss : Bool) (s : State) : Out := run (.vop g c miss) s (vop g c miss s)

/-- R120: the read of 8 KiB from stream RA into RD starts; the context blocks. -/
def vld (g c : Nat) (s : State) : State :=
  s.issue g c [0x81] fun w x s =>
    let d := x.sdReg (iRa w)
    s.steer g c x [sdSpec (iRa w)] fun s =>
    if !sdOk d 0 then s.killEnd g c 3
    else match s.streamBad g x false d with
      | some p => s.killAddr g c p
      | none => s.put1 g c { x with blk := .vload (iRd w) (iRa w % 8) }

def execVld (g c : Nat) (s : State) : Out := run (.vld g c) s (vld g c s)

/-- Stage RA to stream RD, as many bytes as the stream has, at most 8 KiB (log entry 45). -/
def vst (g c : Nat) (s : State) : State :=
  s.issue g c [0x82] fun w x s =>
    let d := x.sdReg (iRd w)
    s.steer g c x [sdSpec (iRd w)] fun s =>
    if !sdOk d 1 then s.killEnd g c 3
    else match s.streamBad g x true d with
      | some p => s.killAddr g c p
      | none =>
        let b := (List.zip (x.lanes (iRa w)) (x.lanePois (iRa w))).flatMap fun (v, p) => (bytesOf 4 v).map (·, p)
        s.stage g c (x.addStream (iRd w) 0x82).next (sdStores d b)

def execVst (g c : Nat) (s : State) : Out := run (.vst g c) s (vst g c s)

/-- One level of the pairwise tree: lane 2i with lane 2i + 1 (R103). -/
def pairStep (f : Nat → Nat → Option Nat) : List (Option Nat) → List (Option Nat)
  | some a :: some b :: l => f a b :: pairStep f l
  | _ :: _ :: l => none :: pairStep f l
  | l => l

/-- The whole tree over 2^n lanes (R103). -/
def pairTree (f : Nat → Nat → Option Nat) : Nat → List (Option Nat) → Option Nat
  | 0, l => (l.headD none)
  | n + 1, l => pairTree f n (pairStep f l)

/-- The step of a reduction (Table 4-4, vred). -/
def redStep (fn : Nat) : Nat → Nat → Option Nat :=
  match fn with
  | 0 => fadd
  | 1 => fminmax false
  | _ => fminmax true

/-- R103: pairwise tree reduction of RA into lane 0 of RD; the other lanes stay. -/
def vred (g c : Nat) (miss : Bool) (s : State) : State :=
  s.issue g c [0x83] fun w x s =>
    if miss then s.vecMiss g c
    else
      let (v, s) := s.fillLanes [pairTree (redStep (iFn w)) 11 ((x.lanes (iRa w)).map some)]
      let p := (x.lanePois (iRa w)).any id
      s.put1 g c (x.setV (iRd w) (v ++ (x.lanes (iRd w)).drop 1) (p :: (x.lanePois (iRd w)).drop 1)).next

def execVred (g c : Nat) (miss : Bool) (s : State) : Out := run (.vred g c miss) s (vred g c miss s)

/-- R81: 512 accumulator images of RA and RB added exactly. -/
def vimg (g c : Nat) (s : State) : State :=
  s.issue g c [0x84] fun w x s =>
    let img := fun (l : List Nat) k => natOf (((l.drop (4 * k)).take 4).flatMap (bytesOf 4))
    let a := x.lanes (iRa w)
    let b := x.lanes (iRb w)
    let v := (List.range 512).flatMap fun k =>
      let y := combineImages (img a k) (img b k)
      (List.range 4).map fun i => y / 2 ^ (32 * i) % 2 ^ 32
    let p := (List.range 512).flatMap fun k =>
      let q := ((x.lanePois (iRa w)).drop (4 * k)).take 4 ++ ((x.lanePois (iRb w)).drop (4 * k)).take 4
      List.replicate 4 (q.any id)
    s.put1 g c (x.setV (iRd w) v p).next

def execVimg (g c : Nat) (s : State) : Out := run (.vimg g c) s (vimg g c s)

/-- Candidate a comes before b: by value, then by index, lower first (R104). -/
def candBefore (largest : Bool) (a b : Nat × Nat) : Bool :=
  match fcmp a.1 b.1 with
  | some .lt => !largest
  | some .gt => largest
  | _ => decide (a.2 < b.2)

/-- Insert a candidate in order. -/
def candInsert (largest : Bool) (a : Nat × Nat) : List (Nat × Nat) → List (Nat × Nat)
  | [] => [a]
  | b :: l => if candBefore largest a b then a :: b :: l else b :: candInsert largest a l

/-- Feed candidates to the selector, which keeps the best k (R104). NAN_SEEN stays in the selector's state (log entry 154). -/
def TopK.feed (t : TopK) (k : Nat) (largest : Bool) (l : List (Nat × Nat)) (pois : Bool) : TopK :=
  l.foldl (fun t a =>
    if fp32.decode a.1 = .nan then { t with nan := true }
    else { t with cand := (candInsert largest a t.cand).take k })
    { t with k, largest, poison := t.poison || pois, cand := t.cand.take k }

/-- R104, R128: feed 2,048 candidates, and write the sorted result after this feed where FN[2] is 1; lanes past the candidates
found keep their values (log entry 153). -/
def vtopk (g c : Nat) (miss : Bool) (s : State) : State :=
  s.issue g c [0x85] fun w x s =>
    if miss then s.vecMiss g c
    else
      let t : TopK := if bit (iFn w) 1 then {} else (s.core g).topk
      let pois := (x.lanePois (iRa w)).any id || (x.lanePois (iRb w)).any id
      let t := t.feed (bits w 8 0) (bit (iFn w) 0) (List.zip (x.lanes (iRa w)) (x.lanes (iRb w))) pois
      let s := s.modCore g fun m => { m with topk := t }
      if bit (iFn w) 2 then
        let n := t.cand.length
        let rd := iRd w
        let y := x.setV rd (t.cand.map Prod.fst ++ (x.lanes rd).drop n) (List.replicate n t.poison ++ (x.lanePois rd).drop n)
        let y := y.setV (rd + 1) (t.cand.map Prod.snd ++ (x.lanes (rd + 1)).drop n)
          (List.replicate n t.poison ++ (x.lanePois (rd + 1)).drop n)
        s.put1 g c y.next
      else s.put1 g c x.next

def execVtopk (g c : Nat) (miss : Bool) (s : State) : Out := run (.vtopk g c miss) s (vtopk g c miss s)

/-- R353: fold lanes of RA into a digest slot's pending sum; a slot of another basin makes the instruction illegal. -/
def vdigest (g c : Nat) (s : State) : State :=
  s.issue g c [0x86] fun w x s =>
    let k := iFn w
    let ix := g * 16 + k
    if s.fld F.MXC_DIGk.OWNER ix ≠ x.basin then s.killEnd g c 3
    else
      let n := bits w 15 5 + 1
      let r := w % 32
      let base := x.val r % 2 ^ 48
      let key := s.fld F.MXC_DIGk.KEY ix
      let sum := ((x.lanes (iRa w)).take n).zipIdx.foldl (fun a (v, l) => (a + mix (mix key (base + l)) v) % 2 ^ 64) 0
      let (a, cnt, p) := SMap.get (0, 0, false) x.digs k
      let p := p || x.poisoned r || ((x.lanePois (iRa w)).take n).any id
      s.put1 g c { x with digs := SMap.set (0, 0, false) x.digs k ((a + sum) % 2 ^ 64, cnt + n, p) }.next

def execVdigest (g c : Nat) (s : State) : Out := run (.vdigest g c) s (vdigest g c s)

end Sys2Proof.Machine
end

