-- ==== Sys2Proof/Machine/Sync.lean ====
section
/-! DEFINITION. Synchronisation and the end of commands on a matrix core: semaphores, tick waits, barrier arrivals,
commit and cabort (R136 to R139, R143, R144). -/

namespace Sys2Proof.Machine

/-- The register-space address of a semaphore, the address an address fault on it names (R143, R427). -/
def semAddr (g n : Nat) : Nat := 0xFF01000000 + g / 2 * 0x100000 + (if g % 2 = 0 then 0x10000 else 0x40000) + 0x8000 + n * 4

/-- Stage +CNT to a semaphore; one of another basin, or of a core that does not exist, is an address fault (R143). -/
def signal (g c : Nat) (s : State) : State :=
  s.issue g c [0xA0] fun w x s =>
    let k := bits w 4 0
    if 24 ≤ k ∨ s.semOwner k (iSem w) ≠ x.basin then s.killAddr g c (semAddr k (iSem w))
    else s.stage g c x.next [.signal k (iSem w) (iCnt w)]

def execSignal (g c : Nat) (s : State) : Out := run (.signal g c) s (signal g c s)

/-- Block until the semaphore has CNT (R143). -/
def wait (g c : Nat) (s : State) : State :=
  s.issue g c [0xA1] fun w x s =>
    if s.semOwner g (iSem w) ≠ x.basin then s.killAddr g c (semAddr g (iSem w))
    else s.put1 g c { x with blk := .wait (iSem w) (iCnt w) }

def execWait (g c : Nat) (s : State) : Out := run (.wait g c) s (wait g c s)

/-- A context placed among others in order of dispatch. -/
def seqInsert (x : Ctx) : List Ctx → List Ctx
  | [] => [x]
  | y :: l => if x.seq ≤ y.seq then x :: y :: l else y :: seqInsert x l

/-- What earlier-dispatched waiters on the semaphore that fit take before context c is served (R143). -/
def State.waitersBefore (s : State) (g n : Nat) (x : Ctx) : Nat :=
  (((s.held4 g).map (·.2)).foldr seqInsert []).foldl (fun t y =>
    match y.blk with
    | .wait m k => if m = n ∧ y.seq < x.seq ∧ t + k ≤ s.fld F.MXC_SEMn.VAL (g * 4096 + n) then t + k else t
    | _ => t) 0

/-- R143: a waiting context is granted its CNT from VAL to RSV, in order of dispatch. -/
def semaphoreGrant (g c : Nat) (s : State) : State :=
  match s.ctx g c with
  | none => s
  | some x =>
    match x.blk with
    | .wait n k =>
      let ix := g * 4096 + n
      let v := s.fld F.MXC_SEMn.VAL ix
      if !s.coreRuns g || v < s.waitersBefore g n x + k then s
      else
        let s := (s.setFld F.MXC_SEMn.VAL ix (v - k)).setFld F.MXC_SEMn.RSV ix (s.fld F.MXC_SEMn.RSV ix + k)
        s.put1 g c { x with blk := .none, pc := x.pc + 1, rsv := x.rsv ++ [(n, k)] }
    | _ => s

def execSemaphoreGrant (g c : Nat) (s : State) : Out := run (.semaphoreGrant g c) s (semaphoreGrant g c s)

/-- R144: block until a cycle of the frame; a cycle already passed does not block and is counted. -/
def tickwait (g c : Nat) (s : State) : State :=
  s.issue g c [0xA2] fun w x s =>
    let t := bits w 19 0
    if nMin (s.fld F.GEY_CTRL.PERIOD) ≤ t then s.killEnd g c 3
    else if t < s.frameCyc then (s.incFld F.MXC_SEQ_ERR.TW_LATE g).put1 g c x.next
    else if t = s.frameCyc then s.put1 g c x.next
    else s.put1 g c { x with blk := .tickwait t }

def execTickwait (g c : Nat) (s : State) : Out := run (.tickwait g c) s (tickwait g c s)

/-- R144: the cycle a context waits for has come. -/
def tickwaitRelease (g c : Nat) (s : State) : State :=
  match s.ctx g c with
  | none => s
  | some x =>
    match x.blk with
    | .tickwait t => if t ≤ s.frameCyc then s.put1 g c { x with blk := .none, pc := x.pc + 1 } else s
    | _ => s

def execTickwaitRelease (g c : Nat) (s : State) : Out := run (.tickwaitRelease g c) s (tickwaitRelease g c s)

/-! Barrier entries (Table 10-6) -/

/-- Address of a barrier's entry. -/
def State.barAddr (s : State) (b : Nat) : Nat := s.fld F.FAB_BAR_BASE.BASE * 2 ^ 21 + b * 512
def State.barEpoch (s : State) (b : Nat) : Nat := s.readNat (s.barAddr b + 64) 2
def State.barLocal (s : State) (b : Nat) : Nat := s.readNat (s.barAddr b + 66) 1
def State.barArrived (s : State) (b : Nat) : Nat := s.readNat (s.barAddr b + 67) 1
def State.barMaster (s : State) (b : Nat) : Nat := s.readNat (s.barAddr b + 68) 2 % 512
def State.barOwner (s : State) (b : Nat) : Nat := s.readNat (s.barAddr b + 72) 1
def State.barEn (s : State) (b : Nat) : Bool := s.flag F.FAB_BAR_BASE.EN && bit (s.readNat (s.barAddr b + 73) 1) 0

/-- R327: stage an arrival; a barrier that is not enabled or not the basin's is an address fault. -/
def fbar (g c : Nat) (s : State) : State :=
  s.issue g c [0xA3] fun w x s =>
    let b := bits w 11 0
    if !s.barEn b || s.barOwner b != x.basin then s.killAddr g c (s.barAddr b)
    else s.stage g c x.next [.fbar b (iSem w)]

def execFbar (g c : Nat) (s : State) : Out := run (.fbar g c) s (fbar g c s)

/-- R137: commit blocks its context until the commit point. -/
def commit (g c : Nat) (s : State) : State :=
  s.issue g c [0xC0] fun w x s => s.put1 g c { x with blk := .commit (bits w 15 0) }

def execCommit (g c : Nat) (s : State) : Out := run (.commit g c) s (commit g c s)

/-- The command ends and its staged effects are discarded (Table 4-8). -/
def cabort (g c : Nat) (s : State) : State :=
  s.issue g c [0xC1] fun w _ s => s.killEnd g c 1 (bits w 15 0)

def execCabort (g c : Nat) (s : State) : Out := run (.cabort g c) s (cabort g c s)

/-! The commit point -/

/-- A context may commit: its commit has issued and every operation of its command has ended (R137). -/
def State.canCommit (s : State) (g c : Nat) : Bool :=
  match s.ctx g c with
  | none => false
  | some x =>
    (match x.blk with
      | .commit _ => true
      | _ => false) &&
      x.streams.isEmpty && (List.range 4).all fun a => (SMap.get [] (s.core g).passes a).all fun p => p.seq != x.seq

/-- A fabric operation carries poison (R149). -/
def fabPoison : Staged → Bool
  | .fstore _ _ p => p
  | .fatom _ _ _ _ _ _ p => p
  | .fsend _ _ _ p => p.any id
  | _ => false

/-- A staged line or a fabric operation is poisoned (R149). -/
def stagedPoison (l : List Staged) : Bool := !(linesPoisoned l).isEmpty || l.any fabPoison

/-- The address and bytes an effect adds to the signature (R351). -/
def State.signStaged (s : State) : Staged → State
  | .store a d _ => s.sign a d
  | .fstore a d _ => s.sign a d
  | .fsend _ _ d _ => s.sign 0 d
  | _ => s

/-- The pending digests of a command reach their slots (R354). -/
def State.foldDigests (s : State) (g : Nat) (x : Ctx) : State :=
  x.digs.foldl (fun s (k, a, n, p) =>
    let ix := g * 16 + k
    let s := s.setFld F.MXC_DIGk.SUM ix (s.fld F.MXC_DIGk.SUM ix + a)
    let s := s.setFld F.MXC_DIGk.COUNT ix (s.fld F.MXC_DIGk.COUNT ix + n)
    s.when p (fun s => s.setFld F.MXC_DIGk.POISON ix 1)) s

/-- Consumer count of a message queue advances over every message dequeued so far (R146, R323). -/
def State.mqAdvance : Nat → Nat → State → State
  | 0, _, s => s
  | f + 1, q, s =>
    let base := s.fld F.FAB_MQn.BASE q
    let c := s.readNat (base + 4) 4
    if (s.mq q).taken.contains c then
      let s := s.setMq q { s.mq q with taken := (s.mq q).taken.filter (· != c) }
      State.mqAdvance f q (s.putRam 0 (base + 4) (bytesOf 4 (c + 1)))
    else s

/-- The messages a command reserved are dequeued at its commit point (R146). -/
def State.mqCommit (s : State) (l : List (Nat × Nat)) : State :=
  l.foldl (fun s (q, i) => State.mqAdvance 4097 q (s.setMq q { s.mq q with taken := (s.mq q).taken ++ [i] })) s

/-- R137, R138, R143, R146, R149, R354: the commit point. Poison refuses it unless PASSPOISON
is 1; for a radio command an event record then names the core (Table 12-4; log entry 90). -/
def commitPoint (g c : Nat) (s : State) : State :=
  match s.ctx g c with
  | none => s
  | some x =>
    let first := (s.held4 g).all fun (k, y) => k == c || !s.canCommit g k || decide (x.seq < y.seq)
    if !s.coreRuns g || !s.canCommit g c || !first then s
    else
      let r := s.meetSinter g x.seq x.staged
      let s := r.2
      let x := { x with staged := r.1 }
      if !x.cmd.passPoison && stagedPoison x.staged then
        let s := s.when (x.cmd.q % 8 == 0) fun s =>
          (s.workCells s.radioDies 3).report (queueSrc x.cmd.q) { data := unitSrc (.block (g / 2) (g % 2)) % 2 ^ 16 } (unitSrc (.block (g / 2) (g % 2))) 2
        s.killEnd g c 6
      else
        let user := match x.blk with
          | .commit u => u
          | _ => 0
        let s := s.semDrop g x.rsv
        let s := s.mqCommit x.msgs
        let s := s.foldDigests g x
        let s := x.staged.foldl State.signStaged s
        let d : Drain := { seq := x.seq, cmd := x.cmd, basin := x.basin, gen := x.cmd.gen, user, cycles := s.since x.t0
                           tick := s.tickNo, ivl := some (s.tickNo, s.lock.idx), arrays := x.arrays, units := x.cmd.sntq, staged := x.staged }
        let s := (s.incFld F.SNT_CNT.COMMITS g).modCore g fun m => { m with drains := m.drains ++ [d] }
        (s.freeCtx g c).boundary g

def execCommitPoint (g c : Nat) (s : State) : Out := run (.commitPoint g c) s (commitPoint g c s)

end Sys2Proof.Machine
end

