-- ==== Sys2Proof/Machine/Msg.lean ====
section
/-! DEFINITION. Messages and the fabric instructions of ETV-M: the rings of message queues (R323 to R325), the
remote-read cache (R206, R315), and fload, fstore, fatom, finv, fsend and frecv (R145, R146, R308, R309, R315, R316,
R324). -/

namespace Sys2Proof.Machine

/-! Fabric instructions -/

/-- The value a load writes: bytes by FN[1:0], sign-extended where FN[2] is 1 (Table 4-4). -/
def loadValue (fn : Nat) (d : List Byte) : Nat :=
  let n := 2 ^ (fn % 4)
  let v := natOf (d.take n)
  if bit fn 2 then wrap 64 (sext (8 * n) v) else v

/-- A range of a fabric address is assigned and in its region (R308). -/
def faRange (a n : Nat) : Bool := faOk a && faOk (a + n - 1)

/-- The target of a fabric address has no valid route (Table 10-18). -/
def State.faNoRoute (s : State) (a : Nat) : Bool := !s.flag F.FAB_ROUTEi.VALID (faPidx a)

/-- A request of a command goes out. -/
def State.cmdRequest (s : State) (g c : Nat) (x : Ctx) (p : Packet) (hash rd fn : Nat) : Nat × State :=
  State.issueReq (s.request g c x.seq x.basin x.cmd p hash rd fn 0)

/-- RD ← fabric address (R145, R308, R315, R320): a local operation for the own index, a hit in the die's remote-read
cache, or a request for whose reply the context blocks. -/
def fload (g c : Nat) (s : State) : State :=
  s.issue g c [0xE0] fun w x s =>
    s.steer g c x [iRa w] fun s =>
      let a := addImm (x.val (iRa w)) w
      let n := 2 ^ (iFn w % 4)
      if a % n ≠ 0 then s.killEnd g c 3
      else if !faRange a n then s.killAddr g c a
      else if faPidx a = s.pidx then s.startLoad g c x (faOfs a) n (iRd w) (iFn w % 8)
      else if s.faNoRoute a || !s.fabReach g (s.sysid / 512 * 512 + faPidx a) (hashAddr a) then s.killAddr g c a
      else
        let s := s.when (!bit (iFn w) 3) fun s => s.meetCache (g / 2) (a / 64)
        match if bit (iFn w) 3 then none else s.rrcHit (g / 2) x.basin a with
        | some l => (s.rrcTouch (g / 2) a).result g c x (iRd w) (loadValue (iFn w) (l.data.drop (a % 64))) l.poison
        | none =>
          let dst := s.sysid / 512 * 512 + faPidx a
          let p : Packet := if bit (iFn w) 3 then { ty := 2, dst, addr := a, mlen := n - 1 }
            else { ty := 1, dst, addr := a, mlen := 63 }
          let tag := s.fab.nextTag
          let s := s.put1 g c { x with blk := .fload tag (iRd w) (iFn w % 8) }
          (s.cmdRequest g c x p (hashAddr a) (iRd w) (iFn w % 8)).2

/-- Stage RB to a fabric address (R146, R308). -/
def fstore (g c : Nat) (s : State) : State :=
  s.issue g c [0xE1] fun w x s =>
    s.steer g c x [iRa w] fun s =>
      let a := addImm (x.val (iRa w)) w
      let n := 2 ^ (iFn w % 4)
      let d := bytesOf n (x.val (iRb w))
      if !faRange a n then s.killAddr g c a
      else if faPidx a = s.pidx then s.stageAt g c x (faOfs a) (d.map (·, x.poisoned (iRb w)))
      else if s.faNoRoute a || !s.fabReach g (s.sysid / 512 * 512 + faPidx a) (hashAddr a) then s.killAddr g c a
      else s.stage g c x.next [.fstore a d (x.poisoned (iRb w))]

def execFstore (g c : Nat) (s : State) : Out := run (.fstore g c) s (fstore g c s)

/-- Stage an atomic on a fabric address; its old value returns to local address RD (R146, R308, R316). -/
def fatom (g c : Nat) (s : State) : State :=
  s.issue g c [0xE2] fun w x s =>
    s.steer g c x [iRa w, iRd w] fun s =>
      let a := x.val (iRa w)
      let ret := x.val (iRd w)
      let cas := iFn w % 4 == 3
      let pois := x.poisoned (iRb w) || (cas && x.poisoned (iRb w + 1))
      if a % 8 ≠ 0 then s.killEnd g c 3
      else if !faRange a 8 then s.killAddr g c a
      else match s.badAddr (s.coreWho g x) true ret 8 with
        | some p => s.killAddr g c p
        | none =>
          if faPidx a ≠ s.pidx ∧ (s.faNoRoute a || !s.fabReach g (s.sysid / 512 * 512 + faPidx a) (hashAddr a)) then s.killAddr g c a
          else match if faPidx a = s.pidx then s.badAddr (s.coreWho g x) true (faOfs a) 8 else none with
            | some p => s.killAddr g c p
            | none => s.stage g c x.next
                [.fatom (iFn w % 4) (bit (iFn w) 2) a (x.val (iRb w)) (if cas then x.val (iRb w + 1) else 0) ret pois]

def execFatom (g c : Nat) (s : State) : Out := run (.fatom g c) s (fatom g c s)

/-- Invalidate remote-read cache lines of the die overlapping RA to RA + RB − 1 (R145). -/
def finv (g c : Nat) (s : State) : State :=
  s.issue g c [0xE3] fun w x s =>
    s.steer g c x [iRa w, iRb w] fun s =>
      let a := x.val (iRa w)
      let n := x.val (iRb w)
      let s := s.rrcDrop fun k _ => k / 2 ^ 58 == g / 2 &&
        decide (k % 2 ^ 58 * 64 < a + n ∧ a < k % 2 ^ 58 * 64 + 64 ∧ 0 < n)
      s.put1 g c x.next

def execFinv (g c : Nat) (s : State) : Out := run (.finv g c) s (finv g c s)

/-- The valid entries of a multicast group, with their places (R326). -/
def State.members (s : State) (n : Nat) : List (Nat × Nat) :=
  (List.range 64).filterMap fun e =>
    if s.flag F.FAB_MCGg.VALID (n * 64 + e) then some (e, s.fld F.FAB_MCGg.EP (n * 64 + e)) else none

/-- The endpoints a message goes to: itself, or the valid members of a group (R309, R326). -/
def State.endpoints (s : State) (ep : Nat) : List Nat := if bit ep 31 then (s.members (ep % 64)).map (·.2) else [ep]

/-- The poison of each 64-byte payload line of bytes in order. -/
def linePois (l : List Bool) : List Bool := (List.range ((l.length + 63) / 64)).map fun i => ((l.drop (64 * i)).take 64).any id

/-- Stage a message to endpoint RA with the payload of stream RD (R146, R309, R324; log entry 48). -/
def fsend (g c : Nat) (s : State) : State :=
  s.issue g c [0xE4] fun w x s =>
    s.steer g c x [iRa w, sdSpec (iRd w)] fun s =>
      let ep := x.val (iRa w)
      let d := x.sdReg (iRd w)
      if (if bit ep 31 then ep % 2 ^ 31 / 64 != 0 || ep / 2 ^ 32 != 0 else ep / 2 ^ 25 != 0) then s.killEnd g c 3
      else if !sdOk d 0 ∨ 262144 < sdLen d then s.killEnd g c 3
      else match s.streamBad g x false d with
        | some p => s.killAddr g c p
        | none =>
          if (s.endpoints ep).any fun e => e / 4096 != s.sysid &&
              (!s.rtValid (e / 4096) || !s.fabReach g (e / 4096) (hashMsg (e % 4096) g)) then s.killAddr g c ep
          else
            let s := s.meetStream g d
            let r := s.streamRead g x d
            let dev := if bit ep 31 then 8192 + ep % 64 else ep / 4096
            s.stage g c x.next [.fsend dev (ep % 4096) (r.map (·.1)) (linePois (r.map (·.2)))]

def execFsend (g c : Nat) (s : State) : Out := run (.fsend g c) s (fsend g c s)

/-- The register-space address of a message queue's register, which an address fault on it names. -/
def mqRegAddr (q : Nat) : Nat := 0xFF00000000 + (RegKind.FAB_MQn.shapes.map (·.base)).headD 0 + q * 32

/-- Block for a message on a local queue of the basin (R146, R325). -/
def frecv (g c : Nat) (s : State) : State :=
  s.issue g c [0xE5] fun w x s =>
    let q := bits w 11 0
    s.steer g c x [sdSpec (iRd w)] fun s =>
    if !sdOk (x.sdReg (iRd w)) 1 then s.killEnd g c 3
    else if s.mqOwner q ≠ x.basin then s.killAddr g c (mqRegAddr q)
    else s.put1 g c { x with blk := .frecv q (iRd w) }

def execFrecv (g c : Nat) (s : State) : Out := run (.frecv g c) s (frecv g c s)

/-- A message of a queue is reserved by a context or dequeued out of order (R146). -/
def State.msgTaken (s : State) (q i : Nat) : Bool :=
  (s.mq q).taken.contains i || (List.range 24).any fun g => (s.held4 g).any fun (_, x) => x.msgs.contains (q, i)

/-- The message at the head of a queue: the first visible one no command has reserved. -/
def State.msgHead (s : State) (q : Nat) : Option Nat :=
  let n := diff32 (s.mqProd q) (s.mqCons q)
  (List.range n).findSome? fun k =>
    let i := (s.mqCons q + k) % 2 ^ 32
    if s.msgTaken q i then none else some i

/-- R146, R325: a blocked frecv reserves the message at the head of its queue and copies its payload, with its poison,
through staged writes. -/
def frecvMessageReserve (g c : Nat) (s : State) : State :=
  match s.ctx g c with
  | none => s
  | some x =>
    match x.blk with
    | .frecv q sd =>
      match s.msgHead q with
      | none => s
      | some i =>
        let a := s.mqAddr q i
        let n := s.readNat (a + 4) 4
        let d := x.sdReg sd
        if !s.coreRuns g then s
        else if sdLen d < n then s.killEnd g c 3
        else match s.streamBad g x true d with
          | some p => s.killAddr g c p
          | none =>
            let s := s.meet a (64 + n)
            let data := (List.range n).map fun k => (s.rd (a + 64 + k), s.linePoison ((a + 64 + k) / 64))
            let x' := { x with blk := .none, pc := x.pc + 1, msgs := x.msgs ++ [(q, i)] }
            s.stage g c x' (sdStores d data)
    | _ => s

def execFrecvMessageReserve (g c : Nat) (s : State) : Out := run (.frecvMessageReserve g c) s (frecvMessageReserve g c s)

end Sys2Proof.Machine
end

