-- ==== Sys2Proof/Machine/StoreCtl.lean ====
section
/-! DEFINITION. The store controllers (R153, R163 to R170): refresh, patrol, sparing, pages, SRAM granules, keys. -/

namespace Sys2Proof.Machine

/-- The refresh interval that runs now, as tick number and interval of the tick, and the time since its start in quarters of 1 ns:
intervals of 3,906.25 ns start at every tick boundary, and run freely from counter time 0 while no tick has come (R153; log
entry 163). -/
def State.refreshIv (s : State) : (Nat × Nat) × Nat :=
  let t := 4 * (s.now - if s.flag F.GEY_CTRL.TICKING then s.gey.last else 0)
  ((if s.flag F.GEY_CTRL.TICKING then s.tickNo else 0, t / 15625), t % 15625)

/-- R153: bank group bg of channel ch takes its refresh of the running interval, due (8 ch + bg) × 29 ns after its start; data do not
change. -/
def refresh (n ch bg : Nat) (s : State) : State :=
  let st := s.store n
  let (iv, t) := s.refreshIv
  let done := if st.refreshIv = iv then st.refreshed else []
  if s.dieDown (12 + n) || done.contains (8 * ch + bg) || decide (t < 116 * (8 * ch + bg)) then s
  else s.setStore n { st with refreshIv := iv, refreshed := done ++ [8 * ch + bg] }

def execRefresh (n ch bg : Nat) (s : State) : Out := run (.refresh n ch bg) s (refresh n ch bg s)

/-- R167, R168: a patrol read of one code word of store, of matrix or radio SRAM, or of a remote-read cache; a write that overtakes it
makes the patrol skip the line. -/
def patrolRead (loc : EccLoc) (e : Ecc) (overtaken last : Bool) (s : State) : State :=
  let s := s.strike e
  match loc with
  | .mem a =>
    match place a with
    | .store n _ _ =>
      if !s.flag F.STR_CTRL.PATROL_EN n || s.dieDown (12 + n) then s
      else
        let s := if overtaken then s else s.meet a 1 true
        s.when last (fun s => s.setFld F.STR_STATUS.PATROL_PASSES n (s.fld F.STR_STATUS.PATROL_PASSES n + 1))
    | .sram n _ => if overtaken || s.dieDown n then s else s.meet a 1 true
    | .rsram n _ => if overtaken || s.dieDown (24 + n) then s else s.meet a 1 true
    | _ => s
  | .cache die line _ => if overtaken || s.dieDown die then s else s.meetCache die line
  | _ => s

def execPatrolRead (loc : EccLoc) (e : Ecc) (overtaken last : Bool) (s : State) : Out :=
  run (.patrolRead loc e overtaken last) s (patrolRead loc e overtaken last s)

/-- R169, R170, R379: the block handler fences a bank group. The channel's spare replaces it and the copy begins; with
the spare in use the bank group is fenced in place and the region is degraded. -/
def bankGroupSparing (n ch bg : Nat) (s : State) : State :=
  let st := s.store n
  let u := FUnit.tile (12 + n) (ch / 4) (ch % 4 * 8 + bg)
  if s.testFenced u then s.testStands 6 1 u
  else if st.inPlace.contains (8 * ch + bg) then s
  else if !bit (s.fld F.STR_STATUS.SPARE_USED n) ch then
    let s := s.setStore n { st with spared := st.spared ++ [8 * ch + bg] }
    let s := s.setFld F.STR_STATUS.SPARE_USED n (putBit (s.fld F.STR_STATUS.SPARE_USED n) ch true)
    let s := ((s.setFld F.STR_STATUS.COPY_BUSY n 1).setFld F.STR_STATUS.COPY_CH n ch).setFld F.STR_STATUS.COPY_BG n bg
    (s.detect (12 + n) 6 1 (unitSrc u) (8 * ch + bg) 0 false true).tileFenced (12 + n) (ch / 4) fun s =>
      s.blockDown (12 + n) (ch / 4) 6 false
  else
    let s := s.setStore n { st with inPlace := st.inPlace ++ [8 * ch + bg] }
    let s := s.addFence ⟨u, 3, true, false⟩
    let s := (s.setFld F.FLT_RG_STATUS.DEGRADED (12 + n) 1).incFld F.FLT_RG_CNT.ESC (12 + n)
    let s := s.setFld F.FLT_STATUS.RUNG 0 (max (s.fld F.FLT_STATUS.RUNG) 4)
    let s := (((s.countAction (12 + n) 3).lastFault (12 + n) 6 (unitSrc u) 3)).journal 6 3 (unitSrc u) (8 * ch + bg) true
    s.raise (regSrc (12 + n) 0) { mech := 6, level := 3, data := unitSrc u } 4

def execBankGroupSparing (n ch bg : Nat) (s : State) : Out :=
  run (.bankGroupSparing n ch bg) s (bankGroupSparing n ch bg s)

/-- A word of die n lies in bank group bg of channel ch. -/
def inBankGroup (n ch bg : Nat) (f : EccLoc × Nat) : Bool :=
  match f.1 with
  | .mem a => match place a with
    | .store m _ d => m == n && storeCh d == ch && storeBg d == bg
    | _ => false
  | _ => false

/-- R169: the copy to the spare ends. Every line has been read from the fenced bank group, corrected or copied with its poison
(R156); the bytes of a line are the same whichever bank group serves it (log entry 164). -/
def sparingCopyEnd (n : Nat) (s : State) : State :=
  if !s.flag F.STR_STATUS.COPY_BUSY n then s
  else
    let s := (s.flips.filter (inBankGroup n (s.fld F.STR_STATUS.COPY_CH n) (s.fld F.STR_STATUS.COPY_BG n))).foldl (fun s f =>
      match f.1 with
      | .mem a => s.meet a 1
      | _ => s) s
    s.setFld F.STR_STATUS.COPY_BUSY n 0

def execSparingCopyEnd (n : Nat) (s : State) : Out := run (.sparingCopyEnd n) s (sparingCopyEnd n s)

/-! Pages -/

/-- The device physical address of die-local page L of die n: the inverse of R151. -/
def pageBase (n l : Nat) : Nat :=
  n / 4 * 0x1800000000 + (4 * l + ((n % 4 ^^^ bits l 3 2) ^^^ (bits l 7 6 ^^^ bits l 11 10))) * 2 ^ 21

/-- The device physical address of SRAM granule gr of die n (Table 1-8). -/
def granBase (n gr : Nat) : Nat := 0x8000000000 + n * 0x8000000 + gr * 2 ^ 20

/-- A staged store touches the range. -/
def stagedHits (a n : Nat) : Staged → Bool
  | .store x d _ => decide (x < a + n ∧ a < x + d.length)
  | _ => false

/-- Committed lines still drain to the range (R164). -/
def State.drainHits (s : State) (a n : Nat) : Bool :=
  s.cores.any (fun (_, c) => c.drains.any (fun d => d.staged.any (stagedHits a n)))

/-- The pages of die n in STATE 1 or 2 that name basin b. -/
def State.pagesOf (s : State) (n b : Nat) : List Nat :=
  s.regs.filterMap (fun (k, v) =>
    let ix := k / 131072
    if k % 131072 = F.STR_PAGE_OWNERp.STATE.key 0 ∧ ix / 12288 = n ∧ (v = 1 ∨ v = 2) ∧ s.fld F.STR_PAGE_OWNERp.OWNER ix = b
    then some (ix % 12288) else none)

/-- The granules of die n in STATE 1 or 2 that name basin b. -/
def State.gransOf (s : State) (n b : Nat) : List Nat :=
  (List.range 128).filter (fun g => s.fld F.STR_SRAM_OWNERg.STATE (n * 128 + g) != 0 &&
    s.fld F.STR_SRAM_OWNERg.OWNER (n * 128 + g) == b)

/-- A key slot holds a key (R166). -/
def State.keyFull (s : State) (n b : Nat) : Bool := (SMap.get none (s.store n).keys b).isSome

/-- A page passes to the zeroing state for a basin (R163). -/
def State.pageZeroing (s : State) (n p b : Nat) : State :=
  (s.setFld F.STR_PAGE_OWNERp.STATE (n * 12288 + p) 2).setFld F.STR_PAGE_OWNERp.OWNER (n * 12288 + p) b

/-- A page becomes free with its contents as they stand, under the key of its former owner (R163); OWNER,
not meaningful while STATE is 0, is not written. -/
def State.pageRelease (s : State) (n p : Nat) : State :=
  let st := s.store n
  let k := SMap.get none st.keys (s.fld F.STR_PAGE_OWNERp.OWNER (n * 12288 + p))
  let s := s.setStore n { st with pageKey := SMap.set none st.pageKey p k }
  s.setFld F.STR_PAGE_OWNERp.STATE (n * 12288 + p) 0

/-- A granule becomes free with its contents as they stand (R163). -/
def State.granRelease (s : State) (n gr : Nat) : State :=
  s.setFld F.STR_SRAM_OWNERg.STATE (n * 128 + gr) 0

/-- A tenant basin is BUILDING, or the basin is basin 0 (R202). -/
def State.building (s : State) (b : Nat) : Bool := b == 0 || s.fld F.BSN_STATEb.STATE b == 1

/-- An assignment named by STR_PAGE_CMD is refused (Table 5-9, R166, R202). -/
def State.assignBad (s : State) (n l k b : Nat) : Bool :=
  k == 0 || decide (12288 < l + k) || !s.keyFull n b || !s.building b ||
    (s.store n).keyOp.any (fun o => o.2 == b) || (List.range k).any (fun i => !s.pageFree n (l + i))

/-- A release named by STR_PAGE_CMD is refused (Table 5-9, R202). -/
def State.releaseBad (s : State) (n l k : Nat) : Bool :=
  k == 0 || decide (12288 < l + k) || (List.range k).any (fun i =>
    s.fld F.STR_PAGE_OWNERp.STATE (n * 12288 + l + i) != 1 || !s.building (s.fld F.STR_PAGE_OWNERp.OWNER (n * 12288 + l + i)))

/-- A release goes through its k pages from page l on in ascending order; one with lines still draining to it waits, and those
after it with it (R163, R164). A page that a removal has released meanwhile is passed over. -/
def State.releaseRun : Nat → Nat → Nat → State → State
  | 0, n, _, s => (s.setStore n { s.store n with pageOp := none }).setFld F.STR_PAGE_CMD.BUSY n 0
  | k + 1, n, l, s =>
    if s.drainHits (pageBase n l) (2 ^ 21) then
      (s.setStore n { s.store n with pageOp := some (l, k + 1, none) }).setFld F.STR_PAGE_CMD.BUSY n 1
    else State.releaseRun k n (l + 1) (s.when (s.fld F.STR_PAGE_OWNERp.STATE (n * 12288 + l) == 1) fun s => s.pageRelease n l)

/-- The effect of one write of STR_PAGE_CMD (Table 5-9). -/
def pageCmd (n v : Nat) (s : State) : State :=
  let s := ((s.setFld F.STR_PAGE_CMD.LPAGE n (bits v 13 0)).setFld F.STR_PAGE_CMD.COUNT n (bits v 27 14)).setFld
    F.STR_PAGE_CMD.OWNER n (bits v 35 28)
  let s := (s.setFld F.STR_PAGE_CMD.OP n (bits v 37 36)).when (bit v 40) (fun s => s.setFld F.STR_PAGE_CMD.ERR n 0)
  if !bit v 38 || s.flag F.STR_PAGE_CMD.BUSY n then s
  else
    let l := bits v 13 0
    let k := bits v 27 14
    let b := bits v 35 28
    match bits v 37 36 with
    | 0 =>
      if s.assignBad n l k b then s.setFld F.STR_PAGE_CMD.ERR n 1
      else
        let s := s.setStore n { s.store n with pageOp := some (l, k, some b) }
        (s.setFld F.STR_PAGE_CMD.BUSY n 1).pageZeroing n l b
    | 1 =>
      if s.releaseBad n l k then s.setFld F.STR_PAGE_CMD.ERR n 1
      else s.releaseRun k n l
    | _ => s.setFld F.STR_PAGE_CMD.ERR n 1

/-- A command word with OP and GO as its row names them. -/
def pageOpWord (v op : Nat) : Nat := v % 2 ^ 36 + op * 2 ^ 36 + 2 ^ 38 + bits v 40 40 * 2 ^ 40

/-- R163: GO with OP assign. -/
def pageAssign (n : Nat) (v : Word) (s : State) : State := pageCmd n (pageOpWord v.toNat 0) s

def execPageAssign (n : Nat) (v : Word) (s : State) : Out := run (.pageAssign n v) s (s.wr .STR_PAGE_CMD n (pageAssign n v))

/-- R163: GO with OP release. -/
def pageRelease (n : Nat) (v : Word) (s : State) : State := pageCmd n (pageOpWord v.toNat 1) s

def execPageRelease (n : Nat) (v : Word) (s : State) : Out := run (.pageRelease n v) s (s.wr .STR_PAGE_CMD n (pageRelease n v))

/-- R163: the page in zeroing is all zero under the new owner's key, its owner is recorded, and the next page of the
operation takes its turn. -/
def pageZeroingEnd (n : Nat) (s : State) : State :=
  match (s.store n).pageOp with
  | some (l, k, some b) =>
    let s := (s.zero (pageBase n l) (2 ^ 21)).clearPoison (pageBase n l) (2 ^ 21)
    let s := s.setFld F.STR_PAGE_OWNERp.STATE (n * 12288 + l) 1
    let st := s.store n
    let st := { st with rawLines := st.rawLines.filter (fun x => x / 32768 != l), pageKey := SMap.erase st.pageKey l }
    if k ≤ 1 then (s.setStore n { st with pageOp := none }).setFld F.STR_PAGE_CMD.BUSY n 0
    else (s.setStore n { st with pageOp := some (l + 1, k - 1, some b) }).pageZeroing n (l + 1) b
  | _ => s

def execPageZeroingEnd (n : Nat) (s : State) : Out := run (.pageZeroingEnd n) s (pageZeroingEnd n s)

/-- R164: the drains to a page or granule whose release waits have ended; a release of several pages goes on. Pages 12,288 and
above are the SRAM granules. -/
def deferredPageRelease (n p : Nat) (s : State) : State :=
  let st := s.store n
  if p < 12288 then
    match st.pageOp with
    | some (l, k, none) => if l = p ∧ !s.drainHits (pageBase n p) (2 ^ 21) then s.releaseRun k n l else s
    | _ => s
  else if !st.relWait.contains p || s.drainHits (granBase n (p - 12288)) (2 ^ 20) then s
  else (s.setStore n { st with relWait := st.relWait.filter (· != p) }).granRelease n (p - 12288)

def execDeferredPageRelease (n p : Nat) (s : State) : Out := run (.deferredPageRelease n p) s (deferredPageRelease n p s)

/-! SRAM granules -/

/-- The effect of one write of STR_SRAM_OWNERg, by the STATE value it carries (after Table 5-10). -/
def sramOwnerWrite (n gr v : Nat) (s : State) : State :=
  let ix := n * 128 + gr
  let st := s.fld F.STR_SRAM_OWNERg.STATE ix
  match bits v 9 8 with
  | 1 =>
    if st = 0 ∧ s.building (bits v 7 0) then
      (s.setFld F.STR_SRAM_OWNERg.STATE ix 2).setFld F.STR_SRAM_OWNERg.OWNER ix (bits v 7 0)
    else s
  | 0 =>
    if st = 1 ∧ s.building (s.fld F.STR_SRAM_OWNERg.OWNER ix) then
      if s.drainHits (granBase n gr) (2 ^ 20) then
        let x := s.store n
        s.setStore n { x with relWait := x.relWait.filter (· != 12288 + gr) ++ [12288 + gr] }
      else s.granRelease n gr
    else s
  | _ => s

/-- R163: a write of STR_SRAM_OWNERg with STATE 1. -/
def sramGranuleAssign (n gr : Nat) (v : BitVec 32) (s : State) : State := sramOwnerWrite n gr (v.toNat % 256 + 256) s

def execSramGranuleAssign (n gr : Nat) (v : BitVec 32) (s : State) : Out :=
  run (.sramGranuleAssign n gr v) s (s.wr .STR_SRAM_OWNERg (128 * n + gr) (sramGranuleAssign n gr v))

/-- R163: a write of STR_SRAM_OWNERg with STATE 0. -/
def sramGranuleRelease (n gr : Nat) (v : BitVec 32) (s : State) : State := sramOwnerWrite n gr (v.toNat % 256) s

def execSramGranuleRelease (n gr : Nat) (v : BitVec 32) (s : State) : Out :=
  run (.sramGranuleRelease n gr v) s (s.wr .STR_SRAM_OWNERg (128 * n + gr) (sramGranuleRelease n gr v))

/-- R163: the zeroing of a granule ends. -/
def sramZeroingEnd (n gr : Nat) (s : State) : State :=
  if s.fld F.STR_SRAM_OWNERg.STATE (n * 128 + gr) = 2 then
    ((s.zero (granBase n gr) (2 ^ 20)).clearPoison (granBase n gr) (2 ^ 20)).setFld F.STR_SRAM_OWNERg.STATE (n * 128 + gr) 1
  else s

def execSramZeroingEnd (n gr : Nat) (s : State) : Out := run (.sramZeroingEnd n gr) s (sramZeroingEnd n gr s)

/-! Keys -/

/-- An operation of STR_KEY_CMD is refused (Table 5-11, R166). -/
def State.keyBad (s : State) (n op b : Nat) : Bool :=
  b == 0 ||
    match op with
    | 0 => s.keyFull n b
    | 1 => s.keyFull n b
    | 2 => !(s.pagesOf n b).isEmpty || (s.store n).pageOp.any (fun o => o.2.2 == some b)
    | _ => true

/-- The effect of one write of STR_KEY_CMD (Table 5-11). -/
def keyCmd (n v : Nat) (s : State) : State :=
  let s := (s.setFld F.STR_KEY_CMD.BASIN n (bits v 7 0)).setFld F.STR_KEY_CMD.OP n (bits v 9 8)
  let s := s.when (bit v 13) (fun s => s.setFld F.STR_KEY_CMD.ERR n 0)
  if !bit v 10 || s.flag F.STR_KEY_CMD.BUSY n then s
  else if s.keyBad n (bits v 9 8) (bits v 7 0) then s.setFld F.STR_KEY_CMD.ERR n 1
  else (s.setStore n { s.store n with keyOp := some (bits v 9 8, bits v 7 0) }).setFld F.STR_KEY_CMD.BUSY n 1

/-- A key command word with OP and GO as its row names them. -/
def keyOpWord (v op : Nat) : Nat := v % 256 + op * 256 + 1024 + bits v 13 13 * 8192

/-- R166: GO with OP generate. -/
def keyGenerate (n : Nat) (v : BitVec 32) (s : State) : State := keyCmd n (keyOpWord v.toNat 0) s

def execKeyGenerate (n : Nat) (v : BitVec 32) (s : State) : Out := run (.keyGenerate n v) s (s.wr .STR_KEY_CMD n (keyGenerate n v))

/-- R166: GO with OP load. -/
def keyLoad (n : Nat) (v : BitVec 32) (s : State) : State := keyCmd n (keyOpWord v.toNat 1) s

def execKeyLoad (n : Nat) (v : BitVec 32) (s : State) : Out := run (.keyLoad n v) s (s.wr .STR_KEY_CMD n (keyLoad n v))

/-- R166: GO with OP destroy. -/
def keyDestroy (n : Nat) (v : BitVec 32) (s : State) : State := keyCmd n (keyOpWord v.toNat 2) s

def execKeyDestroy (n : Nat) (v : BitVec 32) (s : State) : Out := run (.keyDestroy n v) s (s.wr .STR_KEY_CMD n (keyDestroy n v))

/-- A key drawn by the die's random source into a slot (R166). -/
def State.drawKey (s : State) (n b : Nat) : State :=
  let st := s.store n
  s.setStore n { st with keys := SMap.set none st.keys b (some (Config.randomKey n st.draws)), draws := st.draws + 1 }

/-- A key slot emptied (R166). -/
def State.dropKey (s : State) (n b : Nat) : State :=
  let st := s.store n
  s.setStore n { st with keys := SMap.set none st.keys b none }

/-- R166: the running key operation ends; STR_KEY_DATA is cleared when a load ends. -/
def keyOpEnd (n : Nat) (s : State) : State :=
  match (s.store n).keyOp with
  | none => s
  | some (op, b) =>
    let s := match op with
      | 0 => s.drawKey n b
      | 1 =>
        let st := s.store n
        s.setStore n { st with keys := SMap.set none st.keys b (some st.keyData), keyData := 0 }
      | _ => s.dropKey n b
    (s.setStore n { s.store n with keyOp := none }).setFld F.STR_KEY_CMD.BUSY n 0

def execKeyOpEnd (n : Nat) (s : State) : Out := run (.keyOpEnd n) s (keyOpEnd n s)

end Sys2Proof.Machine
end

