-- ==== Sys2Proof/Machine/Command.lean ====
section
/-! DEFINITION. The dispatch, the drain and the end of commands on a matrix core (R129 to R133, R140, R142, R143, R182
to R189, R216, R321, R322, R327, R328, R340). -/

namespace Sys2Proof.Machine

/-! Queue entries (Table 4-6) -/

/-- A queue entry read from its 64 bytes. -/
def entryOf (v q : Nat) : Cmd :=
  { tag := bits v 15 0, gen := bits v 27 16, passPoison := bit v 32, evreq := bit v 33, fmode := bit v 34
    ninstr := if bits v 59 48 = 0 then 4096 else bits v 59 48, prog := bits v 111 64, budget := bits v 147 128
    sntq := bits v 159 148, job := bits v 191 160
    args := [bits v 255 192, bits v 319 256, bits v 383 320, bits v 447 384, bits v 511 448], q := q }

/-- Address of entry i of a queue's ring (R182, R183). -/
def State.entryAddr (s : State) (q i : Nat) : Nat := s.fld F.MXC_Qq_RING.BASE q + i % s.queueSize q * 64

/-- Entries that wait in a queue. -/
def State.waitingIn (s : State) (q : Nat) : Nat := diff32 (s.queue q).tail (s.fld F.MXC_Qq_STATUS.HEAD q)

/-- The requester of a queue's own accesses: its basin, on its core's die. -/
def State.queueWho (s : State) (q tag : Nat) : Who :=
  { basin := s.queueBasin q, die := queueUnit q / 2048, src := queueUnit q, tag }

/-- The queue unit of q writes memory for the queue's basin: an address its basin may not write is an address fault, and
nothing is written (R32, R205, R208; log entry 168). -/
def State.queuePut (s : State) (q tag a : Nat) (d : List Byte) : State :=
  match s.badAddr (s.queueWho q tag) true a d.length with
  | some p => s.addrFault (s.queueWho q tag) p
  | none => s.putRam (s.queueBasin q) a d

/-- The command at the head of queue q as core g meets it: the first one waiting for re-run, else the head entry of
the ring (R186, R187); true for a re-run. -/
def State.headOf (s : State) (g q : Nat) : Option (Bool × Cmd) :=
  match (s.core g).rerun.find? fun c => c.q == q with
  | some c => some (true, c)
  | none =>
    if s.waitingIn q = 0 then none
    else some (false, entryOf (s.readNat (s.entryAddr q (s.fld F.MXC_Qq_STATUS.HEAD q)) 64) q)

/-! Stalls (Table 6-11) -/

/-- Queue 0 dispatches: from S + 16 to E − 560, while commands of the window are left (R178); a re-run is no further command
(log entry 52). -/
def State.inDispatch (s : State) (g : Nat) : Bool :=
  match (s.core g).run with
  | some r => !r.back && decide (r.w.start + 16 ≤ s.frameCyc ∧ s.frameCyc + 560 ≤ r.w.last) &&
      (decide (0 < r.left) || (s.core g).rerun.any fun c => c.q == qIx r.w.owner 0)
  | none => false

/-- Tenant dispatches are admitted against a quota (R340, R454): none outside deterministic mode and throttling. -/
def State.admitQuota (s : State) (g : Nat) : Option Nat :=
  let step := s.fld F.PWR_DIEd.STEP (g / 2)
  let radio := s.flag F.MXC_TPROG_BASE.RADIO_CORE (g / 2 * 2) || s.flag F.MXC_TPROG_BASE.RADIO_CORE (g / 2 * 2 + 1)
  if s.fld F.PWR_DET_CTRL.STATE = 2 then some (s.fld F.PWR_DET_QUOTAc.QUOTA g)
  else if radio && step != 0 then
    some ((nMin (s.fld F.GEY_CTRL.PERIOD) - (s.core g).lane) * (s.arraysIn g).length * (10 - min step 4) / 10)
  else none

/-- The head is refused by admission (R340). -/
def State.admitRefused (s : State) (g : Nat) (c : Cmd) : Bool :=
  match s.admitQuota g with
  | some n => decide (n < s.fld F.PWR_DET_QUOTAc.ADM g + c.budget * (s.arraysIn g).length)
  | none => false

/-- Why the head of queue q does not dispatch on core g (R186, Table 6-11); `other`: reasons 4 and 5 count. -/
def State.stallOf (s : State) (g q : Nat) (other : Bool := true) : Nat :=
  match s.headOf g q with
  | none => if s.flag F.MXC_Qq_STATUS.QERR q then 1 else 0
  | some (_, c) =>
    let radio := q % 8 == 0
    if s.flag F.MXC_Qq_STATUS.QERR q || s.jobHeld c.job then 1
    else if (s.core g).recs.any fun r => r.q == q && r.wait then 2
    else if (if radio then !s.inDispatch g else s.radioLane g) then 3
    else if other && !s.idle g && (s.core g).basin != s.queueBasin q then 4
    else if other && decide ((s.held4 g).length = 4) then 5
    else if decide (c.sntq ≤ s.sideCap g radio ∧ s.sideCap g radio < s.unitsHeld g radio + c.sntq) then 6
    else if !radio && s.admitRefused g c then 8
    else if !s.flag F.MXC_Qq_CTRL.EN q || !s.isOpen (s.queueBasin q) then 7
    else 0

/-- The head of queue q can be dispatched when the core is free for its basin. -/
def State.canGo (s : State) (g q : Nat) (other : Bool) : Bool :=
  (s.headOf g q).isSome && s.stallOf g q other == 0

/-! The arbiter (R188, R189) -/

/-- Minimum share of a basin on a core: the largest SHARE of its enabled queues. -/
def State.share (s : State) (g b : Nat) : Nat :=
  (List.range 7).foldl (fun m i =>
    let q := qIx g (i + 1)
    if s.flag F.MXC_Qq_CTRL.EN q && s.queueBasin q == b then max m (s.fld F.MXC_Qq_CTRL.SHARE q) else m) 0

/-- The tenant-lane cycles T of the running frame (R189): its cycles, at least N_min and no fewer than have passed, without those of
the radio lane, an extended hand-back among them (R180; log entry 166). -/
def State.tenantLane (s : State) (g : Nat) : Nat := max (nMin (s.fld F.GEY_CTRL.PERIOD)) s.frameCyc - (s.core g).lane

/-- A basin's frame usage is below its minimum share of the frame's tenant-lane cycles. -/
def State.belowShare (s : State) (g b : Nat) : Bool :=
  decide (s.usageNow g b * 1024 < s.share g b * s.tenantLane g)

/-- Queues 1 to 7 round-robin, starting after the one dispatched last (R188). -/
def State.turn (s : State) (g : Nat) : List Nat :=
  (List.range 7).map fun i => ((s.core g).lastQ + i) % 7 + 1

/-- Basin b goes before basin d when all contexts are free (R188, step 3). -/
def State.before (s : State) (g b d : Nat) : Bool :=
  match s.belowShare g b, s.belowShare g d with
  | true, false => true
  | false, true => false
  | true, true => decide (s.usageNow g b * s.share g d < s.usageNow g d * s.share g b)
  | false, false => decide (s.usageNow g b < s.usageNow g d)

/-- The tenant queue the arbiter dispatches now (R188). -/
def State.choice (s : State) (g : Nat) : Option Nat :=
  let ready := ((List.range 7).map (· + 1)).filter fun q => s.canGo g (qIx g q) false
  let basins := ready.map fun q => s.queueBasin (qIx g q)
  if s.idle g then
    match basins with
    | [] => none
    | b :: l =>
      let best := l.foldl (fun b d => if s.before g d b then d else b) b
      (s.turn g).find? fun q => s.canGo g (qIx g q) true && s.queueBasin (qIx g q) == best
  else
    let b := (s.core g).basin
    if !s.belowShare g b && basins.any fun d => d != b && s.belowShare g d then none
    else (s.turn g).find? fun q => s.canGo g (qIx g q) true && s.queueBasin (qIx g q) == b

/-! Dispatch -/

/-- Words of a program: from memory, or free values where the address names no memory of the device (log entry 5). -/
def State.progWords (s : State) (a n : Nat) : List Nat × State :=
  match place a with
  | .host _ => ((List.range n).map fun i => Config.freeValue (s.free + i) % 2 ^ 64, { s with free := s.free + n })
  | .regs _ => ((List.range n).map fun i => Config.freeValue (s.free + i) % 2 ^ 64, { s with free := s.free + n })
  | _ => ((List.range n).map fun i => s.readNat (a + 8 * i) 8, s)

/-- Cycles a queue entry has waited since the doorbell write that covered it (Table 6-7). -/
def State.qwait (s : State) (q : Nat) : Nat :=
  let h := s.fld F.MXC_Qq_STATUS.HEAD q
  match (s.queue q).bells.find? fun b => diff32 b.1 (h + 1) < 2 ^ 31 with
  | some (_, t) => s.since t
  | none => 0

/-- The core counts a new entry as dispatched: HEAD in STATUS and in the doorbell line, QWAIT (R183, R194). -/
def State.headNext (s : State) (q : Nat) : State :=
  let h := (s.fld F.MXC_Qq_STATUS.HEAD q + 1) % 2 ^ 32
  let s := s.charge (s.queueBasin q) 6 (s.qwait q)
  let s := s.setFld F.MXC_Qq_STATUS.HEAD q h
  let s := s.modQueue q fun x => { x with bells := x.bells.filter fun b => b.1 != h && diff32 b.1 h < 2 ^ 31 }
  s.queuePut q 0 (s.fld F.MXC_Qq_DBL.LINE q / 64 * 64 + 24) (bytesOf 4 h)

/-- A command ends at dispatch without running. -/
def State.endAtDispatch (s : State) (g : Nat) (c : Cmd) (b status : Nat) : State :=
  s.record g c b status 0 0 s.tickNo (s.arraysIn g).length

/-- A tag of the same queue is held in a context or waits for re-run (R132). -/
def State.tagDup (s : State) (g : Nat) (c : Cmd) : Bool :=
  ((s.held4 g).any fun (_, x) => x.cmd.q == c.q && x.cmd.tag == c.tag) ||
    ((s.core g).rerun.any fun d => d.q == c.q && d.tag == c.tag)

/-- The record and event of a repeated tag (R132, Table 4-11). -/
def State.tagDupRecord (s : State) (g : Nat) (c : Cmd) (b : Nat) : State :=
  let s := (s.incFld F.MXC_SEQ_ERR.TAGDUP_CNT g).setFld F.MXC_SEQ_ERR.TAGDUP_TAG g c.tag
  (s.setFld F.MXC_SEQ_ERR.TAGDUP_Q g (c.q % 8)).raise (queueSrc c.q) { basin := b, gen := s.gen b, data := c.tag }

/-- Registers of a context at dispatch (Table 4-1). -/
def argRegs (args : List Nat) : SMap Nat :=
  args.zipIdx.foldl (fun m (v, i) => SMap.set 0 m (i + 1) v) []

/-- The command enters the lowest free context: its basin becomes the core's, a change of basin starts the scrub, and
the first instruction may issue when the fetch has ended (R101, R107, R130, R178). -/
def State.enter (s : State) (g : Nat) (c : Cmd) (b : Nat) (words : List Nat) : State :=
  let m := s.core g
  let k := ((List.range 4).find? fun i => (s.ctx g i).isNone).getD 0
  let first := s.idle g
  let radio := c.q % 8 == 0
  let scrub := first && m.used && m.basin != b && !m.clean
  let n := (s.arraysIn g).length
  let fetch := s.gey.arr + (words.length * 8 + 511) / 512 * 625
  let nb := match m.run with
    | some r => if radio then max fetch r.issueAt else fetch
    | none => fetch
  let x : Ctx := { cmd := { c with order := if c.order = 0 then m.nextOrder else c.order }, basin := b, r := argRegs c.args
                   prog := words, notBefore := nb, t0 := s.gey.arr, seq := m.nextSeq, arrays := n }
  let s := s.modCore g fun m =>
    { m with basin := b, used := true, clean := false, nextSeq := m.nextSeq + 1, nextOrder := m.nextOrder + 1
             lastQ := if radio then m.lastQ else c.q % 8
             hold := if radio then m.hold else if first then some s.gey.arr else m.hold }
  let s := s.when scrub (fun s => (s.startScrub g).when (!radio) fun s => s.charge b 0 (512 * n))
  let s := s.when (!radio && (s.admitQuota g).isSome) (fun s =>
    s.setFld F.PWR_DET_QUOTAc.ADM g (s.fld F.PWR_DET_QUOTAc.ADM g + c.budget * n))
  s.setCtx g k (some x)

/-- A new entry or a re-run that passes the queue's checks is dispatched, or ends without running. A new queue-0 command is one of the
NCMD of its window either way (R178). -/
def State.start (s : State) (g : Nat) (again : Bool) (c : Cmd) : State :=
  let q := c.q
  let b := s.queueBasin q
  let w := s.queueWho q c.tag
  let s := s.incFld F.MXC_Qq_CNT.DISPATCHED q
  let s := s.when (q % 8 == 0 && !again) fun s => s.modCore g fun m => { m with run := m.run.map fun r => { r with left := r.left - 1 } }
  if s.jobTorn c.job then s.endAtDispatch g c b 9
  else if s.sideCap g (q % 8 == 0) < c.sntq then s.endAtDispatch g c b 5
  else if !again && c.prog % 8 ≠ 0 then s.endAtDispatch g c b 3
  else match s.badAddr w false c.prog (c.ninstr * 8) with
    | some a => (s.addrFault w a).endAtDispatch g c b 2
    | none =>
      let s := s.meet c.prog (c.ninstr * 8)
      if s.rangePoison c.prog (c.ninstr * 8) then s.endAtDispatch g c b 6
      else
        let r := s.progWords c.prog c.ninstr
        r.2.enter g c b r.1

/-- A new entry leaves the ring: stale entries and repeated tags are not run (R132, R216). -/
def State.takeEntry (s : State) (g q : Nat) : State :=
  let b := s.queueBasin q
  match s.badAddr (s.queueWho q 0) false (s.entryAddr q (s.fld F.MXC_Qq_STATUS.HEAD q)) 64 with
  | some a => (s.addrFault (s.queueWho q 0) a).queueError q 0
  | none =>
    let s := s.meet (s.entryAddr q (s.fld F.MXC_Qq_STATUS.HEAD q)) 64
    let pois := s.rangePoison (s.entryAddr q (s.fld F.MXC_Qq_STATUS.HEAD q)) 64
    let c := entryOf (s.readNat (s.entryAddr q (s.fld F.MXC_Qq_STATUS.HEAD q)) 64) q
    let s := s.headNext q
    if c.gen ≠ s.gen b then s.incFld F.BSN_STALEb.ENTRY b
    else if s.tagDup g c then s.tagDupRecord g c b
    else if pois then s.endAtDispatch g c b 6
    else s.start g false c

/-- Cycle S of a window of the running frame has come and the window has not started: no tenant is dispatched (R178, R181). -/
def State.windowDue (s : State) (g : Nat) : Option Window :=
  let m := s.core g
  if s.coreOut g || m.run.isSome || !s.flag F.GEY_CTRL.TICKING then none
  else m.wins.find? fun w => decide (w.start ≤ s.frameCyc)

/-- R129 to R132, R186 to R188: the arbiter dispatches the head of queue q, once the map-outs due at the last command boundary are
made (R97, R98). -/
def dispatch (g q : Nat) (s : State) : State :=
  let m := s.core g
  let due := if q = 0 then m.run.isSome else (s.windowDue g).isNone && s.choice g == some q
  let ix := match m.run with
    | some r => if q = 0 then qIx r.w.owner 0 else qIx g q
    | none => qIx g q
  if !s.coreRuns g || !due || !m.mapDue.isEmpty || s.stallOf g ix != 0 then s
  else match s.headOf g ix with
    | none => s
    | some (true, c) =>
      (s.modCore g fun m => { m with rerun := m.rerun.filter (· != c) }).start g true c
    | some (false, _) => s.takeEntry g ix

def execDispatch (g q : Nat) (s : State) : Out := run (.dispatch g q) s (dispatch g q s)

/-! Barrier arrivals (R327, R328) -/

/-- A barrier's number and epoch as the ADDR of its packets (log entry 40). -/
def barWord (b e : Nat) : Nat := b + e * 2 ^ 16

/-- Pod device i takes part in a barrier (Table 10-6). -/
def State.barPart (s : State) (b i : Nat) : Bool := bit (s.readNat (s.barAddr b + i / 8) 1) (i % 8)

/-- A request of the device itself (a barrier packet). -/
def State.devRequest (s : State) (basin : Nat) (p : Packet) (hash : Nat) : State :=
  (State.issueReq (s.request 24 0 0 basin { gen := s.gen basin } p hash 0 0 0)).2

/-- The release of barrier b, where every participant has arrived (R328): BREL goes to each of them, and the master's own
release is due after BUDGET. -/
def State.tryRelease (s : State) (b : Nat) : State :=
  let k := s.bar b
  let e := s.barEpoch b
  let all := (List.range 512).filter (s.barPart b)
  if k.release.isSome || k.devs.isEmpty || !all.all k.devs.contains then s
  else
    let s := s.setBar b { k with release := some (e, s.gey.arr + s.fld F.FAB_HOPC.BUDGET * 625) }
    (all.filter (· != s.pidx)).foldl (fun s i =>
      s.devRequest (s.barOwner b) { ty := 7, dst := s.sysid / 512 * 512 + i, addr := barWord b e } (b % 256)) s

/-- An arrival of a device at the master (R328). -/
def State.arriveDev (s : State) (b dev e : Nat) : State :=
  let k := s.bar b
  if !s.barEn b || s.barEpoch b ≠ e || !s.barPart b dev || k.devs.contains dev then s.incFld F.FAB_CNT.STALE
  else
    let devs := k.devs ++ [dev]
    let s := s.putRam 0 (s.barAddr b + 70) (bytesOf 2 devs.length)
    (s.setBar b { k with devs }).tryRelease b

/-- A committed fbar arrives (R327, R328); an arrival past LOCAL is ignored (log entry 49). -/
def State.arriveLocal (s : State) (b g sem : Nat) : State :=
  let n := s.barArrived b
  if s.barLocal b ≤ n then s
  else
    let s := s.putRam 0 (s.barAddr b + 80 + 3 * n) (bytesOf 3 (g + sem * 32))
    let s := s.putRam 0 (s.barAddr b + 67) (bytesOf 1 (n + 1))
    if n + 1 = s.barLocal b then
      let e := s.barEpoch b
      let s := s.setBar b { s.bar b with sent := some s.tmb.clk }
      if s.barMaster b = s.pidx then s.arriveDev b s.pidx e
      else s.devRequest (s.barOwner b) { ty := 6, dst := s.sysid / 512 * 512 + s.barMaster b, addr := barWord b e } (b % 256)
    else s

/-! Drains (R140) -/

/-- The value an atomic writes (R146, R316): add, min, max, cas. -/
def atomNew (fn : Nat) (sgn : Bool) (old op new : Nat) : Nat :=
  let lt := if sgn then decide (sext 64 op < sext 64 old) else decide (op < old)
  match fn with
  | 0 => (old + op) % 2 ^ 64
  | 1 => if lt then op else old
  | 2 => if lt then old else op
  | _ => if old = op then new else old

/-- An atomic on local memory: the old value with its poison, and the state with the new one (R316). -/
def State.atomic (s : State) (basin a fn : Nat) (sgn : Bool) (op new : Nat) (pois : Bool) : Nat × Bool × State :=
  let s := s.meet a 8
  let old := s.readNat a 8
  let p := pois || s.linePoison (a / 64)
  (old, p, s.put basin a (bytesOf 8 (atomNew fn sgn old op new)) p)

/-- The drain fails (R147), a copy of a multicast message with it (R326). -/
def State.drainFail (s : State) (g seq : Nat) (copy : Option (Nat × Nat)) : State :=
  s.modDrain g seq fun d => { d with failed := true, mcFail := d.mcFail ++ copy.toList }

/-- A request of a drain; where its target is dead it is declared unanswered at once, and the drain fails; so it does where the
core's die no longer reaches the first hop (R16). -/
def State.drainReq (s : State) (g : Nat) (d : Drain) (p : Packet) (hash ret : Nat) (copy : Option (Nat × Nat) := none) : State :=
  if p.dst ≠ s.sysid ∧ !s.fabReach g p.dst hash then s.drainFail g d.seq copy
  else
    let tag := s.fab.nextTag
    let s := s.modDrain g d.seq fun d => { d with waiting := d.waiting ++ [tag] }
    let c := match copy with
      | some (n, k) => (n + 1, k)
      | none => (0, 0)
    (State.issueReq (s.request g 4 d.seq d.basin d.cmd p hash c.2 c.1 ret)).2

/-- One copy of a message (R324, R326, R333); `copy`: its group and its place in it. -/
def State.sendCopy (s : State) (g : Nat) (d : Drain) (copy : Option (Nat × Nat)) (data : List Byte) (lines : List Bool) (ep : Nat) : State :=
  let dst := ep / 4096
  if dst ≠ s.sysid ∧ s.rtLvl dst < 3 ∧ (65536 < data.length ∨ copy.any fun c => decide (16 ≤ c.2)) then s.drainFail g d.seq copy
  else
    s.drainReq g d { ty := 5, dst, addr := ep, mlen := data.length - 1, mc := copy.isSome, payload := data, payPoison := lines }
      (hashMsg (ep % 4096) g) 0 copy

/-- An fsend waits for every earlier fabric store and atomic of its command (Table 10-4). -/
def State.fsendWaits (s : State) (d : Drain) : Bool :=
  s.fab.txns.any fun t => d.waiting.contains t.tag && (t.pkt.ty == 3 || t.pkt.ty == 4)

/-- One staged effect takes place. -/
def State.perform (s : State) (g : Nat) (d : Drain) : Staged → State
  | .store a data p => s.put d.basin a data p
  | .fstore a data p =>
    (s.rrcSend (g / 2) a data.length).drainReq g d
      { ty := 3, dst := s.sysid / 512 * 512 + faPidx a, addr := a, plen := data.length, mlen := data.length - 1
        payload := data, payPoison := [p], poison := p } (hashAddr a) 0
  | .fatom fn sgn a op new ret p =>
    if faPidx a = s.pidx then
      let (old, q, s) := s.atomic d.basin (faOfs a) fn sgn op new p
      s.put d.basin ret (bytesOf 8 old) q
    else
      (s.rrcSend (g / 2) a 8).drainReq g d
        { ty := 4, dst := s.sysid / 512 * 512 + faPidx a, addr := a, plen := 17, mlen := 7, poison := p
          payload := bytesOf 8 op ++ bytesOf 8 new ++ bytesOf 1 (fn + b2n sgn * 4) } (hashAddr a) ret
  | .fsend dev q data p =>
    if dev < 8192 then s.sendCopy g d none data p (dev * 4096 + q)
    else (s.members (dev % 64)).foldl (fun s e => s.sendCopy g d (some (dev % 64, e.1)) data p e.2) s
  | .fbar b sem => s.arriveLocal b g sem
  | .signal _ _ _ => s

/-- The effects of a drain in staging order, as far as they can go: signals stay until its end (R140). -/
def State.pump : Nat → Nat → Nat → State → State
  | 0, _, _, s => s
  | f + 1, g, seq, s =>
    match (s.core g).drains.find? fun d => d.seq == seq with
    | none => s
    | some d =>
      match d.staged.findIdx? fun t => match t with
        | .signal _ _ _ => false
        | _ => true with
      | none => s
      | some i =>
        match d.staged[i]? with
        | none => s
        | some t =>
          let waits := match t with
            | .fsend _ _ _ _ => s.fsendWaits d
            | _ => false
          if waits then s
          else
            let s := s.modDrain g seq fun d => { d with staged := d.staged.eraseIdx i }
            State.pump f g seq (s.perform g d t)

/-- One event record for each group with failed endpoints (R326): the command's tag, the group, and in XDATA a 1 for each failed
entry of the group (log entry 179). -/
def State.mcRecords (s : State) (g : Nat) (d : Drain) : State :=
  (d.mcFail.map (·.1)).eraseDups.foldl (fun s n =>
    s.report srcDead
      { basin := d.basin, gen := s.gen d.basin, level := 3, data := d.cmd.tag, ext := true, xdata1 := n
        xdata := natOfBits ((List.range 64).map fun k => d.mcFail.contains (n, k)) }
      (unitSrc (coreUnit g)) 1) s

/-- Every local write is in memory and every fabric operation is acknowledged: the signals apply, the completion record
waits to be written, and the quota is released (R140, R147). -/
def State.drainFinish (s : State) (g seq : Nat) : State :=
  match (s.core g).drains.find? fun d => d.seq == seq with
  | none => s
  | some d =>
    if d.staged.any (fun t => match t with
        | .signal _ _ _ => false
        | _ => true) || !d.waiting.isEmpty then s
    else
      let s := d.staged.foldl (fun s t => match t with
        | .signal k sem cnt => s.semAdd k sem cnt (d.cmd.q % 8)
        | _ => s) s
      let s := s.modCore g fun m => { m with drains := m.drains.filter fun e => e.seq != seq }
      let s := s.mcRecords g d
      s.record g d.cmd d.basin (if d.failed then 10 else 0) d.user d.cycles d.tick d.arrays d.ivl

/-- The drains of a core go on in commit order; a drain that still has lines to send holds those after it (R140). -/
def State.drainAll (s : State) (g : Nat) : State :=
  (s.core g).drains.foldl (fun s d =>
    let held := ((s.core g).drains.takeWhile fun e => e.seq != d.seq).any fun e => e.staged.any fun t => match t with
      | .signal _ _ _ => false
      | _ => true
    if held then s else (State.pump (d.staged.length + 1) g d.seq s).drainFinish g d.seq) s

/-- R140: the drains of core g end. -/
def drainEnd (g : Nat) (s : State) : State :=
  if s.routerDown (g / 2) then s
  else State.drainAll ((s.core g).drains.foldl (fun s d =>
    let r := s.meetSinter g d.seq d.staged
    r.2.modDrain g d.seq fun d => { d with staged := r.1 }) s) g

/-! Completion records (R133, R185, R194, R216) -/

/-- The rung a command's or task's end recommends (Table 13-2): 1 for POISON, OVERRUN, TEARDOWN and FABRIC. A radio command
that ended with POISON has recommended rung 2 when it was killed (log entry 90). -/
def Rec.rung (r : Rec) : Nat :=
  if r.status = 6 ∧ r.q % 8 = 0 then 0 else if [6, 7, 9, 10].contains r.status then 1 else 0

/-- R185, R194, R216: a waiting record is written, dropped as stale, or waits on while the ring is full; `drop` takes it
from where it waits and `hold` notes that it waits. Where EVREQ is 1, or where the end recommends rung 1 (R392), an
event record names the tag. -/
def State.writeRec (s : State) (r : Rec) (drop hold : State → State) : State :=
  if r.gen ≠ s.gen r.basin then (drop s).incFld F.BSN_STALEb.COMPL r.basin
  else if s.cqFull r.q then hold s
  else
    let s := drop { s with lock := { s.lock with cause := r.ivl } }
    let n := (s.queue r.q).cqTail
    let a := s.fld F.MXC_Qq_CRING.BASE r.q + n % s.queueSize r.q * 16
    let s := (s.queuePut r.q r.tag a r.data).sign a r.data
    let s := s.modQueue r.q fun x => { x with cqTail := (n + 1) % 2 ^ 32 }
    let s := s.queuePut r.q r.tag (s.fld F.MXC_Qq_DBL.LINE r.q / 64 * 64 + 16) (bytesOf 4 (n + 1))
    let s := s.when (r.basin != 0 || r.q % 8 != 0) (fun s => s.charge r.basin 0 (r.cycles * r.arrays))
    let s := s.when (r.evreq || r.rung != 0) fun s =>
      s.report (queueSrc r.q) { basin := r.basin, gen := r.gen, data := r.tag } (queueUnit r.q) r.rung
    { s with lock := { s.lock with cause := none } }

/-- A record that waits from now on. -/
def holdRec (r : Rec) (l : List Rec) : List Rec := l.map fun e => if e = r then { e with wait := true } else e

/-- R133, R185, R239: the oldest completion record of queue q of matrix core g, or of cluster g − 24. -/
def completionRecordWrite (g q : Nat) (s : State) : State :=
  if g < 24 then
    match (s.core g).recs.find? fun r => r.q % 8 == q with
    | none => s
    | some r =>
      if s.routerDown (g / 2) then s
      else s.writeRec r (fun s => s.modCore g fun m => { m with recs := m.recs.erase r })
        (fun s => s.modCore g fun m => { m with recs := holdRec r m.recs })
  else
    match (s.cluster (g - 24)).recs.find? fun r => r.q % 8 == q with
    | none => s
    | some r =>
      if s.routerDown (24 + (g - 24) / 4) then s
      else s.writeRec r (fun s => s.modCluster (g - 24) fun m => { m with recs := m.recs.erase r })
        (fun s => s.modCluster (g - 24) fun m => { m with recs := holdRec r m.recs })

def execCompletionRecordWrite (g q : Nat) (s : State) : Out :=
  run (.completionRecordWrite g q) s (completionRecordWrite g q s)

/-! The rest of this family -/

/-- R131: a command has run for more cycles than its BUDGET. -/
def budgetExceeded (g c : Nat) (s : State) : State :=
  match s.ctx g c with
  | none => s
  | some x => if x.cmd.budget < s.since x.t0 then s.killEnd g c 4 else s

def execBudgetExceeded (g c : Nat) (s : State) : Out := run (.budgetExceeded g c) s (budgetExceeded g c s)

/-- R142: a write of SNT_CTRL. -/
def radioRsvWrite (g : Nat) (v : BitVec 32) (s : State) : State :=
  let n := clamp 64 768 (bits v.toNat 9 0)
  (s.setFld F.SNT_CTRL.RADIO_RSV g n).modCore g fun m => { m with rsvPend := some n }

def execRadioRsvWrite (g : Nat) (v : BitVec 32) (s : State) : Out := run (.radioRsvWrite g v) s (s.wr .SNT_CTRL g (radioRsvWrite g v))

/-- R142: the new split takes effect where it leaves every held quota inside its side. -/
def radioRsvApply (g : Nat) (s : State) : State :=
  match (s.core g).rsvPend with
  | some n =>
    if s.unitsHeld g true ≤ n ∧ s.unitsHeld g false ≤ 1024 - n ∧ s.frameCyc = 0 ∧ s.flag F.GEY_CTRL.TICKING then
      s.modCore g fun m => { m with rsvNow := n, rsvPend := none }
    else s
  | none => s

def execRadioRsvApply (g : Nat) (s : State) : Out := run (.radioRsvApply g) s (radioRsvApply g s)

/-- R143: a write of MXC_SEM_SIGNAL is a signal in the cycle it arrives. -/
def semSignalWrite (g : Nat) (v : BitVec 32) (s : State) : State :=
  if bits v.toNat 19 12 = 0 then s else s.semAdd g (bits v.toNat 11 0) (bits v.toNat 19 12) 0

def execSemSignalWrite (g : Nat) (v : BitVec 32) (s : State) : Out := run (.semSignalWrite g v) s (s.wr .MXC_SEM_SIGNAL g (semSignalWrite g v))

/-- R143, R202, Table 4-13: a write of MXC_SEMn: a refused new owner leaves the whole write without effect; else OVF is cleared
by a 1, and an accepted owner, the present one too (log entry 169), clears VAL and OVF. -/
def semOwnerWrite (g n : Nat) (v : BitVec 32) (s : State) : State :=
  let ix := g * 4096 + n
  let new := bits v.toNat 23 16
  let old := s.fld F.MXC_SEMn.OWNER ix
  let refused := s.fld F.MXC_SEMn.RSV ix != 0 || !s.building old || !s.building new
  if decide (256 ≤ n) && new != old && refused then s
  else
    let s := s.when (bit v.toNat 24) (fun s => s.setFld F.MXC_SEMn.OVF ix 0)
    if decide (n < 256) || refused then s
    else ((s.setFld F.MXC_SEMn.OWNER ix new).setFld F.MXC_SEMn.VAL ix 0).setFld F.MXC_SEMn.OVF ix 0

def execSemOwnerWrite (g n : Nat) (v : BitVec 32) (s : State) : Out := run (.semOwnerWrite g n v) s (s.wr .MXC_SEMn (4096 * g + n) (semOwnerWrite g n v))

end Sys2Proof.Machine
end

