-- ==== Sys2Proof/Machine/Sched.lean ====
section
/-! DEFINITION. Tick programs and reservation windows of the matrix cores (R173 to R181, R390), and the accounting
commands (R194, R195). -/

namespace Sys2Proof.Machine

/-! Tick programs (Table 6-1) -/

/-- The tick period of the frame that starts at the next tick (R52, R175). -/
def State.nextPeriod (s : State) : Nat :=
  match s.gey.chgAt, s.gey.next with
  | some c, some t => if c ≤ t then s.fld F.GEY_CTRL.PERIOD_NEXT else s.fld F.GEY_CTRL.PERIOD
  | _, _ => s.fld F.GEY_CTRL.PERIOD

/-- Window w of a slot. -/
def slotWindow (v g w : Nat) : Window :=
  { start := bits v (147 + 64 * w) (128 + 64 * w), last := bits v (167 + 64 * w) (148 + 64 * w)
    ncmd := bits v (179 + 64 * w) (168 + 64 * w), owner := g }

/-- The windows a slot names. -/
def slotWindows (v g : Nat) : List Window := (List.range (bits v 82 80)).map (slotWindow v g)

/-- Every reserved field of a slot is 0; those of windows at or above NWIN are ignored (log entry 88). -/
def slotReserved (v : Nat) : Bool :=
  bits v 127 84 == 0 && bits v 511 464 == 0 &&
    (List.range (min (bits v 82 80) 5)).all fun w => bits v (191 + 64 * w) (180 + 64 * w) == 0

/-- Windows in order, inside the frame, and long enough (R176). -/
def windowsOk (n : Nat) : List Window → Bool
  | [] => true
  | w :: l =>
    decide (w.start + 2143 ≤ w.last ∧ w.last + 1 ≤ n ∧ 1 ≤ w.ncmd) &&
      (match l with
        | [] => true
        | x :: _ => decide (w.last < x.start)) && windowsOk n l

/-- What R176 makes of a slot: none missing, else whether it is good. -/
def slotOk (v t n g : Nat) : Option Bool :=
  if !bit v 83 || bits v 63 0 ≠ t then none
  else some (bits v 79 64 == bits v 463 448 && slotReserved v && decide (bits v 82 80 ≤ 5) &&
    windowsOk n (slotWindows v g))

/-- The core whose table is read beside the core's own: the fenced one of the same die (R390). -/
def State.tables (s : State) (g : Nat) : List Nat :=
  let p := g + 1 - 2 * (g % 2)
  g :: (if s.fencedUnit (coreUnit p) then [p] else [])

/-- Address of core h's slot for tick t (R175). -/
def State.slotAddr (s : State) (h t : Nat) : Nat := s.fld F.MXC_TPROG_BASE.BASE h * 65536 + t % 1024 * 64

/-- What core h's slot for tick t holds, and what R176 makes of it. A slot in memory that is not SRAM of the core's own die
owned by basin 0, or that is poisoned, is bad (log entry 51). -/
def State.slotAt (s : State) (h t : Nat) : Nat × Option Bool :=
  let a := s.slotAddr h t
  let there := match place a with
    | .sram n o => n == h / 2 && s.fld F.STR_SRAM_OWNERg.STATE (n * 128 + o / 2 ^ 20) == 1 &&
        s.fld F.STR_SRAM_OWNERg.OWNER (n * 128 + o / 2 ^ 20) == 0
    | _ => false
  let v := s.readNat a 64
  (v, if there && !s.linePoison (a / 64) then slotOk v t (nMin s.nextPeriod) h else some false)

/-- Core h has windows in the frame of tick t, as its table stands now (R405). -/
def State.windowsIn (s : State) (h t : Nat) : Bool :=
  let r := s.slotAt h t
  s.flag F.MXC_TPROG_BASE.EN h && r.2 == some true && bits r.1 82 80 != 0

/-- A core's slot for the next frame is read and checked (R175, R176). -/
def State.readSlot (s : State) (h : Nat) : List Window × State :=
  let t := s.tickNo + 1
  if !s.flag F.MXC_TPROG_BASE.EN h then ([], s)
  else
    let s := s.meet (s.slotAddr h t) 64
    let r := s.slotAt h t
    let report := fun (s : State) => s.when (s.flag F.MXC_TPROG_BASE.RADIO_CORE h) fun s =>
      (s.workCells s.radioDies 0).raise (coreSrc h 0) { mech := 13, level := 1, data := t % 2 ^ 16, ext := true, xdata := t }
    match r.2 with
    | none => ([], report (s.incFld F.MXC_TPROG_STATUS.MISS h))
    | some false => ([], report (s.incFld F.MXC_TPROG_STATUS.BAD h))
    | some true => (slotWindows r.1 h, s.setFld F.MXC_TPROG_LAST.TICK h t)

/-- R175: core g reads the slot of the next frame, once in a frame, from cycle N_min − 8,192 on. -/
def tickProgramRead (g : Nat) (s : State) : State :=
  if s.coreOut g || (s.core g).read || !s.flag F.GEY_CTRL.TICKING ||
      decide (s.frameCyc + 8192 < nMin (s.fld F.GEY_CTRL.PERIOD)) then s
  else
    let r := (s.tables g).foldl (fun (l, s) h => let r := State.readSlot s h; (l ++ r.1, r.2)) ([], s)
    r.2.modCore g fun m => { m with read := true, next := r.1 }

def execTickProgramRead (g : Nat) (s : State) : Out := run (.tickProgramRead g) s (tickProgramRead g s)

/-! Windows (R178 to R181) -/

/-- Tenant commands of a core, by context. -/
def State.tenants (s : State) (g : Nat) : List Nat := (s.held4 g).filterMap fun (c, x) => if x.cmd.q % 8 = 0 then none else some c

/-- The core issued a tenant pass in the 1,024 cycles before array time t (Table 6-2, D): the last one that a killed or ended command
issued, or one still in flight. -/
def State.tenantPass (s : State) (g t : Nat) : Bool :=
  let m := s.core g
  let near := fun (x : Nat) => decide (x < t ∧ t ≤ x + 1024 * 625)
  let own := (s.held4 g).filterMap fun (_, x) => if x.cmd.q % 8 = 0 then none else some x.seq
  (m.passT != 0 && near m.passT) || m.passes.any fun (_, l) => l.any fun p => own.contains p.seq && near p.t

/-- The tenant command whose commit point falls on cycle S: the first dispatched of those that may commit (R138, Table 6-5). -/
def State.commitAtStart (s : State) (g : Nat) : Option Nat :=
  (s.tenants g).find? fun c => s.canCommit g c && (s.held4 g).all fun (k, y) =>
    k == c || !s.canCommit g k || (s.ctx g c).all fun x => decide (x.seq < y.seq)

/-- A window starts (R178, Tables 6-2 and 6-5): a tenant command at its commit point commits, the others are killed, a running scrub
is abandoned, waiting map-outs take effect, and the first instruction of the radio work is placed. -/
def State.openWindow (s : State) (g : Nat) (w : Window) : State :=
  let t := s.gey.frame0 + w.start * 625
  let d := if s.tenantPass g t then 1024 else 0
  let s := match s.commitAtStart g with
    | some c => commitPoint g c s
    | none => s
  let m := s.core g
  let ks := s.tenants g
  let x := if m.used ∧ !m.clean ∧ m.basin ≠ 0 then 512 else 0
  let s := ks.foldl (fun s c => s.killRerun g c) s
  let s := s.when (!ks.isEmpty) fun s => s.incFld F.MXC_CORE_KILLS.WIN_KILL g ks.length
  let s := (s.boundary g).wakeUnits fun i => decide (i / 4 = g)
  s.modCore g fun m =>
    { m with scrub := false, wins := m.wins.filter (· != w)
             run := some { w, left := w.ncmd, issueAt := t + (48 + d + x) * 625 } }

/-- R178: cycle S of a window has come. -/
def windowStart (g : Nat) (s : State) : State :=
  match s.windowDue g with
  | some w => s.openWindow g w
  | none => s

def execWindowStart (g : Nat) (s : State) : Out := run (.windowStart g) s (windowStart g s)

/-- Queue-0 commands of a window that have not been dispatched (R178; log entry 52). -/
def State.q0Late (s : State) (g : Nat) (r : WinRun) : Nat :=
  let q := qIx r.w.owner 0
  min r.left (s.waitingIn q) + ((s.core g).rerun.filter fun c => c.q == q).length

/-- R178, R180: cycle E − 559 of the window has come: the hand-back starts, or is delayed while a queue-0 command is
held. Basin 0 is charged for the cycles of the window. -/
def handBack (g : Nat) (s : State) : State :=
  match (s.core g).run with
  | none => s
  | some r =>
    if r.back || s.frameCyc + 559 < r.w.last then s
    else if !s.idle g then
      if r.late then s
      else
        let s := (s.incFld F.MXC_TPROG_STATUS.WIN_OVR g).raise (coreSrc g 0)
          { mech := 13, level := 1, data := s.tickNo % 2 ^ 16, ext := true, xdata := s.tickNo }
        s.modCore g fun m => { m with run := some { r with late := true } }
    else
      let n := (if r.late then s.frameCyc + 560 else r.w.last + 1) - r.w.start
      let k := s.q0Late g r
      let s := s.when (k != 0) fun s => s.incFld F.MXC_TPROG_STATUS.Q0_LATE g k
      let s := s.charge 0 0 (n * (s.arraysIn g).length)
      (s.modCore g fun m => { m with run := some { r with back := true }
                                     lane := m.lane + (n - (r.w.last + 1 - r.w.start)) }).startScrub g

def execHandBack (g : Nat) (s : State) : Out := run (.handBack g) s (handBack g s)

/-! Doorbells and accounting -/

/-- R183: a write to TAIL, or to CQ_HEAD, of a queue's doorbell line. -/
def doorbellWrite (q : Nat) (cq : Bool) (v : BitVec 32) (s : State) : State :=
  let a := s.fld F.MXC_Qq_DBL.LINE q / 64 * 64
  match place a with
  | .sram _ _ => s.put (s.queueBasin q) (a + if cq then 8 else 0) (bytesOf 4 v.toNat)
  | _ => s

def execDoorbellWrite (q : Nat) (cq : Bool) (v : BitVec 32) (s : State) : Out :=
  run (.doorbellWrite q cq v) s (doorbellWrite q cq v s)

/-- The effect of one write of PKG_ACCT_SNAP (R195): GO starts a snapshot, which the next reference period takes (State.snapCopy);
a GO while BUSY is 1 is ignored. -/
def acctSnap (v : Nat) (s : State) : State :=
  let s := s.setFld F.PKG_ACCT_SNAP.BASIN 0 (bits v 7 0)
  if !bit v 8 || s.flag F.PKG_ACCT_SNAP.BUSY then s
  else { s.setFld F.PKG_ACCT_SNAP.BUSY 0 1 with snap := some (bits v 7 0) }

/-- R195: GO written 1. -/
def acctSnapshot (v : BitVec 32) (s : State) : State := acctSnap (putBit v.toNat 8 true) s

def execAcctSnapshot (v : BitVec 32) (s : State) : Out := run (.acctSnapshot v) s (acctSnapshot v s)

/-- R194: a whole second has been reached by counting: each basin's pages in STATE 1 count 2 MiB each. -/
def storeBsAccrual (s : State) : State :=
  if s.tmb.secs = 0 then s
  else
    let owned := s.regs.filterMap fun (k, v) =>
      if k % 131072 = F.STR_PAGE_OWNERp.STATE.key 0 ∧ v = 1 then some (s.fld F.STR_PAGE_OWNERp.OWNER (k / 131072)) else none
    let s := owned.foldl (fun s b => s.charge b 4 (2 ^ 21)) s
    { s with tmb := { s.tmb with secs := s.tmb.secs - 1 } }

def execStoreBsAccrual (s : State) : Out := run .storeBsAccrual s (storeBsAccrual s)

end Sys2Proof.Machine
end

