-- ==== Sys2Proof/Machine/Crc.lean ====
section
/-! DEFINITION. The CRC units of the radio dies (R253 to R257): remainders, frames, and the jobs and transfers they watch. Unit u
of RDn has index 16n + u. -/

namespace Sys2Proof.Machine

/-! Bits -/

/-- Bits packed most significant bit first, zero padded to whole bytes (R248). -/
def packBits (l : List Bool) : List Byte :=
  (List.range ((l.length + 7) / 8)).map fun i =>
    BitVec.ofNat 8 (natOfBits ((List.range 8).map fun j => l.getD (8 * i + 7 - j) false))

/-- The first `n` bits of packed bytes. -/
def unpackBits (d : List Byte) (n : Nat) : List Bool :=
  (List.range n).map fun i => bit (d.getD (i / 8) 0).toNat (7 - i % 8)

/-! CRC units -/

/-- Width and polynomial of POLY (Table 8-12); the polynomial of CRC-32 is reflected. -/
def crcPoly (p : Nat) : Nat × Nat :=
  match p % 8 with
  | 0 => (24, 0x864CFB)
  | 1 => (24, 0x800063)
  | 2 => (24, 0xB2B117)
  | 3 => (16, 0x1021)
  | 4 => (11, 0x621)
  | 5 => (6, 0x21)
  | 6 => (32, 0xEDB88320)
  | _ => (8, 0x2F)

/-- The remainder after one more bit of the stream: most significant bit first, or reflected for CRC-32. -/
def crcuBit (p r : Nat) (b : Bool) : Nat :=
  let (w, g) := crcPoly p
  if p % 8 = 6 then (if (r % 2 == 1) != b then (r / 2) ^^^ g else r / 2)
  else
    let t := r * 2 % 2 ^ w
    if bit r (w - 1) != b then t ^^^ g else t

/-- The remainder over a stream of bits from a start value. -/
def crcuOver (p r : Nat) (l : List Bool) : Nat := l.foldl (crcuBit p) r

/-- A remainder as bits in the polynomial's bit order. -/
def crcBits (p v : Nat) : List Bool :=
  let w := (crcPoly p).1
  (List.range w).map fun i => bit v (if p % 8 = 6 then i else w - 1 - i)

/-- The bits of bytes in the polynomial's bit order. -/
def crcStream (p : Nat) (d : List Byte) : List Bool :=
  d.flatMap fun b => (List.range 8).map fun i => bit b.toNat (if p % 8 = 6 then i else 7 - i)

/-- INIT and XOROUT masked to the width (R253). -/
def State.crcInit (s : State) (u : Nat) : Nat := s.fld F.CRC_Uu_INIT.INIT u % 2 ^ (crcPoly (s.fld F.CRC_Uu_CTRL.POLY u)).1
def State.crcXor (s : State) (u : Nat) : Nat := s.fld F.CRC_Uu_INIT.XOROUT u % 2 ^ (crcPoly (s.fld F.CRC_Uu_CTRL.POLY u)).1

/-- One frame of unit u (R255, R257): RUN covers the frame's bits, and RESULT says how it ended. -/
def State.crcFrame (s : State) (u : Nat) (l : List Bool) (pois complete : Bool) : State :=
  let p := s.fld F.CRC_Uu_CTRL.POLY u
  let w := (crcPoly p).1
  let r0 := if s.flag F.CRC_Uu_CTRL.CONT u then s.fld F.CRC_Uu_RUN.VALUE u % 2 ^ w else s.crcInit u
  let body := l.take (l.length - w)
  let pass := decide (w ≤ l.length) && crcBits p (crcuOver p r0 body ^^^ s.crcXor u) == l.drop (l.length - w)
  let res := if pois || !complete then 3 else if s.fld F.CRC_Uu_CTRL.MODE u = 1 then (if pass then 1 else 2) else 1
  ((s.setFld F.CRC_Uu_RUN.VALUE u (crcuOver p r0 l)).setFld F.CRC_Uu_RUN.BITS u l.length).setFld F.CRC_Uu_CTRL.RESULT u res

/-- Unit u is armed for a job of a tap and tag, and serves no other (R254, R368). -/
def State.crcReady (s : State) (n u tap tag : Nat) : Bool :=
  s.flag F.CRC_Uu_CTRL.ARM (16 * n + u) && s.fld F.CRC_Uu_CTRL.TAP (16 * n + u) == tap &&
    s.fld F.CRC_Uu_CTRL.TAG (16 * n + u) == tag && s.fld F.CRC_Uu_CTRL.MODE (16 * n + u) != 3 &&
    !s.flag F.CRC_Uu_CTRL.BUSY (16 * n + u) && !(u == 15 && bit (s.rdFault n).sctl 0)

/-- The value a frame of unit u starts from: RUN with CONT, else INIT (R255). -/
def State.crcFrom (s : State) (u : Nat) : Nat :=
  if s.flag F.CRC_Uu_CTRL.CONT u then s.fld F.CRC_Uu_RUN.VALUE u % 2 ^ (crcPoly (s.fld F.CRC_Uu_CTRL.POLY u)).1 else s.crcInit u

/-- The code blocks of a job begin to pass unit u, as one frame or as one each (R254). -/
def State.crcStart (s : State) (u : Nat) (blocks : List (List Bool × Bool)) : State :=
  let frames := if s.flag F.CRC_Uu_CTRL.BLOCK u then blocks else [(blocks.flatMap (·.1), blocks.any (·.2))]
  (s.setFld F.CRC_Uu_CTRL.BUSY u (b2n (!frames.isEmpty))).setCrcU u { s.crcU u with frames, good := true, stopped := false }

/-- The running frame of unit u has passed whole. -/
def State.crcNext (s : State) (u : Nat) : State :=
  match (s.crcU u).frames with
  | [] => s
  | f :: l =>
    let s := (s.crcFrame u f.1 f.2 true).setFld F.CRC_Uu_CTRL.BUSY u (b2n (!l.isEmpty))
    s.setCrcU u { s.crcU u with frames := l, good := (s.crcU u).good && s.fld F.CRC_Uu_CTRL.RESULT u == 1 }

/-- The job of unit u has ended, every frame with it; the CRC field of its record (Table 8-11). -/
def State.crcEnd (s : State) (u : Nat) : State × Nat :=
  let s := (s.crcU u).frames.foldl (fun s _ => s.crcNext u) s
  (s, if (s.crcU u).good then 1 else 2)

/-- RUN while a frame is in progress: a pair that covers exactly BITS bits of it (R256); how many is open. -/
def State.crcRun (s : State) (u : Nat) : Nat :=
  let l := ((s.crcU u).frames.headD ([], false)).1
  let k := Config.crcPassed u s.tmb.clk % (l.length + 1)
  crcuOver (s.fld F.CRC_Uu_CTRL.POLY u) (s.crcFrom u) (l.take k) + k * 2 ^ 32

/-- The units armed on a DMA channel of physical core d (R254, TAP 20). -/
def State.dmaUnits (s : State) (d ch : Nat) : List Nat :=
  ((List.range 16).map (16 * (d / 64) + ·)).filter fun u =>
    s.flag F.CRC_Uu_CTRL.ARM u && s.fld F.CRC_Uu_CTRL.TAP u == 20 && s.fld F.CRC_Uu_CTRL.CORE u == d % 64 &&
      s.fld F.CRC_Uu_CTRL.CH u == ch && s.fld F.CRC_Uu_CTRL.MODE u != 3

/-- A transfer of a channel starts: a frame of each unit armed on it that serves no other begins. -/
def State.dmaCrcStart (s : State) (d ch : Nat) : State :=
  ((s.dmaUnits d ch).filter fun u => !s.flag F.CRC_Uu_CTRL.BUSY u).foldl (fun s u => s.crcStart u [] |>.setFld F.CRC_Uu_CTRL.BUSY u 1) s

/-- The transfer has ended with these bytes, in the order of their addresses (log entry 172). -/
def State.dmaCrcEnd (s : State) (d ch : Nat) (data : List Byte) : State :=
  ((s.dmaUnits d ch).filter fun u => s.flag F.CRC_Uu_CTRL.BUSY u && !(s.crcU u).stopped).foldl (fun s u =>
    let s := (s.crcFrame u (crcStream (s.fld F.CRC_Uu_CTRL.POLY u) data) false true).setFld F.CRC_Uu_CTRL.BUSY u 0
    s.setCrcU u { s.crcU u with frames := [] }) s

/-- The transfer has stopped inside its frame (R257). -/
def State.dmaCrcStop (s : State) (d ch : Nat) : State :=
  ((s.dmaUnits d ch).filter fun u => s.flag F.CRC_Uu_CTRL.BUSY u).foldl (fun s u => s.setCrcU u { s.crcU u with stopped := true }) s

end Sys2Proof.Machine
end

