-- ==== Sys2Proof/Machine/DspCore.lean ====
section
/-! DEFINITION. An ETV-D core (R222 to R238): its memories, registers, arithmetic and addressing, the end of its tasks,
and the one way an instruction row issues. -/

namespace Sys2Proof.Machine

/-! Places -/

/-- Address of word w of X (0), Y (1), or of program memory (2) of physical core d (R226, R31). -/
def dspBase (d : Nat) : Nat := 0x8200000000 + d / 64 * 0x2000000 + d % 64 * 0x80000
def dspWord (d y w : Nat) : Nat := dspBase d + y * 0x20000 + w % 4096 * 32

/-- The unit of physical core d (Table 12-6). -/
def dspUnit (d : Nat) : FUnit := .tile (24 + d / 64) (d % 64 / 16) (d % 16)

/-- Physical core d is a spare (R223). -/
def isSpare (d : Nat) : Bool := d % 32 == 31

/-- The cluster a queue belongs to (R239). -/
def clusterOf (q : Nat) : Nat := (q - 192) / 8

/-- DSP cycles between two reference periods (R222). -/
def dspCycles (t0 t1 : Nat) : Nat := (t1 - t0) * 896 / 100

/-- The requester of a task's accesses (R240). -/
def State.taskWho (s : State) (d : Nat) (t : DTask) : Who :=
  { basin := (s.dsp d).basin, die := 24 + d / 64, src := unitSrc (dspUnit d), tag := t.tag }

/-! Registers (Table 8-2) -/

/-- Signed part p (0 real, 1 imaginary) of lane l of x register r, and of acc register r. -/
def RBank.xp (b : RBank) (r l p : Nat) : Int := sext 24 (SMap.get 0 b.x (8 * r + 2 * l + p))
def RBank.ap (b : RBank) (r l p : Nat) : Int := sext 56 (SMap.get 0 b.acc (8 * r + 2 * l + p))

/-- Saturation (R227). -/
def sat24 (v : Int) : Int := clampInt (-(2 ^ 23 : Nat)) ((2 ^ 23 : Nat) - 1) v
def sat56 (v : Int) : Int := clampInt (-(2 ^ 55 : Nat)) ((2 ^ 55 : Nat) - 1) v

/-- Write every part of x register r; saturation sets XSAT. -/
def RBank.putX (b : RBank) (r : Nat) (f : Nat → Nat → Int) : RBank :=
  (List.range 8).foldl (fun (c : RBank) k =>
    let v := f (k / 2) (k % 2)
    let u := sat24 v
    { c with x := SMap.set 0 c.x (8 * r + k) (wrap 24 u), xsat := c.xsat || u != v }) b

/-- Write every part of acc register r; saturation sets ASAT. -/
def RBank.putA (b : RBank) (r : Nat) (f : Nat → Nat → Int) : RBank :=
  (List.range 8).foldl (fun (c : RBank) k =>
    let v := f (k / 2) (k % 2)
    let u := sat56 v
    { c with acc := SMap.set 0 c.acc (8 * r + k) (wrap 56 u), asat := c.asat || u != v }) b

def RBank.ir (b : RBank) (j : Nat) : Nat := SMap.get 0 b.i j
def RBank.setI (b : RBank) (j v : Nat) : RBank := { b with i := SMap.set 0 b.i j (v % 4096) }

/-- The bank in use. -/
def DCore.cur (c : DCore) : RBank := if c.inShadow then c.shadow else c.main
def DCore.setCur (c : DCore) (b : RBank) : DCore := if c.inShadow then { c with shadow := b } else { c with main := b }

/-- FLAGS of a bank, and a bank with FLAGS replaced. -/
def RBank.flags (b : RBank) : Bool × Bool × Bool × Bool × Bool := (b.z, b.n, b.xsat, b.asat, b.dom)
def RBank.setFlags (b : RBank) (f : Bool × Bool × Bool × Bool × Bool) : RBank :=
  { b with z := f.1, n := f.2.1, xsat := f.2.2.1, asat := f.2.2.2.1, dom := f.2.2.2.2 }

/-! Addressing (R229) -/

/-- ceil(log2 n), 0 for n of 1. -/
def ceilLog2 (n : Nat) : Nat := if n ≤ 1 then 0 else Nat.log2 (n - 1) + 1

/-- The update of an index register by modifier m in mode am. -/
def agu (i m am : Nat) : Nat :=
  let st : Int := match am with
    | 1 => sext 16 m
    | 2 => 1
    | 3 => -(sext 16 m)
    | _ => 0
  let len := bits m 28 16
  if len = 0 then wrap 12 ((i : Int) + st)
  else
    let k := ceilLog2 len
    let b := i / 2 ^ k * 2 ^ k
    (b + (((i - b : Nat) : Int) + st).emod len |>.toNat) % 4096

/-! Words and moves (Table 8-3, R226, R232) -/

def dOp (w : Nat) : Nat := bits w 63 56
def dD (w : Nat) : Nat := bits w 55 52
def dA (w : Nat) : Nat := bits w 51 48
def dB (w : Nat) : Nat := bits w 47 44
def dFn (w : Nat) : Nat := bits w 43 40
def dImm8 (w : Nat) : Nat := bits w 39 32
def dRa (w : Nat) : Nat := bits w 55 52
def dRb (w : Nat) : Nat := bits w 51 48
def dImm16 (w : Nat) : Nat := bits w 47 32
def dImm (w : Nat) : Nat := bits w 31 0

/-- The X move (0) and the Y move (1) of a word of format P. -/
def dMove (w y : Nat) : Nat := if y = 0 then bits w 31 16 else bits w 15 0
def mvOn (m : Nat) : Bool := bit m 15
def mvStore (m : Nat) : Bool := bit m 14
def mvReg (m : Nat) : Nat := bits m 13 10
def mvIdx (m y : Nat) : Nat := bits m 9 8 + 4 * y
def mvMode (m : Nat) : Nat := bits m 7 6

/-- The x register an arithmetic word writes. -/
def dXDest (w : Nat) : Option Nat :=
  match dOp w with
  | 0x40 => some (dD w)
  | 0x60 => some (dD w)
  | 0x62 => some (dD w)
  | 0x63 => some (dD w)
  | 0x64 => some (dD w)
  | _ => none

/-- The moves of a word of format P are legal (R232). -/
def movesOk (w : Nat) : Bool :=
  let x := dMove w 0
  let y := dMove w 1
  let lx := mvOn x && !mvStore x
  let ly := mvOn y && !mvStore y
  bits x 5 0 == 0 && bits y 5 0 == 0 && !(lx && ly && mvReg x == mvReg y) &&
    !(lx && dXDest w == some (mvReg x)) && !(ly && dXDest w == some (mvReg y))

/-- Bytes of an x register as a memory word (R226). -/
def RBank.word (b : RBank) (r : Nat) : List Byte :=
  (List.range 8).flatMap fun k => bytesOf 4 (wrap 32 (b.xp r (k / 2) (k % 2)))

/-- An x register loaded from a memory word: the low 24 bits of each container. -/
def RBank.loadWord (b : RBank) (r : Nat) (d : List Byte) : RBank :=
  (List.range 8).foldl (fun (c : RBank) k => { c with x := SMap.set 0 c.x (8 * r + k) (natOf (slice d (4 * k) 3)) }) b

/-- A word of format P is legal. -/
def legalP (w : Nat) : Bool :=
  movesOk w &&
    match dOp w with
    | 0x00 => dFn w == 0
    | 0x20 => decide (dD w < 8 ∧ dFn w < 4)
    | 0x21 => decide (dD w < 8 ∧ dFn w < 2)
    | 0x22 => decide (dD w < 8) && (dFn w == 0 || dFn w == 2)
    | 0x23 => decide (dD w < 8) && (dFn w == 0 || dFn w == 4)
    | 0x40 => decide (dFn w ≤ 12)
    | 0x41 => decide (dD w < 8 ∧ dFn w ≤ 3 ∧ (dFn w = 3 ∨ dA w < 8) ∧ (2 ≤ dFn w ∨ dB w < 8))
    | 0x42 => dFn w == 0
    | 0x60 => decide (dA w < 8) && dFn w == 0
    | 0x61 => decide (dD w < 8 ∧ dImm8 w ≤ 32) && dFn w == 0
    | 0x62 => decide (dA w < 8) && dFn w == 0
    | 0x63 => dFn w == 0
    | 0x64 => decide (dFn w ≤ 1)
    | _ => false

/-- A word of format C is legal, but for what depends on the task. -/
def legalC (w : Nat) : Bool :=
  match dOp w with
  | 0x01 => true
  | 0x02 => true
  | 0x03 => true
  | 0x04 => decide (dRa w ≤ 6)
  | 0x05 => decide (dRa w = 0 ∨ (dRa w = 1 ∧ dRb w < 8))
  | 0x06 => true
  | 0x07 => true
  | 0x80 => true
  | 0x81 => decide (dRa w < 8)
  | 0x82 => decide (dRa w < 8 ∧ dImm16 w ≤ 2)
  | 0xA0 => decide (dRa w < 8 ∧ dRb w < 8)
  | 0xA1 => true
  | 0xA2 => decide (dRa w < 8 ∧ bits (dImm16 w) 4 0 < 18)
  | 0xA3 => true
  | 0xC0 => true
  | 0xC1 => decide (bits (dImm16 w) 2 0 ≤ 4)
  | 0xC2 => true
  | _ => false

/-- Opcodes a tenant task may not issue (R231). -/
def tenantBan (op : Nat) : Bool := [0x07, 0xA0, 0xA1, 0xA2, 0xA3, 0xC0, 0xC1, 0xC2].contains op

/-- The word is a legal instruction of a task (R231). -/
def dLegal (w : Nat) (tenant : Bool) : Bool := (legalP w || legalC w) && !(tenant && tenantBan (dOp w))

/-! The end of a task -/

/-- The position of its cluster a core serves (R223, R224). -/
def State.posOf (s : State) (d : Nat) : Nat :=
  if isSpare d then
    (if d % 64 = 31 then s.fld F.RDP_SPARE.SUB0 (d / 64) else s.fld F.RDP_SPARE.SUB1 (d / 64)) % 16
  else d % 16

/-- The core is free again: the hold is charged to its basin, and a tenant task's counts in the frame usage (R188, R194, R245);
its transfers stop (R257); a position a radio task held beyond its lane passes to the tenant lane (R243). -/
def State.dspFree (s : State) (d : Nat) : State :=
  match (s.dsp d).task with
  | none => s
  | some t =>
    let c := s.dsp d
    let s := s.charge c.basin 3 (dspCycles c.t0 s.tmb.clk)
    let from' := max c.t0 s.gey.lastClk
    let s := s.when (t.q % 8 != 0) fun s => s.modCluster (clusterOf t.q) fun k =>
      { k with usage := SMap.set 0 k.usage c.basin (SMap.get 0 k.usage c.basin + (s.tmb.clk - from')) }
    let s := ((List.range 4).filter fun ch => (SMap.get none c.dma ch).isSome).foldl (fun s ch => s.dmaCrcStop d ch) s
    let s := match (s.cluster (clusterOf t.q)).mask with
      | some m => s.when (t.q % 8 == 0 && !bit m (s.posOf d)) fun s => s.setFld F.RDP_CORE_STATUS.LANE d 0
      | none => s
    s.modDsp d fun c => { c with task := none, phase := 0, freeClk := s.tmb.clk, blk := .none, dma := [], sigs := [], level := 0, stack := [], inShadow := false }

/-- A completion record of a cluster queue (R239); TICK is that of the cycle at which CYCLES ends (Table 4-7). -/
def State.taskRecord (s : State) (t : DTask) (b status cycles : Nat) (tick : Option Nat := none) : State :=
  let k := clusterOf t.q
  s.modCluster k fun m => { m with recs := m.recs ++
    [{ q := t.q, basin := b, gen := t.gen, tag := t.tag, status, cycles, arrays := 0, evreq := t.evreq
       data := bytesOf 2 t.tag ++ bytesOf 2 (t.gen + status * 2 ^ 12) ++ bytesOf 2 (min t.kills 255 + t.q % 8 * 2 ^ 8 + k * 2 ^ 11) ++
         bytesOf 2 0 ++ bytesOf 4 (cycles % 2 ^ 32) ++ bytesOf 4 (tick.getD s.tickNo % 2 ^ 32)
       wait := s.cqFull t.q }] }

/-- A kill without re-run; a task that has ended cannot be killed (R241). -/
def State.taskKill (s : State) (d status : Nat) : State :=
  match (s.dsp d).task with
  | none => s
  | some t =>
    let c := s.dsp d
    if c.phase = 3 then s else (s.dspFree d).taskRecord t c.basin status (dspCycles c.t0 s.tmb.clk)

/-- Place a task among those waiting for re-run, in order of first dispatch (R187). -/
def taskInsert (c : DTask) : List DTask → List DTask
  | [] => [c]
  | d :: l => if c.order < d.order then c :: d :: l else d :: taskInsert c l

/-- A kill for re-run (R187, R194; log entry 56). A radio task's kill sets KILLRR in the words of its cells (R381). -/
def State.taskRerun (s : State) (d : Nat) (tick : Bool := false) : State :=
  match (s.dsp d).task with
  | none => s
  | some t =>
    let c := s.dsp d
    if c.phase = 3 then s
    else
      let t := { t with kills := min (t.kills + 1) 255, tickKilled := t.tickKilled || tick }
      let s := s.when (t.q % 8 == 0) fun s => s.workCells [d / 64] 7
      ((s.charge c.basin 2 1).dspFree d).modCluster (clusterOf t.q) fun k => { k with rerun := taskInsert t k.rerun }

/-- An address fault of a task (R32, R240). -/
def State.taskAddr (s : State) (d a : Nat) : State :=
  match (s.dsp d).task with
  | none => s
  | some t => (s.addrFault (s.taskWho d t) a).taskKill d 2

/-- A task meets poison (R246): it ends with POISON; for a radio task an event record names the core. -/
def State.taskPoison (s : State) (d : Nat) : State :=
  match (s.dsp d).task with
  | none => s
  | some t =>
    let s := s.when (t.q % 8 == 0) fun s =>
      (s.workCells [d / 64] 3).report (queueSrc t.q) { data := unitSrc (dspUnit d) % 2 ^ 16 } (unitSrc (dspUnit d)) 2
    s.taskKill d 6

/-! Fences of cores (R224, R364) -/

/-- The region controller fences a cluster: its tasks are killed for re-run, and no block of the die takes its radio work. -/
def State.fenceCluster (s : State) (k mech : Nat) : State :=
  let s := (List.range 16).foldl (fun s c => s.taskRerun (16 * k + c)) s
  let radio := (List.range 16).any fun c => s.flag F.RDP_CORE_STATUS.LANE (16 * k + c)
  s.blockDown (24 + k / 4) (k % 4) mech radio

/-- The block controller fences a core: its task is killed for re-run, and its position waits for the pair's spare. The last
position in service, and a third core within a second, are left to the region controller, which fences the cluster
(Table 12-3). -/
def State.fenceDsp (s : State) (d mech : Nat) : State :=
  let k := d / 16
  if s.fencedUnit (dspUnit d) then s.testStands mech 1 (dspUnit d)
  else if ((List.range 16).filter fun c => !s.unitOut (dspUnit (16 * k + c))).length ≤ 1 ∨
      2 ≤ s.recent 0x101 (unitSrc (.block (24 + k / 4) (k % 4))) then s.fenceCluster k mech
  else
    let s := s.note 0x101 (unitSrc (.block (24 + k / 4) (k % 4)))
    let s := (s.taskRerun d).addFence ⟨dspUnit d, 1, false, false⟩
    let s := s.setFld F.RDP_CORE_STATUS.FENCED d 1
    let s := s.modDsp d fun c => { c with fenceTick := if isSpare d then none else some s.tickNo }
    s.detect (24 + d / 64) mech 1 (unitSrc (dspUnit d)) 0

/-- A lane residue or parity miss kills the running task for re-run; a second one within a second fences the core. -/
def State.dspMiss (s : State) (d : Nat) : State :=
  let src := unitSrc (dspUnit d)
  let again := 1 ≤ s.recent 4 src
  let s := ((s.taskRerun d).note 4 src).detect (24 + d / 64) 4 1 src 0
  if again then s.fenceDsp d 4 else s

/-! Issue -/

/-- The core runs: its unit and die are in service. -/
def State.dspRuns (s : State) (d : Nat) : Bool := !s.unitOut (dspUnit d)

/-- The instruction after the one at PC, loop ends taken (R231): the loops left, and the next PC. -/
def loopNext : Nat → List Loop → List Loop × Nat
  | pc, [] => ([], pc + 1)
  | pc, l :: ls =>
    if l.last = pc then (if 1 < l.left then ({ l with left := l.left - 1 } :: ls, l.first) else loopNext pc ls)
    else (l :: ls, pc + 1)

/-- Go on to the next instruction. -/
def DCore.next (c : DCore) : DCore :=
  let (ls, pc) := loopNext c.pc c.cur.loops
  { c.setCur { c.cur with loops := ls } with pc := pc }

/-- An instruction row on core d: where a task runs there and its next word is this row's, the instruction issues; an
illegal word, and a PC past the task's program, end the task with ILLEGAL; a poisoned word with POISON (R231, R246). -/
def State.dspIssue (s : State) (d op : Nat) (f : Nat → DTask → DCore → State → State) : State :=
  let c := s.dsp d
  match c.task with
  | none => s
  | some t =>
    if !s.dspRuns d || c.phase != 2 || c.blk != .none then s
    else if t.plen ≤ c.pc then s.taskKill d 3
    else
      let a := dspBase d + 0x40000 + 8 * c.pc
      let s := s.meet a 8
      let w := s.readNat a 8
      if s.linePoison (a / 64) then s.taskPoison d
      else if !dLegal w (t.q % 8 != 0) then s.taskKill d 3
      else if dOp w != op then s
      else f w t c s

/-- A branch to an instruction index (R231). -/
def State.dspGoto (s : State) (d : Nat) (t : DTask) (c : DCore) (pc : Nat) : State :=
  if pc < t.plen then s.setDsp d { c with pc := pc } else s.taskKill d 3

/-- One move on the registers before the instruction: none where it reads a poisoned line; else the state after a
store, and the word loaded. -/
def State.move (s : State) (d w y : Nat) (b : RBank) : Option (State × Option (List Byte)) :=
  let m := dMove w y
  let a := dspWord d y (b.ir (mvIdx m y))
  if !mvOn m then some (s, none)
  else if mvStore m then some (s.put 0 a (b.word (mvReg m)), none)
  else if s.linePoison (a / 64) then none
  else some (s, some (s.read a 32))

/-- A move that loads reads its word's memory (R156). -/
def State.moveMeet (s : State) (d w y : Nat) (b : RBank) : State :=
  let m := dMove w y
  if mvOn m && !mvStore m then s.meet (dspWord d y (b.ir (mvIdx m y))) 32 else s

/-- The bank after a move: its index register updated and its register loaded. -/
def RBank.moved (b : RBank) (w y : Nat) (d : Option (List Byte)) : RBank :=
  let m := dMove w y
  if !mvOn m then b
  else
    let j := mvIdx m y
    let b := b.setI j (agu (b.ir j) (SMap.get 0 b.m j) (mvMode m))
    match d with
    | some d => b.loadWord (mvReg m) d
    | none => b

/-- An arithmetic instruction with its two parallel moves (R228, R232); a check that fails kills the task (R364). -/
def State.dspP (s : State) (d op : Nat) (miss : Bool) (f : Nat → RBank → RBank) : State :=
  s.dspIssue d op fun w _ c s =>
    if miss then s.dspMiss d
    else
      let b := c.cur
      let s := (s.moveMeet d w 0 b).moveMeet d w 1 b
      match s.move d w 0 b with
      | none => s.taskPoison d
      | some (s1, dx) =>
        match s1.move d w 1 b with
        | none => s.taskPoison d
        | some (s2, dy) =>
          let b' := ((f w b).moved w 0 dx).moved w 1 dy
          s2.setDsp d (c.setCur b').next

end Sys2Proof.Machine
end

