-- ==== Sys2Proof/Machine/DspOps.lean ====
section
/-! DEFINITION. The instructions of ETV-D (Table 8-4) and its interrupts (R235 to R238). -/

namespace Sys2Proof.Machine

/-! Arithmetic with parallel moves -/

/-- The parts of a complex product of lane l of xA and xB, B conjugated or not. -/
def RBank.prod (b : RBank) (w l p : Nat) (conj : Bool) : Int :=
  let ar := b.xp (dA w) l 0
  let ai := b.xp (dA w) l 1
  let br := b.xp (dB w) l 0
  let bi := if conj then -(b.xp (dB w) l 1) else b.xp (dB w) l 1
  if p = 0 then ar * br - ai * bi else ar * bi + ai * br

/-- Moves only. -/
def dspNop (d : Nat) (s : State) : State := s.dspP d 0x00 false fun _ b => b

def execDspNop (d : Nat) (s : State) : Out := run (.dspNop d) s (dspNop d s)

/-- accD ← accD ± xA × xB per lane. -/
def cmac (d : Nat) (miss : Bool) (s : State) : State :=
  s.dspP d 0x20 miss fun w b => b.putA (dD w) fun l p =>
    let m := b.prod w l p (bit (dFn w) 0)
    b.ap (dD w) l p + (if bit (dFn w) 1 then -m else m)

def execCmac (d : Nat) (miss : Bool) (s : State) : Out := run (.cmac d miss) s (cmac d miss s)

/-- accD ← xA × xB per lane. -/
def cmpy (d : Nat) (miss : Bool) (s : State) : State :=
  s.dspP d 0x21 miss fun w b => b.putA (dD w) fun l p => b.prod w l p (bit (dFn w) 0)

def execCmpy (d : Nat) (miss : Bool) (s : State) : Out := run (.cmpy d miss) s (cmpy d miss s)

/-- Real and imaginary parts of accD ± the products of like parts. -/
def rmac (d : Nat) (miss : Bool) (s : State) : State :=
  s.dspP d 0x22 miss fun w b => b.putA (dD w) fun l p =>
    let m := b.xp (dA w) l p * b.xp (dB w) l p
    b.ap (dD w) l p + (if bit (dFn w) 1 then -m else m)

def execRmac (d : Nat) (miss : Bool) (s : State) : Out := run (.rmac d miss) s (rmac d miss s)

/-- accD.re ← accD.re + A.re² + A.im²; FN[2] clears accD first. -/
def cpow (d : Nat) (miss : Bool) (s : State) : State :=
  s.dspP d 0x23 miss fun w b => b.putA (dD w) fun l p =>
    let old := if bit (dFn w) 2 then 0 else b.ap (dD w) l p
    if p = 0 then old + b.xp (dA w) l 0 * b.xp (dA w) l 0 + b.xp (dA w) l 1 * b.xp (dA w) l 1 else old

def execCpow (d : Nat) (miss : Bool) (s : State) : Out := run (.cpow d miss) s (cpow d miss s)

/-- A bitwise operation on two 24-bit parts. -/
def bitOp24 (f : Nat → Nat → Nat) (a b : Int) : Int := sext 24 (f (wrap 24 a) (wrap 24 b))

/-- One part of xop (Table 8-4, in the order of FN). -/
def RBank.xopPart (b : RBank) (w l p : Nat) : Int :=
  let a := b.xp (dA w) l p
  let c := b.xp (dB w) l p
  match dFn w with
  | 0 => a + c
  | 1 => a - c
  | 2 => bitOp24 (· &&& ·) a c
  | 3 => bitOp24 (· ||| ·) a c
  | 4 => bitOp24 (· ^^^ ·) a c
  | 5 => if c < a then c else a
  | 6 => if a < c then c else a
  | 7 => if a < 0 then -a else a
  | 8 => -a
  | 9 => if p = 0 then a else -a
  | 10 => if p = 0 then -(b.xp (dA w) l 1) else b.xp (dA w) l 0
  | 11 => a * (2 ^ dImm8 w : Nat)
  | _ => a / (2 ^ dImm8 w : Nat)

/-- xD ← xA op xB per part. -/
def xop (d : Nat) (miss : Bool) (s : State) : State :=
  s.dspP d 0x40 miss fun w b => b.putX (dD w) fun l p => b.xopPart w l p

def execXop (d : Nat) (miss : Bool) (s : State) : Out := run (.xop d miss) s (xop d miss s)

/-- accD ← accA + accB, accA − accB, accA sra IMM8, or 0. -/
def aop (d : Nat) (miss : Bool) (s : State) : State :=
  s.dspP d 0x41 miss fun w b => b.putA (dD w) fun l p =>
    match dFn w with
    | 0 => b.ap (dA w) l p + b.ap (dB w) l p
    | 1 => b.ap (dA w) l p - b.ap (dB w) l p
    | 2 => b.ap (dA w) l p / (2 ^ dImm8 w : Nat)
    | _ => 0

def execAop (d : Nat) (miss : Bool) (s : State) : Out := run (.aop d miss) s (aop d miss s)

/-- Z and N from the real part of lane 0 of xA − xB. -/
def cmp (d : Nat) (miss : Bool) (s : State) : State :=
  s.dspP d 0x42 miss fun w b =>
    let v := b.xp (dA w) 0 0 - b.xp (dB w) 0 0
    { b with z := decide (v = 0), n := decide (v < 0) }

def execCmp (d : Nat) (miss : Bool) (s : State) : Out := run (.cmp d miss) s (cmp d miss s)

/-- xD ← accA sra IMM8, saturated to 24 bits. -/
def mvr (d : Nat) (miss : Bool) (s : State) : State :=
  s.dspP d 0x60 miss fun w b => b.putX (dD w) fun l p => b.ap (dA w) l p / (2 ^ dImm8 w : Nat)

def execMvr (d : Nat) (miss : Bool) (s : State) : Out := run (.mvr d miss) s (mvr d miss s)

/-- accD ← xA shl IMM8. -/
def mva (d : Nat) (miss : Bool) (s : State) : State :=
  s.dspP d 0x61 miss fun w b => b.putA (dD w) fun l p => b.xp (dA w) l p * (2 ^ dImm8 w : Nat)

def execMva (d : Nat) (miss : Bool) (s : State) : Out := run (.mva d miss) s (mva d miss s)

/-- Redundant sign bits of a 56-bit value, 0 to 55. -/
def signBits (v : Int) : Nat :=
  let m := (if v < 0 then -v - 1 else v).toNat
  if m = 0 then 55 else 54 - log2 m

/-- xD ← redundant sign bits of accA per part. -/
def nrm (d : Nat) (miss : Bool) (s : State) : State :=
  s.dspP d 0x62 miss fun w b => b.putX (dD w) fun l p => (signBits (b.ap (dA w) l p) : Int)

def execNrm (d : Nat) (miss : Bool) (s : State) : Out := run (.nrm d miss) s (nrm d miss s)

/-- The divisor of rcp lies outside its domain. -/
def rcpBad (r : Int) : Bool := decide (r < (2 ^ 22 : Nat) ∨ (2 ^ 23 : Nat) ≤ r)

/-- Each part of xD ← floor(2^45 ÷ real part of the lane of xA); outside the domain 2^23 − 1 and DOM. -/
def rcp (d : Nat) (miss : Bool) (s : State) : State :=
  s.dspP d 0x63 miss fun w b =>
    let bad := (List.range 4).any fun l => rcpBad (b.xp (dA w) l 0)
    let c := b.putX (dD w) fun l _ =>
      let r := b.xp (dA w) l 0
      if rcpBad r then (2 ^ 23 : Nat) - 1 else (2 ^ 45 : Nat) / r
    { c with dom := c.dom || bad }

def execRcp (d : Nat) (miss : Bool) (s : State) : Out := run (.rcp d miss) s (rcp d miss s)

/-- One lane of xA in all lanes, or the lanes rotated up. -/
def bcast (d : Nat) (miss : Bool) (s : State) : State :=
  s.dspP d 0x64 miss fun w b => b.putX (dD w) fun l p =>
    let k := dImm8 w % 4
    if dFn w = 0 then b.xp (dA w) k p else b.xp (dA w) ((l + 4 - k) % 4) p

def execBcast (d : Nat) (miss : Bool) (s : State) : Out := run (.bcast d miss) s (bcast d miss s)

/-! Control -/

/-- PC ← IMM32[12:0]. -/
def dspJ (d : Nat) (s : State) : State :=
  s.dspIssue d 0x01 fun w t c s => s.dspGoto d t c (dImm w % 8192)

def execDspJ (d : Nat) (s : State) : Out := run (.dspJ d) s (dspJ d s)

/-- Push PC + 1; PC ← IMM32[12:0]; a ninth entry is illegal. -/
def jsr (d : Nat) (s : State) : State :=
  s.dspIssue d 0x02 fun w t c s =>
    if 8 ≤ c.cur.calls.length then s.taskKill d 3
    else s.dspGoto d t (c.setCur { c.cur with calls := (c.pc + 1) :: c.cur.calls }) (dImm w % 8192)

def execJsr (d : Nat) (s : State) : Out := run (.jsr d) s (jsr d s)

/-- PC ← pop; an empty stack names no instruction of the program (log entry 59). -/
def rts (d : Nat) (s : State) : State :=
  s.dspIssue d 0x03 fun _ t c s =>
    match c.cur.calls with
    | [] => s.taskKill d 3
    | p :: l => s.dspGoto d t (c.setCur { c.cur with calls := l }) p

def execRts (d : Nat) (s : State) : Out := run (.rts d) s (rts d s)

/-- The conditions of b.cc. -/
def RBank.cond (b : RBank) (k : Nat) : Bool :=
  match k with
  | 0 => true
  | 1 => b.z
  | 2 => !b.z
  | 3 => b.n
  | 4 => !b.n
  | 5 => b.xsat
  | _ => b.asat

/-- If condition RA holds, PC ← IMM32[12:0]. -/
def bCc (d : Nat) (s : State) : State :=
  s.dspIssue d 0x04 fun w t c s =>
    if c.cur.cond (dRa w) then s.dspGoto d t c (dImm w % 8192) else s.setDsp d c.next

def execBCc (d : Nat) (s : State) : Out := run (.bCc d) s (bCc d s)

/-- Repeat instructions PC + 1 to IMM32[12:0]; a count of 0 skips them; a fifth loop is illegal. -/
def loop (d : Nat) (s : State) : State :=
  s.dspIssue d 0x05 fun w t c s =>
    let e := dImm w % 8192
    let n := if dRa w = 1 then c.cur.ir (dRb w) else dImm16 w
    if t.plen ≤ e then s.taskKill d 3
    else if n = 0 then s.setDsp d { c with pc := e + 1 }
    else if 4 ≤ c.cur.loops.length then s.taskKill d 3
    else s.setDsp d { c.setCur { c.cur with loops := ⟨c.pc + 1, e, n⟩ :: c.cur.loops } with pc := c.pc + 1 }

def execLoop (d : Nat) (s : State) : Out := run (.loop d) s (loop d s)

/-- The task ends (R239 to R241): its outputs are copied, or with IMM16[0] = 1 nothing is. -/
def dspEnd (d : Nat) (s : State) : State :=
  s.dspIssue d 0x06 fun w _ c s =>
    if bit (dImm16 w) 0 then s.taskKill d 1
    else s.setDsp d { c with phase := 3, t1 := s.tmb.clk, tick1 := s.tickNo }

def execDspEnd (d : Nat) (s : State) : Out := run (.dspEnd d) s (dspEnd d s)

/-- Block until the counter reaches the last tick + IMM32 ns. -/
def dspTickwait (d : Nat) (s : State) : State :=
  s.dspIssue d 0x07 fun w _ c s =>
    if s.gey.last + dImm w ≤ s.now then s.setDsp d c.next
    else s.setDsp d { c with blk := .tick (s.gey.last + dImm w) }

def execDspTickwait (d : Nat) (s : State) : Out := run (.dspTickwait d) s (dspTickwait d s)

/-- The counter has reached the time a task waits for. -/
def dspTickwaitRelease (d : Nat) (s : State) : State :=
  let c := s.dsp d
  match c.blk with
  | .tick t => if t ≤ s.now ∧ s.dspRuns d then s.setDsp d { c.next with blk := .none } else s
  | _ => s

def execDspTickwaitRelease (d : Nat) (s : State) : Out := run (.dspTickwaitRelease d) s (dspTickwaitRelease d s)

/-! Address registers -/

/-- iRA ← IMM32[11:0], or m(RA − 8) ← IMM32 without its reserved bits. -/
def dspLi (d : Nat) (s : State) : State :=
  s.dspIssue d 0x80 fun w _ c s =>
    let b := c.cur
    let b := if dRa w < 8 then b.setI (dRa w) (dImm w) else { b with m := SMap.set 0 b.m (dRa w - 8) (dImm w % 2 ^ 29) }
    s.setDsp d (c.setCur b).next

def execDspLi (d : Nat) (s : State) : Out := run (.dspLi d) s (dspLi d s)

/-- iRA ← (iRA + IMM32) mod 4,096. -/
def addi (d : Nat) (s : State) : State :=
  s.dspIssue d 0x81 fun w _ c s =>
    s.setDsp d (c.setCur (c.cur.setI (dRa w) (c.cur.ir (dRa w) + dImm w))).next

def execAddi (d : Nat) (s : State) : Out := run (.addi d) s (addi d s)

/-- The sources asserted on a core (Table 8-5). -/
def State.srcs (s : State) (d : Nat) : Nat := s.fld F.RDP_CORE_STATUS.PEND d

/-- A source asserts (R235). -/
def State.dspAssert (s : State) (d k : Nat) : State := s.setFld F.RDP_CORE_STATUS.PEND d (putBit (s.srcs d) k true)

/-- Moves between an index register and lane 0 of an x register, and the mask of asserted sources. -/
def mvix (d : Nat) (s : State) : State :=
  s.dspIssue d 0x82 fun w _ c s =>
    let b := c.cur
    let k := 8 * dRb w
    let b := match dImm16 w with
      | 0 => { b with x := SMap.set 0 b.x k (b.ir (dRa w)) }
      | 1 => b.setI (dRa w) (SMap.get 0 b.x k)
      | _ => { b with x := SMap.set 0 b.x k (s.srcs d) }
    s.setDsp d (c.setCur b).next

def execMvix (d : Nat) (s : State) : Out := run (.mvix d) s (mvix d s)

/-! DMA, engines and signals (R234, R247) -/

/-- Local words of a transfer (R234): containers of 8 bytes for each CI16 element, else the bytes as they are. -/
def dmaWords (desc : Nat) : Nat := if sdFmt desc = 9 then (sdLen desc + 15) / 16 else (sdLen desc + 31) / 32

/-- Start a transfer; a busy channel blocks (log entry 55). -/
def dma (d : Nat) (s : State) : State :=
  s.dspIssue d 0xA0 fun w t c s =>
    let ch := dImm16 w % 4
    let y := bit (dImm16 w) 2
    let a := dspWord d 1 (c.cur.ir (dRa w))
    let word := c.cur.ir (dRb w)
    let s := s.meet a 32
    let desc := s.readNat a 32
    if (SMap.get none c.dma ch).isSome then s
    else if s.linePoison (a / 64) then s.taskPoison d
    else if !sdOk desc (sdKind desc) ∨ 2 ≤ sdKind desc ∨ !([9, 12, 15].contains (sdFmt desc)) then s.taskKill d 3
    else if 4096 < word + dmaWords desc then s.taskAddr d (dspWord d (b2n y) 4095)
    else match (sdRuns desc).findSome? fun r => s.badAddr (s.taskWho d t) (sdKind desc == 1) r (sdLen0 desc) with
      | some p => s.taskAddr d p
      | none => (s.setDsp d { c with dma := SMap.set none c.dma ch (some ⟨desc, word, y⟩) }.next).dmaCrcStart d ch

def execDma (d : Nat) (s : State) : Out := run (.dma d) s (dma d s)

/-- Every channel of a mask is idle. -/
def DCore.idleDma (c : DCore) (mask : Nat) : Bool := (List.range 4).all fun ch => !bit mask ch || (SMap.get none c.dma ch).isNone

/-- Block until the channels in a mask are idle. -/
def dwait (d : Nat) (s : State) : State :=
  s.dspIssue d 0xA1 fun w _ c s =>
    let m := dImm16 w % 16
    if c.idleDma m then s.setDsp d c.next else s.setDsp d { c with blk := .dwait m }

def execDwait (d : Nat) (s : State) : Out := run (.dwait d) s (dwait d s)

/-- Post a job to an engine of the die; a full FIFO blocks (R247). -/
def eng (d : Nat) (s : State) : State :=
  s.dspIssue d 0xA2 fun w _ c s =>
    let e := d / 64 * 18 + bits (dImm16 w) 4 0
    let a := dspWord d 1 (c.cur.ir (dRa w))
    let s := s.meet a 32
    if s.linePoison (a / 64) then s.taskPoison d
    else if 64 ≤ (s.engine e).length then s
    else
      (s.setDsp d c.next).setEngine e (s.engine e ++ [{ desc := s.readNat a 32, core := d, clk := s.tmb.clk }])

def execEng (d : Nat) (s : State) : Out := run (.eng d) s (eng d s)

/-- Channels that write out of the core. -/
def DCore.writers (c : DCore) : List Nat :=
  (List.range 4).filter fun ch => (SMap.get none c.dma ch).any fun t => sdKind t.desc == 1

/-- Signal a semaphore, after every earlier DMA write of the core is in memory (R234, R143). -/
def msig (d : Nat) (s : State) : State :=
  s.dspIssue d 0xA3 fun w _ c s =>
    let sem := dImm16 w % 4096
    let g := dImm w % 32
    let cnt := bits (dImm w) 15 8
    if 24 ≤ g ∨ s.semOwner g sem ≠ 0 then s.taskAddr d (semAddr g sem)
    else
      let wr := c.writers
      if wr.isEmpty then ((s.setDsp d c.next).semAdd g sem cnt 0)
      else s.setDsp d { c.next with sigs := c.sigs ++ [⟨wr, g, sem, cnt⟩] }

def execMsig (d : Nat) (s : State) : Out := run (.msig d) s (msig d s)

/-- CI16 parts to CI24 containers: p becomes p × 2^8 (R234). -/
def ciIn (d : List Byte) : List Byte :=
  (List.range (d.length / 2)).flatMap fun i => bytesOf 4 (wrap 32 (sext 16 (natOf (slice d (2 * i) 2)) * 256))

/-- CI24 containers to CI16 parts: the low 8 bits are lost, and the rest saturates to 16 bits (R234). -/
def ciOut (d : List Byte) : List Byte :=
  (List.range (d.length / 4)).flatMap fun i =>
    bytesOf 2 (wrap 16 (clampInt (-32768) 32767 (sext 24 (natOf (slice d (4 * i) 3)) / 256)))

/-- The transfer of a channel reads host memory. -/
def dmaHost (t : Dma) : Bool :=
  sdKind t.desc == 0 && match place (sdBase t.desc) with
    | .host _ => true
    | _ => false

/-- The transfer of a channel ends with the bytes its source answered: they are moved, a CRC unit armed on the channel ends its
frame (R254), and its source asserts. Signals that waited for it apply. -/
def State.dmaMove (s : State) (d ch : Nat) (t : Dma) (data : List Byte) : State :=
  let base := dspWord d (b2n t.y) t.word
  let n := sdLen0 t.desc
  let data := if sdKind t.desc = 1 ∧ sdFmt t.desc = 9 then ciOut data else data
  let s := if sdKind t.desc = 0 then s.put 0 base (if sdFmt t.desc = 9 then ciIn data else data)
    else (sdRuns t.desc).zipIdx.foldl (fun s (r, i) => s.put 0 r ((data.drop (i * n)).take n)) s
  let s := s.dmaCrcEnd d ch (data.take ((sdRuns t.desc).length * n))
  let s := s.modDsp d fun c => { c with dma := SMap.set none c.dma ch none }
  let go := (s.dsp d).sigs.filter fun m => m.chans == [ch]
  let s := s.modDsp d fun c =>
    { c with sigs := (c.sigs.filter fun m => m.chans != [ch]).map fun m => { m with chans := m.chans.filter (· != ch) } }
  let s := go.foldl (fun s m => s.semAdd m.core m.sem m.cnt 0) s
  let s := s.modDsp d fun c => match c.blk with
    | .dwait m => if c.idleDma m then { c.next with blk := .none } else c
    | _ => c
  s.dspAssert d ch

/-- R234, R235: the transfer of a channel ends. A read of host memory is recorded whole (R344), and in replay it waits for
its record (R347). `rd` reads a range of addresses. -/
def dmaDone (rd : Nat → Nat → State → List Byte × State) (d ch : Nat) (s : State) : State :=
  let c := s.dsp d
  match SMap.get none c.dma ch with
  | none => s
  | some t =>
    if s.dieDown (24 + d / 64) || (dmaHost t && s.noHostRead) then s
    else
      let base := dspWord d (b2n t.y) t.word
      let runs := sdRuns t.desc
      let n := sdLen0 t.desc
      let local' := dmaWords t.desc * 32
      let s := if sdKind t.desc = 0 then s.meetAll (runs.map (·, n)) else s.meet base local'
      let pois := if sdKind t.desc = 0 then runs.any fun r => s.rangePoison r n else s.rangePoison base local'
      if pois && c.task.isSome then s.taskPoison d
      else if sdKind t.desc = 0 then
        let (data, s) := runs.foldl (fun (acc, s) r => let (b, s) := rd r n s; (acc ++ b, s)) ([], s)
        let s := s.when (dmaHost t) fun s => s.obs 2 (64 + d) data.length (sdBase t.desc) data
        s.dmaMove d ch t data
      else s.dmaMove d ch t (s.read base local')

/-! Interrupts (R235 to R238) -/

/-- The level RDP_CORE_IRQ gives a source. -/
def State.irqLevel (s : State) (d k : Nat) : Nat := bits (s.regBits .RDP_CORE_IRQ d) (3 * k + 2) (3 * k)

/-- The highest level of an asserted source above a level and above the mask; 0 for none. Tenant tasks run with all
interrupts masked. -/
def State.irq (s : State) (d above : Nat) : Nat :=
  let c := s.dsp d
  if (c.task.any fun t => t.q % 8 != 0) then 0
  else (List.range 8).foldl (fun m k =>
    let l := s.irqLevel d k
    if bit (s.srcs d) k ∧ max above c.mask < l ∧ m < l then l else m) 0

/-- R236, R237: the highest source above the running level and the mask is taken: PC and FLAGS are pushed, an entry from
level 0 switches to the shadow bank, and the handler of the level begins (log entry 54). -/
def interruptEntry (d : Nat) (s : State) : State :=
  let c := s.dsp d
  let l := s.irq d c.level
  if c.phase ≠ 2 ∨ !s.dspRuns d ∨ l = 0 then s
  else s.setDsp d { c with stack := ⟨c.pc, c.cur.flags, c.level⟩ :: c.stack, inShadow := true, level := l, pc := 16 * l, blk := .none }

def execInterruptEntry (d : Nat) (s : State) : Out := run (.interruptEntry d) s (interruptEntry d s)

/-- R238: return from interrupt: PC, FLAGS and the level are restored; a source above the return level takes over
instead, with nothing popped (tail chain). -/
def rti (d : Nat) (s : State) : State :=
  s.dspIssue d 0xC0 fun _ _ c s =>
    match c.stack with
    | [] => s.taskKill d 3
    | p :: l =>
      let n := s.irq d p.level
      if n ≠ 0 then s.setDsp d { c with level := n, pc := 16 * n }
      else
        let c := { c with stack := l, level := p.level, pc := p.pc, inShadow := p.level != 0 }
        s.setDsp d (c.setCur (c.cur.setFlags p.flags))

def execRti (d : Nat) (s : State) : Out := run (.rti d) s (rti d s)

/-- Interrupt mask level ← IMM16[2:0]. -/
def ilvl (d : Nat) (s : State) : State :=
  s.dspIssue d 0xC1 fun w _ c s => s.setDsp d { c with mask := dImm16 w % 8 }.next

def execIlvl (d : Nat) (s : State) : Out := run (.ilvl d) s (ilvl d s)

/-- Acknowledge sources; those not asserted are counted (R235). -/
def iclr (d : Nat) (s : State) : State :=
  s.dspIssue d 0xC2 fun w _ c s =>
    let m := dImm16 w % 256
    let stray := (List.range 8).filter fun k => bit m k && !bit (s.srcs d) k
    let s := s.when (!stray.isEmpty) fun s => s.incFld F.RDP_CORE_STATUS.STRAY d stray.length
    let s := s.setFld F.RDP_CORE_STATUS.PEND d (s.srcs d &&& (255 - m))
    s.setDsp d c.next

def execIclr (d : Nat) (s : State) : Out := run (.iclr d) s (iclr d s)

/-- R235: the counter reaches RDP_CORE_TIMER. -/
def dspTimerExpire (d : Nat) (s : State) : State :=
  if (s.dsp d).timerOn && decide (s.fld F.RDP_CORE_TIMER.T d ≤ s.now) then
    (s.modDsp d fun c => { c with timerOn := false }).dspAssert d 6
  else s

def execDspTimerExpire (d : Nat) (s : State) : Out := run (.dspTimerExpire d) s (dspTimerExpire d s)

/-- R235, Table 8-18: a write of RDP_CORE_TIMER clears a pending TIMER. -/
def dspTimerWrite (d : Nat) (v : Word) (s : State) : State :=
  let s := (s.setFld F.RDP_CORE_TIMER.T d v.toNat).modDsp d fun c => { c with timerOn := true }
  s.setFld F.RDP_CORE_STATUS.PEND d (putBit (s.srcs d) 6 false)

def execDspTimerWrite (d : Nat) (v : Word) (s : State) : Out := run (.dspTimerWrite d v) s (s.wr .RDP_CORE_TIMER d (dspTimerWrite d v))

/-- R235, Table 8-18: RING written 1 asserts DBELL. -/
def dspDoorbellWrite (d : Nat) (v : BitVec 32) (s : State) : State :=
  if bit v.toNat 0 then s.dspAssert d 7 else s

def execDspDoorbellWrite (d : Nat) (v : BitVec 32) (s : State) : Out := run (.dspDoorbellWrite d v) s (s.wr .RDP_CORE_DBELL d (dspDoorbellWrite d v))

end Sys2Proof.Machine
end

