-- ==== Sys2Proof/Machine/DspTask.lean ====
section
/-! DEFINITION. DSP tasks: dispatch, load, output copy, budgets, lanes and spares (R223, R224, R239 to R245), and the
control registers of all queues (R182, R184, R202). -/

namespace Sys2Proof.Machine

/-- A task queue entry read from its 64 bytes (Table 8-7). -/
def taskOf (v q : Nat) : DTask :=
  { tag := bits v 15 0, gen := bits v 27 16, evreq := bit v 28, plen := if bits v 44 32 = 0 then 8192 else bits v 44 32
    prog := bits v 111 64, src := bits v 175 128, dst := bits v 239 192, inx := bits v 268 256, iny := bits v 281 269
    outx := bits v 294 282, outy := bits v 307 295, budget := bits v 351 320, q := q }

/-- The flattened index of queue q of cluster k. -/
def clQ (k q : Nat) : Nat := 192 + 8 * k + q

/-- The core that serves position p of cluster k: the pair's spare where it is mapped onto it, else its own (R223, R224). -/
def State.posCore (s : State) (k p : Nat) : Option Nat :=
  let n := k / 4
  let c := k % 4 * 16 + p
  let mapped := if c < 32 then s.flag F.RDP_SPARE.VALID0 n && s.fld F.RDP_SPARE.SUB0 n == c
    else s.flag F.RDP_SPARE.VALID1 n && s.fld F.RDP_SPARE.SUB1 n == c
  let d := n * 64 + (if mapped then c / 32 * 32 + 31 else c)
  if c % 32 ≠ 31 ∧ s.dspRuns d then some d else none

/-- The cores of a cluster in service. -/
def State.clusterCores (s : State) (k : Nat) : List Nat := (List.range 16).filterMap (s.posCore k)

/-- The head of cluster queue q (R186, R187); true for a re-run. -/
def State.headTask (s : State) (k q : Nat) : Option (Bool × DTask) :=
  let ix := clQ k q
  match (s.cluster k).rerun.find? fun t => t.q == ix with
  | some t => some (true, t)
  | none =>
    if s.waitingIn ix = 0 then none
    else some (false, taskOf (s.readNat (s.entryAddr ix (s.fld F.MXC_Qq_STATUS.HEAD ix)) 64) ix)

/-- A core of the cluster is free in the lane of a queue. -/
def State.freeIn (s : State) (k : Nat) (radio : Bool) : Bool :=
  (s.clusterCores k).any fun d => (s.dsp d).task.isNone && s.flag F.RDP_CORE_STATUS.LANE d == radio

/-- Why the head of a cluster queue does not dispatch (R186, Table 6-11); at the throttle limit of the radio die no tenant task
does (Table 15-5; log entry 84). -/
def State.taskStall (s : State) (k q : Nat) : Nat :=
  let ix := clQ k q
  if s.flag F.MXC_Qq_STATUS.QERR ix then 1
  else if (s.headTask k q).isNone then 0
  else if (s.cluster k).recs.any fun r => r.q == ix && r.wait then 2
  else if !(s.clusterCores k).any fun d => s.flag F.RDP_CORE_STATUS.LANE d == (q == 0) then 3
  else if q != 0 && s.hot (24 + k / 4) then 3
  else if !s.freeIn k (q == 0) then 5
  else if !s.flag F.MXC_Qq_CTRL.EN ix || !s.isOpen (s.queueBasin ix) then 7
  else 0

/-! The cluster arbiter (R188, R245; log entry 57) -/

/-- Frame usage of a basin on a cluster in reference periods, running holds included. -/
def State.taskUsage (s : State) (k b : Nat) : Nat :=
  SMap.get 0 (s.cluster k).usage b + ((s.clusterCores k).map fun d =>
    let c := s.dsp d
    if (c.task.any fun t => t.q % 8 != 0) && c.basin == b then s.tmb.clk - max c.t0 s.gey.lastClk else 0).sum

/-- A basin is below its minimum share of the cluster's tenant position-cycles of the frame. -/
def State.taskBelow (s : State) (k b : Nat) : Bool :=
  let pos := ((s.clusterCores k).filter fun d => !s.flag F.RDP_CORE_STATUS.LANE d).length
  decide (s.taskUsage k b * 1024 * 64 < s.fld F.BSN_STATEb.DSP_SHARE b * pos * periodNs (s.fld F.GEY_CTRL.PERIOD) * 10)

/-- Basin b goes before basin d. -/
def State.taskBefore (s : State) (k b d : Nat) : Bool :=
  let share := fun b => s.fld F.BSN_STATEb.DSP_SHARE b
  match s.taskBelow k b, s.taskBelow k d with
  | true, false => true
  | false, true => false
  | true, true => decide (s.taskUsage k b * share d < s.taskUsage k d * share b)
  | false, false => decide (s.taskUsage k b < s.taskUsage k d)

/-- The tenant queue the cluster arbiter dispatches now. -/
def State.taskChoice (s : State) (k : Nat) : Option Nat :=
  let go := fun q => (s.headTask k q).isSome && s.taskStall k q == 0
  match (((List.range 7).map (· + 1)).filter go).map fun q => s.queueBasin (clQ k q) with
  | [] => none
  | b :: l =>
    let best := l.foldl (fun b d => if s.taskBefore k d b then d else b) b
    ((List.range 7).map fun i => ((s.cluster k).lastQ + i) % 7 + 1).find? fun q => go q && s.queueBasin (clQ k q) == best

/-! Dispatch -/

/-- A tag of the same queue is held by a core or waits for re-run (R132). -/
def State.taskDup (s : State) (k : Nat) (t : DTask) : Bool :=
  ((s.clusterCores k).any fun d => (s.dsp d).task.any fun u => u.q == t.q && u.tag == t.tag) ||
    ((s.cluster k).rerun.any fun u => u.q == t.q && u.tag == t.tag)

/-- A task takes core d (R225, R240, R244): every register is 0 and every source clear, and a task of another basin
finds the core scrubbed. -/
def State.takeCore (s : State) (k d : Nat) (t : DTask) : State :=
  let c := s.dsp d
  let b := s.queueBasin t.q
  let m := s.cluster k
  let s := s.when (c.used && c.basin != b) fun s => (s.zero (dspBase d) 0x50000).clearPoison (dspBase d) 0x50000
  let s := (s.setFld F.RDP_CORE_STATUS.PEND d 0).wakeUnits (· == 1024 + d)
  let s := s.setCluster k { m with nextOrder := m.nextOrder + 1, lastQ := if t.q % 8 = 0 then m.lastQ else t.q % 8 }
  (s.incFld F.MXC_Qq_CNT.DISPATCHED t.q).setDsp d
    { task := some { t with order := if t.order = 0 then m.nextOrder else t.order }, phase := 1, basin := b, used := true
      t0 := s.tmb.clk, timerOn := c.timerOn, fenceTick := c.fenceTick }

/-- R239, R240, R243 to R245: the arbiter of cluster k dispatches the head of queue q to position p. -/
def dspTaskDispatch (k q p : Nat) (s : State) : State :=
  let ix := clQ k q
  let b := s.queueBasin ix
  let w : Who := { basin := b, die := 24 + k / 4, src := unitSrc (.block (24 + k / 4) (k % 4)) }
  match s.posCore k p with
  | none => s
  | some d =>
    if (s.dsp d).task.isSome || s.flag F.RDP_CORE_STATUS.LANE d != (q == 0) || s.taskStall k q != 0 ||
        (q != 0 && s.taskChoice k != some q) then s
    else match s.headTask k q with
      | none => s
      | some (true, t) => (s.modCluster k fun m => { m with rerun := m.rerun.filter (· != t) }).takeCore k d t
      | some (false, _) =>
        let a := s.entryAddr ix (s.fld F.MXC_Qq_STATUS.HEAD ix)
        match s.badAddr w false a 64 with
        | some x => (s.addrFault w x).queueError ix 0
        | none =>
          let s := s.meet a 64
          let pois := s.rangePoison a 64
          let t := taskOf (s.readNat a 64) ix
          let s := s.headNext ix
          if t.gen ≠ s.gen b then s.incFld F.BSN_STALEb.ENTRY b
          else if s.taskDup k t then s.raise (queueSrc ix) { basin := b, gen := s.gen b, data := t.tag }
          else if pois then s.taskRecord t b 6 0
          else s.takeCore k d t

def execDspTaskDispatch (k q p : Nat) (s : State) : Out := run (.dspTaskDispatch k q p) s (dspTaskDispatch k q p s)

/-- R240: the loads of a task end: program, X and Y words are in place, and the task runs from PC 0. `rd` reads a
range of addresses. -/
def taskLoaded (rd : Nat → Nat → State → List Byte × State) (d : Nat) (s : State) : State :=
  let c := s.dsp d
  match c.task with
  | none => s
  | some t =>
    if c.phase ≠ 1 ∨ !s.dspRuns d then s
    else
      let w := s.taskWho d t
      let parts := [(t.prog, t.plen * 8, dspBase d + 0x40000), (t.src, t.inx * 32, dspWord d 0 0),
                    (t.src + 32 * t.inx, t.iny * 32, dspWord d 1 0)].filter fun x => x.2.1 != 0
      match parts.findSome? fun x => s.badAddr w false x.1 x.2.1 with
      | some a => s.taskAddr d a
      | none =>
        let s := s.meetAll (parts.map fun x => (x.1, x.2.1))
        if parts.any fun x => s.rangePoison x.1 x.2.1 then s.taskPoison d
        else
          let s := parts.foldl (fun s x => let (data, s) := rd x.1 x.2.1 s; s.put 0 x.2.2 data) s
          s.setDsp d { c with phase := 2, pc := 0 }

/-- R240, R241: the output copy of an ended task ends: X words, then Y words, with their poison; then its record. -/
def dspOutputCopyEnd (d : Nat) (s : State) : State :=
  let c := s.dsp d
  match c.task with
  | none => s
  | some t =>
    if c.phase ≠ 3 ∨ s.dieDown (24 + d / 64) then s
    else
      let n := (t.outx + t.outy) * 32
      let cyc := dspCycles c.t0 c.t1
      match (if n = 0 then none else s.badAddr (s.taskWho d t) true t.dst n) with
      | some a => ((s.addrFault (s.taskWho d t) a).dspFree d).taskRecord t c.basin 2 cyc (some c.tick1)
      | none =>
        let s := (s.meet (dspWord d 0 0) (t.outx * 32)).meet (dspWord d 1 0) (t.outy * 32)
        let bytes := fun (a n : Nat) => (List.range n).map fun i => (s.rd (a + i), s.linePoison ((a + i) / 64))
        let data := bytes (dspWord d 0 0) (t.outx * 32) ++ bytes (dspWord d 1 0) (t.outy * 32)
        let s := (lineStores t.dst data).foldl (fun s x => match x with
          | .store a b p => s.put c.basin a b p
          | _ => s) s
        (s.dspFree d).taskRecord t c.basin 0 cyc (some c.tick1)

/-- R239: a task has held its core for more DSP cycles than its BUDGET. -/
def dspTaskBudgetExceeded (d : Nat) (s : State) : State :=
  let c := s.dsp d
  match c.task with
  | none => s
  | some t => if t.budget < dspCycles c.t0 s.tmb.clk then s.taskKill d 4 else s

def execDspTaskBudgetExceeded (d : Nat) (s : State) : Out := run (.dspTaskBudgetExceeded d) s (dspTaskBudgetExceeded d s)

/-- R224: at the next tick after a fence the pair's spare, in service and not yet mapped, takes the core's position, in the lane
that the running frame gives it. -/
def dspSpareMap (n pair : Nat) (s : State) : State :=
  let sp := n * 64 + pair * 32 + 31
  let sub := if pair = 0 then F.RDP_SPARE.SUB0 else F.RDP_SPARE.SUB1
  let valid := if pair = 0 then F.RDP_SPARE.VALID0 else F.RDP_SPARE.VALID1
  match (List.range 31).find? fun i => (s.dsp (n * 64 + pair * 32 + i)).fenceTick.any fun t => decide (t < s.tickNo) with
  | none => s
  | some i =>
    let d := n * 64 + pair * 32 + i
    if s.flag valid n || !s.dspRuns sp then s
    else
      let s := s.modDsp d fun c => { c with fenceTick := none }
      let s := (s.setFld sub n (d % 64)).setFld valid n 1
      let radio := match (s.cluster (d / 16)).mask with
        | some m => bit m (d % 16)
        | none => true
      let s := (s.setFld F.RDP_CORE_STATUS.SPARE sp 1).setFld F.RDP_CORE_STATUS.LANE sp (b2n radio)
      s.journal 4 2 (unitSrc (dspUnit d)) (sp % 64) true

def execDspSpareMap (n pair : Nat) (s : State) : Out := run (.dspSpareMap n pair) s (dspSpareMap n pair s)

/-- Address of the slot of tick t in cluster k's tick-program table (R242). -/
def State.dspSlotAddr (s : State) (k t : Nat) : Nat := s.fld F.RDP_CLk_TPROG.BASE k * 16384 + t % 1024 * 16

/-- The slot of tick t in cluster k's tick-program table (R242, Table 8-12), where it may be used: its radio mask. A slot
that holds the tick but may not be used counts as false, another one as true (a miss). -/
def State.dspSlot (s : State) (k t : Nat) : Bool × Option Nat :=
  let a := s.dspSlotAddr k t
  let v := s.readNat a 16
  let there := match place a with
    | .rsram n _ => n == k / 4 && !s.linePoison (a / 64)
    | _ => false
  let miss := there && (!bit v 96 || bits v 63 0 != t)
  let good := there && !miss && bits v 87 80 == bits v 95 88 && bits v 127 97 == 0 && !(k % 2 == 1 && bit v 79)
  (miss, if good then some (bits v 79 64) else none)

/-- R242: in the reference period 8,000 ns before a tick, also before the first one after RUN (R51), cluster k reads the slot of
that tick. -/
def dspTickProgramRead (k : Nat) (s : State) : State :=
  let m := s.cluster k
  match s.gey.next with
  | none => s
  | some at' =>
    if m.read || decide (s.now + 8000 < at') || s.dieDown (24 + k / 4) then s
    else if !s.flag F.RDP_CLk_TPROG.EN k then s.setCluster k { m with read := true, next := none }
    else
      let t := s.tickNo + 1
      let s := s.meet (s.dspSlotAddr k t) 16
      let (miss, mask) := s.dspSlot k t
      let s := s.setCluster k { m with read := true, next := mask }
      if mask.isSome then s
      else ((if miss then s.incFld F.RDP_CLk_TSTAT.MISS k else s.incFld F.RDP_CLk_TSTAT.BAD k).workCells [k / 4] 0).raise (clusterSrc k 0)
        { mech := 13, level := 1, data := t % 2 ^ 16, ext := true, xdata := t }

def execDspTickProgramRead (k : Nat) (s : State) : Out := run (.dspTickProgramRead k) s (dspTickProgramRead k s)

/-! Queue control (Table 6-9) -/

/-- A context, a core or a re-run list holds a command of the queue, or entries are pending. -/
def State.queueBusy (s : State) (q : Nat) : Bool :=
  s.waitingIn q != 0 ||
    (if q < 192 then (s.held4 (q / 8)).any (fun (_, x) => x.cmd.q == q) || (s.core (q / 8)).rerun.any (·.q == q)
     else if q < 320 then ((s.clusterCores (clusterOf q)).any fun d => (s.dsp d).task.any (·.q == q)) ||
       (s.cluster (clusterOf q)).rerun.any (·.q == q)
     else !(s.engine (q - 320)).isEmpty)

/-- The effect of one write of MXC_Qq_CTRL: EN, and the owner, size and share where they may change (Table 6-9, R184,
R202, R269). -/
def queueCtrl (q v : Nat) (s : State) : State :=
  let zero := q < 192 ∧ q % 8 = 0 ∨ 320 ≤ q ∨ (192 ≤ q ∧ q % 8 = 0)
  let b := s.fld F.MXC_Qq_CTRL.BASIN q
  let nb := bits v 8 1
  let share := min (bits v 24 14) 1024
  let moved := !decide zero && b != nb
  if moved && (s.queueBusy q || !s.building b || !s.building nb) then s
  else if !decide zero && share != s.fld F.MXC_Qq_CTRL.SHARE q && !s.building nb then s
  else
    let s := s.when moved fun s => s.setFld F.MXC_Qq_CTRL.BASIN q nb
    let s := s.setFld F.MXC_Qq_CTRL.LOG2SIZE q (if 320 ≤ q then 6 else clamp 4 16 (bits v 13 9))
    let s := s.when (!decide zero) fun s => s.setFld F.MXC_Qq_CTRL.SHARE q share
    if bit v 0 then s.setFld F.MXC_Qq_CTRL.EN q 1
    else (s.setFld F.MXC_Qq_CTRL.EN q 0).setFld F.MXC_Qq_STATUS.QERR q 0

/-- R184: a write of MXC_Qq_CTRL with EN 1. -/
def queueEnable (q : Nat) (v : BitVec 32) (s : State) : State := queueCtrl q (putBit v.toNat 0 true) s

def execQueueEnable (q : Nat) (v : BitVec 32) (s : State) : Out := run (.queueEnable q v) s (s.wr .MXC_Qq_CTRL q (queueEnable q v))

/-- R184: a write of MXC_Qq_CTRL with EN 0 stops dispatch and clears QERR. -/
def queueDisable (q : Nat) (v : BitVec 32) (s : State) : State := queueCtrl q (putBit v.toNat 0 false) s

def execQueueDisable (q : Nat) (v : BitVec 32) (s : State) : Out := run (.queueDisable q v) s (s.wr .MXC_Qq_CTRL q (queueDisable q v))

/-- R182: a write of MXC_Qq_CTRL that names the owner. -/
def queueBasinWrite (q : Nat) (v : BitVec 32) (s : State) : State := queueCtrl q v.toNat s

def execQueueBasinWrite (q : Nat) (v : BitVec 32) (s : State) : Out := run (.queueBasinWrite q v) s (s.wr .MXC_Qq_CTRL q (queueBasinWrite q v))

end Sys2Proof.Machine
end

