-- ==== Sys2Proof/Machine/Engines.lean ====
section
/-! DEFINITION. The radio engines (R247 to R252, R366), the CRC units (R254 to R258), equalisation (R260) and
the rings of the GFSK banks (Table 8-26). Engine e of RDn has index 18n + e, its queue 320 + 18n + e, and unit e of block 4 of the die
(log entry 22); CRC unit u of RDn has index 16n + u. -/

namespace Sys2Proof.Machine

/-- A byte offset in the radio SRAM of RDn (Table 1-8). -/
def rsAddr (n ofs : Nat) : Nat := 0x8100000000 + n * 0x2000000 + ofs

/-- The unit of an engine (log entry 22). -/
def engUnit (n e : Nat) : FUnit := .tile (24 + n) 4 e

/-- The source of a radio die's CRC events (Table 14-5; log entry 30). -/
def crcSrc (n : Nat) : Nat := clusterSrc (4 * n) 9

/-! CRC units -/

/-- The effect of one write of CRC_Uu_CTRL (Table 8-23, R254): while ARM is 1 only ARM changes; a reserved tap, and
APPEND off the encoder taps, are not armed. -/
def crcCtrl (u v : Nat) (s : State) : State :=
  if s.flag F.CRC_Uu_CTRL.ARM u then s.setFld F.CRC_Uu_CTRL.ARM u (b2n (bit v 20))
  else
    let s := [F.CRC_Uu_CTRL.POLY, F.CRC_Uu_CTRL.MODE, F.CRC_Uu_CTRL.TAP, F.CRC_Uu_CTRL.CORE, F.CRC_Uu_CTRL.CH,
        F.CRC_Uu_CTRL.BLOCK, F.CRC_Uu_CTRL.CONT, F.CRC_Uu_CTRL.TAG].foldl
      (fun s f => State.setFld s f u (bits v f.hi f.lo)) s
    let tap := bits v 9 5
    let enc := decide ((8 ≤ tap ∧ tap < 16) ∨ tap = 18 ∨ tap = 19)
    if bit v 20 && decide (tap < 22) && (bits v 4 3 != 2 || enc) then
      (s.setFld F.CRC_Uu_CTRL.ARM u 1).setCrcU u { s.crcU u with primed := false, clk := s.tmb.clk, tick := none }
    else s

/-- R254: a write of CRC_Uu_CTRL with ARM 1. -/
def crcArm (n u : Nat) (v : Word) (s : State) : State := crcCtrl (16 * n + u) (putBit v.toNat 20 true) s

def execCrcArm (n u : Nat) (v : Word) (s : State) : Out := run (.crcArm n u v) s (s.wr .CRC_Uu_CTRL (16 * n + u) (crcArm n u v))

/-- R254: a write of CRC_Uu_CTRL with ARM 0. -/
def crcDisarm (n u : Nat) (v : Word) (s : State) : State := crcCtrl (16 * n + u) (putBit v.toNat 20 false) s

def execCrcDisarm (n u : Nat) (v : Word) (s : State) : Out := run (.crcDisarm n u v) s (s.wr .CRC_Uu_CTRL (16 * n + u) (crcDisarm n u v))

/-- R255, R257: the running frame of a unit ends: `l`, the bits that have passed, is the whole frame, or a transfer has stopped
inside it. A frame of a job that is not ended so ends with its job. -/
def crcFrameEnd (n u : Nat) (l : List Bool) (pois complete : Bool) (s : State) : State :=
  let x := 16 * n + u
  let c := s.crcU x
  if s.dieDown (24 + n) then s
  else if c.stopped then
    if complete then s
    else ((s.crcFrame x l pois false).setFld F.CRC_Uu_CTRL.BUSY x 0).setCrcU x { c with stopped := false }
  else match c.frames with
    | f :: _ => if complete && l == f.1 && pois == f.2 then s.crcNext x else s
    | [] => s

def execCrcFrameEnd (n u : Nat) (l : List Bool) (p c : Bool) (s : State) : Out :=
  run (.crcFrameEnd n u l p c) s (crcFrameEnd n u l p c s)

/-- R256: a write of CRC_Uu_RUN; ignored while BUSY is 1. -/
def crcRunWrite (n u : Nat) (v : Word) (s : State) : State :=
  let x := 16 * n + u
  if s.flag F.CRC_Uu_CTRL.BUSY x then s
  else (s.setFld F.CRC_Uu_RUN.VALUE x (bits v.toNat 31 0)).setFld F.CRC_Uu_RUN.BITS x (bits v.toNat 63 32)

def execCrcRunWrite (n u : Nat) (v : Word) (s : State) : Out := run (.crcRunWrite n u v) s (s.wr .CRC_Uu_RUN (16 * n + u) (crcRunWrite n u v))

/-! Safety messages (R258) -/

/-- The CRC-8 of a message: over DATAID, most significant byte first, and bytes 0 to n − 2. -/
def State.safeOk (s : State) (x : Nat) (m : List Byte) : Bool :=
  let id := s.fld F.CRC_Uu_SAFE.DATAID x
  let l := crcStream 7 ([BitVec.ofNat 8 (id / 256), BitVec.ofNat 8 id] ++ m.take (m.length - 1))
  let xo := s.fld F.CRC_Uu_INIT.XOROUT x % 256
  decide (2 ≤ m.length) && crcuOver 7 (s.fld F.CRC_Uu_INIT.INIT x % 256) l ^^^ xo == (m.getD (m.length - 1) 0).toNat

/-- A message is accepted. -/
def State.safeAccept (s : State) (x cnt : Nat) : State :=
  ((s.setFld F.CRC_Uu_SAFE.LAST x cnt).setFld F.CRC_Uu_CTRL.RESULT x 1).setCrcU x
    { s.crcU x with primed := true, clk := s.tmb.clk, tick := some s.tickNo }

/-- A message is discarded, or none came in time: counted and reported. -/
def State.safeError (s : State) (n u : Nat) (primed : Bool) : State :=
  let x := 16 * n + u
  let s := (s.incFld F.CRC_Uu_SAFE.ERRCNT x).setCrcU x { s.crcU x with primed := primed }
  s.raise (crcSrc n) { mech := if u = 15 then 10 else 0, data := u }

/-- R258, Table 8-13: a message on the die's safety-message channel. -/
def safetyMessage (n u : Nat) (m : List Byte) (s : State) : State :=
  let x := 16 * n + u
  if !s.flag F.CRC_Uu_CTRL.ARM x || s.fld F.CRC_Uu_CTRL.MODE x != 3 || s.fld F.CRC_Uu_CTRL.TAP x != 21 || s.dieDown (24 + n) then s
  else
    let cnt := (m.getD 0 0).toNat
    let d := (cnt + 256 - s.fld F.CRC_Uu_SAFE.LAST x) % 256
    let gap := if u = 15 && bit (s.rdFault n).sctl 0 then 0 else s.fld F.CRC_Uu_SAFE.MAXGAP x
    let fail := s.setFld F.CRC_Uu_CTRL.RESULT x 2
    if !s.safeOk x m then fail.safeError n u (s.crcU x).primed
    else if !(s.crcU x).primed then s.safeAccept x cnt
    else if d = 0 then fail.safeError n u true
    else if d = 1 then s.safeAccept x cnt
    else if d ≤ gap + 1 then (s.incFld F.CRC_Uu_SAFE.SKIP x (d - 1)).safeAccept x cnt
    else fail.safeError n u false

def execSafetyMessage (n u : Nat) (m : List Byte) (s : State) : Out := run (.safetyMessage n u m) s (safetyMessage n u m s)

/-- R258: no message has been accepted for TIMEOUT µs. -/
def safetyTimeout (n u : Nat) (s : State) : State :=
  let x := 16 * n + u
  let t := s.fld F.CRC_Uu_SAFE.TIMEOUT x
  if s.flag F.CRC_Uu_CTRL.ARM x && s.fld F.CRC_Uu_CTRL.MODE x == 3 && t != 0 &&
      decide ((s.crcU x).clk * 64 + t * 10000 ≤ s.tmb.clk * 64) then
    (s.setCrcU x { s.crcU x with clk := s.tmb.clk }).safeError n u (s.crcU x).primed
  else s

def execSafetyTimeout (n u : Nat) (s : State) : Out := run (.safetyTimeout n u) s (safetyTimeout n u s)

/-! Engine jobs -/

/-- Fields common to Tables 8-9 and 8-10. -/
def jIn (d : Nat) : Nat := bits d 88 64
def jOut (d : Nat) : Nat := bits d 120 96
def jTag (d : Nat) : Nat := bits d 143 128
def jCplw (d : Nat) : Nat := bits d 155 144

/-- The job at the head of engine e of RDn where it may start: it has not run, its queue is enabled and its unit in
service (R247; log entry 60). -/
def State.engHead (s : State) (n e : Nat) : Option EngJob :=
  match s.engine (18 * n + e) with
  | j :: _ => if j.result.isNone && s.flag F.MXC_Qq_CTRL.EN (320 + 18 * n + e) && !s.unitOut (engUnit n e) then some j else none
  | [] => none

/-- The head job has run: its record waits to be written, but for TICK and the check of the CRC unit that serves it (Table 8-11). -/
def State.engDone (s : State) (n e : Nat) (j : EngJob) (status pchk crc used nfail cycles : Nat) (unit : Option Nat := none) : State :=
  let x := 18 * n + e
  let r := jTag j.desc + status * 2 ^ 16 + pchk * 2 ^ 20 + crc * 2 ^ 21 + used % 32 * 2 ^ 23 + nfail % 2 ^ 16 * 2 ^ 32 +
    cycles % 2 ^ 32 * 2 ^ 64
  let s := s.setFld F.MXC_Qq_STATUS.HEAD (320 + x) (s.fld F.MXC_Qq_STATUS.HEAD (320 + x) + 1)
  (s.incFld F.MXC_Qq_CNT.DISPATCHED (320 + x)).setEngine x ({ j with result := some r, crcU := unit } :: (s.engine x).drop 1)

/-- An injection is armed on an engine: the first block of its next job fails its check (R380). -/
def State.engInj (s : State) (n e : Nat) : Bool := s.injArmed (24 + n) 9 (unitSrc (engUnit n e))

/-- An engine's self-check fails (R366): an event record names the engine. -/
def State.engBad (s : State) (n e : Nat) : State :=
  let src := unitSrc (engUnit n e)
  (s.injMade (24 + n) 9 src).detect (24 + n) 9 1 src 0 2 (s.engInj n e)

/-- A job ends with STATUS 6 because a line it read is poisoned: an event record names the engine (Table 12-4; log entry 90). -/
def State.engPoison (s : State) (n e : Nat) (on : Bool) : State :=
  s.when on fun s => (s.workCells [n] 3).report (clusterSrc (4 * n) 8) { data := unitSrc (engUnit n e) % 2 ^ 16 } (unitSrc (engUnit n e)) 2

/-- Z is a lifting size of NR (R248; log entry 61). -/
def liftOk (z : Nat) : Bool :=
  decide (z ≤ 384) && [2, 3, 5, 7, 9, 11, 13, 15].any fun a => (List.range 8).any fun j => a * 2 ^ j == z

/-- Systematic columns and sent columns of base graph 1 (false) or 2 (true) (R248). -/
def ldpcK (bg : Bool) : Nat := if bg then 10 else 22
def ldpcN (bg : Bool) : Nat := if bg then 50 else 66
def ldpcRows (bg : Bool) : Nat := if bg then 42 else 46

/-- A row of the base graph: number of the entry, column and shift of each of its entries. -/
abbrev LdpcRow := List (Nat × Nat × Nat)

/-- The rows of a base graph in order. -/
def ldpcTable (bg : Bool) (z : Nat) : List LdpcRow :=
  let g := (Config.ldpcGraph (b2n bg) z).zipIdx
  (List.range (ldpcRows bg)).map fun r => (g.filter fun x => x.1.1 == r).map fun x => (x.2, x.1.2.1, x.1.2.2)

/-- Check message and posterior index of each entry of row `r` in lifted check `j`. -/
def ldpcVars (z j : Nat) (r : LdpcRow) : List (Nat × Nat) := r.map fun (k, c, sh) => (k * z + j, c * z + (j + sh) % z)

/-- One lifted check (R249, steps 2 and 3) on the posteriors and the stored check messages. -/
def ldpcCheck (z j : Nat) (r : LdpcRow) (st : Array Int × Array Int) : Array Int × Array Int :=
  let vs := ldpcVars z j r
  let q := vs.map fun (m, v) => clampInt (-511) 511 (st.1.getD v 0 - st.2.getD m 0)
  (vs.zip q).zipIdx.foldl (fun st x =>
    let rest := q.eraseIdx x.2
    let mag := (rest.map Int.natAbs).foldl min 511 * 3 / 4
    let neg := (rest.filter (· < 0)).length % 2 == 1
    let m : Int := if neg then -((min mag 63 : Nat) : Int) else (min mag 63 : Nat)
    (st.1.setIfInBounds x.1.1.2 (clampInt (-511) 511 (x.1.2 + m)), st.2.setIfInBounds x.1.1.1 m)) st

/-- One iteration: every row in order. -/
def ldpcIter (z : Nat) (t : List LdpcRow) (st : Array Int × Array Int) : Array Int × Array Int :=
  t.foldl (fun st r => (List.range z).foldl (fun st j => ldpcCheck z j r st) st) st

/-- Every parity check holds on the hard decisions (R249, steps 4 and 5). -/
def ldpcParity (z : Nat) (t : List LdpcRow) (l : Array Int) : Bool :=
  t.all fun r => (List.range z).all fun j => ((ldpcVars z j r).filter fun v => decide (l.getD v.2 0 < 0)).length % 2 == 0

/-- Iterations until every check holds with ET, or the limit. -/
def ldpcRun (z : Nat) (t : List LdpcRow) (et : Bool) : Nat → Nat → Array Int × Array Int → Array Int × Nat
  | 0, used, st => (st.1, used)
  | f + 1, used, st =>
    let st := ldpcIter z t st
    if et && ldpcParity z t st.1 then (st.1, used + 1) else ldpcRun z t et f (used + 1) st

/-- One block decoded: its K − F bits, whether every parity check holds, and the iterations run (R249). -/
def ldpcBlock (bg : Bool) (z imax f : Nat) (et : Bool) (llr : List Byte) : List Bool × Bool × Nat :=
  let t := ldpcTable bg z
  let k := ldpcK bg * z
  let l : List Int := (List.range ((ldpcN bg + 2) * z)).map fun i =>
    if i < 2 * z then 0
    else if k - f ≤ i ∧ i < k then 127
    else max (-127) (sext 8 (llr.getD (i - 2 * z) 0).toNat)
  let (p, used) := ldpcRun z t et imax 0 (l.toArray, Array.replicate (t.flatten.length * z) 0)
  ((List.range (k - f)).map fun i => decide (p.getD i 0 < 0), ldpcParity z t p, used)

/-- An LDPC descriptor is legal for an engine of operation `op` and stays inside the radio SRAM (R248; log entry 62). -/
def ldpcLegal (d op inB outB : Nat) : Bool :=
  bits d 1 0 == op && liftOk (bits d 11 3) && decide (bits d 45 32 ≤ ldpcK (bit d 2) * bits d 11 3) &&
    decide (jIn d + bits d 63 48 * inB ≤ 2 ^ 25 ∧ jOut d + bits d 63 48 * outB ≤ 2 ^ 25)

/-- Write the outputs of a job's blocks, each with its poison (R252, R366). -/
def State.engWrite (s : State) (n : Nat) (d size : Nat) (blocks : List (List Bool × Bool)) : State :=
  blocks.zipIdx.foldl (fun s (b, i) => State.put s 0 (rsAddr n (jOut d + i * size)) (packBits b.1) b.2) s

/-- R249, R250, R252, R366: LDPC decoder e of RDn decodes the job at the head of its FIFO. -/
def ldpcDecodeJob (n e : Nat) (bad : List Nat) (s : State) : State :=
  match s.engHead n e with
  | none => s
  | some j =>
    let d := j.desc
    let bad := if s.engInj n e then 0 :: bad else bad
    let bg := bit d 2
    let z := bits d 11 3
    let f := bits d 45 32
    let inB := ldpcN bg * z
    let outB := (ldpcK bg * z - f + 7) / 8
    if 8 ≤ e then s
    else if !ldpcLegal d 0 inB outB then s.engDone n e j 3 0 0 0 0 0
    else
      let s := s.meet (rsAddr n (jIn d)) (bits d 63 48 * inB)
      let blk := (List.range (bits d 63 48)).map fun i =>
        let a := rsAddr n (jIn d + i * inB)
        (ldpcBlock bg z (bits d 16 12) f (bit d 17) (s.read a inB), s.rangePoison a inB, bad.contains i)
      let outs := blk.map fun b => (b.1.1, b.2.1 || b.2.2)
      let s := s.engWrite n d outB outs
      let s := s.when (blk.any (·.2.2)) fun s => s.engBad n e
      let s := s.engPoison n e (blk.any (·.2.1) && !blk.any (·.2.2))
      let u := bits d 22 19
      let on := bit d 18 && s.crcReady n u e (jTag d)
      let s := s.when on fun s => s.crcStart (16 * n + u) outs
      let (v, s) := s.fresh 16
      let cyc := (blk.map fun b => 6 + 19 * b.1.2.2).sum + v % 65
      s.engDone n e j (if outs.any (·.2) then 6 else 0) (b2n (blk.all (·.1.2.1))) (if bit d 18 && !on then 3 else 0)
        ((blk.map (·.1.2.2)).foldl max 0) (blk.filter fun b => !b.1.2.1).length cyc (if on then some (16 * n + u) else none)

def execLdpcDecodeJob (n e : Nat) (bad : List Nat) (s : State) : Out := run (.ldpcDecodeJob n e bad) s (ldpcDecodeJob n e bad s)

/-- The blocks an encoder takes in, each with its poison, as CRC unit u of its input sees them, and with APPEND the remainder after
each frame's last bit (R255): the blocks seen, and the blocks coded. -/
def State.encodeIn (s : State) (n u len : Nat) (on : Bool) (d inB cnt : Nat) : List (List Bool × Bool) × List (List Bool × Bool) :=
  let x := 16 * n + u
  let app := on && s.fld F.CRC_Uu_CTRL.MODE x == 2
  let p := s.fld F.CRC_Uu_CTRL.POLY x
  let w := if app then (crcPoly p).1 else 0
  let each := s.flag F.CRC_Uu_CTRL.BLOCK x
  let ins := (List.range cnt).map fun i =>
    let a := rsAddr n (jIn d + i * inB)
    let short := if each ∨ i + 1 = cnt then w else 0
    (unpackBits (s.read a inB) (len - short), s.rangePoison a inB)
  let tail := fun (r : Nat) => if app then crcBits p (r ^^^ s.crcXor x) else []
  if each then
    let r := ins.foldl (fun (r : Nat × List (List Bool × Bool)) b =>
      let t := crcuOver p r.1 b.1
      (if s.flag F.CRC_Uu_CTRL.CONT x then t else r.1, r.2 ++ [(b.1 ++ tail t, b.2)])) (s.crcFrom x, [])
    (ins, r.2)
  else
    let whole := tail (crcuOver p (s.crcFrom x) (ins.flatMap (·.1)))
    (ins, ins.zipIdx.map fun (b, i) => (if i + 1 = cnt then b.1 ++ whole else b.1, b.2))

/-- R248, R250, R252, R366: LDPC encoder e of RDn encodes the job at the head of its FIFO. -/
def ldpcEncodeJob (n e : Nat) (bad : List Nat) (s : State) : State :=
  match s.engHead n e with
  | none => s
  | some j =>
    let d := j.desc
    let bad := if s.engInj n e then 0 :: bad else bad
    let bg := bit d 2
    let z := bits d 11 3
    let k := ldpcK bg * z
    let len := k - bits d 45 32
    let inB := (len + 7) / 8
    let outB := (ldpcN bg * z + 7) / 8
    if e < 8 ∨ 16 ≤ e then s
    else if !ldpcLegal d 1 inB outB then s.engDone n e j 3 0 0 0 0 0
    else
      let cnt := bits d 63 48
      let u := bits d 22 19
      let s := s.meet (rsAddr n (jIn d)) (cnt * inB)
      let on := bit d 18 && s.crcReady n u e (jTag d)
      let (seen, ins) := s.encodeIn n u len on d inB cnt
      let outs := ins.zipIdx.map fun (b, i) =>
        let c := Config.ldpcEncode (b2n bg) z (b.1 ++ List.replicate (k - len) false)
        ((List.range (ldpcN bg * z)).map fun i => c.getD i false, b.2 || bad.contains i)
      let s := s.engWrite n d outB outs
      let s := s.when ((List.range cnt).any bad.contains) fun s => s.engBad n e
      let s := s.engPoison n e (ins.any (·.2) && !(List.range cnt).any bad.contains)
      let s := s.when on fun s => s.crcStart (16 * n + u) seen
      let (v, s) := s.fresh 16
      s.engDone n e j (if outs.any (·.2) then 6 else 0) 1 (if bit d 18 && !on then 3 else 0) 0 0 (118 * cnt + v % 65)
        (if on then some (16 * n + u) else none)

def execLdpcEncodeJob (n e : Nat) (bad : List Nat) (s : State) : Out := run (.ldpcEncodeJob n e bad) s (ldpcEncodeJob n e bad s)

/-! Polar jobs (R251): what the rule takes from NR polar coding is that of 3GPP TS 38.212 (log entry 11) -/

/-- POLY of the check of a polar block (Table 8-10). -/
def polarPoly (kind a : Nat) : Nat := if kind = 2 then (if a ≤ 19 then 5 else 4) else 2

/-- The check attached to a block: for DCI over 24 ones and the bits, its last 16 bits masked with the RNTI. -/
def polarCheck (kind rnti a : Nat) (l : List Bool) : List Bool :=
  let p := polarPoly kind a
  let v := crcuOver p 0 (if kind = 0 then List.replicate 24 true ++ l else l)
  crcBits p (if kind = 0 then v ^^^ rnti % 2 ^ 16 else v)

/-- Code blocks of a job: two for a long UCI. -/
def polarSegs (kind a e : Nat) : Nat := if kind = 2 ∧ (1013 ≤ a ∨ (360 ≤ a ∧ 1088 ≤ e)) then 2 else 1

/-- N for K coded bits, check included, and E sent bits. -/
def polarN (kind k e : Nat) : Nat :=
  let c := ceilLog2 e
  let n1 := if 8 * e ≤ 9 * 2 ^ (c - 1) ∧ 16 * k < 9 * e then c - 1 else c
  2 ^ max 5 (min n1 (min (ceilLog2 (8 * k)) (if kind = 2 then 10 else 9)))

/-- Payload bits, coded bits and sent bits of one block of a job, and its N. -/
def polarSize (kind a e : Nat) : Nat × Nat × Nat × Nat :=
  let m := polarSegs kind a e
  let pay := (a + m - 1) / m
  let k := pay + (crcPoly (polarPoly kind a)).1
  (pay, k, e / m, polarN kind k (e / m))

/-- A job's payload cut into its blocks; the first block of an odd payload begins with a 0. -/
def polarCut (kind a e : Nat) (l : List Bool) : List (List Bool) :=
  let (pay, _) := polarSize kind a e
  let m := polarSegs kind a e
  let l := List.replicate (m * pay - a) false ++ l
  (List.range m).map fun i => (l.drop (i * pay)).take pay

/-- The bits an encoder sends for a payload. -/
def polarEncode (kind rnti a e : Nat) (l : List Bool) : List Bool :=
  let (_, _, ei, n) := polarSize kind a e
  let out := (polarCut kind a e l).flatMap fun b =>
    let c := Config.polarCode kind n ei (b ++ polarCheck kind rnti a b)
    (List.range ei).map fun i => c.getD i false
  (List.range e).map fun i => out.getD i false

/-- One block decoded: the likeliest path whose check holds, or the likeliest of all; and whether the check holds. -/
def polarBlock (kind rnti a e list : Nat) (llr : List Int) : List Bool × Bool :=
  let (pay, k, _, n) := polarSize kind a e
  let paths := (Config.polarPaths kind n list k llr).map fun p => (List.range k).map fun i => p.getD i false
  let ok := fun (p : List Bool) => p.drop pay == polarCheck kind rnti a (p.take pay)
  match paths.find? ok with
  | some p => (p.take pay, true)
  | none => ((paths.headD (List.replicate k false)).take pay, false)

/-- The payload a decoder gives, and whether the check of every block holds. -/
def polarDecode (kind rnti a e list : Nat) (llr : List Int) : List Bool × Bool :=
  let (pay, _, ei, _) := polarSize kind a e
  let m := polarSegs kind a e
  let b := (List.range m).map fun i => polarBlock kind rnti a e list ((llr.drop (i * ei)).take ei)
  ((b.flatMap (·.1)).drop (m * pay - a), b.all (·.2))

/-- The most DSP cycles a polar job takes (R251). -/
def polarCycles (dec : Bool) (n list : Nat) : Nat :=
  if !dec then 200
  else
    let full := if n ≤ 512 then 1500 else 3000
    if list ≤ 4 then full / 2 else full

/-- R251, R252, R366: polar engine e (16 or 17) of RDn runs the job at the head of its FIFO. -/
def polarJob (n e : Nat) (bad : Bool) (s : State) : State :=
  match s.engHead n e with
  | none => s
  | some j =>
    let d := j.desc
    let bad := bad || s.engInj n e
    let dec := bits d 1 0 == 0
    let kind := bits d 3 2
    let rnti := bits d 47 32
    let a := bits d 13 4
    let el := bits d 27 14
    let list := 2 ^ bits d 29 28
    let inB := if dec then el else (a + 7) / 8
    let outB := if dec then (a + 7) / 8 else (el + 7) / 8
    if e < 16 then s
    else if 2 ≤ bits d 1 0 ∨ kind = 3 ∨ 2 ^ 25 < jIn d + inB ∨ 2 ^ 25 < jOut d + outB then s.engDone n e j 3 0 0 0 0 0
    else
      let src := rsAddr n (jIn d)
      let s := s.meet src inB
      let pin := s.rangePoison src inB
      let tap := if dec then e else e + 2
      let unit := (List.range 16).find? fun u => s.crcReady n u tap (jTag d)
      let (seen, ins) := s.encodeIn n (unit.getD 0) a unit.isSome d inB 1
      let r := if dec then polarDecode kind rnti a el list ((s.read src inB).map fun b => max (-127) (sext 8 b.toNat))
        else (polarEncode kind rnti a el (ins.flatMap (·.1)), true)
      let s := s.engWrite n d outB [(r.1, pin || bad)]
      let s := (s.when bad fun s => s.engBad n e).engPoison n e (pin && !bad)
      let s := match unit with
        | some u => s.crcStart (16 * n + u) (if dec then [(r.1, pin || bad)] else seen)
        | none => s
      let (v, s) := s.fresh 16
      s.engDone n e j (if pin || bad then 6 else 0) (b2n r.2) 0 0 (b2n (!r.2))
        (v % (polarCycles dec (polarSize kind a el).2.2.2 list + 1)) (unit.map (16 * n + ·))

def execPolarJob (n e : Nat) (bad : Bool) (s : State) : Out := run (.polarJob n e bad) s (polarJob n e bad s)

/-- R247, R252: a job that has run ends: its record goes to the Y word of the posting core, whose ENG source asserts. -/
def engineJobEnd (n e : Nat) (s : State) : State :=
  match s.engine (18 * n + e) with
  | ⟨d, c, _, some r, u⟩ :: l =>
    let (s, crc) := match u with
      | some u => s.crcEnd u
      | none => (s, 0)
    let s := s.setEngine (18 * n + e) l
    (s.put 0 (dspWord c 1 (jCplw d)) (bytesOf 16 (r + crc * 2 ^ 21 + s.tickNo % 2 ^ 32 * 2 ^ 96))).dspAssert c 4
  | _ => s

def execEngineJobEnd (n e : Nat) (s : State) : Out := run (.engineJobEnd n e) s (engineJobEnd n e s)

/-! Equalisation, and the rings of the radio dies -/

/-- R260: a slot boundary of local cell j of RDn; a changed EQ applies from here. -/
def eqChange (n j : Nat) (s : State) : State :=
  { s with eqNow := SMap.set false s.eqNow (96 * n + j) (s.flag F.RDP_CELL_CFGj.EQ (96 * n + j)) }

def execEqChange (n j : Nat) (s : State) : Out := run (.eqChange n j) s (eqChange n j s)

/-- Producer and consumer counts of a ring's control line. -/
def State.ringProd (s : State) (base : Nat) : Nat := s.readNat base 4
def State.ringCons (s : State) (base : Nat) : Nat := s.readNat (base + 4) 4

/-- Chunk i of a GFSK ring of 2^LOG2 chunks (Table 8-26). -/
def gfkChunk (base log2 i : Nat) : Nat := base + 64 + i % 2 ^ log2 * 16

end Sys2Proof.Machine
end

