-- ==== Sys2Proof/Machine/Fronthaul.lean ====
section
/-! DEFINITION. The GFSK modems (R262 to R267), the fronthaul ports, the flow table and the switch of each edge die (R270 to
R297), and the network
queue of its switch port 4 (R424). Local port j of EDk is device port 4k + j. -/

namespace Sys2Proof.Machine

/-! Formats (Table 9-1) -/

/-- Width, bytes per PRB, and largest MAXPRB of an IQW code. -/
def iqWidth (w : Nat) : Nat := if w = 0 then 16 else if w = 1 then 9 else if w = 2 then 12 else 14
def iqBytes (w : Nat) : Nat := if w = 0 then 48 else if w = 1 then 28 else if w = 2 then 37 else 43
def iqMax (w : Nat) : Nat := if w = 0 then 191 else if w = 1 then 273 else if w = 2 then 248 else 213

/-- The unsigned value of bits, most significant first. -/
def natMsb (l : List Bool) : Nat := natOfBits l.reverse

/-- The CI16 bytes of a received PRB (R274, R275). -/
def prbIn (w : Nat) (d : List Byte) : List Byte :=
  let e := if w = 0 then 0 else (d.getD 0 0).toNat % 16
  let m := unpackBits (if w = 0 then d else d.drop 1) (24 * iqWidth w)
  (List.range 24).flatMap fun i =>
    bytesOf 2 (wrap 16 (clampInt (-32768) 32767 (sext (iqWidth w) (natMsb ((m.drop (i * iqWidth w)).take (iqWidth w))) * (2 ^ e : Nat))))

/-- The smallest exponent for which every shifted part fits W bits (R275). -/
def bfpExp (w : Nat) (p : List Int) : Nat :=
  ((List.range 16).find? fun e => p.all fun v =>
    decide (-(2 ^ (iqWidth w - 1) : Nat) ≤ v / (2 ^ e : Nat) ∧ v / (2 ^ e : Nat) < (2 ^ (iqWidth w - 1) : Nat))).getD 15

/-- The bytes sent for the CI16 bytes of a PRB (R274, R275). -/
def prbOut (w : Nat) (d : List Byte) : List Byte :=
  let p := (List.range 24).map fun i => sext 16 (natOf (slice d (2 * i) 2))
  let e := if w = 0 then 0 else bfpExp w p
  let m := packBits (p.flatMap fun v =>
    let u := wrap (iqWidth w) (v / (2 ^ e : Nat))
    (List.range (iqWidth w)).map fun j => bit u (iqWidth w - 1 - j))
  if w = 0 then m else BitVec.ofNat 8 e :: m

/-! Flow entries (Table 9-14) -/

/-- The entry is one R276 does not ignore for its own fields. -/
def flowOk (v : Nat) : Bool :=
  flw v F.FHL_FLOWf.KIND != 3 && flw v F.FHL_FLOWf.VID != 0 && flw v F.FHL_FLOWf.VID != 4095 &&
    decide (1 ≤ flw v F.FHL_FLOWf.NPRB ∧ flw v F.FHL_FLOWf.NPRB ≤ 273 ∧ 1 ≤ flw v F.FHL_FLOWf.MAXPRB ∧
      flw v F.FHL_FLOWf.MAXPRB ≤ iqMax (flw v F.FHL_FLOWf.IQW))

/-- The key of an entry (R276). -/
def flowKey (v : Nat) : Nat × Nat × Nat × Nat :=
  (flw v F.FHL_FLOWf.PORT, flw v F.FHL_FLOWf.EAXC, flw v F.FHL_FLOWf.DIR, flw v F.FHL_FLOWf.KIND)

/-- Instances of a register kind in which the field at bit `lo` differs from its reset value. -/
def State.instances (s : State) (k : RegKind) (lo : Nat) : List Nat :=
  s.regs.filterMap fun x => if x.1 % 256 = lo ∧ x.1 / 256 % 512 = k.code then some (x.1 / 256 / 512) else none

/-- R276, R277: the ports of edge die k read the flow table at a tick; a flow with a new numerology counts its symbols anew. -/
def State.flowLatch (s : State) (k : Nat) : State :=
  let all := ((s.instances .FHL_FLOWf 16).filter fun x => x / 4096 == k).map fun x => (x % 4096, s.regBits .FHL_FLOWf x)
  let good := all.filter fun x => flowOk x.2
  let used := good.foldl (fun (l : List (Nat × Nat)) x =>
    if l.any fun y => flowKey y.2 == flowKey x.2 then l else l ++ [x]) []
  let s := s.when (used.length != good.length) fun s => s.setFld F.FHL_SW_STATUS.FLOW_DUP k 1
  let s := s.when (good.length != all.length) fun s => s.setFld F.FHL_SW_STATUS.FLOW_ERR k 1
  s.modEdge k fun e =>
    { e with
      flows := used
      fst := (e.fst.filter fun x => used.any fun y => y.1 == x.1 && e.flows.any (·.1 == x.1)).map fun x =>
        if (used.find? (·.1 == x.1)).map (flw ·.2 F.FHL_FLOWf.MU) = (e.flows.find? (·.1 == x.1)).map (flw ·.2 F.FHL_FLOWf.MU) then x
        else (x.1, { x.2 with done := none, ready := none, got := [] }) }

/-- The entry of flow f of edge die k in force. -/
def State.flow (s : State) (k f : Nat) : Option Nat := ((s.edge k).flows.find? fun x => x.1 == f).map (·.2)

def State.flowSt (s : State) (k f : Nat) : FlowSt := SMap.get {} (s.edge k).fst f
def State.modFlow (s : State) (k f : Nat) (g : FlowSt → FlowSt) : State :=
  s.modEdge k fun e => { e with fst := SMap.set {} e.fst f (g (SMap.get {} e.fst f)) }

/-- A flow's fault sets FH in the words of its cells, on the radio die the flow names (R381); where one carries it from the
tick before, the tick's event recommends rung 2 (R392). -/
def State.flowCells (s : State) (k f : Nat) : State :=
  match s.flow k f with
  | some v =>
    let n := flw v F.FHL_FLOWf.RD
    let r := s.cellsOf n
    let again := decide (0 < s.tickNo) && r.1.any fun j => r.2.cfwHas n j (s.tickNo - 1) 5
    let s := r.1.foldl (fun s j => State.cfwFlag s n j s.tickNo 5) r.2
    s.when again fun s => s.modFlow k f fun x => { x with twice := true }
  | none => s

/-- Counts of a flow (Table 9-13) and of its running tick (R286). -/
def State.flowEarly (s : State) (k f : Nat) : State :=
  ((s.flowCells k f).incFld F.FHL_FCNTf.EARLY_NRDY (4096 * k + f)).modFlow k f fun x => { x with ev := (x.ev.1 + 1, x.ev.2.1, x.ev.2.2), off := x.off + 1 }
def State.flowLate (s : State) (k f : Nat) : State :=
  ((s.flowCells k f).incFld F.FHL_FCNTf.LATE_POIS (4096 * k + f)).modFlow k f fun x => { x with ev := (x.ev.1, x.ev.2.1 + 1, x.ev.2.2), off := x.off + 1 }
def State.flowBad (s : State) (k f : Nat) : State :=
  ((s.flowCells k f).incFld F.FHL_FCNTf.BADHDR (4096 * k + f)).modFlow k f fun x => { x with ev := (x.ev.1, x.ev.2.1, x.ev.2.2 + 1) }

/-- The event source of a device port: 0 flows, 1 switch (Table 14-5; log entry 63). -/
def portSrc (p w : Nat) : Nat := 0x600 + 4 * p + w

/-- R286: at the end of a tick a flow that counted an error writes one event record; it names the flow and its counts. -/
def State.flowEvents (s : State) (k : Nat) : State :=
  (s.edge k).fst.foldl (fun s (f, x) =>
    if x.ev = (0, 0, 0) then s
    else
      let p := 4 * k + (match s.flow k f with
        | some v => flw v F.FHL_FLOWf.PORT
        | none => 0)
      let xdata := x.ev.1 % 2 ^ 16 + x.ev.2.1 % 2 ^ 16 * 2 ^ 16 + x.ev.2.2 % 2 ^ 16 * 2 ^ 32
      (State.report s (portSrc p 0) { mech := 14, level := 1, data := f, ext := true, xdata } (unitSrc (.region (28 + k)))
        (if x.twice then 2 else 0)).modFlow k f fun y => { y with ev := (0, 0, 0), twice := false }) s

/-- The port works: enabled, linked, and neither it nor its die fenced or off. -/
def State.portUp (s : State) (p : Nat) : Bool :=
  s.flag F.FHL_Pp_CTRL.EN p && s.flag F.FHL_Pp_STATUS.LINK p && !s.flag F.FHL_Pp_STATUS.FENCED p && !s.dieOut (28 + p / 4)

/-- The device may transmit on the fronthaul (R373, R376). -/
def State.fhSends (s : State) : Bool := !s.flt.wdtStop

/-- Radio transmission is on (R373). -/
def State.radioOn (s : State) : Bool := !s.flag F.FLT_STATUS.TSTOP

/-- Bytes to the radio SRAM of die n from a byte offset; nothing past its end (log entry 62). -/
def State.rsPut (s : State) (n ofs : Nat) (d : List Byte) : State :=
  if ofs + d.length ≤ 2 ^ 25 ∧ !s.dieDown (24 + n) then s.put 0 (rsAddr n ofs) d else s

/-- Edge die k reaches the radio SRAM of die n: both work, and a route leads there (R16, R17). -/
def State.rsReach (s : State) (k n : Nat) : Bool := !s.dieDown (24 + n) && s.reach (28 + k) (24 + n)

/-- A port of edge die k writes to the radio SRAM of die n (R281). -/
def State.fhPut (s : State) (k n ofs : Nat) (d : List Byte) : State := if s.rsReach k n then s.rsPut n ofs d else s

/-! Air time (R279) -/

/-- Start of slot count S in counter time. -/
def State.slotTime (s : State) (mu : Nat) (sc : Int) : Int :=
  (t0Gps : Int) + s.fld F.GEY_FRAME_OFS.OFS + sc * (1000000 / 2 ^ mu : Nat)

/-- Offset of symbol k of a subframe in ns, cyclic prefixes included. -/
def symNs (mu k : Nat) : Nat :=
  (k * (140288 / 2 ^ mu) + 1024 * (b2n (decide (0 < k)) + b2n (decide (7 * 2 ^ mu < k)))) * 1000000000 / 1966080000

/-- T_air of a symbol count. -/
def State.airAt (s : State) (mu : Nat) (nsym : Int) : Int :=
  let sc := nsym / 14
  let l := (nsym % 14).toNat
  let slot := (sc % (2 ^ mu : Nat)).toNat
  s.slotTime mu (sc - slot) + symNs mu (slot * 14 + l)

/-- The symbol count and T_air that a received frame names: of the frames whose SFN fits, the one that puts T_air nearest
its arrival, the earlier of two. -/
def State.airOf (s : State) (mu : Nat) (e : Ecpri) : Int × Int :=
  let n : Int := s.now
  let fr := (n - t0Gps - s.fld F.GEY_FRAME_OFS.OFS) / 10000000
  let back := (fr - e.frameId) % 256
  let sym := fun (f : Int) =>
    ((f * (10 * 2 ^ mu : Nat) + (e.subframeId * 2 ^ mu + e.slotId : Nat)) * 14 + e.symbolId : Int)
  let a := sym (fr - back)
  let b := sym (fr - back + 256)
  let ta := s.airAt mu a
  let tb := s.airAt mu b
  if (n - ta).natAbs ≤ (tb - n).natAbs then (a, ta) else (b, tb)

/-- A symbol or slot whose instant `at'` has come is due: the one after the last its flow has handled, or the one the counter has
reached, which a step of the counter may have moved. -/
def State.flowDue (s : State) (last : Option Int) (n : Int) (at' : Int → Int) : Bool :=
  decide (at' n < s.now) && last != some n && (last == some (n - 1) || decide ((s.now : Int) ≤ at' (n + 1)))

/-- A count as the 64 bits of a control line (R279, R281, R283). -/
def count64 (n : Int) : Nat := wrap 64 n

/-- The entry of a ring of 2^e entries that a count names. -/
def ringIx (e : Nat) (n : Int) : Nat := (n % (2 ^ e : Nat)).toNat

/-! Transmission -/

/-- Bytes waiting in an egress queue. -/
def queueBytes (l : List Frame) : Nat := (l.map (·.len)).sum

/-- A frame is offered to queue q of switch port p of edge die k: true where it finds room (R292, R293). -/
def State.offer (s : State) (k p q : Nat) (fr : Frame) : State × Bool :=
  let l := SMap.get [] (s.edge k).out (8 * p + q)
  if 262144 < queueBytes l + fr.len then (s, false)
  else (s.modEdge k fun e => { e with out := SMap.set [] e.out (8 * p + q) (l ++ [fr]) }, true)

/-- A device-originated eCPRI frame of flow f goes to queue 7 of its port (R271, R283). -/
def State.flowSend (s : State) (k f v n : Nat) (e : Ecpri) : State :=
  let p := flw v F.FHL_FLOWf.PORT
  let st := s.flowSt k f
  let fr : Frame :=
    { dst := flw v F.FHL_FLOWf.RUMAC, src := s.fld F.FHL_Pp_MAC.ADDR (4 * k + p)
      tag := some { vid := flw v F.FHL_FLOWf.VID, pcp := flw v F.FHL_FLOWf.PCP, dei := false }, etype := 0xAEFE
      len := max 64 (30 + n), fcsOk := true, ecpri := some { e with seqId := st.tx } }
  let s := s.modFlow k f fun x => { x with tx := (st.tx + 1) % 256 }
  match s.offer k p 7 fr with
  | (s, true) => s.incFld F.FHL_FCNTf.OK (4096 * k + f)
  | (s, false) => s.incFld F.FHL_Pp_CNT.WORD ((4 * k + p) * 11 + 7)

/-- The O-RAN and eCPRI header of a sent frame of slot count S, symbol l (R272, R273, R279). -/
def ecpriOf (v ty : Nat) (dir mu : Nat) (sc : Int) (l : Nat) (secs : List Section) (raw : List Byte) : Ecpri :=
  { rev := 1, concat := false, msgType := ty, eaxc := flw v F.FHL_FLOWf.EAXC, seqId := 0, ebit := true
    dataDirection := dir, payloadVersion := 1, extension := false
    frameId := (sc / (10 * 2 ^ mu : Nat) % 256).toNat, subframeId := (sc / (2 ^ mu : Nat) % 10).toNat
    slotId := (sc % (2 ^ mu : Nat)).toNat, symbolId := l, sections := secs, raw := raw }

/-- A flow of a kind and direction whose port works and may send; a timing stop holds downlink flows only (R373). -/
def State.txFlow (s : State) (k f kind : Nat) : Option Nat :=
  match s.flow k f with
  | some v => if flw v F.FHL_FLOWf.KIND = kind ∧ (kind = 1 ∨ flw v F.FHL_FLOWf.DIR = 1) ∧
      s.portUp (4 * k + flw v F.FHL_FLOWf.PORT) && (s.radioOn || flw v F.FHL_FLOWf.DIR == 0) && s.fhSends &&
      s.rsReach k (flw v F.FHL_FLOWf.RD)
      then some v else none
  | none => none

/-- Address of a byte of a flow's buffer. -/
def flowBuf (v ofs : Nat) : Nat := flw v F.FHL_FLOWf.BUF / 64 * 64 + ofs

/-- Read bytes of a flow's buffer, with whether a line of them is poisoned. -/
def State.flowRead (s : State) (v ofs n : Nat) : List Byte × Bool :=
  let a := rsAddr (flw v F.FHL_FLOWf.RD) (flowBuf v ofs)
  (s.read a n, s.rangePoison a n)

/-- Bytes of a flow's buffer are read (R156). -/
def State.flowMeet (s : State) (v ofs n : Nat) : State := s.meet (rsAddr (flw v F.FHL_FLOWf.RD) (flowBuf v ofs)) n

/-- READY of the control line (R283). -/
def State.flowReady (s : State) (v : Nat) : Nat := natOf (s.flowRead v 0 8).1

/-- R283: 2,000 ns before a downlink symbol's send time the port compares READY with its symbol count. -/
def downlinkReadyCheck (k f : Nat) (nsym : Int) (s : State) : State :=
  match s.txFlow k f 0 with
  | none => s
  | some v =>
    let t := fun n => s.airAt (flw v F.FHL_FLOWf.MU) n - flw v F.FHL_FLOWf.T1 - 2000
    if !s.flowDue (s.flowSt k f).done nsym t then s
    else
    let s := s.flowMeet v 0 8
    if s.flowReady v = count64 nsym then s.modFlow k f fun x => { x with done := some nsym, ready := some nsym }
    else (s.flowEarly k f).modFlow k f fun x => { x with done := some nsym, ready := none, off := 0 }

def execDownlinkReadyCheck (k f : Nat) (nsym : Int) (s : State) : Out := run (.downlinkReadyCheck k f nsym) s (downlinkReadyCheck k f nsym s)

/-- A frame not sent for poison (R283, R161). -/
def State.flowPoison (s : State) (k f : Nat) : State :=
  (s.incFld F.FHL_FCNTf.LATE_POIS (4096 * k + f)).modFlow k f fun x => { x with ev := (x.ev.1, x.ev.2.1 + 1, x.ev.2.2) }

/-- R275, R283: at T_air − TX_ADV a symbol found READY is compressed and queued, frame by frame. -/
def downlinkSend (k f : Nat) (nsym : Int) (s : State) : State :=
  match s.txFlow k f 0 with
  | none => s
  | some v =>
    let mu := flw v F.FHL_FLOWf.MU
    if (s.flowSt k f).ready ≠ some nsym ∨ (s.now : Int) < s.airAt mu nsym - flw v F.FHL_FLOWf.T1 then s
    else
      let s := s.modFlow k f fun x => { x with ready := none }
      let np := flw v F.FHL_FLOWf.NPRB
      let mx := flw v F.FHL_FLOWf.MAXPRB
      let w := flw v F.FHL_FLOWf.IQW
      let base := 64 + ringIx (flw v F.FHL_FLOWf.NSYM) nsym * np * 48
      (List.range ((np + mx - 1) / mx)).foldl (fun s i =>
        let cnt := min mx (np - i * mx)
        let s := State.flowMeet s v (base + i * mx * 48) (cnt * 48)
        let (d, pois) := State.flowRead s v (base + i * mx * 48) (cnt * 48)
        if pois then s.flowPoison k f
        else
          let prbs := (List.range cnt).map fun j => prbOut w (slice d (48 * j) 48)
          s.flowSend k f v (8 + cnt * iqBytes w)
            (ecpriOf v 0 1 mu (nsym / 14) (nsym % 14).toNat [{ id := i, startPrb := i * mx, prbs := prbs }] [])) s

def execDownlinkSend (k f : Nat) (nsym : Int) (s : State) : Out := run (.downlinkSend k f nsym) s (downlinkSend k f nsym s)

/-- R284: 2,000 ns before a slot's send time the port compares READY with S × 14. -/
def cplaneReadyCheck (k f : Nat) (sc : Int) (s : State) : State :=
  match s.txFlow k f 1 with
  | none => s
  | some v =>
    let t := fun (n : Int) => s.airAt (flw v F.FHL_FLOWf.MU) (n * 14) - flw v F.FHL_FLOWf.T1 - 2000
    if !s.flowDue (s.flowSt k f).done sc t then s
    else
    let s := s.flowMeet v 0 8
    if s.flowReady v = count64 (sc * 14) then s.modFlow k f fun x => { x with done := some sc, ready := some sc }
    else (s.flowEarly k f).modFlow k f fun x => { x with done := some sc, ready := none, off := 0 }

def execCplaneReadyCheck (k f : Nat) (sc : Int) (s : State) : Out := run (.cplaneReadyCheck k f sc) s (cplaneReadyCheck k f sc s)

/-- R284: the slot record found READY is sent as one eCPRI type-2 frame. -/
def cplaneSend (k f : Nat) (sc : Int) (s : State) : State :=
  match s.txFlow k f 1 with
  | none => s
  | some v =>
    let mu := flw v F.FHL_FLOWf.MU
    if (s.flowSt k f).ready ≠ some sc ∨ (s.now : Int) < s.airAt mu (sc * 14) - flw v F.FHL_FLOWf.T1 then s
    else
      let s := s.modFlow k f fun x => { x with ready := none }
      let ofs := 64 + ringIx (flw v F.FHL_FLOWf.NSYM) sc * 1024
      let s := s.flowMeet v ofs 2
      let n := natOf (s.flowRead v ofs 2).1
      let s := s.flowMeet v (ofs + 2) n
      let (d, pois) := s.flowRead v (ofs + 2) n
      if 1022 < n then s.flowBad k f
      else if pois || (s.flowRead v ofs 2).2 then s.flowPoison k f
      else s.flowSend k f v n (ecpriOf v 2 (flw v F.FHL_FLOWf.DIR) mu sc 0 [] d)

def execCplaneSend (k f : Nat) (sc : Int) (s : State) : Out := run (.cplaneSend k f sc) s (cplaneSend k f sc s)

/-- Addresses of bytes [i, i + n) of a GFSK flow's ring. -/
def ringAddrs (v i n : Nat) : List Nat :=
  (List.range n).map fun j => rsAddr (flw v F.FHL_FLOWf.RD) (flowBuf v (64 + (i + j) % 2 ^ (flw v F.FHL_FLOWf.NSYM + 12)))

/-- Bytes [i, i + n) of a GFSK flow's ring of 2^(NSYM + 12) bytes (R285). -/
def State.ringRead (s : State) (v i n : Nat) : List Byte × Bool :=
  let l := ringAddrs v i n
  (l.map s.rd, l.any fun a => s.linePoison (a / 64))

/-- The carrier of the device whose samples GFSK flow f of edge die k carries (R262; log entry 171). -/
def gfskCar (k f v : Nat) : Nat := 512 * flw v F.FHL_FLOWf.RD + Config.gfskCarrier k f % 512

/-- The GFSK flows in force of a carrier and direction, with their edge die and entry. -/
def State.gfskFlows (s : State) (c dir : Nat) : List (Nat × Nat) :=
  (List.range 4).flatMap fun k => (s.edge k).flows.filterMap fun x =>
    if flw x.2 F.FHL_FLOWf.KIND = 2 ∧ flw x.2 F.FHL_FLOWf.DIR = dir ∧ gfskCar k x.1 x.2 = c then some (k, x.2) else none

/-- The bank's receiver has read every sample of carrier c that has arrived: the consumer counts of its uplink rings follow (R262,
R285). -/
def State.gfskConsume (s : State) (c : Nat) : State :=
  (s.gfskFlows c 0).foldl (fun s x => State.rsPut s (c / 512) (flowBuf x.2 4) (State.flowRead s x.2 0 4).1) s

/-- The bank writes waiting samples of a carrier to a downlink ring, as far as it has room (R285). -/
def State.gfskFill (s : State) (c v : Nat) : State :=
  let md := SMap.get ({} : Modem) s.modems c
  let size := 2 ^ (flw v F.FHL_FLOWf.NSYM + 12)
  let prod := natOf (s.flowRead v 0 4).1
  let cons := natOf (s.flowRead v 4 4).1
  let n := min md.wave.length (size - (prod + 2 ^ 32 - cons) % 2 ^ 32)
  if n = 0 then s
  else
    let s := (md.wave.take n).zipIdx.foldl (fun s x => State.rsPut s (c / 512) (flowBuf v (64 + (prod + x.2) % size)) [x.1]) s
    let s := s.rsPut (c / 512) (flowBuf v 0) (bytesOf 4 ((prod + n) % 2 ^ 32))
    { s with modems := SMap.set {} s.modems c { md with wave := md.wave.drop n } }

/-- R285: a downlink GFSK flow sends one frame when MAXPRB × 48 bytes are available. -/
def gfskDownlinkSend (k f : Nat) (s : State) : State :=
  match s.txFlow k f 2 with
  | none => s
  | some v =>
    let s := s.gfskFill (gfskCar k f v) v
    let prod := natOf (s.flowRead v 0 4).1
    let cons := natOf (s.flowRead v 4 4).1
    let n := flw v F.FHL_FLOWf.MAXPRB * 48
    if (prod + 2 ^ 32 - cons) % 2 ^ 32 < n then s
    else
      let s := s.meetAll ((ringAddrs v cons n).map (·, 1))
      let (d, pois) := s.ringRead v cons n
      let s := s.fhPut k (flw v F.FHL_FLOWf.RD) (flowBuf v 4) (bytesOf 4 ((cons + n) % 2 ^ 32))
      if pois then s.flowPoison k f
      else s.flowSend k f v n (ecpriOf v 0 1 (flw v F.FHL_FLOWf.MU) 0 0 [] d)

def execGfskDownlinkSend (k f : Nat) (s : State) : Out := run (.gfskDownlinkSend k f) s (gfskDownlinkSend k f s)

/-! GFSK modems (R262 to R267) -/

/-- The header of R265. -/
def gfkHeader (b car : Nat) (ok : Bool) (len : Nat) (rssi fofs : Int) (time : Nat) : List Byte :=
  bytesOf 16 (car % 128 + b % 4 * 2 ^ 7 + b2n ok * 2 ^ 11 + len * 2 ^ 12 + wrap 16 rssi * 2 ^ 20 + wrap 20 fofs * 2 ^ 36 +
    time % 2 ^ 64 * 2 ^ 64)

/-- The CRC of a frame's length byte and payload: CRC-16 CCITT, INIT 0xFFFF, XOROUT 0, the most significant byte sent first
(Table 8-14, R263). -/
def gfskCrc (d : List Byte) : List Byte := (bytesOf 2 (crcOver 16 0x1021 0xFFFF (d.flatMap msbBits))).reverse

/-- The bytes of a frame in the order they are sent (R263): `pre` preamble bytes, the sync word, the length byte, the payload and
the CRC. -/
def gfskFrame (pre sync : Nat) (pay : List Byte) : List Byte :=
  let body := BitVec.ofNat 8 pay.length :: pay
  List.replicate pre 0x55#8 ++ (bytesOf 4 sync).reverse ++ body ++ gfskCrc body

/-- A 4-level symbol of two bits (R263). -/
def gfskQuad (hi lo : Bool) : Int :=
  match hi, lo with
  | false, true => 3
  | false, false => 1
  | true, false => -1
  | true, true => -3

/-- The symbols of a frame's bytes, each sent most significant bit first: of 2 bits with 4 levels, else of one, +1 for a 1 (R263;
log entry 173). -/
def gfskSymbols (four : Bool) (d : List Byte) : List Int :=
  let l := d.flatMap msbBits
  if four then (List.range (l.length / 2)).map fun i => gfskQuad (l.getD (2 * i) false) (l.getD (2 * i + 1) false)
  else l.map fun b => if b then 1 else -1

/-- The symbol rate of a carrier (R262). -/
def State.gfskRate (s : State) (c : Nat) : Nat :=
  clamp 12500 400000 (s.fld F.GFK_Bb_CARc_CFG.RATE c) / (if s.flag F.GFK_Bb_CARc_CFG.LEVELS c then 2 else 1)

/-- Bits in which two sync words differ. -/
def syncErrors (a b : Nat) : Nat := ((List.range 32).filter fun i => bit a i != bit b i).length

/-- R263, R265: a frame received on carrier `car` of bank b, from its sync word on: the sync word is accepted with up to SYNC_ERR
bit errors, and the length byte, the payload and the CRC follow it. The counter time of the sync word's last sample is part of what
the receiver took. -/
def gfskFrameReceived (n b car : Nat) (sync : GfskSync) (frame : List Byte) (rssi fofs : Int) (s : State) : State :=
  let bank := 4 * n + b
  let c := 128 * bank + car
  let len := (frame.headD 0).toNat
  if !s.flag F.GFK_Bb_CARc_CFG.EN_RX c || len == 0 || decide (frame.length ≠ len + 3) || s.dieDown (24 + n) ||
      decide (s.fld F.GFK_Bb_CARc_CFG.SYNC_ERR c < syncErrors sync.word.toNat (s.fld F.GFK_Bb_CARc_SYNC.SYNC c) ∨ s.now < sync.time) then s
  else
    let s := s.gfskConsume c
    let pay := slice frame 1 len
    let ok := decide (gfskCrc (frame.take (len + 1)) = frame.drop (len + 1))
    let s := if ok then s.incFld F.GFK_Bb_CARc_CNT.RX_OK c else s.incFld F.GFK_Bb_CARc_CNT.RX_BAD c
    if !ok && !s.flag F.GFK_Bb_CARc_CFG.KEEPBAD c then s
    else
      let base := s.fld F.GFK_Bb_RXRING.BASE bank * 64
      let log2 := clamp 4 12 (s.fld F.GFK_Bb_RXRING.LOG2 bank)
      let data := gfkHeader b car ok pay.length rssi fofs sync.time ++ obsPad pay
      let m := data.length / 16
      let prod := s.ringProd base
      if 2 ^ log2 < (prod + 2 ^ 32 - s.ringCons base) % 2 ^ 32 + m then s.incFld F.GFK_Bb_CARc_CNT.RX_DROP c
      else
        let s := (List.range m).foldl (fun s i => State.putRam s 0 (gfkChunk base log2 (prod + i)) (slice data (16 * i) 16)) s
        s.putRam 0 base (bytesOf 4 ((prod + m) % 2 ^ 32))

def execGfskFrameReceived (n b car : Nat) (sync : GfskSync) (frame : List Byte) (rssi fofs : Int) (s : State) : Out :=
  run (.gfskFrameReceived n b car sync frame rssi fofs) s (gfskFrameReceived n b car sync frame rssi fofs s)

/-- Air time of a frame in ns: preamble, sync word, length byte, payload and CRC at RATE bit/s (R263). -/
def gfskNs (pre len rate : Nat) : Nat := (8 * (pre + 7 + len) * 1000000000 + rate - 1) / rate

/-- R266: the bank reads the transmit record at the head of its ring. -/
def gfskTxRecord (n b : Nat) (s : State) : State :=
  let bank := 4 * n + b
  let base := s.fld F.GFK_Bb_TXRING.BASE bank * 64
  let log2 := clamp 4 12 (s.fld F.GFK_Bb_TXRING.LOG2 bank)
  let cons := s.ringCons base
  if cons = s.ringProd base ∨ s.dieDown (24 + n) then s
  else
    let s := s.meet (gfkChunk base log2 cons) 16
    let h := s.readNat (gfkChunk base log2 cons) 16
    let len := bits h 19 12
    let c := 128 * bank + bits h 6 0
    let start := bits h 127 64
    let m := (len + 15) / 16
    let s := s.meetAll ((List.range m).map fun i => (gfkChunk base log2 (cons + 1 + i), 16))
    let pay := ((List.range m).flatMap fun i => s.read (gfkChunk base log2 (cons + 1 + i)) 16).take len
    let s := s.putRam 0 (base + 4) (bytesOf 4 ((cons + 1 + m) % 2 ^ 32))
    let md := SMap.get ({} : Modem) s.modems c
    if start < s.now + 10000 ∨ start < md.txEnd then s.incFld F.GFK_Bb_CARc_CNT.TX_LATE c
    else if !s.flag F.GFK_Bb_CARc_CFG.EN_TX c || s.flag F.FLT_STATUS.TSTOP || s.flt.wdtStop then s
    else
      let pre := clamp 2 15 (s.fld F.GFK_Bb_CARc_CFG.PRE c)
      let ns := gfskNs pre len (clamp 12500 400000 (s.fld F.GFK_Bb_CARc_CFG.RATE c))
      let sym := gfskSymbols (s.flag F.GFK_Bb_CARc_CFG.LEVELS c) (gfskFrame pre (s.fld F.GFK_Bb_CARc_SYNC.SYNC c) pay)
      let h := clamp 16 64 (s.fld F.GFK_Bb_CARc_CFG.H c)
      let bt := s.flag F.GFK_Bb_CARc_CFG.BT c
      let w := Config.gfskWave sym h bt
      let wave := (List.range (32 * sym.length)).map fun i => w.getD i 0
      let s := { s with modems := SMap.set {} s.modems c { md with txEnd := start + ns, wave := md.wave ++ wave } }
      let s := (s.gfskFlows c 1).foldl (fun s x => s.gfskFill c x.2) s
      s.emit (.gfsk c start (s.gfskRate c) h bt sym)

def execGfskTxRecord (n b : Nat) (s : State) : Out := run (.gfskTxRecord n b) s (gfskTxRecord n b s)

/-- The noise floor of a mean power P = sum ÷ idle over 2^30: floor(40 × log10 P) is the largest v with 10^v ≤ P^40,
limited to −32,767 (R267). -/
def noiseFloor (sum idle : Nat) : Int :=
  let p := sum ^ 40
  let q := (idle * 2 ^ 30) ^ 40
  if q ≤ p then ((List.range 400).reverse.find? fun v => q * 10 ^ v ≤ p).getD 0
  else
    match (List.range 1200).find? fun v => q ≤ p * 10 ^ v with
    | some v => -(v : Int)
    | none => -32767

/-- NF of a carrier's report: 0x8000 where fewer than 25 % of its samples were idle, or none, or P is 0 (R267). -/
def noiseEntry (x : NoiseStat) : Nat :=
  if x.idle * 4 < x.total ∨ x.sum = 0 ∨ x.idle = 0 then 0x8000 else wrap 16 (noiseFloor x.sum x.idle)

/-- R267: at a tick, once, the noise floors of every enabled receiver of a bank for the tick frame just ended; a carrier of which the
samples say nothing had none outside detected frames. -/
def gfskNoiseReport (n b : Nat) (stats : List NoiseStat) (s : State) : State :=
  let bank := 4 * n + b
  if s.dieDown (24 + n) then s
  else (List.range 128).foldl (fun s car =>
    let c := 128 * bank + car
    let md := SMap.get ({} : Modem) s.modems c
    if !s.flag F.GFK_Bb_CARc_CFG.EN_RX c ∨ md.noise = s.tickNo then s
    else
      let s := { s.gfskConsume c with modems := SMap.set {} s.modems c { md with noise := s.tickNo } }
      let x := (stats.find? fun x => x.car == car).getD { car, idle := 0, total := 0, sum := 0 }
      State.putRam s 0 (s.fld F.GFK_Bb_NOISE.BASE bank * 64 + 4 * car) (bytesOf 4 (noiseEntry x + s.tickNo % 2 ^ 16 * 2 ^ 16))) s

def execGfskNoiseReport (n b : Nat) (stats : List NoiseStat) (s : State) : Out :=
  run (.gfskNoiseReport n b stats) s (gfskNoiseReport n b stats s)

/-! The switch -/

/-- An address names a group: the least significant bit of its first byte. -/
def groupAddr (a : Nat) : Bool := bit a 40

/-- The MAC entry of a key (R288). -/
def State.macEnt (s : State) (k addr vid : Nat) : Option MacEnt := (s.edge k).mac.find? fun m => m.addr == addr && m.vid == vid

/-- A MAC table replaced: USED and FULL follow (Table 9-9). -/
def State.setMac (s : State) (k : Nat) (l : List MacEnt) : State :=
  ((s.modEdge k fun e => { e with mac := l }).setFld F.FHL_SW_STATUS.USED k l.length).setFld F.FHL_SW_STATUS.FULL k
    (b2n (decide (16384 ≤ l.length)))

/-- An entry added; an event record where FULL changes to 1 (R291). -/
def State.macAdd (s : State) (k : Nat) (m : MacEnt) : State :=
  let was := s.flag F.FHL_SW_STATUS.FULL k
  let s := s.setMac k ((s.edge k).mac ++ [m])
  s.when (!was && s.flag F.FHL_SW_STATUS.FULL k) fun s => s.raise (portSrc (4 * k) 1) { data := 16384 }

/-- Learning from a frame that the switch forwards or filters (R288, R289, R291). -/
def State.macLearn (s : State) (k p addr vid : Nat) : State :=
  if groupAddr addr || !s.flag F.FHL_SW_CTRL.LEARN_EN k then s
  else match s.macEnt k addr vid with
    | none =>
      if s.flag F.FHL_SW_STATUS.FULL k then s.incFld F.FHL_SW_STATUS.LEARN_FULL k
      else s.macAdd k { addr, vid, port := p, seen := s.tmb.clk, moved := s.tmb.clk }
    | some m =>
      let put := fun (n : MacEnt) => s.setMac k ((s.edge k).mac.map fun x => if x = m then n else x)
      if m.pinned then s
      else if m.port = p then put { m with seen := s.tmb.clk }
      else if m.moved + 156250 ≤ s.tmb.clk then put { m with port := p, seen := s.tmb.clk, moved := s.tmb.clk }
      else s.incFld F.FHL_SW_STATUS.CONTEST k

/-- A counter word of a fronthaul port (Table 9-8); switch port 4 has none. -/
def State.portCnt (s : State) (k p w : Nat) : State := if p < 4 then s.incFld F.FHL_Pp_CNT.WORD ((4 * k + p) * 11 + w) else s

/-- A frame as it leaves a switch port: untagged where UNTAG says so, else with its VLAN's tag (R287). -/
def State.egressForm (s : State) (k p vid : Nat) (fr : Frame) : Frame :=
  if bit (s.fld F.FHL_VLANv.UNTAG (4096 * k + vid)) p then
    { fr with tag := none, len := fr.len - (if fr.tag.isSome then 4 else 0) }
  else match fr.tag with
    | some t => { fr with tag := some { t with vid := vid } }
    | none => { fr with tag := some { vid := vid, pcp := 0, dei := false }, len := fr.len + 4 }

/-- One egress copy enters its queue: PCP, and 6 for PCP 7 (R292, R293). -/
def State.switchOut (s : State) (k p vid : Nat) (fr : Frame) (multi : Bool) : State :=
  let q := match fr.tag with
    | some t => min t.pcp 6
    | none => 0
  match s.offer k p q (s.egressForm k p vid fr) with
  | (s, true) => s
  | (_, false) => s.portCnt k p (if multi then 6 else 7)

/-- The switch takes a frame from port p (R287 to R292). Frames from port 4 that carry no tag belong to VLAN 1 (log entry
63). -/
def State.switchIn (s : State) (k p : Nat) (fr : Frame) : State :=
  let own := if p < 4 then s.fld F.FHL_Pp_CTRL.PVID (4 * k + p) else 1
  let vid := match fr.tag with
    | some t => if t.vid = 0 then own else t.vid
    | none => own
  let mem := s.fld F.FHL_VLANv.MEMBER (4096 * k + vid)
  if (s.macEnt k fr.src vid).any fun m => m.pinned && m.port != p then s.portCnt k p 8
  else
    let dst := s.macEnt k fr.dst vid
    let s := s.macLearn k p fr.src vid
    if vid = 4095 ∨ !bit mem p then s.portCnt k p 9
    else if fr.dst / 16 = 0x0180C200000 then s.switchOut k 4 vid fr true
    else
      let flood := ((List.range 5).filter fun o => o != p && bit mem o).foldl (fun s o => State.switchOut s k o vid fr true) s
      if groupAddr fr.dst then flood
      else match dst with
        | none => flood
        | some m => if m.port = p then s.portCnt k p 9 else s.switchOut k m.port vid fr false

/-! Policing (R295, R296) -/

/-- The colour a policer gives a frame: 0 green, 1 yellow, 2 red; and its buckets after it. -/
def State.meterColour (s : State) (i len pre : Nat) : Nat × Meter :=
  let m := s.meterNow i
  let need := len * 1250
  let v := s.polCfg i
  let c := flw v F.FHL_POLi.CBS * 1250 - m.c
  let e := flw v F.FHL_POLi.EPBS * 1250 - m.e
  if flw v F.FHL_POLi.MODE = 1 then
    if e < need then (2, m)
    else if pre = 1 ∨ c < need then (1, { m with e := m.e + need })
    else (0, { m with c := m.c + need, e := m.e + need })
  else if pre = 0 ∧ need ≤ c then (0, { m with c := m.c + need })
  else if need ≤ e then (1, { m with e := m.e + need })
  else (2, m)

/-- The policer of a port and PCP (R295). -/
def State.policerOf (s : State) (p pcp : Nat) : Option Nat :=
  let v := s.regBits .FHL_Pp_POLMAP p
  if bit v (8 * pcp + 6) then some (p / 4 * 64 + bits v (8 * pcp + 5) (8 * pcp)) else none

/-- A received frame is policed: none where it is discarded (R296). -/
def State.police (s : State) (p : Nat) (fr : Frame) : State × Option Frame :=
  match s.policerOf p (match fr.tag with
    | some t => t.pcp % 8
    | none => 0) with
  | none => (s, some fr)
  | some i =>
    let v := s.polCfg i
    let pre := if flw v F.FHL_POLi.AWARE = 1 ∧ fr.tag.any (·.dei) then 1 else 0
    let (col, m) := if flw v F.FHL_POLi.EN = 1 then s.meterColour i fr.len pre else (0, s.meterNow i)
    let s := s.modEdge (i / 64) fun e => { e with pol := SMap.set {} e.pol (i % 64) m }
    if col = 0 then (s.incFld F.FHL_POLi.GREEN i, some fr)
    else if col = 1 then
      let s := s.incFld F.FHL_POLi.YELLOW i
      if flw v F.FHL_POLi.YDROP = 1 then (s.incFld F.FHL_Pp_CNT.WORD (p * 11 + 10), none)
      else (s, some { fr with tag := fr.tag.map fun t => { t with dei := true } })
    else ((s.incFld F.FHL_POLi.RED i).incFld F.FHL_Pp_CNT.WORD (p * 11 + 10), none)

/-! Reception -/

/-- The sequence check of an accepted frame (R282). -/
def State.flowSeq (s : State) (k f seq : Nat) : State :=
  let gap := match (s.flowSt k f).rx with
    | some n => seq % 256 != (n + 1) % 256
    | none => false
  let s := s.when gap fun s => s.incFld F.FHL_FCNTf.SEQERR (4096 * k + f)
  (s.incFld F.FHL_FCNTf.OK (4096 * k + f)).modFlow k f fun x => { x with rx := some (seq % 256) }

/-- A U-plane frame of an uplink flow (R273, R280 to R282); one after its symbol's DONE is late. -/
def State.uplink (s : State) (k f v : Nat) (fr : Frame) (e : Ecpri) : State :=
  let mu := flw v F.FHL_FLOWf.MU
  let np := flw v F.FHL_FLOWf.NPRB
  let w := flw v F.FHL_FLOWf.IQW
  let good := fr.src == flw v F.FHL_FLOWf.RUMAC && e.dataDirection == 0 && e.payloadVersion == 1 && !e.extension &&
    decide (e.symbolId < 14 ∧ e.slotId < 2 ^ mu ∧ e.subframeId < 10) &&
    e.sections.all fun x => decide (x.startPrb + x.prbs.length ≤ np) && x.prbs.all fun b => b.length == iqBytes w
  if !good then s.flowBad k f
  else
    let (nsym, air) := s.airOf mu e
    if (s.now : Int) < air + flw v F.FHL_FLOWf.T1 then s.flowEarly k f
    else if air + flw v F.FHL_FLOWf.T2 < s.now ∨ (s.flowSt k f).done.any fun d => decide (nsym ≤ d) then s.flowLate k f
    else
      let ix := ringIx (flw v F.FHL_FLOWf.NSYM) nsym
      let n := count64 nsym
      let s := e.sections.foldl (fun s x => x.prbs.zipIdx.foldl (fun s (b, i) =>
        State.fhPut s k (flw v F.FHL_FLOWf.RD) (flowBuf v (64 + (ix * np + x.startPrb + i) * 48)) (prbIn w b)) s) s
      let got := e.sections.flatMap fun x => (List.range x.prbs.length).map fun i => (n, x.startPrb + i)
      (s.flowSeq k f e.seqId).modFlow k f fun x => { x with got := x.got ++ got }

/-- A frame of an uplink GFSK flow (R285): its payload is appended where the ring has room. -/
def State.gfskUplink (s : State) (k f v : Nat) (fr : Frame) (e : Ecpri) : State :=
  if fr.src ≠ flw v F.FHL_FLOWf.RUMAC then s.flowBad k f
  else
    let rd := flw v F.FHL_FLOWf.RD
    let size := 2 ^ (flw v F.FHL_FLOWf.NSYM + 12)
    let prod := natOf (s.flowRead v 0 4).1
    let cons := natOf (s.flowRead v 4 4).1
    if size < (prod + 2 ^ 32 - cons) % 2 ^ 32 + e.raw.length then s.flowLate k f
    else
      let s := e.raw.zipIdx.foldl (fun s (b, i) => State.fhPut s k rd (flowBuf v (64 + (prod + i) % size)) [b]) s
      let s := s.fhPut k rd (flowBuf v 0) (bytesOf 4 ((prod + e.raw.length) % 2 ^ 32))
      (s.flowSeq k f e.seqId).modFlow k f fun x => { x with app := x.app ++ e.raw }

/-- The eCPRI terminator of a port (R271 to R273, R278). -/
def State.terminate (s : State) (p : Nat) (fr : Frame) : State :=
  let k := p / 4
  let unk := s.incFld F.FHL_Pp_CNT.WORD (p * 11 + 5)
  match fr.ecpri with
  | none => unk
  | some e =>
    let find := fun (kinds : List Nat) (dir : Bool) => (s.edge k).flows.find? fun x =>
      flw x.2 F.FHL_FLOWf.PORT == p % 4 && flw x.2 F.FHL_FLOWf.EAXC == e.eaxc && kinds.contains (flw x.2 F.FHL_FLOWf.KIND) &&
        (dir || flw x.2 F.FHL_FLOWf.DIR == 0)
    if e.rev ≠ 1 ∨ e.concat ∨ !e.ebit then unk
    else if e.msgType = 2 then
      match find [1] true with
      | some x => s.flowBad k x.1
      | none => unk
    else if e.msgType ≠ 0 then unk
    else match find [0, 2] false with
      | none => unk
      | some x => if flw x.2 F.FHL_FLOWf.KIND = 0 then s.uplink k x.1 x.2 fr e else s.gfskUplink k x.1 x.2 fr e

/-- R270, R271, R295: a port receives a frame. -/
def frameReceive (p : Nat) (fr : Frame) (s : State) : State :=
  if !s.portUp p then s
  else if !fr.fcsOk then s.incFld F.FHL_Pp_CNT.WORD (p * 11 + 2)
  else
    let s := s.incFld F.FHL_Pp_CNT.WORD (p * 11)
    if fr.len < 64 ∨ 9216 < fr.len then s.incFld F.FHL_Pp_CNT.WORD (p * 11 + 3)
    else if fr.etype = 0x8808 then s.incFld F.FHL_Pp_CNT.WORD (p * 11 + 4)
    else match s.police p fr with
      | (s, none) => s
      | (s, some fr) =>
        if fr.dst = s.fld F.FHL_Pp_MAC.ADDR p ∧ fr.etype = 0xAEFE then s.terminate p fr else s.switchIn (p / 4) (p % 4) fr

def execFrameReceive (p : Nat) (fr : Frame) (s : State) : Out := run (.frameReceive p fr) s (frameReceive p fr s)

/-- Obsidian's digest of a byte sequence (R343). -/
def obsDigest (key : Nat) (d : List Byte) : Nat :=
  (List.range ((d.length + 7) / 8)).foldl (fun v i => (v + mix (mix key i) (natOf ((d.drop (8 * i)).take 8))) % 2 ^ 64) 0

/-- The FLOW record of a flow (Table 11-3). -/
def State.flowRecord (s : State) (k f : Nat) (d : List Byte) : State :=
  let x := s.flowSt k f
  let s := s.obs 5 (k * 4096 + f) (min x.zeros 65535 + min x.off 65535 * 2 ^ 16) (obsDigest (s.fld F.PKG_OBS_KEY.KEY) d)
  s.modFlow k f fun x => { x with zeros := 0, off := 0, app := [] }

/-- R281: a symbol's window has ended: missing PRBs are zeroed, their number is written, then DONE. -/
def symbolDone (k f : Nat) (nsym : Int) (s : State) : State :=
  match s.flow k f with
  | none => s
  | some v =>
    let mu := flw v F.FHL_FLOWf.MU
    let np := flw v F.FHL_FLOWf.NPRB
    let rd := flw v F.FHL_FLOWf.RD
    let st := s.flowSt k f
    let t := fun n => s.airAt mu n + flw v F.FHL_FLOWf.T2
    if flw v F.FHL_FLOWf.KIND ≠ 0 ∨ flw v F.FHL_FLOWf.DIR ≠ 0 ∨ s.dieOut (28 + k) || !s.flowDue st.done nsym t then s
    else
      let ix := ringIx (flw v F.FHL_FLOWf.NSYM) nsym
      let miss := (List.range np).filter fun i => !st.got.contains (count64 nsym, i)
      let s := miss.foldl (fun s i => State.fhPut s k rd (flowBuf v (64 + (ix * np + i) * 48)) (List.replicate 48 0#8)) s
      let s := s.fhPut k rd (flowBuf v 16) (bytesOf 8 miss.length)
      let s := s.fhPut k rd (flowBuf v 8) (bytesOf 8 (count64 nsym))
      let s := s.when (!miss.isEmpty) fun s => s.incFld F.FHL_FCNTf.ZEROPRB (4096 * k + f) miss.length
      let s := s.modFlow k f fun x =>
        { x with done := some nsym, got := x.got.filter (·.1 != count64 nsym), zeros := x.zeros + miss.length }
      if nsym % 14 = 13 then
        let first := nsym - 13
        s.flowRecord k f ((List.range 14).flatMap fun i =>
          (s.flowRead v (64 + ringIx (flw v F.FHL_FLOWf.NSYM) (first + (i : Nat)) * np * 48) (np * 48)).1)
      else s

def execSymbolDone (k f : Nat) (nsym : Int) (s : State) : Out := run (.symbolDone k f nsym) s (symbolDone k f nsym s)

/-- GFSK flows write their FLOW records at a frame boundary (Table 11-3). -/
def State.gfskRecords (s : State) (k : Nat) : State :=
  (s.edge k).flows.foldl (fun s (f, v) =>
    if flw v F.FHL_FLOWf.KIND = 2 ∧ flw v F.FHL_FLOWf.DIR = 0 then State.flowRecord s k f (State.flowSt s k f).app else s) s

/-! The MAC table (R290, R291, Table 9-10) -/

/-- R291: an entry neither pinned nor refreshed for AGE seconds is removed. -/
def macAgeRemoval (k addr vid : Nat) (s : State) : State :=
  match s.macEnt k addr vid with
  | some m =>
    if !m.pinned && decide (m.seen + clamp 10 4095 (s.fld F.FHL_SW_CTRL.AGE k) * oneSecond ≤ s.tmb.clk) then
      s.setMac k ((s.edge k).mac.filter (· != m))
    else s
  | none => s

def execMacAgeRemoval (k addr vid : Nat) (s : State) : Out := run (.macAgeRemoval k addr vid) s (macAgeRemoval k addr vid s)

/-- A write of FHL_MAC_OP with GO: ignored while BUSY is 1 (Table 9-10). -/
def State.macOp (s : State) (k op : Nat) (f : State → State) : State :=
  if s.flag F.FHL_MAC_OP.BUSY k then s else f (s.setFld F.FHL_MAC_OP.OP k op)

/-- R290, R291: the key is pinned to PORT; refused in a full table and for a port above 4. -/
def macPin (k : Nat) (s : State) : State :=
  s.macOp k 0 fun s =>
    let a := s.fld F.FHL_MAC_KEY.ADDR k
    let v := s.fld F.FHL_MAC_KEY.VID k
    let p := s.fld F.FHL_MAC_KEY.PORT k
    if 4 < p || s.flag F.FHL_SW_STATUS.FULL k then s.setFld F.FHL_MAC_OP.ERR k 1
    else match s.macEnt k a v with
      | some m => s.setMac k ((s.edge k).mac.map fun x => if x = m then { m with port := p, pinned := true } else x)
      | none => s.macAdd k { addr := a, vid := v, port := p, pinned := true, seen := s.tmb.clk, moved := s.tmb.clk }

def execMacPin (k : Nat) (s : State) : Out := run (.macPin k) s (s.wr .FHL_MAC_OP k (macPin k))

/-- The key is removed, pinned or not. -/
def macDelete (k : Nat) (s : State) : State :=
  s.macOp k 1 fun s =>
    s.setMac k ((s.edge k).mac.filter fun m => !(m.addr == s.fld F.FHL_MAC_KEY.ADDR k && m.vid == s.fld F.FHL_MAC_KEY.VID k))

def execMacDelete (k : Nat) (s : State) : Out := run (.macDelete k) s (s.wr .FHL_MAC_OP k (macDelete k))

/-- The key is looked up: FOUND, PINNED and PORT. -/
def macRead (k : Nat) (s : State) : State :=
  s.macOp k 2 fun s =>
    match s.macEnt k (s.fld F.FHL_MAC_KEY.ADDR k) (s.fld F.FHL_MAC_KEY.VID k) with
    | some m => ((s.setFld F.FHL_MAC_OP.FOUND k 1).setFld F.FHL_MAC_OP.PINNED k (b2n m.pinned)).setFld F.FHL_MAC_KEY.PORT k m.port
    | none => (s.setFld F.FHL_MAC_OP.FOUND k 0).setFld F.FHL_MAC_OP.PINNED k 0

def execMacRead (k : Nat) (s : State) : Out := run (.macRead k) s (s.wr .FHL_MAC_OP k (macRead k))

/-- A flush of every unpinned entry starts. -/
def macFlushAll (k : Nat) (s : State) : State :=
  s.macOp k 3 fun s => (s.setFld F.FHL_MAC_OP.BUSY k 1).modEdge k fun e => { e with flush := some 5 }

def execMacFlushAll (k : Nat) (s : State) : Out := run (.macFlushAll k) s (s.wr .FHL_MAC_OP k (macFlushAll k))

/-- A flush of PORT's unpinned entries starts. -/
def macFlushPort (k : Nat) (s : State) : State :=
  s.macOp k 4 fun s =>
    if 4 < s.fld F.FHL_MAC_KEY.PORT k then s.setFld F.FHL_MAC_OP.ERR k 1
    else (s.setFld F.FHL_MAC_OP.BUSY k 1).modEdge k fun e => { e with flush := some (s.fld F.FHL_MAC_KEY.PORT k) }

def execMacFlushPort (k : Nat) (s : State) : Out := run (.macFlushPort k) s (s.wr .FHL_MAC_OP k (macFlushPort k))

/-- A flush ends. -/
def macFlushEnd (k : Nat) (s : State) : State :=
  match (s.edge k).flush with
  | none => s
  | some p =>
    let s := s.setMac k ((s.edge k).mac.filter fun m => m.pinned || (p != 5 && m.port != p))
    (s.setFld F.FHL_MAC_OP.BUSY k 0).modEdge k fun e => { e with flush := none }

def execMacFlushEnd (k : Nat) (s : State) : Out := run (.macFlushEnd k) s (macFlushEnd k s)

/-! Egress -/

/-- The head of queue q may start: queue 7 always, another where its shaper, if on, holds L + 20 bytes (R294). -/
def State.mayStart (s : State) (k p q : Nat) : Bool :=
  match SMap.get [] (s.edge k).out (8 * p + q) with
  | [] => false
  | fr :: _ =>
    q == 7 || p == 4 || (s.shapeCfg k p q).1 == 0 ||
      decide ((fr.len + 20) * 1250 + s.shapeLack k p q ≤ (s.shapeCfg k p q).2.2 * 1250)

/-- The bytes of a frame from destination address to FCS. -/
def frameBytes (fr : Frame) : List Byte :=
  let be := fun (n v : Nat) => (bytesOf n v).reverse
  let tag := match fr.tag with
    | some t => be 2 0x8100 ++ be 2 (t.pcp % 8 * 2 ^ 13 + b2n t.dei * 2 ^ 12 + t.vid % 4096)
    | none => []
  let h := be 6 fr.dst ++ be 6 fr.src ++ tag ++ be 2 fr.etype ++ fr.data
  let body := slice h 0 (fr.len - 4)
  body ++ bytesOf 4 (crcuOver 6 0xFFFFFFFF (crcStream 6 body) ^^^ 0xFFFFFFFF)

/-- Slot i of a network queue's ring: 9,216 bytes, then its descriptor (R424; log entry 64). -/
def netSlot (base log2 i : Nat) : Nat := base + 64 + i % 2 ^ log2 * 9280

/-- A ring lies in matrix SRAM owned by basin 0 (R424). -/
def State.netRam (s : State) (k base log2 : Nat) : Bool :=
  (s.badAddr { die := 28 + k } true base (64 + 2 ^ log2 * 9280)).isNone &&
    match place base with
    | .sram _ _ => true
    | _ => false

/-- A frame is delivered to the receive ring of the network queue (R424). -/
def State.netDeliver (s : State) (k : Nat) (fr : Frame) : State :=
  let base := s.fld F.PKG_NETQ_RX.BASE k * 64
  let log2 := clamp 4 10 (s.fld F.PKG_NETQ_RX.LOG2 k)
  if !s.flag F.PKG_NETQ_RX.EN k || !s.netRam k base log2 then s
  else
    let prod := s.ringProd base
    if 2 ^ log2 ≤ (prod + 2 ^ 32 - s.ringCons base) % 2 ^ 32 then s
    else
      let d := frameBytes fr
      let s := s.put 0 (netSlot base log2 prod) d
      let s := s.put 0 (netSlot base log2 prod + 9216) (bytesOf 2 d.length)
      (s.put 0 base (bytesOf 4 ((prod + 1) % 2 ^ 32))).hcAssert (s.fld F.PKG_NETQ_RX.HC k) 5

/-- R293, R294: switch port p of edge die k starts its next frame: the highest queue whose head may start. -/
def egressTransmit (k p : Nat) (s : State) : State :=
  if (p < 4 ∧ (!s.portUp (4 * k + p) || !s.fhSends)) ∨ s.dieOut (28 + k) then s
  else match (List.range 8).reverse.find? fun q => s.mayStart k p q with
    | none => s
    | some q =>
      match SMap.get [] (s.edge k).out (8 * p + q) with
      | [] => s
      | fr :: l =>
        let s := s.when (q != 7 && p != 4 && (s.shapeCfg k p q).1 != 0) fun s =>
          s.setShape k p q (s.shapeLack k p q + (fr.len + 20) * 1250)
        let s := s.modEdge k fun e => { e with out := SMap.set [] e.out (8 * p + q) l }
        if p = 4 then s.netDeliver k fr
        else (s.incFld F.FHL_Pp_CNT.WORD ((4 * k + p) * 11 + 1)).emit (.frame (4 * k + p) fr)

def execEgressTransmit (k p : Nat) (s : State) : Out := run (.egressTransmit k p) s (egressTransmit k p s)

/-- R294: a write of a shaper; it works by what it was until the next reference period (`fhPeriod`). -/
def shaperWrite (k p q : Nat) (v : Word) (s : State) : State :=
  let x := (4 * k + p) * 7 + q
  let old := s.shapeCfg k p q
  let s := s.modEdge k fun e => { e with shapeOld := SMap.set none e.shapeOld (8 * p + q) (some old) }
  ((s.setFld F.FHL_Pp_SHq.RATE x (clamp 1 400000 (bits v.toNat 18 0))).setFld F.FHL_Pp_SHq.EN x (bits v.toNat 19 19)).setFld
    F.FHL_Pp_SHq.BURST x (clamp 9236 16777215 (bits v.toNat 43 20))

def execShaperWrite (k p q : Nat) (v : Word) (s : State) : Out := run (.shaperWrite k p q v) s (s.wr .FHL_Pp_SHq ((4 * k + p) * 7 + q) (shaperWrite k p q v))

/-- R295, Table 9-11: a write of a word of a policer; it works by what it was until the next reference period (`fhPeriod`). -/
def policerWrite (k i w : Nat) (v : Word) (s : State) : State :=
  let x := 64 * k + i
  let old := s.polCfg x
  let fs := match w with
    | 0 => [F.FHL_POLi.EN, F.FHL_POLi.MODE, F.FHL_POLi.AWARE, F.FHL_POLi.YDROP, F.FHL_POLi.CIR]
    | 1 => [F.FHL_POLi.PIR, F.FHL_POLi.CBS]
    | 2 => [F.FHL_POLi.EPBS]
    | _ => []
  let s := s.modEdge k fun e => { e with polOld := SMap.set none e.polOld i (some old) }
  fs.foldl (fun s f =>
    let b := bits v.toNat (f.hi - 64 * w) (f.lo - 64 * w)
    State.setFld s f x (if f = F.FHL_POLi.CIR ∨ f = F.FHL_POLi.PIR then min b 400000 else b)) s

def execPolicerWrite (k i w : Nat) (v : Word) (s : State) : Out := run (.policerWrite k i w v) s (s.wr .FHL_POLi (64 * k + i) (policerWrite k i w v))

/-- R270: the link state and FEC alignment of a port change. -/
def fronthaulLinkChange (p : Nat) (link fec : Bool) (s : State) : State :=
  (s.setFld F.FHL_Pp_STATUS.LINK p (b2n link)).setFld F.FHL_Pp_STATUS.FEC_LOCK p (b2n fec)

def execFronthaulLinkChange (p : Nat) (link fec : Bool) (s : State) : Out :=
  run (.fronthaulLinkChange p link fec) s (fronthaulLinkChange p link fec s)

/-- A big-endian number. -/
def natBe (d : List Byte) : Nat := natOf d.reverse

/-- A frame read from the bytes of a transmit slot. -/
def frameOf (d : List Byte) : Frame :=
  let ty := natBe (slice d 12 2)
  let tci := natBe (slice d 14 2)
  let tagged := ty == 0x8100
  { dst := natBe (slice d 0 6), src := natBe (slice d 6 6)
    tag := if tagged then some { vid := tci % 4096, pcp := tci / 8192, dei := bit tci 12 } else none
    etype := if tagged then natBe (slice d 16 2) else ty, len := d.length, fcsOk := true, ecpri := none
    data := (d.drop (if tagged then 18 else 14)).take (d.length - (if tagged then 22 else 18)) }

/-- R424: the producer count of the transmit ring has passed a slot: its frame enters the switch at port 4. -/
def netqTransmit (k : Nat) (s : State) : State :=
  let base := s.fld F.PKG_NETQ_TX.BASE k * 64
  let log2 := clamp 4 10 (s.fld F.PKG_NETQ_TX.LOG2 k)
  let cons := s.ringCons base
  if !s.flag F.PKG_NETQ_TX.EN k || s.dieOut (28 + k) || !s.netRam k base log2 || cons == s.ringProd base then s
  else
    let s := (s.meet (netSlot base log2 cons) 9216).meet (netSlot base log2 cons + 9216) 2
    let n := s.readNat (netSlot base log2 cons + 9216) 2
    let d := s.read (netSlot base log2 cons) (min n 9216)
    let s := s.put 0 (base + 4) (bytesOf 4 ((cons + 1) % 2 ^ 32))
    if n < 64 ∨ 9216 < n ∨ s.rangePoison (netSlot base log2 cons) n then s else s.switchIn k 4 (frameOf d)

def execNetqTransmit (k : Nat) (s : State) : Out := run (.netqTransmit k) s (netqTransmit k s)

end Sys2Proof.Machine
end

