-- ==== Sys2Proof/Machine/Fabric.lean ====
section
/-! DEFINITION. The device fabric as target, forwarder and member: requests served for other devices (R311 to R316),
messages and replies (R317 to R324), job teardown (R321, R322), barriers (R328 to R331), links and their failure (R302 to
R305, R396 to R398), the view, votes and expulsion (R399 to R404). -/

namespace Sys2Proof.Machine

/-! Arrival of a packet -/

/-- A device of the own pod is expelled (R403). -/
def State.expelled (s : State) (dev : Nat) : Bool :=
  dev / 512 == s.sysid / 512 && bit (s.fld F.FAB_EXPELw.EXP (dev % 512 / 64)) (dev % 64)

/-- A packet is a message, or the acknowledgement of one between pods, and crosses up to three switch stages; a memory-semantic one
crosses one (R300). -/
def manyHops (p : Packet) : Bool := p.ty == 5 || (p.ty == 9 && p.src / 512 != p.dst / 512)

/-- The hash of a packet at a device that did not issue it (R318; log entry 68). -/
def hashOf (p : Packet) : Nat := if p.ty = 5 then hashMsg (p.addr % 4096) 0 else hashAddr p.addr

/-- A reply of a kind, to the source of a request (Tables 10-2 and 10-3). -/
def replyTo (p : Packet) (ty status : Nat) : Packet :=
  { ty, status, dst := p.src, src := p.dst, tag := p.tag, gen := p.gen, ftid := p.ftid, job := p.job, addr := p.addr }

/-- The type of the reply to a request (Table 10-3); none: it has none. -/
def replyTy (ty : Nat) : Option Nat :=
  if [1, 2, 4].contains ty then some 8 else if [3, 5, 6, 7].contains ty then some 9 else none

/-- Send a reply, the device itself as its source. -/
def State.reply (s : State) (p : Packet) (status : Nat) (data : List Byte := []) (pois : Bool := false) : State :=
  match replyTy p.ty with
  | some ty =>
    let lines := List.replicate ((data.length + 63) / 64) pois
    s.send { replyTo p ty status with src := s.sysid, payload := data, plen := data.length, poison := pois, payPoison := lines } (hashOf p)
  | none => s

/-- A packet for another device (R300, R318): forwarded with the own route entry, or discarded past its last switch stage
and answered with UNREACH. -/
def State.forward (s : State) (p : Packet) : State :=
  if (if manyHops p then 3 else 1) ≤ p.hops then (s.incFld F.FAB_CNT.MISROUTE).reply p 2
  else if s.flt.wdtStop then s
  else if !s.rtValid p.dst then s.reply p 2
  else match s.firstHop p.dst (hashOf p) with
    | some l => s.onLink l { t := s.gey.arr, pkt := { p with hops := p.hops + 1 } }
    | none => (s.setDead p.dst).reply p 2

/-- An arriving packet of type ty: discarded from an expelled device (R403), where the device accepts none (R301), and where
its TYPE is reserved (Table 10-3); forwarded where it is for another device, else handled. -/
def State.arrive (s : State) (ty : Nat) (p : Packet) (here : State → State) : State :=
  if s.expelled p.src || !s.fabOn p.ty then s
  else if p.ty = 0 ∨ 10 < p.ty then s.incFld F.FAB_CNT.MISROUTE
  else if p.ty ≠ ty then s
  else if p.dst ≠ s.sysid then s.forward p
  else here s

/-- A packet that arrives on a link comes over a link in service. -/
def State.arriveOn (s : State) (l ty : Nat) (p : Packet) (here : State → State) : State :=
  if s.linkUp l then s.arrive ty p here else s

/-- The service of a read or atomic took longer than TSV: it is counted (R307); whether it did is open (log entry 180). -/
def State.service (s : State) : State :=
  let r := s.fresh 1
  r.2.when (r.1 == 1) fun s => s.incFld F.FAB_CNT.LATE_REPLY

/-! Requests served (R311, R315, R316) -/

/-- A device of the replay set (R347). -/
def State.inSet (s : State) (dev : Nat) : Bool :=
  dev / 512 == s.sysid / 512 && s.flag F.FAB_ROUTEi.VALID (dev % 512)

/-- The granule an address lies in may be used by the tenant of a request: none, or the status of R311. -/
def State.granuleRefused (s : State) (ftid state owner : Nat) : Option Nat :=
  if state ≠ 1 ∨ !s.ftidOk owner ftid then some 1 else if !s.isOpen owner then some 2 else none

/-- Why the byte at a device physical address is refused to a request that arrived at an edge die (R311). -/
def State.byteRefused (s : State) (k ftid a : Nat) : Option Nat :=
  match place a with
  | .store n p _ =>
    if s.dieDown n || s.dieDown (12 + n) || !s.reach (28 + k) n then some 6
    else s.granuleRefused ftid (s.fld F.STR_PAGE_OWNERp.STATE (n * 12288 + p)) (s.fld F.STR_PAGE_OWNERp.OWNER (n * 12288 + p))
  | .sram n o =>
    if s.dieDown n || !s.reach (28 + k) n then some 6
    else s.granuleRefused ftid (s.fld F.STR_SRAM_OWNERg.STATE (n * 128 + o / 2 ^ 20)) (s.fld F.STR_SRAM_OWNERg.OWNER (n * 128 + o / 2 ^ 20))
  | .rsram n _ =>
    if s.dieDown (24 + n) || !s.reach (28 + k) (24 + n) then some 6 else if ftid ≠ 0 then some 1 else none
  | .regs _ => if ftid ≠ 0 then some 1 else none
  | _ => some 6

/-- Why a request for n bytes is refused, as the status of its reply (R311, R347). -/
def State.refused (s : State) (l : Nat) (p : Packet) (a n : Nat) : Option Nat :=
  if s.replaying && !s.inSet p.src then some 2
  else if !faRange a n then some 6
  else match s.byteRefused (l / 16) p.ftid (faOfs a) with
    | some k => some k
    | none => s.byteRefused (l / 16) p.ftid (faOfs a + n - 1)

/-- A read request (R311, R315): a 64-byte line, or MLEN + 1 bytes. `regRd` reads register space. -/
def State.serveRead (s : State) (regRd : Nat → Nat → State → List Byte × State) (l : Nat) (p : Packet) (a n : Nat) : State :=
  match s.refused l p a n with
  | some k => s.reply p k
  | none =>
    match place (faOfs a) with
    | .regs o =>
      let r := regRd o n s.service
      r.2.reply p 0 r.1
    | _ =>
      let s := s.service.meet (faOfs a) n
      s.reply p 0 (s.view (faOfs a) n) (s.rangePoison (faOfs a) n)

/-- R311, R315: an RDL request. -/
def rdlServe (regRd : Nat → Nat → State → List Byte × State) (l : Nat) (p : Packet) (s : State) : State :=
  s.arriveOn l 1 p fun s => s.serveRead regRd l p (p.addr / 64 * 64) 64

/-- R311, R315: an RDS request. -/
def rdsServe (regRd : Nat → Nat → State → List Byte × State) (l : Nat) (p : Packet) (s : State) : State :=
  s.arriveOn l 2 p fun s => s.serveRead regRd l p p.addr (p.mlen % 8 + 1)

/-- R311, R316, R158: a WR request. -/
def fabricWr (l : Nat) (p : Packet) (e : Ecc) (s : State) : State :=
  s.arriveOn l 3 p fun s =>
    let a := faOfs p.addr
    let d := p.payload.take 8
    match s.refused l p p.addr (max 1 d.length) with
    | some k => s.reply p k
    | none =>
      let pois := pktDirty p
      let s := s.obs 7 p.src (3 + d.length * 16) p.addr d pois
      ((s.strikeWrite a d.length e).put 0 a d pois).reply p 0

/-- The operation of an ATOM packet: operand, new value, function, signedness (log entry 40). -/
def atomOf (p : Packet) : Nat × Nat × Nat × Bool :=
  (natOf (slice p.payload 0 8), natOf (slice p.payload 8 8), bits (natOf (slice p.payload 16 1)) 1 0,
    bit (natOf (slice p.payload 16 1)) 2)

/-- R311, R316: an ATOM request; one on register space is refused as one for an unpopulated address (log entry 66). -/
def fabricAtom (l : Nat) (p : Packet) (e : Ecc) (s : State) : State :=
  s.arriveOn l 4 p fun s =>
    let a := faOfs p.addr
    match if faClass p.addr = 3 ∨ p.addr % 8 ≠ 0 then some 6 else s.refused l p p.addr 8 with
    | some k => s.reply p k
    | none =>
      let (op, new, fn, sgn) := atomOf p
      let pois := pktDirty p
      let s := s.obs 7 p.src (4 + 8 * 16 + (fn + 4 * b2n sgn) * 256) p.addr (p.payload.take 16) pois
      let r := (s.service.strike e).atomic 0 a fn sgn op new pois
      r.2.2.reply p 0 (bytesOf 8 r.1) r.2.1

def execFabricAtom (l : Nat) (p : Packet) (e : Ecc) (s : State) : Out := run (.fabricAtom l p e) s (fabricAtom l p e s)

/-! Messages (R323, R324) -/

/-- Segments of a message of n bytes. -/
def segCount (n : Nat) : Nat := (n + 4095) / 4096

/-- The segments of a message held so far, in order; none while one is missing. -/
def MQ.whole (k : MQ) (src tag n : Nat) : Option (List Byte × List Bool) :=
  (List.range (segCount n)).foldl (fun r i =>
    match r, k.parts.find? fun (a, b, c, _, _) => a == src && b == tag && c == i with
    | some (d, q), some (_, _, _, e, q') => some (d ++ e, q ++ q')
    | _, _ => none) (some ([], []))

/-- The poison of each payload line of a message segment. -/
def pktLines (p : Packet) : List Bool :=
  (List.range ((p.payload.length + 63) / 64)).map fun i => p.poison || p.payPoison.getD i false

/-- The segments of a message are forgotten. -/
def MQ.purge (k : MQ) (src tag : Nat) : MQ :=
  { k with parts := k.parts.filter fun (a, b, _, _, _) => !(a == src && b == tag) }

/-- R323, R324, R332: a segment of a message; at the last one the message is delivered and acknowledged, a duplicate is
acknowledged without delivery, and a refused one is answered with its status. -/
def fabricMsg (l : Nat) (p : Packet) (s : State) : State :=
  s.arriveOn l 5 p fun s =>
    let q := p.addr % 4096
    let n := p.mlen + 1
    let end_ := p.seg + 1 == segCount n
    let k := s.mq q
    if k.seen.contains (p.src, p.tag) then s.when end_ fun s => s.reply p 0
    else
      let deny := if s.replaying && !s.inSet p.src then some 2
        else if s.fld F.FAB_Ll_STATUS.LVL l < 3 ∧ 65536 < n then some 5
        else s.msgRefused q p.ftid n
      match deny with
      | some st =>
        let s := s.setMq q (k.purge p.src p.tag)
        s.when end_ fun s => (s.when (st == 3) fun s => s.incFld F.FAB_MQn.BUSYCNT q).reply p st
      | none =>
        let k := { k with parts := (k.parts.filter fun (a, b, c, _, _) => !(a == p.src && b == p.tag && c == p.seg)) ++
          [(p.src, p.tag, p.seg, p.payload, pktLines p)] }
        let s := s.setMq q k
        if !end_ then s
        else match k.whole p.src p.tag n with
          | none => s
          | some (d, pois) =>
            let r := s.accept q p.src p.ftid d pois
            let m := (r.2.mq q).purge p.src p.tag
            (r.2.setMq q (if r.1 = 0 then { m with seen := ((p.src, p.tag) :: m.seen).take 4096 } else m)).reply p r.1

def execFabricMsg (l : Nat) (p : Packet) (s : State) : Out := run (.fabricMsg l p) s (fabricMsg l p s)

/-! Barriers (R328 to R331) -/

/-- One-way latency O_c of hop class c, and the round trip H_c, in cycles (R306). -/
def State.oneWay (s : State) (c : Nat) : Nat := 128 + c * s.fld F.FAB_HOPC.LC + (c - 1) * 96
def State.roundTrip (s : State) (c : Nat) : Nat := 2 * s.oneWay c + 640

/-- R328: a device's arrival at this device as the barrier's master. -/
def fabricBarr (p : Packet) (s : State) : State :=
  s.arrive 6 p fun s => if s.replaying && !s.inSet p.src then s.reply p 2 else (s.arriveDev (p.addr % 4096) (p.src % 512) (bits p.addr 31 16)).reply p 0

/-- The release is applied: EPOCH advances, the arrivals are cleared, and each recorded semaphore is signalled by 1 (R329). -/
def State.releaseBar (s : State) (b : Nat) : State :=
  let a := s.barAddr b
  let sig := (List.range (s.barLocal b)).map fun k => s.readNat (a + 80 + 3 * k) 3
  let s := s.putRam 0 (a + 64) (bytesOf 2 (s.barEpoch b + 1))
  let s := (s.putRam 0 (a + 67) [0#8]).putRam 0 (a + 70) [0#8, 0#8]
  sig.foldl (fun s w => if w % 32 < 24 then s.semAdd (w % 32) (bits w 16 5) 1 0 else s) (s.setBar b {})

/-- R329: a release arrives; it is applied at its arrival plus BUDGET − (O_(HOPS+1) + RES), or at once and counted where
that has passed. One of another epoch is ignored and counted (R331). -/
def fabricBrel (p : Packet) (s : State) : State :=
  s.arrive 7 p fun s =>
    if s.replaying && !s.inSet p.src then s.reply p 2
    else
    let b := p.addr % 4096
    let e := bits p.addr 31 16
    let s := s.reply p 0
    if !s.barEn b || s.barEpoch b ≠ e then s.incFld F.FAB_CNT.STALE
    else
      let used := s.oneWay (p.hops + 1) + p.res
      if s.fld F.FAB_HOPC.BUDGET < used then
        ((s.incFld F.FAB_CNT.BAR_LATE).raise srcBarrier { basin := s.barOwner b, gen := s.gen (s.barOwner b), data := b }).releaseBar b
      else s.setBar b { s.bar b with release := some (e, s.gey.arr + (s.fld F.FAB_HOPC.BUDGET - used) * 625) }

def execFabricBrel (p : Packet) (s : State) : Out := run (.fabricBrel p) s (fabricBrel p s)

/-- R329: the cycle at which this device applies a release has come. -/
def barrierReleaseApply (b : Nat) (s : State) : State :=
  match (s.bar b).release with
  | some (e, t) => if s.gey.arr < t then s else if s.barEpoch b = e then s.releaseBar b else s.setBar b { s.bar b with release := none }
  | none => s

def execBarrierReleaseApply (b : Nat) (s : State) : Out := run (.barrierReleaseApply b) s (barrierReleaseApply b s)

/-- A number of microseconds has passed since a reference period. -/
def State.elapsed (s : State) (clk us : Nat) : Bool := decide (us * 10000 ≤ (s.tmb.clk - clk) * 64)

/-- R330: no release has come within BAR_TMO of the arrival: an event record, and no release. -/
def barrierTimeout (b : Nat) (s : State) : State :=
  match (s.bar b).sent with
  | some t =>
    if s.elapsed t (s.fld F.FAB_CTRL.BAR_TMO * 1000) then
      (s.setBar b { s.bar b with sent := none }).raise srcBarrier { basin := s.barOwner b, gen := s.gen (s.barOwner b), data := b }
    else s
  | none => s

def execBarrierTimeout (b : Nat) (s : State) : Out := run (.barrierTimeout b) s (barrierTimeout b s)

/-- R331: at the start of a reset or removal of basin b, its barriers advance their epochs and clear their arrivals. -/
def State.barriersReset (s : State) (b : Nat) : State :=
  if !s.flag F.FAB_BAR_BASE.EN then s
  else ((List.range 4096).filter fun i => s.barOwner i == b).foldl (fun s i =>
    let a := s.barAddr i
    ((((s.putRam 0 (a + 64) (bytesOf 2 (s.barEpoch i + 1))).putRam 0 (a + 67) [0#8]).putRam 0 (a + 70) [0#8, 0#8])).setBar i {}) s

/-! Replies (R317) -/

/-- A committed operation that has been answered: not OK is a failure (R147). -/
def State.opDone (s : State) (t : Txn) (bad : Bool) : State := (s.forget t.tag).drainDone t bad

/-- The context of a request still waits for it (R135). -/
def State.stillWaits (s : State) (t : Txn) : Bool :=
  match s.ctx t.g t.c with
  | some x => x.seq == t.seq && x.blk == .fload t.tag t.rd t.fn
  | none => false

/-- An fload's reply with data: the line fills the die's remote-read cache, and the register is written (R315, R145). -/
def State.floadReply (s : State) (t : Txn) (p : Packet) : State :=
  let s := s.forget t.tag
  if !s.stillWaits t then s
  else
    let pois := pktDirty p
    if t.pkt.ty = 1 then
      let d := slice p.payload 0 64
      (s.rrcFill (t.g / 2) t.basin t.pkt.addr d pois).floadDone t (loadValue t.fn (d.drop (t.pkt.addr % 64))) pois
    else s.floadDone t (loadValue t.fn p.payload) pois

/-- A message is sent again with the same SRC and TAG (R324). -/
def State.retry (s : State) (t : Txn) : State :=
  let t := { t with tries := t.tries + 1, clk := s.tmb.clk }
  if t.link = some 64 then (s.deliverOwn t).relaunch
  else (s.setTxn { t with link := s.firstHop t.pkt.dst t.hash }).send t.pkt t.hash

/-- What a reply does to its request (R317, R319, R324); the reply of a killed command is discarded (R135). -/
def State.answered (s : State) (t : Txn) (p : Packet) : State :=
  let load := decide (t.pkt.ty = 1 ∨ t.pkt.ty = 2)
  if load && !s.stillWaits t then s.forget t.tag
  else if p.status = 2 ∨ p.status = 4 then s.unanswered t
  else if load then
    if p.status = 0 then s.floadReply t p
    else if p.status = 1 ∨ p.status = 6 then (s.killEnd t.g t.c 2).forget t.tag
    else s.unanswered t
  else if t.pkt.ty = 4 then
    if p.status = 0 then ((s.put t.basin t.ret (slice p.payload 0 8) (pktDirty p))).opDone t false
    else s.opDone t true
  else if t.pkt.ty = 5 then
    if p.status = 0 then s.opDone t false
    else if p.status = 3 ∧ t.tries < 3 then s.retry t
    else s.opDone t true
  else s.opDone t (p.status != 0)

/-- An arriving reply finds its request by TAG, from its target, or from a device on the way with UNREACH (R300, R317): one of an orphaned request, or of an old generation, is discarded and
counted (R216, R217); one without a request is counted in STALE; one after H_c in LATE_REPLY (R307). -/
def State.replyIn (s : State) (p : Packet) : State :=
  match s.fab.txns.find? fun t => t.tag == p.tag && (t.pkt.dst == p.src || p.status == 2) with
  | some t =>
    let late := (s.tmb.clk - t.clk) * 4200 > s.roundTrip (s.rtClass t.pkt.dst + 1) * 625
    let s := s.when late fun s => s.incFld F.FAB_CNT.LATE_REPLY
    if p.gen ≠ s.gen t.basin then (s.opDone t false).incFld F.BSN_STALEb.FABRIC t.basin
    else s.answered t p
  | none =>
    match s.fab.orphans.find? fun o => o.1 == p.tag with
    | some (_, b) =>
      let s := s.modFab fun f => { f with orphans := f.orphans.filter fun o => o.1 != p.tag }
      match b with
      | some b => s.incFld F.BSN_STALEb.FABRIC b
      | none => s
    | none => s.incFld F.FAB_CNT.STALE

/-- R317: a DATA reply. -/
def fabricData (p : Packet) (s : State) : State := s.arrive 8 p fun s => s.replyIn p

/-- R317: an ACK reply. -/
def fabricAck (p : Packet) (s : State) : State := s.arrive 9 p fun s => s.replyIn p

/-- R319: no reply has come within TMO of the send, or DEAD is set in the entry of the target. -/
def requestUnanswered (tag : Nat) (s : State) : State :=
  match s.fab.txns.find? fun t => t.tag == tag with
  | some t =>
    if s.rtDead t.pkt.dst || (t.link.any (· != 64) && s.elapsed t.clk (s.fld F.FAB_CTRL.TMO)) then s.unanswered t else s
  | none => s

/-- R324: a message not acknowledged within MC_RTO is sent again with the same SRC and TAG, up to 3 times. -/
def messageRetry (tag : Nat) (s : State) : State :=
  match s.fab.txns.find? fun t => t.tag == tag with
  | some t =>
    if t.pkt.ty ≠ 5 ∨ t.link.isNone ∨ !s.elapsed t.clk (s.fld F.FAB_CTRL.MC_RTO) then s
    else if t.tries < 3 then s.retry t
    else s.opDone t true
  | none => s

def execMessageRetry (tag : Nat) (s : State) : Out := run (.messageRetry tag) s (messageRetry tag s)

/-! Jobs (R322) -/

/-- The requests that hold are orphaned: their replies are discarded by tag, and committed operations count as failed. -/
def State.orphan (s : State) (p : Txn → Bool) (b : Option Nat) : State :=
  (s.fab.txns.filter p).foldl (fun s t =>
    (s.modFab fun f => { f with orphans := f.orphans ++ [(t.tag, b)] }).opDone t true) s

/-- Every command of a job held in a context or waiting for re-run ends with TEARDOWN (R322). -/
def State.endJob (s : State) (j : Nat) : State :=
  (List.range 24).foldl (fun s g =>
    let s := (s.held4 g).foldl (fun s (c, x) => if x.cmd.job = j then s.killEnd g c 9 else s) s
    let gone := (s.core g).rerun.filter fun c => c.job == j
    let s := s.modCore g fun m => { m with rerun := m.rerun.filter fun c => c.job != j }
    gone.foldl (fun s c => s.record g c (s.queueBasin c.q) 9 0 0 s.tickNo (s.arraysIn g).length) s) s

/-- The effect of one write of FAB_TEARDOWN (R322, Table 10-12). -/
def teardownWrite (v : Nat) (s : State) : State :=
  let j := bits v 31 0
  let s := (s.setFld F.FAB_TEARDOWN.JOB 0 j).setFld F.FAB_TEARDOWN.OP 0 (bits v 32 32)
  let s := s.when (bit v 35) fun s => s.setFld F.FAB_TEARDOWN.ERR 0 0
  if !bit v 33 then s
  else if bit v 32 then
    if s.fab.jobs.any fun e => e.1 == j then s.setJobs (s.fab.jobs.filter fun e => e.1 != j)
    else s.setFld F.FAB_TEARDOWN.ERR 0 1
  else if !(s.fab.jobs.any fun e => e.1 == j) && decide (64 ≤ s.fab.jobs.length) then s.setFld F.FAB_TEARDOWN.ERR 0 1
  else
    let s := s.setJobs ((s.fab.jobs.filter fun e => e.1 != j) ++ [(j, true)])
    (s.endJob j).orphan (fun t => decide (t.g < 24) && t.job == j) none

/-- R322: OP 0 with GO marks a job TORN. -/
def jobTeardown (v : Word) (s : State) : State := teardownWrite (putBit (putBit v.toNat 32 false) 33 true) s

def execJobTeardown (v : Word) (s : State) : Out := run (.jobTeardown v) s (s.wr .FAB_TEARDOWN 0 (jobTeardown v))

/-- R322: OP 1 with GO removes a job from the table. -/
def jobTableRemove (v : Word) (s : State) : State := teardownWrite (putBit (putBit v.toNat 32 true) 33 true) s

def execJobTableRemove (v : Word) (s : State) : Out := run (.jobTableRemove v) s (s.wr .FAB_TEARDOWN 0 (jobTableRemove v))

/-! Route entries and tenant IDs -/

/-- R318, R319: a write of a route entry; requests outstanding to a target that becomes dead are declared unanswered, and
those that wait for a path are looked at again. -/
def routeWrite (pod : Bool) (i : Nat) (v : Word) (s : State) : State :=
  ((s.setReg (if pod then .FAB_PODRTp else .FAB_ROUTEi) i v.toNat).sweepDead).relaunch

/-- R310: a write of FAB_FTIDb, accepted only while b is BUILDING and with an FTID that is not 0. -/
def ftidWrite (b : Nat) (v : BitVec 32) (s : State) : State :=
  if b = 0 ∨ s.fld F.BSN_STATEb.STATE b ≠ 1 ∨ bits v.toNat 15 0 = 0 then s else s.setReg .FAB_FTIDb b v.toNat

def execFtidWrite (b : Nat) (v : BitVec 32) (s : State) : Out := run (.ftidWrite b v) s (s.wr .FAB_FTIDb b (ftidWrite b v))

/-! Management packets and the view (R399, R400) -/

/-- A management packet on every link in service, unless the watchdog has stopped sends (R376); its payload in the layout
of log entry 69. -/
def State.flood (s : State) (kind : Nat) (data : List Byte) : State :=
  if !s.fabOn 10 || s.flt.wdtStop then s
  else ((List.range 64).filter s.linkUp).foldl (fun s l => s.emit (.packet l
    { ty := 10, addr := kind, src := s.sysid, dst := s.fld F.FAB_Ll_STATUS.PARTNER l, lvl := s.fld F.FAB_CTRL.NATIVE
      plen := data.length, payload := data })) s

/-- A management packet of a kind for this device (R399): one of a reserved kind is discarded and counted. -/
def State.mgmtIn (s : State) (p : Packet) (kind : Nat) (here : State → State) : State :=
  s.arrive 10 p fun s =>
    if 6 ≤ p.addr % 256 then s.incFld F.FAB_CNT.MISROUTE else if p.addr % 256 ≠ kind then s else here s

/-- The device learns a change of the view: EPOCH advances, SETTLED clears (R400). -/
def State.learn (s : State) (dev l st : Nat) : State :=
  let s := s.modFab fun f => { f with view := SMap.set 0 f.view (dev * 64 + l) st, viewClk := s.tmb.clk }
  (s.setFld F.FAB_MEMB.EPOCH 0 (s.fld F.FAB_MEMB.EPOCH + 1)).setFld F.FAB_MEMB.SETTLED 0 0

/-- A link of the device changes its state between ACTIVE and another: LSTATE floods the change (R400). -/
def State.linkChanged (s : State) (l : Nat) : State :=
  let st := s.fld F.FAB_Ll_STATUS.STATE l
  let s := (s.modFab fun f => { f with mySeq := f.mySeq + 1 }).learn s.pidx l st
  s.flood 0 (bytesOf 1 l ++ bytesOf 2 (s.fld F.FAB_Ll_STATUS.PARTNER l) ++ bytesOf 1 st ++ bytesOf 4 s.fab.mySeq)

/-- R400: a link change of another device of the pod; what is new is learned and flooded on. -/
def lstate (dev l st sq : Nat) (s : State) : State :=
  if !s.fabOn 10 || s.expelled (s.sysid / 512 * 512 + dev) || dev == s.pidx || decide (sq ≤ SMap.get 0 s.fab.seqs dev) then s
  else
    let s := s.modFab fun f => { f with seqs := SMap.set 0 f.seqs dev sq }
    let s := if SMap.get 0 s.fab.view (dev * 64 + l) = st then s else s.learn dev l st
    s.flood 0 (bytesOf 1 l ++ bytesOf 2 0 ++ bytesOf 1 st ++ bytesOf 4 sq)

def execLstate (dev l st sq : Nat) (s : State) : Out := run (.lstate dev l st sq) s (lstate dev l st sq s)

/-- R400: all link states of another device. -/
def lview (dev : Nat) (states : List Nat) (s : State) : State :=
  if !s.fabOn 10 || s.expelled (s.sysid / 512 * 512 + dev) || dev == s.pidx then s
  else ((states.take 64).zipIdx).foldl (fun s (st, l) =>
    if SMap.get 0 s.fab.view (dev * 64 + l) = st then s else s.learn dev l st) s

def execLview (dev : Nat) (states : List Nat) (s : State) : Out := run (.lview dev states) s (lview dev states s)

/-- R400: the device sends its own link states every 100 µs, and sets SETTLED when its view has not changed for 2 ms. -/
def lviewSend (s : State) : State :=
  if !s.elapsed s.fab.lviewClk 100 then s
  else
  let s := (s.modFab fun f => { f with lviewClk := s.tmb.clk }).flood 1 ((List.range 64).map fun l => BitVec.ofNat 8 (s.fld F.FAB_Ll_STATUS.STATE l))
  s.when (s.elapsed s.fab.viewClk 2000) fun s => s.setFld F.FAB_MEMB.SETTLED 0 1

def execLviewSend (s : State) : Out := run .lviewSend s (lviewSend s)

/-! Links (R302 to R305, R396 to R398) -/

/-- The unit of a link: its link group and its place in it (Table 1-3). -/
def linkUnit (l : Nat) : FUnit := .tile (28 + l / 16) (l % 16 / 4) (l % 4)

/-- A link leaves ACTIVE, or its training ends (R397): its packets are held, LINKSEQ goes to the partner over the new first
hops, and the change is flooded. -/
def State.downLink (s : State) (l st : Nat) : State :=
  let up := s.linkUp l
  let s := s.setFld F.FAB_Ll_STATUS.STATE l st
  if !up then s
  else
    let k := s.link l
    let s := s.setLink l { k with heldAt := some s.tmb.clk }
    let d := bytesOf 1 l ++ bytesOf 4 (k.rxSeq - 1)
    let s := s.send { ty := 10, addr := 2, src := s.sysid, dst := s.fld F.FAB_Ll_STATUS.PARTNER l, plen := d.length, payload := d } l
    (s.linkChanged l).sweepDead

/-- A held packet is resent on its new first hop (R397). -/
def State.resend (s : State) (e : OnLink) : State :=
  let p := e.pkt
  let own := s.fab.txns.find? fun t => t.tag == p.tag && p.src == s.sysid && t.pkt.dst == p.dst
  let h := match own with
    | some t => t.hash
    | none => hashOf p
  match s.firstHop p.dst h with
  | some l =>
    (s.modFab fun f => { f with txns := f.txns.map fun t => if own.any fun u => u.tag == t.tag then { t with link := some l } else t }).onLink l e
  | none => (s.setDead p.dst).sweepDead

/-- The packets a link holds, in order. -/
def Link.held (k : Link) : List OnLink := k.buf ++ k.queue.map fun e => { e with last := k.txSeq }

/-- R397: the partner's LINKSEQ names the last flit it accepted: later packets are resent in their original order. -/
def linkseq (l seq : Nat) (s : State) : State :=
  let k := s.link l
  if s.linkUp l || k.heldAt.isNone then s
  else (k.held.filter fun e => decide (seq < e.last)).foldl State.resend
    (s.setLink l { k with buf := [], queue := [], heldAt := none })

/-- The held packets of a link are not resent, and their requests are declared unanswered (R397, R319). -/
def State.dropHeld (s : State) (l : Nat) : State :=
  let k := s.link l
  (k.held.map (·.pkt)).foldl (fun s p =>
    match s.fab.txns.find? fun t => t.tag == p.tag && p.src == s.sysid && t.pkt.dst == p.dst with
    | some t => s.unanswered t
    | none => s) (s.setLink l { k with buf := [], queue := [], heldAt := none })

/-- R397: no LINKSEQ has come within 10 µs of DOWN. -/
def linkseqTimeout (l : Nat) (s : State) : State :=
  match (s.link l).heldAt with
  | some t => if s.elapsed t 10 then s.dropHeld l else s
  | none => s

/-- Training starts where the link is enabled, DOWN or REFUSED, and its unit in service (R305). -/
def State.startTraining (s : State) (l : Nat) : State :=
  let st := s.fld F.FAB_Ll_STATUS.STATE l
  if s.flag F.FAB_Ll_CTRL.EN l && (st == 0 || st == 6) && !s.unitOut (linkUnit l) then s.setFld F.FAB_Ll_STATUS.STATE l 1 else s

/-- The effect of one write of FAB_Ll_CTRL (Table 10-20). -/
def linkCtrl (l v : Nat) (s : State) : State :=
  let was := s.flag F.FAB_Ll_CTRL.EN l
  let s := s.setFld F.FAB_Ll_CTRL.EN l (bits v 0 0)
  let off := s.fld F.FAB_Ll_STATUS.STATE l == 7
  if off then s
  else if !bit v 0 then s.downLink l 0
  else if bit v 1 then (s.downLink l 0).startTraining l
  else s.when (!was) fun s => s.startTraining l

/-- R305: EN written 1. -/
def linkEnable (l : Nat) (v : BitVec 32) (s : State) : State := linkCtrl l (putBit v.toNat 0 true) s

/-- R305: RETRAIN written 1. -/
def linkRetrain (l : Nat) (v : BitVec 32) (s : State) : State := linkCtrl l (putBit v.toNat 1 true) s

/-- R404: light returns on a link that is down. -/
def lightReturn (l : Nat) (s : State) : State := s.startTraining l

def execLightReturn (l : Nat) (s : State) : Out := run (.lightReturn l) s (lightReturn l s)

/-- The level both ends accept, the highest one; level n and n − 1 are accepted where they are 2 or 3 (R332). -/
def commonLevel (n m : Nat) : Option Nat :=
  [3, 2].find? fun v => (v == n || v + 1 == n) && (v == m || v + 1 == m)

/-- Outstanding requests that need level 3 and wait for a link retrained at level 2 fail (R333). -/
def State.failLevel (s : State) (l : Nat) : State :=
  (s.fab.txns.filter fun t => t.pkt.ty == 5 && decide (65536 ≤ t.pkt.mlen) && t.link.isNone &&
    s.firstHop t.pkt.dst t.hash == some l).foldl (fun s t => s.opDone t true) s

/-- R305, R332, R403, R404: training ends, with the link ACTIVE at the higher common level, or REFUSED with an event record; what is
left of its states is passed at once (log entry 181). -/
def linkTrainingEnd (l : Nat) (p : Partner) (s : State) : State :=
  let st := s.fld F.FAB_Ll_STATUS.STATE l
  if st = 0 ∨ 5 ≤ st then s
  else
    let s := s.when (s.link l).heldAt.isSome fun s => s.dropHeld l
    let s := ((s.setFld F.FAB_Ll_STATUS.PARTNER l p.sysid).setFld F.FAB_Ll_STATUS.PLINK l p.plink).setFld F.FAB_Ll_STATUS.LM l p.lm
    let ok := !s.expelled p.sysid && p.sysid / 512 == s.sysid / 512 && decide (p.lm ≤ s.fld F.FAB_HOPC.LC)
    match if ok then commonLevel (s.fld F.FAB_CTRL.NATIVE) p.native else none with
    | none => (s.setFld F.FAB_Ll_STATUS.STATE l 6).raise srcMember { level := 3, data := l }
    | some v =>
      let s := (s.setFld F.FAB_Ll_STATUS.STATE l 5).setFld F.FAB_Ll_STATUS.LVL l v
      let s := (s.setLink l { lastFlit := s.tmb.clk }).linkChanged l
      (s.when (v == 2) fun s => s.failLevel l).relaunch

/-- Packets that waited for room in the retry buffer go out (R398). -/
def State.pumpLink : Nat → Nat → State → State
  | 0, _, s => s
  | f + 1, l, s =>
    let k := s.link l
    match k.queue with
    | [] => s
    | e :: r => if 2048 < k.unacked + flits e.pkt then s else State.pumpLink f l ((s.setLink l { k with queue := r }).sendOn l e)

/-- A flit is not accepted: a replay from the next expected flit is requested of the partner (R303). -/
def State.askReplay (s : State) (l : Nat) : State :=
  ((s.incFld F.FAB_Ll_CNT.REPLAY l).obsTiming (unitSrc (linkUnit l)) 8).emit (.replay l (s.link l).rxSeq)

/-- R303: a flit arrives: its CRC and its sequence are checked; one that fails is not accepted and a replay is requested.
The acknowledged sequence it carries frees the retry buffer. -/
def flitReceive (l seq ack : Nat) (crcOk : Bool) (s : State) : State :=
  if !s.linkUp l then s
  else if !crcOk then (s.incFld F.FAB_Ll_CNT.CRCERR l).askReplay l
  else
    let k := s.link l
    let b := k.buf.filter fun e => decide (ack < e.last)
    let k := { k with buf := b, replays := if b.length < k.buf.length then 0 else k.replays, lastFlit := s.tmb.clk }
    let s := if seq = k.rxSeq then s.setLink l { k with rxSeq := k.rxSeq + 1 } else (s.setLink l k).askReplay l
    State.pumpLink ((s.link l).queue.length + 1) l s

def execFlitReceive (l seq ack : Nat) (crcOk : Bool) (s : State) : Out :=
  run (.flitReceive l seq ack crcOk) s (flitReceive l seq ack crcOk s)

/-- R303: the partner asks for a replay: the packets from the requested flit onward are sent again. The tile action is
counted (R378). -/
def replayRequest (l seq : Nat) (s : State) : State :=
  if !s.linkUp l then s
  else
    let k := s.link l
    let s := ((s.incFld F.FAB_Ll_CNT.REPLAY l).countAction (28 + l / 16) 0).obsTiming (unitSrc (linkUnit l)) 8
    let s := s.setLink l { k with replayAt := seq, replays := if k.replayAt = seq then k.replays + 1 else 1 }
    (k.buf.filter fun e => decide (seq ≤ e.last)).foldl (fun s e => s.wire l (s.delayed l e.t e.pkt)) s

def execReplayRequest (l seq : Nat) (s : State) : Out := run (.replayRequest l seq) s (replayRequest l seq s)

/-- The region controller fences a link group: its links go down, and their traffic takes other first hops (R304, R397). -/
def State.fenceLinks (s : State) (x mech : Nat) : State :=
  ((List.range 4).foldl (fun s i => s.downLink (4 * x + i) 7) s).blockDown (28 + x / 4) (x % 4) mech false

/-- R304: a link goes down: after 8 successive replays of one flit (0), without a valid flit for 1 µs (1), at loss of
light (2), or fenced by its block controller (3). -/
def linkDown (l cause : Nat) (s : State) : State :=
  if !s.linkUp l || (cause == 0 && decide ((s.link l).replays < 8)) || (cause == 1 && !s.elapsed (s.link l).lastFlit 1) then s
  else
    let s := s.when (cause == 3 && !s.fencedUnit (linkUnit l)) fun s => s.addFence ⟨linkUnit l, 1, false, false⟩
    let s := (s.incFld F.FAB_Ll_CNT.DOWNS l).downLink l (if cause = 3 then 7 else 0)
    let s := s.detect (28 + l / 16) 8 1 (unitSrc (linkUnit l)) 0
    s.when (cause == 3) fun s => s.tileFenced (28 + l / 16) (l % 16 / 4) fun s => s.fenceLinks (l / 4) 8

/-! Votes and expulsion (R401 to R403) -/

/-- The managers named in FAB_QUORUM, in slot order. -/
def State.managers (s : State) : List Nat :=
  [s.fld F.FAB_QUORUM.MGR0, s.fld F.FAB_QUORUM.MGR1, s.fld F.FAB_QUORUM.MGR2, s.fld F.FAB_QUORUM.MGR3,
    s.fld F.FAB_QUORUM.MGR4].take (s.fld F.FAB_QUORUM.NMGR)

/-- A device leaves PMASK of every barrier this device masters; one that waited only for it releases (R403). -/
def State.unmask (s : State) (i : Nat) : State :=
  if !s.flag F.FAB_BAR_BASE.EN then s
  else ((List.range 4096).filter fun b => s.barEn b && s.barMaster b == s.pidx && s.barPart b i).foldl (fun s b =>
    let a := s.barAddr b + i / 8
    (s.putRam 0 a (bytesOf 1 (putBit (s.readNat a 1) (i % 8) false))).tryRelease b) s

/-- R403: the expulsion of pod device i takes effect. -/
def State.expel (s : State) (i : Nat) : State :=
  let w := i / 64
  let s := s.setFld F.FAB_EXPELw.EXP w (putBit (s.fld F.FAB_EXPELw.EXP w) (i % 64) true)
  let s := s.setFld F.FAB_MEMB.ESEQ 0 (s.fld F.FAB_MEMB.ESEQ + 1)
  let s := s.raise srcMember { level := 3, data := i }
  if i = s.pidx then (s.setFld F.FAB_ID.PVALID 0 0).setFld F.FAB_ID.SVALID 0 0
  else
    let s := (s.setFld F.FAB_ROUTEi.DEAD i 1).sweepDead
    let ls := (List.range 64).filter fun l => s.linkUp l && s.fld F.FAB_Ll_STATUS.PARTNER l == s.sysid / 512 * 512 + i
    (ls.foldl (fun s l => s.downLink l 0) s).unmask i

/-- A vote reaches this device (R402, Table 13-8). -/
def State.countVote (s : State) (slot target num : Nat) : State :=
  if s.managers.length ≤ slot then s
  else if s.expelled (s.sysid / 512 * 512 + target) ∨ num ≠ (s.fld F.FAB_MEMB.ESEQ + 1) % 2 ^ 16 then s.incFld F.FAB_MEMB.VDISC
  else if s.fab.votes.contains (slot, target, num) then s
  else
    let v := s.fab.votes ++ [(slot, target, num)]
    let s := s.modFab fun f => { f with votes := v }
    let mine := v.filter fun x => x.2.1 == target
    if s.managers.length / 2 < mine.length then
      let s := (s.modFab fun f => { f with votes := [] }).expel target
      s.incFld F.FAB_MEMB.VDISC 0 (v.length - mine.length)
    else s

/-- The bytes of a VOTE packet (log entry 69). -/
def voteBytes (slot target num : Nat) : List Byte := bytesOf 1 slot ++ bytesOf 2 target ++ bytesOf 2 num

/-- R402: a vote that came as a packet is counted, and flooded on where it is new. -/
def vote (slot target num : Nat) (s : State) : State :=
  if !s.fabOn 10 || s.managers.isEmpty then s
  else
    let new := num == (s.fld F.FAB_MEMB.ESEQ + 1) % 2 ^ 16 && !s.fab.votes.contains (slot, target, num)
    (s.when new fun s => s.flood 3 (voteBytes slot target num)).countVote slot target num

/-- The effect of one write of FAB_VOTE (R402, Table 13-11). -/
def voteWrite (v : Nat) (s : State) : State :=
  let s := (s.setFld F.FAB_VOTE.TARGET 0 (bits v 8 0)).setFld F.FAB_VOTE.NUM 0 (bits v 24 9)
  let s := s.when (bit v 26) fun s => s.setFld F.FAB_VOTE.ERR 0 0
  if !bit v 25 then s
  else match s.managers.findIdx? (· == s.pidx) with
    | none => s.setFld F.FAB_VOTE.ERR 0 1
    | some k =>
      if bits v 24 9 ≠ (s.fld F.FAB_MEMB.ESEQ + 1) % 2 ^ 16 ∨ !s.flag F.FAB_ID.PVALID then s.setFld F.FAB_VOTE.ERR 0 1
      else (s.flood 3 (voteBytes k (bits v 8 0) (bits v 24 9))).countVote k (bits v 8 0) (bits v 24 9)

/-- R402: a manager casts a vote: GO written 1. -/
def voteCast (v : BitVec 32) (s : State) : State := voteWrite (putBit v.toNat 25 true) s

end Sys2Proof.Machine
end

