-- ==== Sys2Proof/Machine/Basins.lean ====
section
/-! DEFINITION. Basins (R198 to R221): creation, opening, reset and removal, the PCIe events of their functions, the
mailbox and its fall-back ring, and the owners of host cores. -/

namespace Sys2Proof.Machine

/-- Event source of the life cycle of basin b, and of its up mailbox (Table 14-5). -/
def basinSrc (b : Nat) : Nat := 0x340 + b
def mailSrc (b : Nat) : Nat := 0x240 + b

def State.bst (s : State) (b : Nat) : Nat := s.fld F.BSN_STATEb.STATE b

/-- An event of the life cycle of basin b; DATA is its new STATE. -/
def State.basinEvent (s : State) (b : Nat) : State := s.raise (basinSrc b) { basin := b, gen := s.gen b, data := s.bst b }

/-- Instances of a field whose value is v (v not the reset value). -/
def State.holding (s : State) (f : Field) (v : Nat) : List Nat :=
  (s.instances f.kind f.lo).filter fun i => s.fld f i == v

/-! The start of a reset or removal (Table 7-7, R206, R331) -/

/-- Commands of a basin leave their contexts without record or re-run, and those that wait for re-run are dropped. -/
def State.dropBasin (s : State) (b : Nat) : State :=
  (List.range 24).foldl (fun s g =>
    let s := (s.held4 g).foldl (fun s (c, x) => if x.basin = b then s.drop g c else s) s
    let gone := (s.core g).rerun.filter fun c => s.queueBasin c.q == b
    s.when (!gone.isEmpty) fun s => s.modCore g fun m => { m with rerun := m.rerun.filter fun c => !gone.contains c }) s

/-- DSP tasks of a basin are killed without record, but for those that have ended (R241), and those that wait for re-run are
dropped. -/
def State.dropTasks (s : State) (b : Nat) : State :=
  let s := (s.dsps.filter fun e => e.2.task.isSome && e.2.basin == b && e.2.phase != 3).foldl (fun s e => s.dspFree e.1) s
  (List.range 16).foldl (fun s k =>
    let gone := (s.cluster k).rerun.filter fun t => s.queueBasin t.q == b
    s.when (!gone.isEmpty) fun s => s.modCluster k fun m => { m with rerun := m.rerun.filter fun t => !gone.contains t }) s

/-- Host cores a basin owns. -/
def State.coresOf (s : State) (b : Nat) : List Nat := (List.range 64).filter fun h => s.fld F.BSN_HC_OWNERh.BASIN h == b

/-- A reset (state 3) or a removal (state 4) of basin b starts. -/
def State.basinStop (s : State) (b st : Nat) (cmd : Bool) : State :=
  let s := s.setFld F.BSN_STATEb.GEN b ((s.gen b + 1) % 4096)
  let s := s.setFld F.BSN_STATEb.STATE b st
  let s := s.setBasin b { s.basin b with clk := s.tmb.clk, byCmd := cmd }
  let s := (s.dropBasin b).dropTasks b
  let s := (s.coresOf b).foldl (fun s h => s.setFld F.PKG_HC_CTRLh.HALTED h 1) s
  (s.rrcDrop fun _ l => l.basin == b).barriersReset b

/-! Its end (Table 7-7, R217) -/

/-- Committed drains or fabric requests of basin b are left. -/
def State.basinDrains (s : State) (b : Nat) : Bool :=
  (s.cores.any fun e => e.2.drains.any fun d => d.basin == b) || s.fab.txns.any fun t => t.basin == b

/-- Output copies of ended tasks of basin b are left (R241). -/
def State.basinCopies (s : State) (b : Nat) : Bool := s.dsps.any fun e => e.2.task.isSome && e.2.basin == b && e.2.phase == 3

/-- A drain is closed with what it still holds for this device: its local lines and its signals. -/
def State.closeDrain (s : State) (g : Nat) (d : Drain) : State :=
  let s := d.staged.foldl (fun s t => match t with
    | .store a x p => s.put d.basin a x p
    | .signal k n c => s.semAdd k n c (d.cmd.q % 8)
    | _ => s) s
  let s := s.modCore g fun m => { m with drains := m.drains.filter fun e => e.seq != d.seq }
  s.record g d.cmd d.basin 10 d.user d.cycles d.tick d.arrays

/-- Fabric operations of basin b not acknowledged are orphaned, and its drains end (R217). -/
def State.endDrains (s : State) (b : Nat) : State :=
  let s := s.orphan (fun t => t.basin == b) (some b)
  (List.range 24).foldl (fun s g => ((s.core g).drains.filter fun d => d.basin == b).foldl (fun s d => s.closeDrain g d) s) s

/-- Stale completion records of basin b are discarded and counted (R216, R217). -/
def State.dropRecs (s : State) (b : Nat) : State :=
  let old := fun (r : Rec) => r.basin == b && r.gen != s.gen b
  let s := (List.range 24).foldl (fun s g =>
    let n := ((s.core g).recs.filter old).length
    s.when (n != 0) fun s => (s.modCore g fun m => { m with recs := m.recs.filter fun r => !old r }).incFld F.BSN_STALEb.COMPL b n) s
  (List.range 16).foldl (fun s k =>
    let n := ((s.cluster k).recs.filter old).length
    s.when (n != 0) fun s => (s.modCluster k fun m => { m with recs := m.recs.filter fun r => !old r }).incFld F.BSN_STALEb.COMPL b n) s

/-- A source is released (R428, R462); COUNT keeps its value until the next assertion. -/
def State.release (s : State) (n : Nat) : State :=
  ((s.setFld F.EVC_SRCn.ACTIVE n 0).setFld F.EVC_SRCn.INSVC n 0).setFld F.EVC_SRCn.RUNG n 0

/-- Pending event records that name basin b in an old generation are discarded and counted (R216, R217). -/
def State.dropEvents (s : State) (b : Nat) : State :=
  ((s.instances .EVC_SRCn 0).filter fun n => (s.evCap n).basin == b && (s.evCap n).gen != s.gen b && s.flag F.EVC_SRCn.ACTIVE n).foldl
    (fun s n => (s.release n).incFld F.BSN_STALEb.EVENT b) s

/-- Queues a basin owns. -/
def State.queuesOf (s : State) (b : Nat) : List Nat := s.holding F.MXC_Qq_CTRL.BASIN b

/-- A queue's EN, counts and doorbell line are cleared. -/
def State.clearQueue (s : State) (q : Nat) : State :=
  let s := (s.setFld F.MXC_Qq_CTRL.EN q 0).setFld F.MXC_Qq_STATUS.HEAD q 0
  let s := s.setFld F.MXC_Qq_STATUS.QERR q 0
  let a := s.fld F.MXC_Qq_DBL.LINE q / 64 * 64
  let z := bytesOf 4 0
  let s := match place a with
    | .sram _ _ => (((s.queuePut q 0 a z).queuePut q 0 (a + 8) z).queuePut q 0 (a + 16) z).queuePut q 0 (a + 24) z
    | _ => s
  s.setQueue q {}

/-- The last steps common to reset and removal: records and requests of the old generation go, semaphores and queues are
cleared, and the mailbox page is zeroed. -/
def State.basinClear (s : State) (b : Nat) : State :=
  let s := (((s.endDrains b).dropRecs b).dropEvents b)
  let s := (s.holding F.MXC_SEMn.OWNER b).foldl (fun s i =>
    ((s.setFld F.MXC_SEMn.VAL i 0).setFld F.MXC_SEMn.RSV i 0).setFld F.MXC_SEMn.OVF i 0) s
  let s := (s.queuesOf b).foldl (fun s q => s.clearQueue q) s
  let s := { s with mbx := s.mbx.filter fun c => !decide (4096 * b ≤ c.1 ∧ c.1 < 4096 * b + 4096) }
  s.setBasin b { s.basin b with upHead := 0, dnTail := 0, dnHead := 0, down := [] }

/-- The system registers of a host core take their reset values (R207). -/
def State.hcReset (s : State) (h : Nat) : State :=
  let s := ((s.resetReg .HS_TIMECMP h).resetReg .HS_IP h).resetReg .HS_IE h
  (((s.resetReg .HS_TVAL h).resetReg .HS_EVSRV h).resetReg .HS_EVDATA h).setHc h {}

/-- The reset or removal of basin b may end: its output copies are done, and its drains are, or 200 µs have passed. -/
def State.basinReady (s : State) (b : Nat) : Bool := !s.basinCopies b && (!s.basinDrains b || s.elapsed (s.basin b).clk 200)

/-- BSN_CMD is free again, where it started the operation. -/
def State.cmdDone (s : State) (b : Nat) : State :=
  (s.when (s.basin b).byCmd fun s => s.setFld F.BSN_CMD.BUSY 0 0).setBasin b { s.basin b with byCmd := false }

/-- R218: the reset of basin b ends: its host cores restart, it is OPEN, and its VF sends vector 2. -/
def basinResetEnd (b : Nat) (s : State) : State :=
  if s.bst b ≠ 3 ∨ !s.basinReady b then s
  else
    let s := s.basinClear b
    let s := (s.coresOf b).foldl (fun s h => (s.hcReset h).setFld F.PKG_HC_CTRLh.HALTED h (1 - s.fld F.PKG_HC_CTRLh.RUN h)) s
    let s := s.setFld F.BSN_STATEb.STATE b 2
    ((s.cmdDone b).basinEvent b).msixVf b 2

def execBasinResetEnd (b : Nat) (s : State) : Out := run (.basinResetEnd b) s (basinResetEnd b s)

/-! Removal (R220) -/

/-- Cores whose last command, task or owner belonged to b are scrubbed. -/
def State.scrubBasin (s : State) (b : Nat) : State :=
  let s := (List.range 24).foldl (fun s g =>
    let m := s.core g
    if m.used && m.basin == b && s.idle g then scrubEnd g (s.startScrub g) else s) s
  let s := (s.dsps.filter fun e => e.2.used && e.2.basin == b && e.2.task.isNone).foldl (fun s e =>
    ((s.zero (dspBase e.1) 0x50000).clearPoison (dspBase e.1) 0x50000).setDsp e.1
      { timerOn := e.2.timerOn, fenceTick := e.2.fenceTick }) s
  (s.coresOf b).foldl (fun s h => s.hcReset h) s

/-- A running assign of die n that names basin b ends: the page in zeroing is free again (log entry 170). -/
def State.endAssign (s : State) (n b : Nat) : State :=
  match (s.store n).pageOp with
  | some (l, _, some i) =>
    if i = b then
      ((s.setStore n { s.store n with pageOp := none }).setFld F.STR_PAGE_CMD.BUSY n 0).setFld F.STR_PAGE_OWNERp.STATE (n * 12288 + l) 0
    else s
  | _ => s

/-- The key slot of b on die n is emptied, and a running key operation for it ends (R220; log entry 170). -/
def State.endKey (s : State) (n b : Nat) : State :=
  let s := s.dropKey n b
  if (s.store n).keyOp.any fun o => o.2 == b then (s.setStore n { s.store n with keyOp := none }).setFld F.STR_KEY_CMD.BUSY n 0 else s

/-- Pages, granules and keys of b are released on every die; no assign and no waiting release of b is left. -/
def State.returnMemory (s : State) (b : Nat) : State :=
  (List.range 12).foldl (fun s n =>
    let s := s.endAssign n b
    let s := (s.pagesOf n b).foldl (fun s p => s.pageRelease n p) s
    let mine := s.gransOf n b
    let s := mine.foldl (fun s g => s.granRelease n g) s
    let s := s.setStore n { s.store n with relWait := (s.store n).relWait.filter fun p => !(mine.map (12288 + ·)).contains p }
    s.endKey n b) s

/-- Queues, semaphores, host cores and digest slots of b return to basin 0. -/
def State.returnUnits (s : State) (b : Nat) : State :=
  let s := (s.queuesOf b).foldl (fun s q =>
    ((s.setFld F.MXC_Qq_CTRL.EN q 0).setFld F.MXC_Qq_CTRL.SHARE q 0).setFld F.MXC_Qq_CTRL.BASIN q 0) s
  let s := (s.holding F.MXC_SEMn.OWNER b).foldl (fun s i => s.setFld F.MXC_SEMn.OWNER i 0) s
  let s := (s.coresOf b).foldl (fun s h =>
    (s.setFld F.BSN_HC_OWNERh.BASIN h 0).setFld F.PKG_HC_CTRLh.RUN h 0) s
  (s.holding F.MXC_DIGk.OWNER b).foldl (fun s i => s.setFld F.MXC_DIGk.OWNER i 0) s

/-- Message queues, barriers and the FTID of b return. -/
def State.returnFabric (s : State) (b : Nat) : State :=
  let s := (s.holding F.FAB_MQn.OWNER b).foldl (fun s q =>
    ((s.setFld F.FAB_MQn.EN q 0).setFld F.FAB_MQn.OWNER q 0).setMq q {}) s
  let s := if !s.flag F.FAB_BAR_BASE.EN then s else
    ((List.range 4096).filter fun i => s.barOwner i == b).foldl (fun s i =>
      let a := s.barAddr i
      ((s.putRam 0 (a + 73) (bytesOf 1 (putBit (s.readNat (a + 73) 1) 0 false))).putRam 0 (a + 72) [0#8]).setBar i {}) s
  (s.setFld F.FAB_FTIDb.FTID b 0).setFld F.FAB_FTIDb.EN b 0

/-- The host-memory window of b is empty (log entry 70). -/
def State.emptyWindow (s : State) (b : Nat) : State :=
  (s.setFld F.BSN_HMW_BASEb.BASE b 1).setFld F.BSN_HMW_LIMITb.LIMIT b 0

/-- R220: the removal of basin b ends: its resources return in order, and it is FREE. -/
def basinRemovalEnd (b : Nat) (s : State) : State :=
  if b = 0 ∨ s.bst b ≠ 4 ∨ !s.basinReady b then s
  else
    let s := (((((s.basinClear b).scrubBasin b).returnMemory b).returnUnits b).returnFabric b).emptyWindow b
    let s := ((s.setFld F.BSN_STATEb.MODE b 0).setFld F.BSN_STATEb.MODE_PEND b 0).setFld F.BSN_STATEb.DSP_SHARE b 0
    let s := s.setFld F.BSN_STATEb.STATE b 0
    (s.cmdDone b).basinEvent b

def execBasinRemovalEnd (b : Nat) (s : State) : Out := run (.basinRemovalEnd b) s (basinRemovalEnd b s)

/-! BSN_CMD (Table 7-9) -/

/-- VF b of a port is enabled (R199). -/
def State.vfOn (s : State) (port b : Nat) : Bool :=
  s.flag F.CFG_SRIOV.VFE port && decide (b ≤ s.fld F.CFG_SRIOV.NUMVFS port)

/-- The number a CREATE takes, or its ERR (R199 to R201). -/
def State.createNum (s : State) (b port : Nat) : Except Nat Nat :=
  if b = 0 then
    match ((List.range 255).map (· + 1)).find? fun i => s.bst i == 0 && s.vfOn port i with
    | some i => .ok i
    | none => .error 1
  else if s.bst b ≠ 0 then .error 1
  else if !s.vfOn port b then .error 3
  else .ok b

/-- The enabled store dies. -/
def State.storeDies (s : State) : List Nat := (List.range 12).filter fun n => s.dieEn (12 + n)

/-- An accepted or refused CREATE (R200, R201). -/
def State.create (s : State) (b port : Nat) : State :=
  match s.createNum b port with
  | .error e => s.setFld F.BSN_CMD.ERR 0 e
  | .ok b =>
    if s.storeDies.any fun n => s.keyFull n b then s.setFld F.BSN_CMD.ERR 0 4
    else
      let s := s.storeDies.foldl (fun s n => s.drawKey n b) s
      let s := { s with acct := s.acct.filter fun e => e.1 / 8 != b }
      let s := (s.setFld F.BSN_STATEb.GEN b ((s.gen b + 1) % 4096)).emptyWindow b
      let s := (s.setFld F.BSN_STATEb.PORT b port).setFld F.BSN_STATEb.STATE b 1
      (s.setFld F.BSN_CMD.RESULT 0 b).setFld F.BSN_CMD.ERR 0 0

/-- The minimum share a basin is assigned on core g (R203; log entry 72). -/
def State.shareOf (s : State) (g b : Nat) : Nat :=
  (List.range 8).foldl (fun m q =>
    if s.queueBasin (qIx g q) = b then max m (s.fld F.MXC_Qq_CTRL.SHARE (qIx g q)) else m) 0

/-- The basins that are OPEN or RESETTING: basin 0, whose STATE reads 2 (Table 7-10), and tenants. -/
def State.openBasins (s : State) : List Nat :=
  0 :: (s.instances .BSN_STATEb 0).filter fun b => b != 0 && (s.bst b == 2 || s.bst b == 3)

/-- An OPEN and its ERR (R203). -/
def State.open' (s : State) (b : Nat) : State :=
  let all := b :: s.openBasins
  let err :=
    if b = 0 ∨ s.bst b ≠ 1 then 2
    else if (List.range 24).any fun g => decide (1024 < (all.map fun i => s.shareOf g i).sum) then 5
    else if 1024 < (all.map fun i => s.fld F.BSN_STATEb.DSP_SHARE i).sum then 6
    else 0
  let s := s.setFld F.BSN_CMD.ERR 0 err
  s.when (err == 0) fun s => s.setFld F.BSN_STATEb.STATE b 2

/-- A RESET or REMOVE and its ERR (R218, R220). -/
def State.stopCmd (s : State) (b st : Nat) (from' : List Nat) : State :=
  if b = 0 ∨ !from'.contains (s.bst b) then s.setFld F.BSN_CMD.ERR 0 2
  else ((s.setFld F.BSN_CMD.ERR 0 0).setFld F.BSN_CMD.BUSY 0 1).basinStop b st true

/-- The effect of one write of BSN_CMD. GO is accepted at stage 6, when the journal presentation has ended (R386, R433). -/
def bsnCmd (v : Nat) (s : State) : State :=
  let s := ((s.setFld F.BSN_CMD.BASIN 0 (bits v 7 0)).setFld F.BSN_CMD.PORT 0 (bits v 8 8)).setFld F.BSN_CMD.OP 0 (bits v 11 9)
  if !bit v 12 || s.flag F.BSN_CMD.BUSY || s.fld F.PKG_BOOT.STAGE != 6 || s.flt.presenting then s
  else match bits v 11 9 with
    | 0 => s.create (bits v 7 0) (bits v 8 8)
    | 1 => s.open' (bits v 7 0)
    | 2 => s.stopCmd (bits v 7 0) 3 [2]
    | 3 => s.stopCmd (bits v 7 0) 4 [1, 2]
    | _ => s.setFld F.BSN_CMD.ERR 0 2

/-- A write of BSN_CMD with OP and GO as its row names them. -/
def bsnWord (v op : Nat) : Nat := v % 512 + op * 512 + 4096

/-- R200, R201. -/
def basinCreate (v : BitVec 32) (s : State) : State := bsnCmd (bsnWord v.toNat 0) s
def execBasinCreate (v : BitVec 32) (s : State) : Out := run (.basinCreate v) s (basinCreate v s)

/-- R203. -/
def basinOpen (v : BitVec 32) (s : State) : State := bsnCmd (bsnWord v.toNat 1) s
def execBasinOpen (v : BitVec 32) (s : State) : Out := run (.basinOpen v) s (basinOpen v s)

/-- R218. -/
def basinReset (v : BitVec 32) (s : State) : State := bsnCmd (bsnWord v.toNat 2) s
def execBasinReset (v : BitVec 32) (s : State) : Out := run (.basinReset v) s (basinReset v s)

/-- R220. -/
def basinRemove (v : BitVec 32) (s : State) : State := bsnCmd (bsnWord v.toNat 3) s
def execBasinRemove (v : BitVec 32) (s : State) : Out := run (.basinRemove v) s (basinRemove v s)

/-! PCIe events (R199, R218, R416) -/

/-- A basin that is not FREE enters CLOSING, from a reset in progress too, and performs Table 7-7 from its start (R199, R220);
one already there stays. -/
def State.closeBasin (s : State) (b : Nat) : State :=
  if s.bst b = 0 ∨ s.bst b = 4 then s
  else (s.basinStop b 4 (s.basin b).byCmd).basinEvent b

/-- Every basin of a port that holds is closed. -/
def State.closePort (s : State) (port : Nat) (p : Nat → Bool) : State :=
  ((s.instances .BSN_STATEb 0).filter fun b => b != 0 && s.portOf b == port && p b).foldl (fun s b => s.closeBasin b) s

/-- R199: a write of VF Enable and NumVFs of a port. -/
def vfDisable (port : Nat) (vfe : Bool) (n : Nat) (s : State) : State :=
  let s := (s.setFld F.CFG_SRIOV.VFE port (b2n vfe)).setFld F.CFG_SRIOV.NUMVFS port (min n 255)
  s.closePort port fun b => !s.vfOn port b

def execVfDisable (port : Nat) (vfe : Bool) (n : Nat) (s : State) : Out := run (.vfDisable port vfe n) s (vfDisable port vfe n s)

/-- The PCIe state of VF b of a port takes its reset values: its MSI-X table, pending bits and ATS Enable. -/
def State.vfPcieReset (s : State) (port b : Nat) : State :=
  let s := (List.range 4).foldl (fun s v => s.resetReg .MSIX_VF (vfIx port b * 4 + v)) s
  (s.resetReg .MSIX_VFPBA (vfIx port b)).resetReg .CFG_ATS (port * 256 + b)

/-- R218, R414: a Function Level Reset of VF b of a port; VF b of the other port behaves as for a FREE basin. -/
def vfFlr (port b : Nat) (s : State) : State :=
  (s.vfPcieReset port b).when (s.portOf b == port && s.bst b == 2) fun s => s.basinStop b 3 false

def execVfFlr (port b : Nat) (s : State) : Out := run (.vfFlr port b) s (vfFlr port b s)

/-! The mailbox (R209 to R211) -/

/-- A range of mailbox page b. -/
def State.mbxRead (s : State) (b o n : Nat) : List Byte := (List.range n).map fun i => SMap.get 0#8 s.mbx (4096 * b + o + i)

/-- The control word of a slot. -/
def State.mbxCtl (s : State) (b slot : Nat) : Nat := natOf (s.mbxRead b (slot * 64 + 56) 8)
def State.mbxOwn (s : State) (b slot : Nat) : Bool := bit (s.mbxCtl b slot) 63

/-- Bytes to a mailbox page. -/
def State.mbxPut (s : State) (b o : Nat) (d : List Byte) : State := { s with mbx := putBytes s.mbx (4096 * b + o) d }

/-- The function a requester acts as on PCIe: its requester ID is the function number (R412). -/
def pcieId : Req → Option Nat
  | .pf p => some (p * 2 ^ 16)
  | .vf p b => some (b + p * 2 ^ 16)
  | _ => none

/-- Device physical address of a BAR0 offset (Table 1-8). -/
def regAddr (o : Nat) : Nat := 0xFF00000000 + o

/-- R211: an up slot's control word arrives: GEN is the current generation, and the driver's event is written. -/
def State.upBell (s : State) (b slot ctl : Nat) : State :=
  let c := ctl % 2 ^ 16 + s.gen b * 2 ^ 16 + bits ctl 41 28 * 2 ^ 28 + 2 ^ 63
  let s := (s.mbxPut b (slot * 64 + 56) (bytesOf 8 c)).incFld F.BSN_MBXb.UP b
  s.raise (mailSrc b) { basin := b, gen := s.gen b, data := slot, ext := true, xdata := c % 2 ^ 16 }

/-- Ring geometry (R212): entries, and the addresses of the up and down rings. -/
def State.ringLen (s : State) (b : Nat) : Nat := 2 ^ clamp 4 12 (s.fld F.BSN_RINGb.LOG2 b)
def State.ringBase (s : State) (b : Nat) : Nat := s.fld F.BSN_RINGb.BASE b * 64
def State.upEntry (s : State) (b i : Nat) : Nat := s.ringBase b + 64 + i % s.ringLen b * 64
def State.dnEntry (s : State) (b i : Nat) : Nat := s.ringBase b + 64 + (s.ringLen b + i % s.ringLen b) * 64

/-- The ring lies wholly inside the window of its basin, in host memory (R212). -/
def State.ringOk (s : State) (b : Nat) : Bool :=
  let a := s.ringBase b
  let z := a + 64 + 2 * s.ringLen b * 64 - 1
  decide (0x800000000000 ≤ a ∧ z < 0x1000000000000) && (b == 0 || (s.inWindow b a && s.inWindow b z))

/-- Ring mode stops at a fault of the ring (R213), and rung 2 is recommended (R392). -/
def State.ringStop (s : State) (b : Nat) : State :=
  ((s.setFld F.BSN_STATEb.MODE b 0).setFld F.BSN_STATEb.MODE_ERR b 1).report (basinSrc b)
    { basin := b, gen := s.gen b, data := s.bst b } (unitSrc (.region 28)) 2

/-- A down slot is copied to the down ring, or waits for space (R213). -/
def State.downCopy (s : State) (b slot : Nat) : State :=
  let k := s.basin b
  if s.ringLen b ≤ diff32 k.dnTail k.dnHead then s.setBasin b { k with down := k.down.filter (· != slot) ++ [slot] }
  else
    let s := s.put b (s.dnEntry b k.dnTail) (s.mbxRead b (slot * 64) 64)
    let n := (k.dnTail + 1) % 2 ^ 32
    let s := s.put b (s.ringBase b + 8) (bytesOf 4 n)
    let s := s.setBasin b { k with dnTail := n, down := k.down.filter (· != slot) }
    (s.mbxPut b (slot * 64 + 56) (bytesOf 8 (s.mbxCtl b slot % 2 ^ 63))).msixVf b 1

/-- R211, R213: a down slot's control word arrives. -/
def State.downBell (s : State) (b slot ctl : Nat) (fault : Bool) : State :=
  let s := (s.mbxPut b (slot * 64 + 56) (bytesOf 8 (ctl % 2 ^ 42 + 2 ^ 63))).incFld F.BSN_MBXb.DOWN b
  if b = 0 then s
  else if s.flag F.BSN_STATEb.MODE b then (if fault || !s.ringOk b then s.ringStop b else s.downCopy b slot)
  else s.msixVf b 0

/-- A requester writes a mailbox page as its tenant: VF b of its port, or for basin 0 a host core of basin 0 (R211, R414;
log entry 71). -/
def asTenant (r : Req) (b : Nat) : Bool :=
  match r with
  | .vf _ _ => true
  | .hc _ => b == 0
  | _ => false

/-- A write the tables do not accept is ignored and counted (R210). -/
def State.mbxDrop (s : State) (b : Nat) : State := s.incFld F.BSN_MBXb.DROP b

/-- A control-word write by the tenant or by the driver (Table 7-5); its reserved bits are 0 (Table 7-4). -/
def State.mbxCtlWrite (s : State) (tenant : Bool) (b slot v : Nat) (fault : Bool) : State :=
  let own := s.mbxOwn b slot
  let produce := tenant == decide (slot < 32)
  if produce then
    if own || !bit v 63 then s.mbxDrop b
    else if slot < 32 then s.upBell b slot v
    else if bits v 27 16 ≠ s.gen b then s.mbxDrop b
    else s.downBell b slot v fault
  else if own && !bit v 63 then s.mbxPut b (slot * 64 + 56) (bytesOf 8 (v % 2 ^ 42))
  else s.mbxDrop b

/-- A write to a mailbox page takes effect (R210, Table 7-5). -/
def State.mbxApply (s : State) (r : Req) (b o : Nat) (d : List Byte) (fault : Bool := false) : State :=
  let tenant := asTenant r b
  let mine := match r with
    | .vf p i => i == b && p == s.portOf b
    | .hc h => s.fld F.BSN_HC_OWNERh.BASIN h == 0
    | _ => true
  if !mine || d.isEmpty then s
  else if tenant && b != 0 && s.bst b != 2 then s
  else if tenant && s.flag F.BSN_STATEb.MODE b then s.mbxDrop b
  else
    let slot := o / 64
    if o % 64 = 56 ∧ d.length = 8 then s.mbxCtlWrite tenant b slot (natOf d) fault
    else if 56 < o % 64 + d.length then s.mbxDrop b
    else if tenant == decide (slot < 32) && !s.mbxOwn b slot then s.mbxPut b o d
    else s.mbxDrop b

/-- A write to a mailbox page, with its Obsidian record where it comes over PCIe (R344); a replay takes none from PCIe
(R347). -/
def State.mbxWrite (s : State) (r : Req) (b o : Nat) (d : List Byte) (fault : Bool := false) : State :=
  match pcieId r with
  | some i =>
    if s.replaying then s
    else (s.obs 1 i d.length (regAddr (0x03000000 + b * 4096 + o)) d).mbxApply r b o d fault
  | none => s.mbxApply r b o d fault

/-- R210: a write to the mailbox page of basin b. -/
def mailboxWrite (r : Req) (b o : Nat) (d : List Byte) (s : State) : State := s.mbxWrite r b o d

def execMailboxWrite (r : Req) (b o : Nat) (d : List Byte) (s : State) : Out := run (.mailboxWrite r b o d) s (mailboxWrite r b o d s)

/-- R211: a control word with OWN 1 to an up slot. -/
def upDoorbell (r : Req) (b slot : Nat) (ctl : Word) (s : State) : State :=
  s.mbxWrite r b (slot * 64 + 56) (bytesOf 8 (putBit ctl.toNat 63 true))

def execUpDoorbell (r : Req) (b slot : Nat) (ctl : Word) (s : State) : Out := run (.upDoorbell r b slot ctl) s (upDoorbell r b slot ctl s)

/-- R211: a control word with OWN 1 to a down slot. -/
def downDoorbell (r : Req) (b slot : Nat) (ctl : Word) (fault : Bool) (s : State) : State :=
  s.mbxWrite r b ((32 + slot) * 64 + 56) (bytesOf 8 (putBit ctl.toNat 63 true)) fault

def execDownDoorbell (r : Req) (b slot : Nat) (ctl : Word) (fault : Bool) (s : State) : Out :=
  run (.downDoorbell r b slot ctl fault) s (downDoorbell r b slot ctl fault s)

/-! The fall-back ring (R212 to R214) -/

/-- One up entry is copied into the lowest free up slot; none where no slot is free. -/
def State.upCopy (s : State) (b : Nat) (e : List Byte) : Option State :=
  match (List.range 32).find? fun i => !s.mbxOwn b i with
  | none => none
  | some i => some ((s.mbxPut b (i * 64) (slice e 0 56)).upBell b i (natOf (slice e 56 8)))

/-- Up entries from UP_HEAD to UP_TAIL, as far as slots are free. -/
def State.upCopies (s : State) (b tail : Nat) : List (List Byte) → State
  | [] => s
  | e :: l =>
    let k := s.basin b
    if k.upHead = tail then s
    else match s.upCopy b e with
      | none => s
      | some s => State.upCopies (s.setBasin b { s.basin b with upHead := (k.upHead + 1) % 2 ^ 32 }) b tail l

/-- R213: a poll of the ring of basin b, due POLL µs after the last one (log entry 2): the control line `line` and the up ring's entries from UP_HEAD on. -/
def ringPoll (b : Nat) (line : List Byte) (entries : List (List Byte)) (fault : Bool) (s : State) : State :=
  let s0 := s
  let s := s.setBasin b { s.basin b with pollClk := s.tmb.clk }
  if b = 0 ∨ !s.flag F.BSN_STATEb.MODE b ∨ s.bst b ≠ 2 ∨ s.noHostRead ∨
      !s.elapsed (s0.basin b).pollClk (s.fld F.BSN_RINGb.POLL b) then s0
  else if fault || !s.ringOk b then s.ringStop b
  else
    let src := unitSrc (.region (28 + s.portOf b))
    let s := s.obs 2 src 64 (s.ringBase b) (slice line 0 64)
    let old := (s.basin b).upHead
    let s := s.setBasin b { s.basin b with dnHead := natOf (slice line 12 4) }
    let s := s.upCopies b (natOf (slice line 0 4)) entries
    let s := ((entries.take (diff32 (s.basin b).upHead old)).zipIdx).foldl (fun s (e, i) => s.obs 2 src 64 (s.upEntry b (old + i)) (slice e 0 64)) s
    let s := s.when ((s.basin b).upHead != old) fun s => s.put b (s.ringBase b + 4) (bytesOf 4 (s.basin b).upHead)
    (s.basin b).down.foldl (fun s i => s.downCopy b i) s

def execRingPoll (b : Nat) (line : List Byte) (entries : List (List Byte)) (fault : Bool) (s : State) : Out :=
  run (.ringPoll b line entries fault) s (ringPoll b line entries fault s)

/-- The effect of one write of BSN_STATEb (Table 7-10); one with a new DSP_SHARE that R202 refuses has none. -/
def modeWrite (b : Nat) (v : BitVec 32) (s : State) : State :=
  let share := min (bits v.toNat 29 19) 1024
  if share != s.fld F.BSN_STATEb.DSP_SHARE b && !s.building b then s else
  let s := s.when (bit v.toNat 18) fun s => s.setFld F.BSN_STATEb.MODE_ERR b 0
  let s := s.setFld F.BSN_STATEb.DSP_SHARE b share
  let new := bit v.toNat 16
  (s.setFld F.BSN_STATEb.MODE_PEND b (b2n (new != s.flag F.BSN_STATEb.MODE b))).setBasin b { s.basin b with modeNext := new }

def execModeWrite (b : Nat) (v : BitVec 32) (s : State) : Out := run (.modeWrite b v) s (modeWrite b v s)

/-- R214: every slot of the mailbox has OWN 0: a waiting MODE takes effect. -/
def modeChange (b : Nat) (s : State) : State :=
  if s.flag F.BSN_STATEb.MODE_PEND b && (List.range 64).all fun i => !s.mbxOwn b i then
    ((s.setFld F.BSN_STATEb.MODE b (b2n (s.basin b).modeNext)).setFld F.BSN_STATEb.MODE_PEND b 0).setBasin b
      { s.basin b with pollClk := s.tmb.clk }
  else s

def execModeChange (b : Nat) (s : State) : Out := run (.modeChange b) s (modeChange b s)

/-! Host cores (R207) -/

/-- The effect of one write of BSN_HC_OWNERh (Table 7-15, R422). -/
def hostCoreOwnerWrite (h : Nat) (v : BitVec 32) (s : State) : State :=
  let s := s.when (bit v.toNat 9) fun s => s.setFld F.BSN_HC_OWNERh.ERR h 0
  let b := bits v.toNat 7 0
  let old := s.fld F.BSN_HC_OWNERh.BASIN h
  if b = old then s
  else if !s.flag F.PKG_HC_CTRLh.HALTED h || !s.building old || !s.building b || s.flag F.PKG_HC_PAIRp.EN (h / 2) then
    s.setFld F.BSN_HC_OWNERh.ERR h 1
  else ((s.setFld F.BSN_HC_OWNERh.BASIN h b).setFld F.BSN_HC_OWNERh.SCRUB h 1).setFld F.PKG_HC_CTRLh.RUN h 0

def execHostCoreOwnerWrite (h : Nat) (v : BitVec 32) (s : State) : Out := run (.hostCoreOwnerWrite h v) s (hostCoreOwnerWrite h v s)

/-- R207: the clear of a host core for its new owner ends; a start that came meanwhile takes effect. -/
def hostCoreClearEnd (h : Nat) (s : State) : State :=
  if s.flag F.BSN_HC_OWNERh.SCRUB h then
    ((s.hcReset h).setFld F.BSN_HC_OWNERh.SCRUB h 0).setFld F.PKG_HC_CTRLh.HALTED h (1 - s.fld F.PKG_HC_CTRLh.RUN h)
  else s

def execHostCoreClearEnd (h : Nat) (s : State) : Out := run (.hostCoreClearEnd h) s (hostCoreClearEnd h s)

end Sys2Proof.Machine
end

