-- ==== Sys2Proof/Machine/Replay.lean ====
section
/-! DEFINITION. Deterministic mode (R339, R341), Obsidian's control and replay (R342 to R348), lock-step (R349 to R352)
and digest slots (R354). -/

namespace Sys2Proof.Machine

/-! Deterministic mode -/

/-- The effect of one write of PWR_DET_CTRL (Table 11-10, R339, R341). -/
def detWrite (v : Nat) (s : State) : State :=
  let s := s.setFld F.PWR_DET_CTRL.HC_MHZ 0 (clamp 1000 2800 (bits v 16 5))
  let st := s.fld F.PWR_DET_CTRL.STATE
  if bit v 0 then
    if s.flag F.PWR_DET_CTRL.EN then s
    else
      let s := { s.setFld F.PWR_DET_CTRL.EN 0 1 with det := { leaving := false } }
      s.when (st == 0) fun s => (s.setFld F.PWR_DET_CTRL.STATE 0 1).setFld F.PWR_DET_CTRL.CAUSE 0 0
  else
    let s := s.setFld F.PWR_DET_CTRL.EN 0 0
    if st = 2 then { s with det := { leaving := true } }
    else (s.setFld F.PWR_DET_CTRL.STATE 0 0).setFld F.PWR_DET_CTRL.CAUSE 0 0

/-- R339: a write of PWR_DET_CTRL with EN 1. -/
def detModeEnable (v : BitVec 32) (s : State) : State := detWrite (putBit v.toNat 0 true) s
def execDetModeEnable (v : BitVec 32) (s : State) : Out := run (.detModeEnable v) s (detModeEnable v s)

/-- R341: a write of PWR_DET_CTRL with EN 0. -/
def detModeDisable (v : BitVec 32) (s : State) : State := detWrite (putBit v.toNat 0 false) s
def execDetModeDisable (v : BitVec 32) (s : State) : Out := run (.detModeDisable v) s (detModeDisable v s)

/-- Caldera chooses the set point of VDD_MX from the clocks and temperatures of the matrix dies, 580 to 780 mV (R443, R454; log
entry 187). -/
def State.mxSet (s : State) : State :=
  s.setFld F.PWR_RAILr.SET 0 (580 + Config.mxSetPoint ((List.range 12).map fun n => s.fld F.PWR_DIEd.CLK_MHZ n)
    ((List.range 12).map fun n => s.fld F.PWR_DIEd.TJ n) % 201)

/-- R339: at a tick an entering mode is on: matrix dies run at 1,050 MHz with no throttle step (Table 15-13), and gated arrays wake
(R451). -/
def detModeEntry (s : State) : State :=
  if s.fld F.PWR_DET_CTRL.STATE = 1 ∧ s.flag F.GEY_CTRL.TICKING ∧ s.frameCyc = 0 then
    let s := s.setFld F.PWR_DET_CTRL.STATE 0 2
    let s := (List.range 12).foldl (fun s n => (s.setFld F.PWR_DIEd.CLK_MHZ n 1050).setFld F.PWR_DIEd.STEP n 0) s
    let s := s.mxSet.setFld F.PWR_STATUS.THR_MASK 0 (s.fld F.PWR_STATUS.THR_MASK / 2 ^ 12 * 2 ^ 12)
    s.wakeUnits fun _ => true
  else s

def execDetModeEntry (s : State) : Out := run .detModeEntry s (detModeEntry s)

/-- R341, R348: a trigger of R453 while the mode is on or entering. -/
def State.detLoss (s : State) (cause : Nat) : State :=
  if s.fld F.PWR_DET_CTRL.STATE = 1 ∨ s.fld F.PWR_DET_CTRL.STATE = 2 then
    let s := { (s.setFld F.PWR_DET_CTRL.STATE 0 3).setFld F.PWR_DET_CTRL.CAUSE 0 cause with det := { leaving := false } }
    let s := s.obsFault 0x009 0 (0x009 + cause * 2 ^ 48)
    (s.raise 0x009 { data := cause }).diverge 6
  else s

def detModeLoss (cause : Nat) (s : State) : State := s.detLoss cause
def execDetModeLoss (cause : Nat) (s : State) : Out := run (.detModeLoss cause) s (detModeLoss cause s)

/-! Obsidian's control (Table 11-6) -/

/-- The ring lies in store owned by basin 0 (R342). -/
def State.obsRingOk (s : State) : Bool :=
  (List.range (s.obsSize / 2 ^ 20)).all fun i =>
    match place (s.obsBase + i * 2 ^ 20) with
    | .store n p _ => s.fld F.STR_PAGE_OWNERp.STATE (n * 12288 + p) == 1 && s.fld F.STR_PAGE_OWNERp.OWNER (n * 12288 + p) == 0
    | _ => false

/-- The effect of one write of PKG_OBS_CTRL (Table 11-6, R346). -/
def obsWrite (v : Nat) (s : State) : State :=
  let s := ((s.setFld F.PKG_OBS_CTRL.OP 0 (bits v 2 1)).setFld F.PKG_OBS_CTRL.FLIGHT 0 (bits v 3 3)).setFld
    F.PKG_OBS_CTRL.FABDATA 0 (bits v 4 4)
  let s := ((s.setFld F.PKG_OBS_CTRL.HC_INJECT 0 (bits v 5 5)).setFld F.PKG_OBS_CTRL.TRIG_FLT 0 (bits v 6 6)).setFld
    F.PKG_OBS_CTRL.POST 0 (bits v 15 8)
  let s := s.setFld F.PKG_OBS_CTRL.CLASS 0 (bits v 31 16 ||| 0x1001)
  let s := if bit v 0 then
      if s.flag F.PKG_OBS_CTRL.EN then s
      else if !s.obsRingOk then s.setFld F.PKG_OBS_STATUS.ERR 0 1
      else (((s.setFld F.PKG_OBS_CTRL.EN 0 1).setFld F.PKG_OBS_STATUS.DONE 0 0).setFld F.PKG_OBS_STATUS.DIVERGE 0 0)
    else
      { (s.setFld F.PKG_OBS_CTRL.EN 0 0).setFld F.PKG_OBS_STATUS.FROZEN 0 0 with
        obsd := { s.obsd with on := false, post := none, stopped := false } }
  s.when (bit v 7) State.obsFreeze

/-- R342: a write of PKG_OBS_CTRL with EN 1. -/
def obsidianEnable (v : Word) (s : State) : State := obsWrite (putBit v.toNat 0 true) s
def execObsidianEnable (v : Word) (s : State) : Out := run (.obsidianEnable v) s (obsidianEnable v s)

/-- R346: a write of PKG_OBS_CTRL with EN 0. -/
def obsidianDisable (v : Word) (s : State) : State := obsWrite (putBit v.toNat 0 false) s
def execObsidianDisable (v : Word) (s : State) : Out := run (.obsidianDisable v) s (obsidianDisable v s)

/-- R346: a freeze trigger: a write of FREEZE, or an event record of a fault class while TRIG_FLT is 1. -/
def obsidianFreeze (fromEvent : Bool) (s : State) : State :=
  if fromEvent && !s.flag F.PKG_OBS_CTRL.TRIG_FLT then s else s.obsFreeze

def execObsidianFreeze (fromEvent : Bool) (s : State) : Out := run (.obsidianFreeze fromEvent) s (obsidianFreeze fromEvent s)

/-- R346: the last of the POST ticks has passed. -/
def obsidianFrozen (s : State) : State :=
  if s.obsOn && s.obsd.post == some 0 then
    { s.setFld F.PKG_OBS_STATUS.FROZEN 0 1 with obsd := { s.obsd with post := none } }
  else s

def execObsidianFrozen (s : State) : Out := run .obsidianFrozen s (obsidianFrozen s)

/-- R344: a write of PKG_OBS_MARK. -/
def obsidianMark (v : Word) (s : State) : State := s.obs 11 0 0 v.toNat
def execObsidianMark (v : Word) (s : State) : Out := run (.obsidianMark v) s (obsidianMark v s)

/-- R347: a write of GEY_TICK_SET, accepted only while RUN and TICKING are 0 and OP is 1. -/
def tickSet (v : Word) (s : State) : State :=
  if s.flag F.GEY_CTRL.RUN || s.flag F.GEY_CTRL.TICKING || s.fld F.PKG_OBS_CTRL.OP != 1 then s
  else
    let n := (v.toNat + 2 ^ 64 - 1) % 2 ^ 64
    { s.setFld F.GEY_TICK.TICK 0 n with
      gey := { s.gey with tickSet := true, fresh := true }, tmb := { s.tmb with replica := { s.tmb.replica with tick := n } } }

def execTickSet (v : Word) (s : State) : Out := run (.tickSet v) s (tickSet v s)

/-! The end of a read (R120, R148) -/

/-- The bytes of a load, an sdld or a vld arrive at the context that waits for them, with their poison; that of a descriptor
register stands beside it (Table 5-4, log entry 75). -/
def State.loadFinish (s : State) (g c : Nat) (x : Ctx) (d : List (Byte × Bool)) : State :=
  let pois := d.any Prod.snd
  let bytes := d.map Prod.fst
  match x.blk with
  | .load _ n rd fn =>
    let y := ({ x with blk := .none } : Ctx)
    if n = 32 then
      let z := y.setSd rd (natOf bytes)
      s.put1 g c { z with rp := SMap.set false z.rp (sdSpec rd) pois }.next
    else s.result g c y rd (loadValue fn bytes) pois
  | .vload rd _ =>
    let l := (x.lanes rd).zip (x.lanePois rd) |>.flatMap fun (v, p) => (bytesOf 4 v).map (·, p)
    s.put1 g c (({ x with blk := .none } : Ctx).setVbytes rd (overlay l 0 (d.take 8192))).next
  | _ => s

/-- Address and bytes of the read a context waits for. -/
def Ctx.reads (x : Ctx) : Option (Nat × Nat) :=
  match x.blk with
  | .load a n _ _ => some (a, n)
  | .vload _ sd => some (sdBase (x.sdReg sd), min (sdLen (x.sdReg sd)) 8192)
  | _ => none

/-- The ranges of that read in order. -/
def Ctx.ranges (x : Ctx) : List (Nat × Nat) :=
  match x.blk with
  | .load a n _ _ => [(a, n)]
  | .vload _ sd => (sdRuns (x.sdReg sd)).map (·, sdLen0 (x.sdReg sd))
  | _ => []

/-! Records read back (Table 11-2) -/

/-- A record as its header and payload give it. -/
structure ObsRec where
  kind : Nat
  dat : Bool
  poison : Bool
  cyc : Nat
  tick : Nat
  src : Nat
  aux : Nat
  value : Nat
  data : List Byte
  deriving DecidableEq, Repr

/-- The record a list of bytes begins with. -/
def obsParse (d : List Byte) : ObsRec :=
  let h := natOf (slice d 0 8)
  { kind := bits h 3 0, dat := bit h 4, poison := bit h 5, cyc := bits h 36 17, tick := natOf (slice d 8 8)
    src := natOf (slice d 16 4), aux := natOf (slice d 20 4), value := natOf (slice d 24 8)
    data := slice d 32 (bits h 16 8 * 16) }

/-- The record at a ring offset; it may wrap (R342). -/
def State.obsAt (s : State) (ofs : Nat) : ObsRec :=
  obsParse ((List.range (s.obsRecLen ofs)).map fun i => s.rd (s.obsBase + (ofs + i) % s.obsSize))

/-- A record's place in time has come. -/
def State.recDue (s : State) (r : ObsRec) (lag : Nat) : Bool :=
  decide (r.tick + lag < s.tickNo) || (r.tick + lag == s.tickNo && decide (r.cyc ≤ s.frameCyc))

/-- The host cores of tenant basins are halted while HC_INJECT is 1 in a replay (Table 11-4). -/
def State.haltTenants (s : State) : State :=
  (List.range 64).foldl (fun s h =>
    s.when (s.fld F.BSN_HC_OWNERh.BASIN h != 0) fun s => s.setFld F.PKG_HC_CTRLh.HALTED h 1) s

/-- A record of the read of n bytes at a: more records follow where it is full and bytes are still missing (log entry 34). -/
def State.gather (s : State) (r : ObsRec) (a n : Nat) (f : State → List Byte → State) : Option State :=
  let all := s.obsd.part ++ r.data.take r.aux
  if a + s.obsd.part.length ≠ r.value then none
  else if r.data.length = 4096 ∧ all.length < n then some { s with obsd := { s.obsd with part := all } }
  else some (f { s with obsd := { s.obsd with part := [] } } all)

/-- A record of a run at q of a stream that waits for it on core g (log entry 188). -/
def State.hostHold (s : State) (g : Nat) (r : ObsRec) (q : Nat × Nat) : Option State :=
  let old := ((s.hostFor g q.1 false).map (·.data)).getD []
  if q.1 + old.length = r.value ∧ old.length < q.2 then
    let e : HostData := { core := g, addr := q.1, data := old ++ r.data.take r.aux, poison := r.poison }
    some { s with obsd := { s.obsd with host := e :: (s.obsd.host.filter fun k => !(k.core == g && k.addr == q.1)) } }
  else none

/-- HOSTRD: the data complete the outstanding read of that address by that source; none where no read waits
(Table 11-4). -/
def State.hostRead (s : State) (r : ObsRec) : Option State :=
  let d := r.data.take r.aux
  if r.src < 24 then
    (List.range 4).findSome? fun c => (s.ctx r.src c).bind fun x => match x.reads with
      | some (a, n) => s.gather r a n fun s d =>
        s.loadFinish r.src c x (s.newestOver r.src x x.ranges ((slice d 0 n).map (·, r.poison)))
      | none => x.word.bind fun w => (x.hostRuns w).findSome? (s.hostHold r.src r)
  else if r.src < 320 then
    (s.dsp (r.src - 64)).dma.findSome? fun (ch, t) => t.bind fun t =>
      if dmaHost t then s.gather r (sdBase t.desc) (sdLen t.desc) fun s d => s.dmaMove (r.src - 64) ch t d else none
  else
    ((s.instances .BSN_STATEb 16).filter fun b => s.flag F.BSN_STATEb.MODE b).findSome? fun b =>
      let k := s.basin b
      if s.ringBase b = r.value then
        let s := s.setBasin b { k with dnHead := natOf (slice d 12 4) }
        some (k.down.foldl (fun s i => s.downCopy b i) s)
      else if s.upEntry b k.upHead = r.value then
        (s.upCopy b d).map fun s =>
          let n := (k.upHead + 1) % 2 ^ 32
          (s.setBasin b { s.basin b with upHead := n }).put b (s.ringBase b + 4) (bytesOf 4 n)
      else none

/-- FMSG from outside the replay set: its records are gathered, and the message is injected when its digest is met or its
last record has come (log entry 34). -/
def State.msgRecord (s : State) (r : ObsRec) : State :=
  let all := s.obsd.part ++ r.data
  let key := s.fld F.PKG_OBS_KEY.KEY
  let fit := (List.range 16).find? fun k => digest key (all.take (all.length - k)) == r.value
  if fit.isNone && r.data.length = 4096 then { s with obsd := { s.obsd with part := all } }
  else ({ s with obsd := { s.obsd with part := [] } }).deliver r.aux r.src (all.take (all.length - fit.getD 0)) (List.replicate ((all.length + 63) / 64) r.poison)

/-- FREQ from outside the replay set: the write or atomic is performed (log entry 73). -/
def State.freqRecord (s : State) (r : ObsRec) : State :=
  let a := faOfs r.value
  if r.aux % 16 = 3 then s.put 0 a (r.data.take (bits r.aux 7 4)) r.poison
  else (s.atomic 0 a (bits r.aux 9 8) (bit r.aux 10) (natOf (slice r.data 0 8)) (natOf (slice r.data 8 8)) r.poison).2.2

/-- What a record does (Table 11-4). `regWr` writes register space as a requester. -/
def State.applyRec (s : State) (regWr : Req → Nat → List Byte → State → State) (agrees : Bool) (r : ObsRec) : State :=
  let id : Req := if r.src % 65536 = 0 then .pf (r.src / 65536) else .vf (r.src / 65536) (r.src % 65536)
  match r.kind with
  | 0 => if s.gey.last = r.value then s else s.diverge 2
  | 1 =>
    match place r.value with
    | .regs o => regWr id o (r.data.take r.aux) s
    | _ => memoryWriteAs (s.who (.pf (r.src / 65536))) r.value (r.data.take r.aux) r.poison .clean s
  | 2 =>
    match s.hostRead r with
    | some s => s
    | none => s.diverge 3
  | 3 => regWr id r.value (r.data.take r.aux) s
  | 4 =>
    if !s.flag F.PKG_OBS_CTRL.HC_INJECT then s
    else memoryWriteAs (s.who (.hc (r.src % 64))) r.value (r.data.take r.aux) r.poison .clean s.haltTenants
  | 5 => if agrees then s else s.diverge 1
  | 6 =>
    if s.inSet r.src then (if agrees then s else s.diverge 1)
    else if r.dat then s.msgRecord r else s.diverge 4
  | 7 => if s.inSet r.src then (if agrees then s else s.diverge 1) else s.freqRecord r
  | 8 => if agrees then s else s.diverge 7
  | 9 => { s with obsd := { s.obsd with hrand := s.obsd.hrand ++ [(r.src % 64, r.value)] } }
  | 12 => s.diverge 5
  | _ => s

/-- The replay moves past a record it has applied; it is done where the ring holds no later one (log entry 74). -/
def State.nextRec (s : State) (ofs : Nat) (r : ObsRec) : State :=
  let n := 32 + r.data.length
  let o := (ofs + n) % s.obsSize
  let k := s.obsAt o
  let more := decide (s.obsd.done + n < s.obsSize) && (decide (r.tick < k.tick) || (k.tick == r.tick && decide (r.cyc ≤ k.cyc)))
  let s := { s.setFld F.PKG_OBS_OLD.OLD 0 o with obsd := { s.obsd with done := s.obsd.done + n } }
  s.when (!more) fun s => s.setFld F.PKG_OBS_STATUS.DONE 0 1

/-- R347, R348, R350: the next record of a replay's ring, or of a shadow's stream, is applied when it is due. A replay's
first divergence leaves PKG_OBS_OLD at its record. -/
def replayRecord (regWr : Req → Nat → List Byte → State → State) (agrees : Bool) (s : State) : State :=
  if s.replaying then
    let o := s.fld F.PKG_OBS_OLD.OLD % s.obsSize
    let r := s.obsAt o
    if s.flag F.PKG_OBS_STATUS.DONE || !s.recDue r 0 then s
    else
      let t := s.applyRec regWr agrees r
      if t.obsd.stopped then t else t.nextRec o r
  else if s.shadowing then
    match s.lock.inputs with
    | d :: l =>
      let r := obsParse d
      if s.recDue r (s.fld F.PKG_LOCK_CTRL.LAG) then
        ({ s with lock := { s.lock with inputs := l } }).applyRec regWr agrees r
      else s
    | [] => s
  else s

/-! Lock-step (R349 to R352) -/

/-- R349 holds for this device: deterministic mode is on, and it carries no radio reservations and no fronthaul flows. -/
def State.lockOk (s : State) : Bool :=
  (s.fld F.PWR_DET_CTRL.STATE == 2) && (s.instances .MXC_TPROG_BASE 0).all (fun g => !s.flag F.MXC_TPROG_BASE.EN g) &&
    (s.instances .RDP_CLk_TPROG 0).all (fun k => !s.flag F.RDP_CLk_TPROG.EN k) && s.edges.all fun e => e.2.flows.isEmpty

/-- Held writes are released (R352). -/
def State.ungate (s : State) (p : Nat → Nat → Bool) : State :=
  let go := s.lock.gated.filter fun (t, i, _) => p t i
  { s with out := s.out ++ go.map (fun x => x.2.2), lock := { s.lock with gated := s.lock.gated.filter fun (t, i, _) => !p t i } }

/-- Held writes are discarded and counted (R352). -/
def State.dropGated (s : State) : State :=
  { s.incFld F.PKG_LOCK_CNT.SUPPRESSED 0 s.lock.gated.length with lock := { s.lock with gated := [] } }

/-- The effect of one write of PKG_LOCK_CTRL (Table 11-9). -/
def lockWrite (v : Nat) (s : State) : State :=
  let bad := s.flag F.PKG_LOCK_CTRL.MISMATCH || s.flag F.PKG_LOCK_CTRL.LOSTSIG
  let s := s.when (bit v 23) fun s => s.setFld F.PKG_LOCK_CTRL.MISMATCH 0 0
  let s := s.when (bit v 24) fun s => s.setFld F.PKG_LOCK_CTRL.LOSTSIG 0 0
  let s := ((s.setFld F.PKG_LOCK_CTRL.ROLE 0 (bits v 1 1)).setFld F.PKG_LOCK_CTRL.GATE 0 (bits v 2 2)).setFld
    F.PKG_LOCK_CTRL.LAG 0 (max 1 (bits v 6 3))
  let s := (s.setFld F.PKG_LOCK_CTRL.SIGINT 0 (min 6 (bits v 9 7))).setFld F.PKG_LOCK_CTRL.PARTNER 0 (bits v 22 10)
  if bit v 0 then
    if s.flag F.PKG_LOCK_CTRL.EN || !s.lockOk then s
    else { s.setFld F.PKG_LOCK_CTRL.EN 0 1 with lock := { idx := s.frameCyc / 2 ^ (s.fld F.PKG_LOCK_CTRL.SIGINT + 10) } }
  else
    let s := if bad then s.dropGated else s.ungate fun _ _ => true
    { s.setFld F.PKG_LOCK_CTRL.EN 0 0 with lock := {} }

/-- R349: a write of PKG_LOCK_CTRL. -/
def lockstepEnable (v : Word) (s : State) : State := lockWrite v.toNat s
def execLockstepEnable (v : Word) (s : State) : Out := run (.lockstepEnable v) s (lockstepEnable v s)

/-- R350: an input record of the primary arrives at its shadow. -/
def lockrec (p : Packet) (s : State) : State :=
  s.mgmtIn p 4 fun s =>
    if s.shadowing && p.src == s.fld F.PKG_LOCK_CTRL.PARTNER then
      { s with lock := { s.lock with inputs := s.lock.inputs ++ [p.payload] } }
    else s

def execLockrec (p : Packet) (s : State) : Out := run (.lockrec p) s (lockrec p s)

/-- A LOCKSIG packet to the partner in the layout of log entry 69; `flag` 0 signature, 1 match, 2 mismatch, 3 lost. -/
def State.lockSig (s : State) (tick idx sig flag : Nat) : State :=
  { s with out := s.out ++ [.mgmt
      { ty := 10, addr := 5, dst := s.fld F.PKG_LOCK_CTRL.PARTNER, src := s.fld F.FAB_ID.SYSID, plen := 19
        payload := bytesOf 8 tick ++ bytesOf 2 idx ++ bytesOf 8 sig ++ bytesOf 1 flag }] }

/-- A mismatch, or a lost signature, of an interval: the bit, the first such interval, the stop of the shadow's inputs,
the discard of held writes, and an event record (R351, R352). -/
def State.lockFail (s : State) (lost : Bool) (tick idx : Nat) : State :=
  let first := !s.flag F.PKG_LOCK_CTRL.MISMATCH && !s.flag F.PKG_LOCK_CTRL.LOSTSIG
  let s := s.when first fun s => (s.setFld F.PKG_LOCK_CTRL.MINT 0 idx).setFld F.PKG_LOCK_CTRL.MTICK 0 tick
  let s := s.setFld (if lost then F.PKG_LOCK_CTRL.LOSTSIG else F.PKG_LOCK_CTRL.MISMATCH) 0 1
  let s := ({ s with lock := { s.lock with stopped := true, inputs := [] } }).dropGated
  s.raise srcLock { level := 3, data := idx, ext := true, xdata := tick }

/-- The shadow compares its signature of an interval with the primary's, and answers the primary (R351). -/
def State.lockCompare (s : State) (tick idx mine theirs : Nat) : State :=
  let s := s.incFld F.PKG_LOCK_CNT.COMPARED
  let s := { s with lock := { s.lock with
    own := s.lock.own.filter (fun (t, i, _, _) => !(t == tick && i == idx))
    theirs := s.lock.theirs.filter fun (t, i, _) => !(t == tick && i == idx) } }
  if mine = theirs then s.lockSig tick idx theirs 1
  else (s.lockSig tick idx mine 2).lockFail false tick idx

/-- R351, R352: a signature arrives at the shadow, or the shadow's answer at the primary. Intervals are named by the
primary's tick number. -/
def locksig (p : Packet) (s : State) : State :=
  let tick := natOf (slice p.payload 0 8)
  let idx := natOf (slice p.payload 8 2)
  let sig := natOf (slice p.payload 10 8)
  let flag := natOf (slice p.payload 18 1)
  s.mgmtIn p 5 fun s =>
    if !s.flag F.PKG_LOCK_CTRL.EN || p.src != s.fld F.PKG_LOCK_CTRL.PARTNER then s
    else if s.flag F.PKG_LOCK_CTRL.ROLE then
      if s.lock.stopped then s
      else match s.lock.own.find? fun (t, i, _, _) => t == tick && i == idx with
        | some (_, _, mine, _) => s.lockCompare tick idx mine sig
        | none => { s with lock := { s.lock with theirs := s.lock.theirs ++ [(tick, idx, sig)] } }
    else if flag = 1 then
      ({ s with lock := { s.lock with matched := some (tick, idx) } }).ungate fun t i => decide (t < tick) || (t == tick && decide (i ≤ idx))
    else s.lockFail (flag == 3) tick idx

def execLocksig (p : Packet) (s : State) : Out := run (.locksig p) s (locksig p s)

/-- The running interval ends (R351): the primary sends its signature; the shadow compares, or waits for the primary's. -/
def State.closeInterval (s : State) : State :=
  let (sig, idx) := (s.lock.sig, s.lock.idx)
  let s := { s with lock := { s.lock with sig := 0, idx := idx + 1 } }
  if !s.flag F.PKG_LOCK_CTRL.EN || s.lock.stopped then s
  else if !s.flag F.PKG_LOCK_CTRL.ROLE then s.lockSig s.tickNo idx sig 0
  else
    let tick := s.tickNo - s.fld F.PKG_LOCK_CTRL.LAG
    match s.lock.theirs.find? fun (t, i, _) => t == tick && i == idx with
    | some (_, _, other) => s.lockCompare tick idx sig other
    | none => { s with lock := { s.lock with own := s.lock.own ++ [(tick, idx, sig, s.gey.arr)] } }

/-- R351: the last cycle of the running interval has passed. -/
def signatureIntervalEnd (s : State) : State :=
  if s.flag F.PKG_LOCK_CTRL.EN && decide ((s.lock.idx + 1) * 2 ^ (s.fld F.PKG_LOCK_CTRL.SIGINT + 10) ≤ s.frameCyc) then
    s.closeInterval
  else s

def execSignatureIntervalEnd (s : State) : Out := run .signatureIntervalEnd s (signatureIntervalEnd s)

/-- R351: a signature has not arrived 4 µs (4,200 cycles) after the shadow's interval end. -/
def lostsig (s : State) : State :=
  match s.lock.own with
  | (tick, idx, mine, t) :: l =>
    if t + 4200 * 625 ≤ s.gey.arr then
      (({ s with lock := { s.lock with own := l } }).lockSig tick idx mine 3).lockFail true tick idx
    else s
  | [] => s

def execLostsig (s : State) : Out := run .lostsig s (lostsig s)

/-! Digest slots -/

/-- R354: a write of CLR to digest slot k of core g. -/
def digestClear (g k : Nat) (s : State) : State :=
  ((s.setFld F.MXC_DIGk.SUM (g * 16 + k) 0).setFld F.MXC_DIGk.COUNT (g * 16 + k) 0).setFld F.MXC_DIGk.POISON (g * 16 + k) 0

def execDigestClear (g k : Nat) (s : State) : Out := run (.digestClear g k) s (s.wr .MXC_DIGk (16 * g + k) (digestClear g k))

end Sys2Proof.Machine
end

