-- ==== Sys2Proof/Machine/Time.lean ====
section
/-! DEFINITION. Timebase, tick generator and time triggers (R36 to R64): the passing of one reference period, and the
meanings of the commands on TMB and GEY but the tick itself. -/

namespace Sys2Proof.Machine

/-- Ticks are stopped: the condition of R38, R40 and R51. -/
def State.stopped (s : State) : Bool := !s.flag F.GEY_CTRL.RUN && !s.flag F.GEY_CTRL.TICKING

/-- A counter after one reference period: whole ns before the increment, whole ns and fraction after it (R36, R40). -/
def advance (now frac incr : Nat) (step : Option Nat) : Nat × Nat × Nat :=
  let base := (now + step.getD 0) % 2 ^ 64
  (base, (base + (frac + incr) / 2 ^ 32) % 2 ^ 64, (frac + incr) % 2 ^ 32)

/-- The boundary of a pending period change, in both copies (R52, R61). -/
def State.setChg (s : State) (c : Option Nat) : State :=
  { s with gey := { s.gey with chgAt := c }, tmb := { s.tmb with replica := { s.tmb.replica with chgAt := c } } }

/-- A waiting step that carries the counter back, before the boundary of a pending change, leaves the change to the first
boundary with its SFN that the counter then comes to (R52; log entry 156). -/
def State.stepBack (s : State) (base : Nat) : State :=
  if s.gey.chgAt.isSome && decide (base < s.now) then s.setChg (some (s.boundarySfn (base - 1) (s.fld F.GEY_CTRL.APPLY_SFN))) else s

/-- The queues that have a completion record waiting for room in its ring (R185). -/
def State.stalled (s : State) : List Nat :=
  ((s.cores.flatMap fun e => e.2.recs) ++ s.clusters.flatMap fun e => e.2.recs).foldl (fun l r =>
    if r.wait && !l.contains r.q then l ++ [r.q] else l) []

/-- Each cycle of such a wait counts in CQ_STALL (R185, Table 6-12): the cycles that begin in this reference period. -/
def State.countStalls (s : State) : State :=
  s.stalled.foldl (fun s q => s.incFld F.MXC_Qq_CNT.CQ_STALL q ((s.gey.arr + 4200) / 625 - s.gey.arr / 625)) s

/-- A snapshot is taken (R195): every counter of the basin at the start of this reference period, and its tick number. ENERGY_MJ has
grown by a free amount since the last snapshot of the basin (log entry 53). -/
def State.snapCopy (s : State) : State :=
  match s.snap with
  | none => s
  | some b =>
    let (e, s) := s.fresh 64
    let s := { s with acct := SMap.set 0 s.acct (b * 8 + 7) ((SMap.get 0 s.acct (b * 8 + 7) + e) % 2 ^ 64) }
    let s := (List.range 8).foldl (fun s k => s.setFld F.PKG_ACCT_DATA.WORD k (SMap.get 0 s.acct (b * 8 + k))) s
    { (s.setFld F.PKG_ACCT_DATA.WORD 8 s.tickNo).setFld F.PKG_ACCT_SNAP.BUSY 0 0 with snap := none }

/-- Links in training pass optical lock, lane alignment, the exchange of identities and the latency measurement in this order
(R305); how long each takes is open (log entry 181). -/
def State.trainLinks (s : State) : State :=
  ((List.range 64).filter fun l =>
    1 ≤ s.fld F.FAB_Ll_STATUS.STATE l && s.fld F.FAB_Ll_STATUS.STATE l ≤ 3 && Config.trainStep l s.tmb.clk).foldl (fun s l =>
      s.setFld F.FAB_Ll_STATUS.STATE l (s.fld F.FAB_Ll_STATUS.STATE l + 1)) s

/-- One reference period (R36, R39, R40, R61): a waiting increment and a waiting step apply, the counter and its replica
each add their increment and are compared, and the array time advances by 6.72 nominal cycles;
stalls are counted and a snapshot is taken (R185, R195). -/
def refPeriod (s : State) : State :=
  if !s.pwr.aon then s else
  let s := s.countStalls.snapCopy.trainLinks
  let incr := s.fld F.TMB_INCR.INCR
  let step := if s.stopped then s.tmb.stepPend else none
  let (base, now, frac) := advance s.now (s.fld F.TMB_NOW_FRAC.FRAC) incr step
  let r := s.tmb.replica
  let (_, rnow, rfrac) := advance r.now r.frac r.incr (if s.stopped then r.stepPend else none)
  let s := s.when (s.tmb.stepPend.isSome && !s.stopped) (fun s => s.setFld F.TMB_STATUS.STEP_REFUSED 0 1)
  let s := s.when step.isSome (fun s => s.stepBack base)
  let s := (s.setFld F.TMB_NOW.NS 0 now).setFld F.TMB_NOW_FRAC.FRAC 0 frac
  let s := { s with
    tmb := { s.tmb with clk := s.tmb.clk + 1, incr := incr, stepPend := none,
                        secs := s.tmb.secs + (now / 1000000000 - base / 1000000000),
                        replica := { r with now := rnow, frac := rfrac, stepPend := none, chgAt := s.tmb.replica.chgAt
                                            differs := rnow != now || rfrac != frac || r.tick != s.tickNo
                                            pendDiffers := r.stepPend != s.tmb.stepPend || s.tmb.replica.chgAt != s.gey.chgAt } }
    gey := { s.gey with arr := s.gey.arr + 4200 } }
  (List.range 4).foldl (fun s k => s.fhPeriod k) s

/-! The counter -/

/-- An increment, in both copies (R61). -/
def State.setIncr (s : State) (y : Nat) : State :=
  let s := s.setFld F.TMB_INCR.INCR 0 y
  { s with tmb := { s.tmb with replica := { s.tmb.replica with incr := y } } }

/-- A step that waits for the next reference period, in both copies (R40, R61). -/
def State.addStep (s : State) (d : Nat) : State :=
  let p := some ((s.tmb.stepPend.getD 0 + d) % 2 ^ 64)
  { s with tmb := { s.tmb with stepPend := p, replica := { s.tmb.replica with stepPend := p } } }

/-- The value nearest to x that TMB_INCR accepts (R38). -/
def State.incrLimit (s : State) (x : Nat) : Nat :=
  if s.stopped then clamp 0x600000000 0x6FFFFFFFF x else clamp 0x6665E02EB 0x6666EC9E1 x

/-- R38, R39: a write of TMB_INCR. -/
def tmbIncrWrite (v : Word) (s : State) : State :=
  let x := bits v.toNat 39 0
  let y := s.incrLimit x
  (s.when (x != y) (fun s => s.setFld F.TMB_STATUS.INCR_CLAMP 0 1)).setIncr y

def execTmbIncrWrite (v : Word) (s : State) : Out := run (.tmbIncrWrite v) s (tmbIncrWrite v s)

/-- R40: a write of TMB_STEP. -/
def tmbStepWrite (v : Word) (s : State) : State :=
  if s.stopped then s.addStep v.toNat else s.setFld F.TMB_STATUS.STEP_REFUSED 0 1

def execTmbStepWrite (v : Word) (s : State) : Out := run (.tmbStepWrite v) s (tmbStepWrite v s)

/-- Latch a value for a requester, in place of what its latch of that register held (R11, R41). -/
def State.latch (s : State) (r : Req) (key v : Nat) : State :=
  { s with latches := { req := r, key, val := v } :: s.latches.filter (fun l => !(l.req == r && l.key == key)) }

/-- What a requester's latch of a register holds (R11). -/
def State.latched (s : State) (r : Req) (key : Nat) : Option Nat :=
  (s.latches.find? (fun l => l.req == r && l.key == key)).map (·.val)

/-- Empty a requester's latch of a register (R11). -/
def State.unlatch (s : State) (r : Req) (key : Nat) : State :=
  { s with latches := s.latches.filter (fun l => !(l.req == r && l.key == key)) }

/-- The latch of TMB_NOW_FRAC (R41). -/
def fracKey : Nat := F.TMB_NOW_FRAC.FRAC.key 0

/-- R41: a 64-bit read of TMB_NOW. -/
def tmbNowRead (r : Req) (s : State) : State :=
  (s.latch r fracKey (s.fld F.TMB_NOW_FRAC.FRAC)).answer (bytesOf 8 s.now)

def execTmbNowRead (r : Req) (s : State) : Out := run (.tmbNowRead r) s (tmbNowRead r s)

/-- R41: a read of TMB_NOW_FRAC. -/
def tmbNowFracRead (r : Req) (s : State) : State :=
  match s.latched r fracKey with
  | some v => (s.unlatch r fracKey).answer (bytesOf 4 v)
  | none => s.answer (bytesOf 4 (s.fld F.TMB_NOW_FRAC.FRAC))

def execTmbNowFracRead (r : Req) (s : State) : Out := run (.tmbNowFracRead r) s (tmbNowFracRead r s)

/-! Discipline -/

/-- Time since power-up in units of 0.8 ns. -/
def State.u08 (s : State) (sub : Nat := 0) : Nat := s.tmb.clk * 8 + sub

/-- The lock state after an accepted edge (Table 2-1; log entry 149): `off` is the offset where a valid message names the edge. -/
def lockNext (lock good : Nat) (off : Option Int) : Nat × Nat :=
  let ok := off.any (fun o => decide (-100 ≤ o ∧ o ≤ 100))
  let good := if ok then good + 1 else 0
  match lock with
  | 0 => (if off.isSome then 1 else 0, good)
  | 1 => (if 8 ≤ good then 2 else 1, good)
  | 2 => (2, good)
  | _ => (1, if ok then 1 else 0)

/-- What firmware does with the offset of an accepted edge: it steps the counter while ticks are stopped and slews it while they
run (R43). The slewed increment is firmware's: a free value in the range of R38 (log entry 157). -/
def State.discipline (s : State) (off : Int) : State :=
  if s.stopped then s.addStep (wrap 64 (-off))
  else
    let (x, s) := s.fresh 40
    s.setIncr (s.incrLimit x)

/-- R42 to R45: a 1PPS edge, rising or falling; the edge that PPS_POL does not select is not an active one. -/
def ppsEdge (e : PpsEdge) (s : State) : State :=
  let sub := e.sub
  if !s.flag F.TMB_CTRL.PPS_EN || e.rising == s.flag F.TMB_CTRL.PPS_POL then s
  else if s.tmb.edgeSeen && decide (s.u08 sub < s.tmb.edgeU + 625000000) then s.incFld F.TMB_STATUS.PPS_GLITCH
  else
    let cap : Nat := ((s.now * 2 ^ 32 + s.fld F.TMB_NOW_FRAC.FRAC + sub * s.tmb.incr / 8) / 2 ^ 32) % 2 ^ 64
    let off : Option Int := if s.flag F.TMB_TOD_SEC.VALID
      then some ((cap : Int) - s.fld F.TMB_TOD_SEC.SEC * 1000000000) else none
    let (lock, good) := lockNext (s.fld F.TMB_STATUS.LOCK) s.tmb.goodEdges off
    let s := ((s.setFld F.TMB_PPS_CAP.NS 0 cap).setFld F.TMB_STATUS.PPS_MISS 0 0).setFld F.TMB_STATUS.LOCK 0 lock
    let sec := if s.flag F.TMB_TOD_SEC.VALID then some (s.fld F.TMB_TOD_SEC.SEC)
      else s.tmb.edgeSec.map fun x => x + (s.u08 sub - s.tmb.edgeU + 625000000) / 1250000000
    let s := s.setFld F.TMB_TOD_SEC.VALID 0 0
    let s := { s with tmb := { s.tmb with edgeU := s.u08 sub, edgeSeen := true, goodEdges := good, edgeSec := sec } }
    match off with
    | some o => s.discipline o
    | none => s

def execPpsEdge (e : PpsEdge) (s : State) : Out := run (.ppsEdge e) s (ppsEdge e s)

/-- A time-of-day message ends at least 100 ms before the edge it names (R43): the edge of second `sec`, which lies as many whole
seconds after the last accepted edge as its second does; where no message has named that edge, the next whole second after
it; before the first accepted edge every message is in time (log entries 24 and 151). -/
def State.todInTime (s : State) (sec : Nat) : Bool :=
  !s.tmb.edgeSeen ||
    match s.tmb.edgeSec with
    | some x => decide (s.u08 + 125000000 + x * 1250000000 ≤ s.tmb.edgeU + sec * 1250000000)
    | none => decide ((s.u08 - s.tmb.edgeU) % 1250000000 ≤ 1125000000)

/-- A time-of-day message is whole and in time (R43). -/
def todOk (m : List Byte) (s : State) : Bool :=
  decide (m.length = 12) && (m.getD 0 0 == 0xC5#8) && (m.getD 1 0 == 0x3A#8) &&
    (crc8 (m.take 11) == (m.getD 11 0).toNat) && s.todInTime (natOf (slice m 2 8))

/-- R43: a time-of-day message. -/
def todMessage (m : List Byte) (s : State) : State :=
  if !s.flag F.TMB_CTRL.TOD_EN then s
  else if todOk m s then
    ((s.setFld F.TMB_TOD_SEC.SEC 0 (natOf (slice m 2 8))).setFld F.TMB_TOD_SEC.TRACE 0 (b2n (bit (m.getD 10 0).toNat 0))).setFld
      F.TMB_TOD_SEC.VALID 0 1
  else s.setFld F.TMB_STATUS.TOD_ERR 0 1

def execTodMessage (m : List Byte) (s : State) : Out := run (.todMessage m) s (todMessage m s)

/-- R44: no edge has been accepted for 1.5 s. -/
def ppsMiss (s : State) : State :=
  if !s.flag F.TMB_STATUS.PPS_MISS && decide (s.tmb.edgeU + 1875000000 ≤ s.u08) then
    let s := s.setFld F.TMB_STATUS.PPS_MISS 0 1
    let s := s.when (s.fld F.TMB_STATUS.LOCK == 2) (fun s => s.setFld F.TMB_STATUS.LOCK 0 3)
    s.backupAlarm 4
  else s

def execPpsMiss (s : State) : Out := run .ppsMiss s (ppsMiss s)

/-! The tick generator -/

/-- The 96 cell fault words of tick t on radio die n, written with flags 0 (R371); none where the ring does not lie in
the die's radio SRAM (log entry 58). -/
def State.cfwWrite (s : State) (n t : Nat) : State :=
  if inRsram n (s.cfwAddr n 0 0) then
    (List.range 96).foldl (fun s j => s.write (s.cfwAddr n j t) (bytesOf 8 (t % 2 ^ 32 * 2 ^ 32))) s
  else s

/-- The fault registers of a radio die take effect (Table 12-15). -/
def State.latchRd (s : State) (n : Nat) : State :=
  s.setRdFault n { s.rdFault n with dlm := s.regBits .FLT_DLM_BASE n, sctl := s.regBits .FLT_SCTL n, cfw := s.regBits .FLT_CFW_BASE n }

/-- The exact counter: whole ns and fraction, in units of 2^-32 ns. -/
def State.nowQ (s : State) : Nat := s.now * 2 ^ 32 + s.fld F.TMB_NOW_FRAC.FRAC

/-- A counter time in units of 1/k ns falls in the running reference period or before it (R48, R57). -/
def State.reached (s : State) (k t : Nat) : Bool := decide (t * 2 ^ 32 < (s.nowQ + s.tmb.incr) * k)

/-- The last whole nanosecond that the running reference period reaches. -/
def State.lastNs (s : State) : Nat := (s.nowQ + s.tmb.incr - 1) / 2 ^ 32

/-- The boundary at which a stop requested now takes effect: the next one whose tick is not delivered yet (R51). -/
def State.stopBoundary (s : State) : Nat :=
  let t := if s.gey.fresh then s.now else max s.now s.gey.last
  t + (10000000 - s.framePos t)

/-- The first tick of a start requested now: the first boundary at least 100 µs after the counter (R51). -/
def State.startBoundary (s : State) : Nat :=
  s.boundaryFrom (s.now + 100000 + if s.fld F.TMB_NOW_FRAC.FRAC = 0 then 0 else 1)

/-- The period change that a write of GEY_CTRL requests, replaces or cancels (R52). -/
def State.periodRequest (s : State) (v : Nat) : State :=
  let next := bits v 5 4
  let sfn := bits v 25 16
  if next = s.fld F.GEY_CTRL.PERIOD_NEXT ∧ sfn = s.fld F.GEY_CTRL.APPLY_SFN then s
  else
    let s := (s.setFld F.GEY_CTRL.PERIOD_NEXT 0 next).setFld F.GEY_CTRL.APPLY_SFN 0 sfn
    if next = s.fld F.GEY_CTRL.PERIOD then (s.setFld F.GEY_CTRL.CHG_PEND 0 0).setChg none
    else (s.setFld F.GEY_CTRL.CHG_PEND 0 1).setChg (some (s.boundarySfn s.lastNs sfn))

/-- RUN is written 1 (R51): refused without LOCKED or FORCE; else it cancels a stop, or names the first tick, and the cell fault
words of the first two ticks are written (R371). -/
def State.setRun (s : State) : State :=
  if s.flag F.GEY_CTRL.RUN || (s.fld F.TMB_STATUS.LOCK != 2 && !s.flag F.GEY_CTRL.FORCE) then s
  else
    let s := s.setFld F.GEY_CTRL.RUN 0 1
    if s.flag F.GEY_CTRL.TICKING then { s with gey := { s.gey with stopAt := none } }
    else
      let s := { s with gey := { s.gey with next := some s.startBoundary, stopAt := none, fresh := true } }
      s.radioDies.foldl (fun s n => ((s.latchRd n).cfwWrite n (s.tickNo + 1)).cfwWrite n (s.tickNo + 2)) s

/-- What cores and clusters have read for a tick that is not delivered goes. -/
def State.dropReads (s : State) : State :=
  let s := (List.range 24).foldl (fun s g => s.when (s.core g).read fun s => s.modCore g fun m => { m with read := false, next := [] }) s
  (List.range 16).foldl (fun s k => s.when (s.cluster k).read fun s => s.modCluster k fun m => { m with read := false, next := none }) s

/-- RUN is written 0 (R51): the generator stops at the next boundary, or gives up its start. -/
def State.clearRun (s : State) : State :=
  if !s.flag F.GEY_CTRL.RUN then s
  else
    let s := s.setFld F.GEY_CTRL.RUN 0 0
    if s.flag F.GEY_CTRL.TICKING then { s with gey := { s.gey with stopAt := some s.stopBoundary } }
    else
      let s := s.dropReads
      { s with gey := { s.gey with next := none } }

/-- The effect of one write of GEY_CTRL (R51, R52); a FORCE of the same write counts for its RUN. -/
def geyWrite (v : Nat) (s : State) : State :=
  let s := (s.setFld F.GEY_CTRL.FORCE 0 (bits v 1 1)).periodRequest v
  if bit v 0 then s.setRun else s.clearRun

/-- R51: a write of GEY_CTRL that sets RUN. -/
def tickGeneratorStart (v : BitVec 32) (s : State) : State := geyWrite (putBit v.toNat 0 true) s

def execTickGeneratorStart (v : BitVec 32) (s : State) : Out := run (.tickGeneratorStart v) s (tickGeneratorStart v s)

/-- R51: a write of GEY_CTRL that clears RUN. -/
def tickGeneratorStopRequest (v : BitVec 32) (s : State) : State := geyWrite (putBit v.toNat 0 false) s

def execTickGeneratorStopRequest (v : BitVec 32) (s : State) : Out :=
  run (.tickGeneratorStopRequest v) s (tickGeneratorStopRequest v s)

/-- R52: a write of GEY_CTRL that names PERIOD_NEXT and APPLY_SFN. -/
def periodChangeRequest (v : BitVec 32) (s : State) : State := geyWrite v.toNat s

def execPeriodChangeRequest (v : BitVec 32) (s : State) : Out := run (.periodChangeRequest v) s (periodChangeRequest v s)

/-- R52: the counter has reached or passed the boundary of the pending change. -/
def periodChange (s : State) : State :=
  match s.gey.chgAt with
  | some t =>
    if t ≤ s.now then
      let s := (s.setFld F.GEY_CTRL.PERIOD 0 (s.fld F.GEY_CTRL.PERIOD_NEXT)).setFld F.GEY_CTRL.CHG_PEND 0 0
      s.setChg none
    else s
  | none => s

def execPeriodChange (s : State) : Out := run .periodChange s (periodChange s)

/-- R51: a write of GEY_FRAME_OFS; the boundary of a pending change moves with it (log entry 25). -/
def frameOfsWrite (v : BitVec 32) (s : State) : State :=
  if s.flag F.GEY_CTRL.RUN || s.flag F.GEY_CTRL.TICKING then s
  else
    let s := s.setFld F.GEY_FRAME_OFS.OFS 0 (min (bits v.toNat 23 0) 9999999)
    match s.gey.chgAt with
    | some _ => s.setChg (some (s.boundarySfn s.lastNs (s.fld F.GEY_CTRL.APPLY_SFN)))
    | none => s

def execFrameOfsWrite (v : BitVec 32) (s : State) : Out := run (.frameOfsWrite v) s (frameOfsWrite v s)

/-- R54, R55: a write of GEY_FUMAROLE. -/
def fumaroleWrite (v : BitVec 32) (s : State) : State :=
  let m := bits v.toNat 9 0
  let s := s.when (bit v.toNat 10) (fun s => s.setFld F.GEY_FUMAROLE.CLAMP 0 0)
  let s := s.when (m != clamp 250 1000 m) (fun s => s.setFld F.GEY_FUMAROLE.CLAMP 0 1)
  { s.setFld F.GEY_FUMAROLE.MARGIN 0 (clamp 250 1000 m) with gey := { s.gey with marginPend := some false } }

def execFumaroleWrite (v : BitVec 32) (s : State) : Out := run (.fumaroleWrite v) s (fumaroleWrite v s)

/-- R55: the first tick after the write has come. -/
def fumaroleApply (s : State) : State :=
  match s.gey.marginPend with
  | some true => { s with gey := { s.gey with margin := s.fld F.GEY_FUMAROLE.MARGIN, marginPend := none } }
  | _ => s

def execFumaroleApply (s : State) : Out := run .fumaroleApply s (fumaroleApply s)

/-! Time triggers. Times in units of 0.1 ns. -/

/-- The level of TRIG_OUTn: active while a pulse is output, inactive otherwise, with POL 1 active low (R57, R59). -/
def State.trigLevel (s : State) (n : Nat) : Bool := (s.trigSt n).pulseEnd.isSome != s.flag F.TMB_TRIGn_CTRL.POL n

/-- The mode, polarity and delay a write of TMB_TRIGn_CTRL carries (Table 2-9); a new polarity is driven at once (R59). -/
def trigFields (n v : Nat) (s : State) : State :=
  let old := s.trigLevel n
  let s := ((s.setFld F.TMB_TRIGn_CTRL.MODE n (bits v 1 1)).setFld F.TMB_TRIGn_CTRL.POL n (bits v 2 2)).setFld
    F.TMB_TRIGn_CTRL.DELAY_COMP n (bits v 31 16)
  let s := s.when (bit v 3) (fun s => s.setFld F.TMB_TRIGn_CTRL.ARM_ERR n 0)
  s.when (s.trigLevel n != old) (fun s => s.emit (.trig n (s.trigLevel n)))

/-- START + DELAY_COMP (R57). -/
def State.trigStart (s : State) (n : Nat) : Int :=
  s.fld F.TMB_TRIGn_START.START n * 10 + sext 16 (s.fld F.TMB_TRIGn_CTRL.DELAY_COMP n)

/-- The three cases in which arming is refused (R58). -/
def State.armBad (s : State) (n : Nat) : Bool :=
  decide (s.trigStart n < s.now * 10 + 10000 + (s.fld F.TMB_NOW_FRAC.FRAC * 10 + 2 ^ 32 - 1) / 2 ^ 32) || (s.fld F.TMB_TRIGn_SHAPE.WIDTH n == 0) ||
    (s.flag F.TMB_TRIGn_CTRL.MODE n &&
      decide (s.fld F.TMB_TRIGn_SHAPE.PERIOD n < 1000 ∨ s.fld F.TMB_TRIGn_SHAPE.PERIOD n ≤ s.fld F.TMB_TRIGn_SHAPE.WIDTH n))

/-- R58: a write of TMB_TRIGn_CTRL with ARM 1. What the write carries beside ARM is stored whether or not arming is refused
(log entry 150). -/
def trigArm (n : Nat) (v : BitVec 32) (s : State) : State :=
  if s.flag F.TMB_TRIGn_CTRL.ARM n then trigFields n v.toNat s
  else
    let s := trigFields n v.toNat s
    if s.armBad n then s.setFld F.TMB_TRIGn_CTRL.ARM_ERR n 1
    else (s.setFld F.TMB_TRIGn_CTRL.ARM n 1).setTrig n { s.trigSt n with next := some (s.trigStart n).toNat }

def execTrigArm (n : Nat) (v : BitVec 32) (s : State) : Out := run (.trigArm n v) s (trigArm n v s)

/-- The output goes to its inactive level, its pulse ended. -/
def trigEnd (n : Nat) (s : State) : State :=
  (s.emit (.trig n (s.flag F.TMB_TRIGn_CTRL.POL n))).setTrig n { s.trigSt n with pulseEnd := none }

/-- R58, R59: later edges are cancelled; a pulse whose active edge falls in this reference period is output in full,
and any other pulse ends at once. -/
def trigCancel (n : Nat) (s : State) : State :=
  let t := s.trigSt n
  let due := (t.next.filter fun x => s.reached 10 x).or t.kept
  let s := (s.setFld F.TMB_TRIGn_CTRL.ARM n 0).setTrig n { t with next := none, kept := due }
  s.when (t.pulseEnd.isSome && t.edgeClk != s.tmb.clk && due.isNone) (trigEnd n)

/-- R59: in a reset every edge is cancelled and the output holds its inactive level. -/
def trigReset (n : Nat) (s : State) : State :=
  let s := (s.setFld F.TMB_TRIGn_CTRL.ARM n 0).setTrig n { s.trigSt n with next := none, kept := none }
  s.when (s.trigSt n).pulseEnd.isSome (trigEnd n)

/-- R58: a write of TMB_TRIGn_CTRL with ARM 0. -/
def trigDisarm (n : Nat) (v : BitVec 32) (s : State) : State := trigCancel n (trigFields n v.toNat s)

def execTrigDisarm (n : Nat) (v : BitVec 32) (s : State) : Out := run (.trigDisarm n v) s (trigDisarm n v s)

/-- R57: an active edge is due in the reference period that the counter is in. -/
def trigEdge (n : Nat) (s : State) : State :=
  if s.pwr.backup then s
  else
    let pulse := fun (t : Nat) (next : Option Nat) =>
      (s.emit (.trig n (!s.flag F.TMB_TRIGn_CTRL.POL n))).setTrig n
        { next, kept := none, pulseEnd := some (t + s.fld F.TMB_TRIGn_SHAPE.WIDTH n * 10), edgeClk := s.tmb.clk }
    match (s.trigSt n).kept, (s.trigSt n).next with
    | some t, next => pulse t next
    | none, some t =>
      if s.reached 10 t then
        pulse t (if s.flag F.TMB_TRIGn_CTRL.MODE n then some (t + s.fld F.TMB_TRIGn_SHAPE.PERIOD n * 10) else none)
      else s
    | none, none => s

def execTrigEdge (n : Nat) (s : State) : Out := run (.trigEdge n) s (trigEdge n s)

/-- R57, R58: a pulse ends; a one-shot trigger disarms. -/
def trigPulseEnd (n : Nat) (s : State) : State :=
  match (s.trigSt n).pulseEnd with
  | some t =>
    if s.reached 10 t then
      let s := trigEnd n s
      s.when (!s.flag F.TMB_TRIGn_CTRL.MODE n && (s.trigSt n).next.isNone) (fun s => s.setFld F.TMB_TRIGn_CTRL.ARM n 0)
    else s
  | none => s

def execTrigPulseEnd (n : Nat) (s : State) : Out := run (.trigPulseEnd n) s (trigPulseEnd n s)

/-! Replica and reference -/

/-- The timebase holds what the replica holds: counter, increment, tick number and pending changes (R62). -/
def State.fromReplica (s : State) : State :=
  let r := s.tmb.replica
  let s := ((s.setFld F.TMB_NOW.NS 0 r.now).setFld F.TMB_NOW_FRAC.FRAC 0 r.frac).setFld F.TMB_INCR.INCR 0 r.incr
  { s.setFld F.GEY_TICK.TICK 0 r.tick with
    tmb := { s.tmb with stepPend := r.stepPend, replica := { r with differs := false, pendDiffers := false } }
    gey := { s.gey with chgAt := r.chgAt } }

/-- The replica takes the master role (R62): what it holds is the timebase from now on. -/
def takeover (s : State) : State :=
  let s := s.fromReplica
  let s := { s.setFld F.TMB_STATUS.TAKEOVER 0 1 with tmb := { s.tmb with onReplica := true } }
  let s := s.journal 16 3 (unitSrc (.region 28)) 0
  (s.raise 0x003 { mech := 16, level := 3 } 3).backupAlarm 5

/-- R62: the replica declares the master failed: 0 the counters or the tick numbers differ, as this period's comparison found (R61);
1 the heartbeat is missing, which is the command's to say (log entry 158); 2 ED0 is fenced. -/
def State.masterFailed (s : State) (cause : Nat) : Bool :=
  match cause with
  | 0 => s.tmb.replica.differs
  | 1 => true
  | _ => s.dieFen 28

/-- R62: the replica takes over from a master that has failed. -/
def timebaseTakeover (cause : Nat) (s : State) : State := if s.tmb.onReplica || !s.masterFailed cause then s else takeover s

def execTimebaseTakeover (cause : Nat) (s : State) : Out := run (.timebaseTakeover cause) s (timebaseTakeover cause s)

/-- R64: the reference clock is lost. A loss while REF_LOSS is 1 starts the 1 ms of presence again. -/
def refLoss (s : State) : State :=
  if s.flag F.TMB_STATUS.REF_LOSS then { s with tmb := { s.tmb with lastLoss := s.tmb.clk } }
  else
    let s := { s.setFld F.TMB_STATUS.REF_LOSS 0 1 with tmb := { s.tmb with lossClk := s.tmb.clk, lastLoss := s.tmb.clk } }
    (s.raise 0x004 { mech := 16, level := 3, data := 1 }).backupAlarm 3

def execRefLoss (s : State) : Out := run .refLoss s (refLoss s)

/-- R64: the reference has been back without a loss for 1 ms. -/
def refReturn (s : State) : State :=
  if s.flag F.TMB_STATUS.REF_LOSS && decide (s.tmb.lastLoss + 156250 ≤ s.tmb.clk) then
    (s.setFld F.TMB_STATUS.REF_LOSS 0 0).raise 0x004 { mech := 16, level := 3, data := 0 }
  else s

def execRefReturn (s : State) : Out := run .refReturn s (refReturn s)

end Sys2Proof.Machine
end

