-- ==== Sys2Proof/Machine/Recover.lean ====
section
/-! DEFINITION. Detections and monitors (R363 to R376), fences and die loss (R16, R17, R21 to R26, R35, R391), the journal
(R382 to R386), power loss and the warm reset (R395, R433, R444 to R447), and fencing and testing in service (R405 to
R408). -/

namespace Sys2Proof.Machine

/-- Free bytes (log entry 5). -/
def State.freshBytes (s : State) (n : Nat) : List Byte × State :=
  ((List.range n).map fun i => BitVec.ofNat 8 (Config.freeValue (s.free + i)), { s with free := s.free + n })

/-! Cell fault words (R371, R381) -/

/-! Detections (R363, R365, R368, R369, R372 to R376) -/

/-- R363: the two copies of a sequencer disagree: every command of the core is killed for re-run. On a core out of service the
action is discarded and counted (R22). -/
def sequencerMismatch (g : Nat) (s : State) : State :=
  if s.coreOut g then s.discard (g / 2) (b2n (s.dieEn (g / 2) && !s.dieOff (g / 2)))
  else s.coreMiss g 3 fun s => s.killAll g

def execSequencerMismatch (g : Nat) (s : State) : Out := run (.sequencerMismatch g) s (sequencerMismatch g s)

/-- R365: a flit fails its check on a hop of die d and is resent; a third successive failure escalates to Caldera, which
fences the router of the hop. -/
def bridgeFlitResend (d : Nat) (again : Bool) (s : State) : State :=
  let src := unitSrc (.router d)
  let n := if again then SMap.get 0 s.flt.hops d + 1 else 1
  let s := ((s.countAction d 0).lastFault d 7 src 0).modFlt fun h => { h with hops := SMap.set 0 h.hops d (if n = 3 then 0 else n) }
  s.when (n == 3) fun s =>
    let s := (s.incFld F.FLT_RG_CNT.ESC d).modFlt fun h => { h with waiting := h.waiting ++ [⟨.router d, 3, false, false⟩] }
    s.raise (regSrc d 0) { mech := 7, level := 2, data := src }

def execBridgeFlitResend (d : Nat) (again : Bool) (s : State) : Out := run (.bridgeFlitResend d again) s (bridgeFlitResend d again s)

/-- The action of R368 where the message for tick t + 2 is missing; it recommends rung 2 where a cell already carries the
flag for the tick before (R392). -/
def State.sctlMiss (s : State) (n : Nat) (inj : Bool) : State :=
  let t := s.tickNo + 2
  let s := (s.incFld F.FLT_SCTL.MISS n).setRdFault n { s.rdFault n with sctlTick := some s.tickNo }
  let twice := (s.activeCells n).any fun j => s.cfwHas n j (t - 1) 4
  (s.cellsFlag n t 4).detect (24 + n) 10 2 (unitSrc (.region (24 + n))) 0 (if twice then 2 else 0) inj

/-- R368: the due time of the slot-control message has come, and none has been accepted in this tick. -/
def slotControlMiss (n : Nat) (s : State) : State :=
  let r := s.rdFault n
  match s.gey.next with
  | none => s
  | some at' =>
    if !bit r.sctl 0 || !s.flag F.GEY_CTRL.TICKING || decide (s.now + bits r.sctl 20 1 < at') || s.dieOut (24 + n) ||
        (s.crcU (16 * n + 15)).tick == some s.tickNo || r.sctlTick == some s.tickNo then s
    else s.sctlMiss n false

def execSlotControlMiss (n : Nat) (s : State) : Out := run (.slotControlMiss n) s (slotControlMiss n s)

/-- Address of entry i of the deadline table of radio die n, where its monitors read one (R369, Table 12-15). -/
def State.dlmAddr (s : State) (n i : Nat) : Option Nat :=
  let r := (s.rdFault n).dlm
  let a := r / 8192 % 2 ^ 35 * 8192 + 32 * i
  if bit r 0 && inRsram n a && !s.dieOut (24 + n) then some a else none

/-- A deadline entry (Table 12-2): its D, its cell, whether it is armed, and whether its progress word is as expected. -/
structure DlmEntry where
  d : Nat
  cell : Nat
  valid : Bool
  done : Bool
  deriving DecidableEq, Repr

def State.dlmEntry (s : State) (n a : Nat) : DlmEntry :=
  let v := s.readNat a 32
  { d := bits v 63 0, cell := bits v 159 153, valid := bit v 160
    done := s.readNat (rsAddr n (bits v 152 128 / 8 * 8)) 8 == bits v 127 64 }

/-- R369: monitor i of RDn reaches D − M. -/
def deadlineMarginCheck (n i : Nat) (s : State) : State :=
  match s.dlmAddr n i with
  | none => s
  | some a =>
    let e := s.dlmEntry n a
    let r := s.rdFault n
    if !e.valid || decide (s.now + s.gey.margin * 100 < e.d) || SMap.get 0 r.margin i == e.d then s
    else
      let s := s.setRdFault n { r with margin := SMap.set 0 r.margin i e.d }
      if e.done then s
      else
        let s := s.when (e.cell < 96) fun s => s.cfwFlag n e.cell s.tickNo 1
        (s.incFld F.FLT_DLM_CNT.MARGIN n).raise (regSrc (24 + n) 12)
          { mech := 12, level := 2, data := unitSrc (.region (24 + n)) }

def execDeadlineMarginCheck (n i : Nat) (s : State) : Out := run (.deadlineMarginCheck n i) s (deadlineMarginCheck n i s)

/-- R369: monitor i of RDn reaches D; after the check it clears VALID. -/
def deadlineCheck (n i : Nat) (s : State) : State :=
  match s.dlmAddr n i with
  | none => s
  | some a =>
    let e := s.dlmEntry n a
    if !e.valid || decide (s.now < e.d) then s
    else
      let r := s.rdFault n
      let s := s.setRdFault n { r with margin := SMap.set 0 r.margin i 0 }
      let s := if e.done then s else
        let twice := decide (e.cell < 96 ∧ 0 < s.tickNo) && s.cfwHas n e.cell (s.tickNo - 1) 2
        let s := s.when (e.cell < 96) fun s => s.cfwFlag n e.cell s.tickNo 2
        let s := (s.incFld F.FLT_DLM_CNT.DEADLINE n).incFld F.FLT_STATUS.DEADLINE
        s.detect (24 + n) 12 2 (unitSrc (.region (24 + n))) 0 (if twice then 2 else 0)
      s.write (a + 20) [s.rd (a + 20) &&& 0xFE#8]

def execDeadlineCheck (n i : Nat) (s : State) : Out := run (.deadlineCheck n i) s (deadlineCheck n i s)

/-- A tick fault of the region of die d (R372): no windows on its matrix cores, every DSP position in the radio lane, SCHED
for its cells. A fault in two successive ticks recommends rung 3 (R392). -/
def State.tickFault (s : State) (d : Nat) (inj : Bool) : State :=
  let twice := SMap.get 0 s.flt.tickFaults d == s.tickNo && s.tickNo != 0
  let s := s.modFlt fun h => { h with tickFaults := SMap.set 0 h.tickFaults d (s.tickNo + 1) }
  let s := (s.setFld F.FLT_RG_STATUS.TICKF d 1).detect d 15 2 (unitSrc (.region d)) 0 (if twice then 3 else 0) inj
  let s := if d < 12 then
      [2 * d, 2 * d + 1].foldl (fun s g =>
        let s := s.when (s.core g).run.isSome fun s => s.killAll g
        s.modCore g fun m => { m with wins := [], run := none, lane := 0 }) s
    else s
  let s := s.when (decide (d < 12) && [2 * d, 2 * d + 1].any fun g => s.flag F.MXC_TPROG_BASE.RADIO_CORE g) fun s =>
    s.workCells s.radioDies 0
  if 24 ≤ d ∧ d < 28 then
    let n := d - 24
    let s := (List.range 64).foldl (fun s c =>
      let i := 64 * n + c
      let s := s.when ((s.dsp i).task.any fun t => t.q % 8 != 0) fun s => s.taskRerun i
      s.setFld F.RDP_CORE_STATUS.LANE i 1) s
    let s := (List.range 4).foldl (fun s k => s.modCluster (4 * n + k) fun m => { m with mask := none }) s
    s.cellsFlag n s.tickNo 0
  else s

/-- R372: a tick has come more than 40 ns early or late, with a wrong number, or not within 1 µs of its due time. The first
tick after RUN is not checked. -/
def tickMissing (d : Nat) (s : State) : State :=
  if !s.flag F.GEY_CTRL.TICKING || s.gey.fresh || s.dieOut d then s else s.tickFault d false

def execTickMissing (d : Nat) (s : State) : Out := run (.tickMissing d) s (tickMissing d s)

/-- R373: 50 ppm of the time since the loss of the reference exceeds TERR_LIM: radio transmission stops. -/
def timingStop (s : State) : State :=
  if !s.flag F.TMB_STATUS.REF_LOSS || s.flag F.FLT_STATUS.TSTOP ||
      decide ((s.tmb.clk - s.tmb.lossClk) * 3200 ≤ s.fld F.FLT_CTRL.TERR_LIM * 100000000) then s
  else
    let s := (List.range 4).foldl (fun s n => trigCancel n s) (s.setFld F.FLT_STATUS.TSTOP 0 1)
    let s := s.radioDies.foldl (fun s n => s.cellsFlag n s.tickNo 6) s
    (s.journal 16 3 (unitSrc (.region 28)) 0).raise 0x005 { mech := 16, level := 3 }

def execTimingStop (s : State) : Out := run .timingStop s (timingStop s)

/-- R373: TSTOP_CLR resumes radio transmission while LOCK is LOCKED, and is refused otherwise. -/
def tstopClear (s : State) : State := if s.fld F.TMB_STATUS.LOCK = 2 then s.setFld F.FLT_STATUS.TSTOP 0 0 else s

def execTstopClear (s : State) : Out := run .tstopClear s (tstopClear s)

/-- A clock carries radio work (R374): the radio clock of a radio die, and the array clock of a die with a radio core. -/
def State.radioClock (s : State) (d clk : Nat) : Bool :=
  (clk == 1 && decide (24 ≤ d ∧ d < 28)) ||
    (clk == 0 && decide (d < 12) && [2 * d, 2 * d + 1].any fun g => s.flag F.MXC_TPROG_BASE.RADIO_CORE g)

/-- The deviation in ppm that a clock may have (R374): 2 %, and 0.1 % in deterministic mode or with radio work. -/
def State.clockLimit (s : State) (d clk : Nat) : Nat :=
  if s.fld F.PWR_DET_CTRL.STATE = 2 || s.radioClock d clk then 1000 else 20000

/-- R374: a clock of die d deviates from its set frequency by more than its limit; a fault that has stood for 1 ms recommends rung 3. -/
def clockFault (d : Nat) (clk : ClockDev) (s : State) : State :=
  if s.dieOff d || !s.dieEn d || decide (clk.ppm ≤ s.clockLimit d clk.clk) then s
  else
    let key := 0x110 + clk.clk
    let src := unitSrc (.region d)
    let lasts := s.flt.misses.any fun m => m.mech == key && m.src == src && decide (m.clk + 156250 ≤ s.tmb.clk ∧ s.tmb.clk < m.clk + oneSecond)
    ((s.note key src).incFld F.FLT_RG_CNT.ESC d).detect d 17 3 src 0 (if lasts then 3 else 0)

def execClockFault (d : Nat) (clk : ClockDev) (s : State) : Out := run (.clockFault d clk) s (clockFault d clk s)

/-- The operating range of a rail in units of 0.25 mV (Table 15-2). -/
def railRange (r : Nat) : Nat × Nat :=
  match r with
  | 0 => (2320, 3120)
  | 1 => (2792, 2968)
  | 2 => (3688, 3912)
  | 3 => (2912, 3088)
  | 4 => (3104, 3296)
  | 5 => (4656, 4944)
  | 6 => (12804, 13596)
  | 7 => (3492, 3708)
  | _ => (6984, 7416)

/-- A sample lies outside the operating range of its rail; VDD_MX also keeps within 15 mV of its set point (R443). -/
def State.railBad (s : State) (r v : Nat) : Bool :=
  decide (v < (railRange r).1 ∨ (railRange r).2 < v) ||
    (r == 0 && decide (v + 60 < 4 * s.fld F.PWR_RAILr.SET 0 ∨ 4 * s.fld F.PWR_RAILr.SET 0 + 60 < v))

/-- R374: the last five samples of a rail lie outside its operating range. -/
def railFault (r : RailRun) (s : State) : State :=
  let good := r.samples.length < 5 || !(r.samples.drop (r.samples.length - 5)).all (s.railBad r.rail)
  let s := s.when (!r.samples.isEmpty) fun s => s.setFld F.PWR_RAILr.V r.rail (r.samples.getLastD 0)
  if good then s
  else
    let s := (s.setFld F.PWR_RAILr.RFAULT r.rail 1).journal 18 3 (unitSrc (.region 28)) r.rail
    s.raise 0x006 { mech := 18, level := 3, data := r.rail } 4

def execRailFault (r : RailRun) (s : State) : Out := run (.railFault r) s (railFault r s)

/-! Fences (R21 to R23, R378) -/

/-- An escalation to Caldera is answered: it no longer waits in the region controller (R26). -/
def State.unwait (s : State) (u : FUnit) : State := s.modFlt fun h => { h with waiting := h.waiting.filter fun f => f.unit != u }

/-- A lost die can no longer write a completion record: its router is out (`all`), or the ring lies in the memory of a die
that is out (R391; log entry 76). -/
def State.recLost (s : State) (all : Bool) (r : Rec) : Bool :=
  all || match place (s.fld F.MXC_Qq_CRING.BASE r.q) with
    | .store n _ _ => s.dieOut (12 + n)
    | .sram n _ => s.dieOut n
    | .rsram n _ => s.dieOut (24 + n)
    | _ => false

/-- Caldera's event record for a record that can no longer be written; it names the queue and the tag (R141, R391). -/
def State.recEvent (s : State) (r : Rec) : State := s.raise (queueSrc r.q) { basin := r.basin, gen := r.gen, data := r.tag }

/-- Caldera's event record for a drain lost with its die: its source names the core, DATA the command's tag (R141). -/
def State.drainEvent (s : State) (d : Drain) : State :=
  s.raise (queueSrc d.cmd.q) { basin := d.basin, gen := d.gen, data := d.cmd.tag }

/-- Records of a lost die's core that it can no longer write reach the host as event records; where its router is out, its
drains are lost in the same way (R141, R391). -/
def State.recsByEvent (s : State) (g : Nat) (all : Bool) : State :=
  let m := s.core g
  let gone := if all then m.drains else []
  let s := gone.foldl (fun s e => s.drainEvent e) s
  let s := (m.recs.filter (s.recLost all)).foldl (fun s r => s.recEvent r) s
  s.modCore g fun n => { n with drains := if all then [] else n.drains, recs := m.recs.filter fun r => !s.recLost all r }

/-- The commands a matrix core of a lost die holds, and those that wait for re-run on it, end with FENCED (R22, R391). -/
def State.loseCore (s : State) (g : Nat) (byEvent : Bool) : State :=
  let s := s.discard (g / 2) ((List.range 4).map fun a => s.retries g a).sum
  let s := (List.range 4).foldl (fun s c => s.killEnd g c 11) s
  let s := (List.range 4).foldl (fun s a => s.dropMaps g a) s
  let m := s.core g
  let s := (s.discard (g / 2) m.rerun.length).setCore g { m with rerun := [], wins := [], next := [], run := none }
  let s := m.rerun.foldl (fun s c => s.record g c (s.queueBasin c.q) 11 0 0 s.tickNo 0) s
  s.recsByEvent g byEvent

/-- The tasks a core of a lost radio die holds end with FENCED, ended ones that still copy out among them (R391). -/
def State.loseTask (s : State) (d : Nat) : State :=
  match (s.dsp d).task with
  | none => s
  | some t => (s.dspFree d).taskRecord t (s.dsp d).basin 11 (dspCycles (s.dsp d).t0 s.tmb.clk)

/-- The tasks of a cluster of a lost radio die (R22, R391). -/
def State.loseCluster (s : State) (k : Nat) (byEvent : Bool) : State :=
  let m := s.cluster k
  let s := s.when (!m.rerun.isEmpty) fun s => s.incFld F.FLT_RG_CNT.DISCARD (24 + k / 4) m.rerun.length
  let s := s.setCluster k { m with rerun := [] }
  let s := m.rerun.foldl (fun s t => s.taskRecord t (s.queueBasin t.q) 11 0) s
  let l := (s.cluster k).recs
  ((l.filter (s.recLost byEvent)).foldl (fun s r => s.recEvent r) s).modCluster k fun m =>
    { m with recs := l.filter fun r => !s.recLost byEvent r }

/-- The cells whose flows a fenced edge die held: FH in their words, and an event record for each (R381, Table 12-4). Which
active cells they are is free (log entry 65). -/
def State.edgeCells (s : State) (k : Nat) : State :=
  (s.radioDies.filter fun n => (s.edge k).flows.any fun x => flw x.2 F.FHL_FLOWf.RD == n).foldl (fun s n =>
    let r := s.cellsOf n
    r.1.foldl (fun s j => (State.cfwFlag s n j s.tickNo 5).raise (portSrc (4 * k) 0) { mech := 14, level := 3, data := 96 * n + j }) r.2) s

/-- An edge die is lost: its links go down, its ports stop (Table 9-3) and its host cores halt. -/
def State.loseEdge (s : State) (k : Nat) : State :=
  let s := (List.range 16).foldl (fun s i => s.downLink (16 * k + i) 7) s
  let s := (List.range 4).foldl (fun s i => s.setFld F.FHL_Pp_STATUS.FENCED (4 * k + i) 1) s
  let s := s.edgeCells k
  (List.range 16).foldl (fun s i => s.setFld F.PKG_HC_CTRLh.HALTED (16 * k + i) 1) s

/-- A die is lost (R391); `byEvent` where it can no longer write completion records. -/
def State.loseDie (s : State) (d : Nat) (byEvent : Bool) : State :=
  if d < 12 then (s.loseCore (2 * d) byEvent).loseCore (2 * d + 1) byEvent
  else if d < 24 then s
  else if d < 28 then
    let s := (List.range 64).foldl (fun s c => s.loseTask (64 * (d - 24) + c)) s
    (List.range 4).foldl (fun s k => s.loseCluster (4 * (d - 24) + k) byEvent) s
  else s.loseEdge (d - 28)

/-- Set a die's fence bit; fencing MDn also fences SDn (R35). -/
def State.setFen (s : State) (d : Nat) : State :=
  let s := s.setDieBit false d true
  if d < 12 then s.setDieBit false (12 + d) true else s

/-- Caldera fences the region of die d for the mechanism of its last fault (R21, R378); while Caldera is stopped the fence
waits in the region controller (R26). -/
def State.fenceRegion (s : State) (d : Nat) : State :=
  if s.fencedUnit (.region d) || !s.dieEn d then s
  else if s.flt.caldera.isSome then s.modFlt fun h => { h with waiting := h.waiting ++ [⟨.region d, 3, false, false⟩] }
  else
    let s := ((s.unwait (.region d)).addFence ⟨.region d, 3, false, false⟩).setFen d
    let s := s.loseDie d false
    s.fenceEvent d (s.fld F.FLT_RG_LAST.MECH d) 3 (.region d) 2

/-- R21, R35. -/
def regionFence (d : Nat) (s : State) : State := s.fenceRegion d

/-- Dies whose routers are out of service. -/
def State.routersOut (s : State) : List Nat := (List.range 32).filter fun d => decide (topDie d = d) && s.routerDown d

/-- R17: a packet in flight through a router that goes out of service is dropped where its next hop is out of service, and
its requester takes the error of R16; `past` names the reads whose packets had passed the router. -/
def State.dropInFlight (s : State) (d : Nat) (past : List (Nat × Nat)) : State :=
  (List.range 24).foldl (fun s g => (s.held4 g).foldl (fun s (c, x) =>
    match x.ranges with
    | (a, _) :: _ =>
      let dst := (memDie a).1
      let crosses := topDie dst == d || g / 2 == d || (match s.routeOf (g / 2) dst with
        | some p => p.contains d
        | none => false)
      if topDie dst != g / 2 && crosses && !past.contains (g, c) then s.killAddr g c a else s
    | [] => s) s) s

/-- R16, R17, R391: Caldera fences the router of die d, which fences the die with it (log entry 76); new routes take effect at
the next tick boundary. -/
def routerFence (d : Nat) (past : List (Nat × Nat)) (s : State) : State :=
  let d := topDie d
  if s.fencedUnit (.router d) || !s.dieEn d then s
  else if s.flt.caldera.isSome then s.modFlt fun h => { h with waiting := h.waiting ++ [⟨.router d, 3, false, false⟩] }
  else
    let s := s.dropInFlight d past
    let s := ((s.unwait (.router d)).addFence ⟨.router d, 3, false, false⟩).setFen d
    let s := s.modFlt fun h => { h with routeChg := true }
    (s.loseDie d true).fenceEvent d 7 3 (.router d) 2

/-- R17: at a tick boundary a waiting route change takes effect. -/
def routeChange (s : State) : State :=
  if s.flt.routeChg && s.flag F.GEY_CTRL.TICKING && s.frameCyc == 0 then
    s.modFlt fun h => { h with routes := s.routersOut, routeChg := false }
  else s

def execRouteChange (s : State) : Out := run .routeChange s (routeChange s)

/-- R21, R390: the region controller of die d fences block k: a matrix core, a radio cluster, a link group, or another
block. A lower-level action on a block of a fenced die is discarded and counted (R22). -/
def blockFence (d k : Nat) (s : State) : State :=
  let u := FUnit.block d k
  let mech := s.fld F.FLT_RG_LAST.MECH d
  if s.testFenced u then s.testStands mech 2 u
  else if s.dieOut d then s.discard d (b2n (s.dieEn d && !s.dieOff d))
  else if s.unitOut u then s
  else if d < 12 then (if k < 2 then s.fenceCore (2 * d + k) mech else s)
  else if 24 ≤ d ∧ d < 28 ∧ k < 4 then s.fenceCluster (4 * (d - 24) + k) mech
  else if 28 ≤ d ∧ k < 4 then s.fenceLinks (4 * (d - 28) + k) mech
  else s.blockDown d k mech false

/-- What keeps a die's fence bit at 1: its power-off, or a fence of its region or router; a store die's also those of its
matrix die (R35). -/
def State.fenStands (s : State) (d : Nat) : Bool :=
  s.dieOff d || s.fencedUnit (.region d) || s.fencedUnit (.router (topDie d)) ||
    (decide (12 ≤ d ∧ d < 24) && (s.dieOff (d - 12) || s.fencedUnit (.region (d - 12))))

/-- The fence bits of a die and its store die go where nothing keeps them, and the FENCED bits of an edge die's ports. -/
def State.unfenceDie (s : State) (d : Nat) : State :=
  let clr := fun (s : State) (d : Nat) => if s.fenStands d then s else s.setDieBit false d false
  let s := clr s d
  let s := if d < 12 then clr s (12 + d) else s
  if 28 ≤ d ∧ !s.fenStands d then (List.range 4).foldl (fun s i => s.setFld F.FHL_Pp_STATUS.FENCED (4 * (d - 28) + i) 0) s
  else s

/-- The status bits that show a unit fenced go, once no fence stands on it. -/
def State.unfence (s : State) (u : FUnit) : State :=
  if s.fencedUnit u then s
  else match u with
    | .region d => s.unfenceDie d
    | .router d => (s.unfenceDie d).modFlt fun h => { h with routeChg := true }
    | .block d k => s.setFld F.FLT_RG_STATUS.BFENCE d (putBit (s.fld F.FLT_RG_STATUS.BFENCE d) k false)
    | .tile d k i =>
      if d < 12 then s.setFld F.MXC_ARR_STATUS.FENCED ((2 * d + k) * 4 + i) 0
      else if d < 24 then
        let s := s.modStore (d - 12) fun st => { st with inPlace := st.inPlace.filter fun b => b != 32 * k + i }
        s.setFld F.FLT_RG_STATUS.DEGRADED d (b2n (!(s.store (d - 12)).inPlace.isEmpty))
      else if d < 28 then
        if k < 4 then
          let c := 64 * (d - 24) + 16 * k + i
          (s.setFld F.RDP_CORE_STATUS.FENCED c 0).modDsp c fun c => { c with fenceTick := none }
        else s
      else
        let l := 16 * (d - 28) + 4 * k + i
        if s.fld F.FAB_Ll_STATUS.STATE l = 7 then s.setFld F.FAB_Ll_STATUS.STATE l 0 else s

/-- Fences of a unit that hold are removed, and the release is counted, journaled and reported. -/
def State.releaseFences (s : State) (u : FUnit) (lvl : Nat) (p : Fence → Bool) : State :=
  if s.flt.fences.any fun f => f.unit == u && p f then
    let s := s.modFlt fun h => { h with fences := h.fences.filter fun f => !(f.unit == u && p f) }
    (s.unfence u).fenceEvent (unitDie u) (s.fld F.FLT_RG_LAST.MECH (unitDie u)) lvl u 0
  else s

/-- R23: the handler of a level releases the fences of a unit that it or a lower level set; permanent fences and test fences
have procedures of their own (R383, R408), and Caldera does nothing while it is stopped (R26). -/
def fenceRelease (u : FUnit) (lvl : Nat) (s : State) : State :=
  if lvl = 3 ∧ s.flt.caldera.isSome then s
  else s.releaseFences u lvl fun f => decide (f.lvl ≤ lvl) && !f.perm && !f.test

def execFenceRelease (u : FUnit) (lvl : Nat) (s : State) : Out := run (.fenceRelease u lvl) s (fenceRelease u lvl s)

/-! Heartbeats, watchdog and Caldera (R26, R375, R376) -/

/-- R375: a region controller's heartbeat. -/
def regionHeartbeat (d : Nat) (s : State) : State :=
  if s.dieOff d then s else s.modFlt fun h => { h with hb := SMap.set 0 h.hb d s.tmb.clk }

def execRegionHeartbeat (d : Nat) (s : State) : Out := run (.regionHeartbeat d) s (regionHeartbeat d s)

/-- R375: three heartbeats in succession are missing (12 µs): Caldera fences the region. -/
def heartbeatMiss (d : Nat) (s : State) : State :=
  if s.fld F.PKG_BOOT.STAGE < 2 || s.flag F.FLT_RG_STATUS.HB_FAIL d || s.dieOut d || decide (s.tmb.clk < SMap.get 0 s.flt.hb d + 1875) then s
  else
    let s := (s.setFld F.FLT_RG_STATUS.HB_FAIL d 1).incFld F.FLT_RG_CNT.ESC d
    (s.detect d 20 3 (unitSrc (.region d)) 0).fenceRegion d

/-- R376: Caldera services the island watchdog; a stopped Caldera does not. -/
def watchdogService (s : State) : State :=
  if s.flt.caldera.isSome || !s.pwr.aon then s else s.modFlt fun h => { h with wdtClk := s.tmb.clk }

def execWatchdogService (s : State) : Out := run .watchdogService s (watchdogService s)

/-- R376: the watchdog has not been serviced for 50 µs. -/
def watchdogExpiry (s : State) : State :=
  if s.flt.wdtStop || !s.pwr.aon || decide (s.tmb.clk < s.flt.wdtClk + 7813) then s
  else
    let s := s.modFlt fun h => { h with wdtStop := true }
    let s := ((s.setFld F.FLT_STATUS.WDT 0 1).alarm 6 3).setFld F.FLT_STATUS.RUNG 0 (max (s.fld F.FLT_STATUS.RUNG) 3)
    s.raise 0x002 { mech := 22, level := 3 } 3

def execWatchdogExpiry (s : State) : Out := run .watchdogExpiry s (watchdogExpiry s)

/-- R26: the two Caldera controllers disagree and stop; three stops within 60 s recommend rung 3 (R392). -/
def calderaMismatch (s : State) : State :=
  if s.flt.caldera.isSome || !s.pwr.aon then s
  else
    let recent := s.flt.stops.filter fun t => decide (s.tmb.clk < t + 60 * oneSecond)
    let s := s.modFlt fun h => { h with caldera := some s.tmb.clk, stops := recent ++ [s.tmb.clk] }
    let s := (s.incFld F.FLT_STATUS.CALDERA_STOPS).journal 21 3 (unitSrc (.region 28)) 0
    s.raise 0x001 { mech := 21, level := 3 } (if 2 ≤ recent.length then 3 else 0)

def execCalderaMismatch (s : State) : Out := run .calderaMismatch s (calderaMismatch s)

/-- R26: Caldera runs again from its last checkpoint. -/
def calderaResume (s : State) : State := s.modFlt fun h => { h with caldera := none }

def execCalderaResume (s : State) : Out := run .calderaResume s (calderaResume s)

/-! The journal (R382 to R386) -/

/-- Records of the ring (Table 12-5). -/
def jrnlRecs : Nat := 129024

/-- Address of the record with sequence number n. -/
def jrnlAddr (n : Nat) : Nat := 0xF000010000 + n % jrnlRecs * 32

/-- Bytes 0 to 27 of a record (Table 12-6). -/
def jrnlBody (seq : Nat) (r : JrnlRec) : List Byte :=
  bytesOf 4 seq ++ bytesOf 1 r.kind ++ bytesOf 1 (r.level % 4 + b2n r.backup * 4 + b2n r.perm * 8) ++ bytesOf 2 r.src ++
    bytesOf 8 r.time ++ bytesOf 8 r.data ++ bytesOf 4 r.tick

/-- The record of a map-out stands in the journal: the map is permanent (R97, Table 3-11). -/
def State.mapRecorded (s : State) (r : JrnlRec) : State :=
  if !r.perm || r.kind != 1 then s
  else
    match unitOf r.src with
    | .tile d k i =>
      ((List.range 8).filter fun j => s.spareOf ((2 * d + k) * 4 + i) j r.data).foldl (fun s j =>
        s.setFld F.MXC_ARR_SPAREs.PERM (((2 * d + k) * 4 + i) * 8 + j) 1) s
    | _ => s

/-- Maps and permanent fences whose journal records are lost go with them (R97, R169, R224, R379): they stand in the map area only
once Caldera has written them (R382, R383). -/
def State.dropUnrecorded (s : State) (l : List JrnlRec) : State :=
  (l.filter (·.perm)).foldl (fun (s : State) (r : JrnlRec) =>
    match r.kind, unitOf r.src with
    | 1, .tile d k i =>
      ((List.range 8).filter fun j => s.spareOf ((2 * d + k) * 4 + i) j r.data).foldl (fun s j =>
        s.resetReg .MXC_ARR_SPAREs (((2 * d + k) * 4 + i) * 8 + j)) s
    | 4, .tile d _ _ =>
      if r.data = 31 then (s.setFld F.RDP_SPARE.VALID0 (d - 24) 0).setFld F.RDP_SPARE.SUB0 (d - 24) 0
      else (s.setFld F.RDP_SPARE.VALID1 (d - 24) 0).setFld F.RDP_SPARE.SUB1 (d - 24) 0
    | 6, .tile d k i =>
      let bg := 32 * k + i
      (s.modStore (d - 12) fun st => { st with spared := st.spared.filter (· != bg), inPlace := st.inPlace.filter (· != bg) }).modFlt
        fun h => { h with fences := h.fences.filter fun f => f.unit != .tile d k i }
    | _, _ => s) s

/-- R382: Caldera writes the oldest record that waits. One written after AON_LOW on the backup cell may be lost (R385; log entry
186). -/
def journalWrite (s : State) : State :=
  match s.flt.jrnl with
  | [] => s
  | r :: l =>
    if s.flt.caldera.isSome || !s.pwr.aon then s
    else
      let n := (s.fld F.FLT_JRNL.HEAD + 1) % 2 ^ 32
      let b := jrnlBody n r
      let low := s.pwr.backup && bit (s.fld F.FLT_ALERT.ALARM) 1
      let (x, s) := if low then s.fresh 1 else (0, s)
      if x = 1 then s.modFlt fun h => { h with jrnl := l }
      else
      (((s.modFlt fun h => { h with jrnl := l }).write (jrnlAddr n) (b ++ bytesOf 4 (crc32 b))).setFld F.FLT_JRNL.HEAD 0 n).mapRecorded r

def execJournalWrite (s : State) : Out := run .journalWrite s (journalWrite s)

/-- A write of the journal that a loss of power cuts short: the slot holds no valid record, and Caldera counts it at its
restart (R383, Table 15-10). -/
def State.tearJournal (s : State) : State :=
  if s.flt.jrnl.isEmpty then s
  else
    let (d, s) := s.freshBytes 32
    ((s.write (jrnlAddr (s.fld F.FLT_JRNL.HEAD + 1)) d).incFld F.FLT_JRNL_TORN.TORN).modFlt fun h => { h with jrnl := h.jrnl.drop 1 }

/-- R386: Caldera presents the next record through source 0, once the record before it is completed; at the end PRESENTED
names the last record presented. -/
def journalPresentation (s : State) : State :=
  if !s.flt.presenting || s.fld F.PKG_BOOT.STAGE != 6 || s.flag F.EVC_SRCn.ACTIVE 0 || s.flt.caldera.isSome then s
  else
    let head := s.fld F.FLT_JRNL.HEAD
    let last := s.fld F.FLT_JRNL.PRESENTED
    let next := (if jrnlRecs < diff32 head last then head + 2 ^ 32 - jrnlRecs + 1 else last + 1) % 2 ^ 32
    let c := s.evCap 0
    let shown := c.jrnl && c.xdata1 / 2 == next % 2 ^ 30 && decide (last ≠ head)
    let s := s.when shown fun s => s.setFld F.FLT_JRNL.PRESENTED 0 next
    let last := if shown then next else last
    let next := if shown then (next + 1) % 2 ^ 32 else next
    if last = head then s.modFlt fun h => { h with presenting := !h.jrnl.isEmpty }
    else
      let s := s.meet (jrnlAddr next) 32
      let v := s.readNat (jrnlAddr next) 32
      s.raise 0x000 { mech := bits v 39 32, level := bits v 41 40, jrnl := true, data := bits v 63 48, ext := true
                      xdata := bits v 191 128, xdata1 := bits v 42 42 + next % 2 ^ 30 * 2, time := some (bits v 127 64) }

def execJournalPresentation (s : State) : Out := run .journalPresentation s (journalPresentation s)

/-- R384: a write of 1 clears a bit of FLT_ALERT; ALERT_N rises when every bit is clear. -/
def alertClear (v : BitVec 32) (s : State) : State :=
  let a := s.fld F.FLT_ALERT.ALARM
  let b := natOfBits ((List.range 7).map fun i => bit a i && !bit v.toNat i)
  (s.setFld F.FLT_ALERT.ALARM 0 b).when (b == 0) fun s => s.setFld F.FLT_STATUS.ALERT 0 0

def execAlertClear (v : BitVec 32) (s : State) : Out := run (.alertClear v) s (alertClear v s)

/-- R392: RUNG_CLR. -/
def rungClear (s : State) : State := s.setFld F.FLT_STATUS.RUNG 0 0

def execRungClear (s : State) : Out := run .rungClear s (rungClear s)

/-- R384, R392: VDD_AON falls below its minimum operating value + 30 mV. -/
def aonLow (s : State) : State := if s.pwr.aon then s.backupAlarm 1 4 else s

def execAonLow (s : State) : Out := run .aonLow s (aonLow s)

/-! What a reset keeps (R395, Table 13-4; log entry 77) -/

/-- The register and instance of a key of the register map. -/
def keyKind (key : Nat) : Option RegKind := RegKind.all[key / 256 % 512]?
def keyIx (key : Nat) : Nat := key / 131072

/-- Registers of the always-on island (R25, R37, R384; log entry 77). -/
def RegKind.island (k : RegKind) : Bool :=
  [RegKind.PKG_RESET, .TMB_CTRL, .TMB_STATUS, .TMB_INCR, .TMB_NOW, .TMB_NOW_FRAC, .TMB_PPS_CAP, .TMB_TOD_SEC, .TMB_TRIGn_CTRL,
   .TMB_TRIGn_START, .TMB_TRIGn_SHAPE, .GEY_CTRL, .GEY_FRAME_OFS, .GEY_FUMAROLE, .GEY_TICK, .GEY_POS, .FLT_STATUS, .FLT_CTRL,
   .FLT_ALERT, .FLT_JRNL_TORN, .PWR_STATUS, .PWR_RAILr, .CAL_ITEMi].contains k

/-- Registers read from the journal at every start (R97, R169, R224, R383). -/
def RegKind.mapped (k : RegKind) : Bool := [RegKind.FLT_JRNL, .MXC_ARR_SPAREs, .RDP_SPARE].contains k

/-- Registers that report fuses (R1, R34): no reset changes them. -/
def RegKind.fused (k : RegKind) : Bool := [RegKind.PKG_ID, .PKG_DIE_EN].contains k

/-- The configuration space of the PCIe functions (R416, R435). -/
def RegKind.config (k : RegKind) : Bool :=
  [RegKind.MSIX_PF, .MSIX_PBA, .MSIX_VF, .MSIX_VFPBA, .CFG_SRIOV, .CFG_ATS, .PKG_BAR2_BASE].contains k

/-- The entries of the register map that hold. -/
def State.keepRegs (s : State) (p : RegKind → Nat → Bool) : SMap Nat :=
  s.regs.filter fun e => (keyKind e.1).any fun k => p k e.1

/-- A store page or SRAM granule of basin 0 keeps its owner and contents (Table 13-4). -/
def State.keepOwner (s : State) (k : RegKind) (key : Nat) : Bool :=
  match k with
  | .STR_PAGE_OWNERp => s.fld F.STR_PAGE_OWNERp.STATE (keyIx key) == 1 && s.fld F.STR_PAGE_OWNERp.OWNER (keyIx key) == 0
  | .STR_SRAM_OWNERg => s.fld F.STR_SRAM_OWNERg.STATE (keyIx key) == 1 && s.fld F.STR_SRAM_OWNERg.OWNER (keyIx key) == 0
  | _ => false

/-- A memory address keeps its byte across a warm reset. -/
def State.keepByte (s : State) (a : Nat) : Bool :=
  match place a with
  | .store n p _ => s.fld F.STR_PAGE_OWNERp.STATE (n * 12288 + p) == 1 && s.fld F.STR_PAGE_OWNERp.OWNER (n * 12288 + p) == 0
  | .sram n o => s.fld F.STR_SRAM_OWNERg.STATE (n * 128 + o / 2 ^ 20) == 1 && s.fld F.STR_SRAM_OWNERg.OWNER (n * 128 + o / 2 ^ 20) == 0
  | .journal _ => true
  | _ => false

/-- An address lies in the journal. -/
def inJournal (a : Nat) : Bool :=
  match place a with
  | .journal _ => true
  | _ => false

/-- What a store controller keeps: the spare maps, and key slot 0 across a warm reset (R166, R169, Table 13-4). A replacement
released under OP 3 goes now (R408). -/
def Store.kept (st : Store) (key0 : Bool) : Store :=
  { keys := if key0 then st.keys.filter (fun e => e.1 == 0) else [], draws := st.draws
    spared := st.spared.filter fun b => !st.unspare.contains b, inPlace := st.inPlace }

/-- Permanent fences and spare maps are applied (Table 14-9, stage 2): the status bits that show them. -/
def State.applyMaps (s : State) : State :=
  let s := s.flt.fences.foldl (fun s f =>
    match f.unit with
    | .block d k => s.setFld F.FLT_RG_STATUS.BFENCE d (putBit (s.fld F.FLT_RG_STATUS.BFENCE d) k true)
    | .tile d k i =>
      if d < 12 then s.setFld F.MXC_ARR_STATUS.FENCED ((2 * d + k) * 4 + i) 1
      else if d < 24 then s.when f.perm fun s => s.setFld F.FLT_RG_STATUS.DEGRADED d 1
      else if d < 28 ∧ k < 4 then s.setFld F.RDP_CORE_STATUS.FENCED (64 * (d - 24) + 16 * k + i) 1
      else s
    | _ => s) s
  let s := (s.instances .MXC_ARR_SPAREs F.MXC_ARR_SPAREs.VALID.lo).foldl (fun s x =>
    s.setFld F.MXC_ARR_STATUS.SPARES_USED (x / 8) (((List.range 8).filter fun k =>
      State.flag s F.MXC_ARR_SPAREs.VALID (x / 8 * 8 + k)).length)) s
  let s := (List.range 12).foldl (fun s n =>
    (s.store n).spared.foldl (fun s b => s.setFld F.STR_STATUS.SPARE_USED n (putBit (s.fld F.STR_STATUS.SPARE_USED n) (b / 8) true)) s) s
  (List.range 4).foldl (fun s n =>
    let s := s.when (s.flag F.RDP_SPARE.VALID0 n) fun s => s.setFld F.RDP_CORE_STATUS.SPARE (64 * n + 31) 1
    s.when (s.flag F.RDP_SPARE.VALID1 n) fun s => s.setFld F.RDP_CORE_STATUS.SPARE (64 * n + 63) 1) s

/-- Fused-off dies read as powered off and fenced from the first read on (Table 1-11). -/
def State.fuseOff (s : State) : State :=
  ((List.range 32).filter fun d => !s.dieEn d).foldl (fun s d => (s.setDieBit true d true).setDieBit false d true) s

/-- The device after its dies have lost what no table keeps: registers and bytes by the given rules, fuses always. Pending read
latches go with held halves (log entry 148). Poisoned lines of store stay over a warm reset (`key0`; R161, log entry 165). -/
def State.cleared (s : State) (regs : RegKind → Nat → Bool) (byte : Nat → Bool) (key0 : Bool) : State :=
  State.fuseOff { State.reset with
    pending := s.pending, out := s.out, free := s.free, resp := s.resp, respPoison := s.respPoison
    regs := s.keepRegs fun k key => regs k key || k.mapped || k.fused
    mem := s.mem.filter fun c => byte c.1
    poison := s.poison.filter fun c => byte (c.1 * 64) || (key0 && isStore (c.1 * 64))
    flips := s.flips.filter fun f => match f.1 with
      | .mem a => byte a
      | _ => false
    stores := (s.stores.map fun e => (e.1, e.2.kept key0)).filter fun e => e.2 != {}
    flt := { fences := s.flt.fences.filter (·.perm), jrnl := s.flt.jrnl } }

/-- The island goes on while the dies are cleared: timebase, array time and the kept parts of fault handling and power. -/
def State.withIsland (s t : State) : State :=
  let t := { t with
    tmb := s.tmb
    trigs := s.trigs
    gey := { s.gey with next := none, stopAt := none, fresh := true, tickSet := false }
    flt := { t.flt with caldera := s.flt.caldera, stops := s.flt.stops, wdtClk := s.tmb.clk
                        hb := if s.tmb.clk = 0 then [] else (List.range 32).map fun d => (d, s.tmb.clk) }
    pwr := { s.pwr with released := 0, trigClk := [], stepTick := [], gated := [], dieW := [], entryClk := none } }
  let t := (t.setFld F.GEY_CTRL.RUN 0 0).setFld F.GEY_CTRL.TICKING 0 0
  t.applyMaps

/-! Warm reset, power-up and power loss -/

/-- Power-off bits stay across a warm reset, and each implies its fence bit (R35). -/
def State.keepOff (s t : State) : State :=
  (List.range 32).foldl (fun t d => if s.dieOff d then (t.setDieBit true d true).setDieBit false d true else t) t

/-- R395, R435, R411, R460, R62: a warm reset. Where the replica holds the master role, ED0 takes the timebase from it, so that the
counters agree after the reset, and the role returns unless ED0 is fenced; a heartbeat missing after the reset is a new
takeover. It is ignored while BKP_ACTIVE is high or the main rails are lost. -/
def warmReset (s : State) : State :=
  if s.pwr.bkp || !s.pwr.mainGood then s
  else
    let s := (List.range 4).foldl (fun s n => trigReset n s) s
    let staged := s.flag F.PKG_FW_CMD.STAGED && !s.flag F.PKG_FW_CMD.BUSY
    let slot := s.fld F.PKG_BOOT.SLOT
    let t := s.withIsland (s.cleared (fun k key => k.island || k.config || s.keepOwner k key) s.keepByte true)
    let t := s.keepOff t
    let t := ((t.setFld F.PKG_BOOT.STAGE 0 2).setFld F.PKG_BOOT.SLOT 0 slot).setFld F.PKG_FW_CMD.STAGED 0 (b2n staged)
    let t := { t with pwr := { t.pwr with warm := true, entry := s.pwr.entry, released := s.pwr.released } }
    let t := t.modFlt fun h => { h with presenting := true, routes := t.routersOut
                                        renewed := (s.flt.renewed.filter fun e => !s.flt.asked.contains e.1) ++
                                          s.flt.asked.map fun k => (k, s.tmb.clk) }
    if !s.tmb.onReplica then t
    else
      let t := t.fromReplica
      if t.dieFen 28 then takeover t else { t.setFld F.TMB_STATUS.TAKEOVER 0 0 with tmb := { t.tmb with onReplica := false } }

def execWarmReset (s : State) : Out := run .warmReset s (warmReset s)

/-- R437, R440: PCYC_REQ is raised or cleared; nothing else in the device changes. -/
def powerCycleRequest (s : State) : State :=
  if s.flag F.PKG_RESET.PCYC_REQ then s.setFld F.PKG_RESET.PCYC_REQ 0 0 else (s.setFld F.PKG_RESET.PCYC_REQ 0 1).ibi

def execPowerCycleRequest (s : State) : Out := run .powerCycleRequest s (powerCycleRequest s)

/-- R384, R446, R141: a PG of steps 2 to 8 has been low for 10 µs: the dies lose their state, with it every drain, and the island runs from the backup
cell with every low-speed output inactive (R456). -/
def mainRailsLost (s : State) : State :=
  if !s.pwr.mainGood || !s.pwr.aon || s.pwr.pg / 2 % 128 == 127 then s
  else
    let torn := s.flt.jrnl.take 1
    let s := (List.range 4).foldl (fun s n => trigReset n s) s.tearJournal
    let t := s.withIsland ((s.cleared (fun k _ => k.island) inJournal false).dropUnrecorded torn)
    let t := { t with pwr := { t.pwr with mainGood := false, backup := true, warm := false, entry := [] } }
    (((List.range 24).flatMap fun g => (s.core g).drains).foldl (fun t d => t.drainEvent d) t).alarm 0

def execMainRailsLost (s : State) : Out := run .mainRailsLost s (mainRailsLost s)

/-- R37, R385: VDD_AON fails: everything is lost but the journal, its maps and the permanent fences. -/
def vddAonLoss (s : State) : State :=
  if !s.pwr.aon then s
  else
    let lost := s.flt.jrnl
    let s := s.tearJournal
    let t := s.cleared (fun k _ => k == .FLT_JRNL_TORN) inJournal false
    { (t.dropUnrecorded lost).modFlt (fun h => { h with jrnl := [] }) with pwr := { aon := false } }.applyMaps

def execVddAonLoss (s : State) : Out := run .vddAonLoss s (vddAonLoss s)

/-- R433: VDD_AON is in range: the island leaves reset at stage 0, and its counter starts from 0 (R37). -/
def powerUp (s : State) : State := if s.pwr.aon then s else s.modPwr fun p => { p with aon := true }

def execPowerUp (s : State) : Out := run .powerUp s (powerUp s)

/-- R459: BKP_ACTIVE changes. -/
def bkpActiveChange (high : Bool) (s : State) : State := (s.setFld F.PWR_STATUS.BACKUP 0 (b2n high)).modPwr fun p => { p with bkp := high }

def execBkpActiveChange (high : Bool) (s : State) : Out := run (.bkpActiveChange high) s (bkpActiveChange high s)

/-- The rails of Table 15-2 that a power-up step of Table 15-3 brings up. -/
def stepRails (step : Nat) : List Nat :=
  match step with
  | 1 => [7, 8]
  | 2 => [4]
  | 3 => [1]
  | 4 => [2]
  | 5 => [3]
  | 6 => [0]
  | 7 => [5]
  | _ => [6]

/-- A PG that rises before the one before it, or more than 50 ms after it, is a sequence error (R445; step 2 has no latest
time). -/
def State.pgError (s : State) (step : Nat) : Bool :=
  decide (2 ≤ step) && (!bit s.pwr.pg (step - 2) ||
    (decide (3 ≤ step) && decide (SMap.get 0 s.pwr.pgClk (step - 1) + 7812500 < s.tmb.clk)))

/-- R444, R445: a deglitched power-good input changes. When those of steps 2 to 8 are all high the main rails are good, and the
device is at stage 1. -/
def pgInput (step : Nat) (high : Bool) (s : State) : State :=
  let was := bit s.pwr.pg (step - 1)
  let bad := high && !was && s.pgError step
  let s := (stepRails step).foldl (fun s r => s.setFld F.PWR_RAILr.PG r (b2n high)) s
  let s := s.modPwr fun p => { p with pg := putBit p.pg (step - 1) high
                                      pgClk := if high && !was then SMap.set 0 p.pgClk step s.tmb.clk else p.pgClk }
  let s := s.when bad fun s =>
    ((s.setFld F.PWR_STATUS.SEQ_ERR 0 1).journal 18 3 (unitSrc (.region 28)) step).raise 0x008 { mech := 18, level := 3, data := step } 4
  if !s.pwr.mainGood && s.pwr.pg / 2 % 128 == 127 then
    let s := s.modPwr fun p => { p with mainGood := true, backup := false }
    s.setFld F.PKG_BOOT.STAGE 0 1
  else s

def execPgInput (step : Nat) (high : Bool) (s : State) : Out := run (.pgInput step high) s (pgInput step high s)

/-- R447: the PLLs of the group before have locked, and group `grp` leaves reset; none does after a sequence error (R445). With
the last group released, memory initialisation starts (stage 2). -/
def dieRelease (grp : Nat) (s : State) : State :=
  if s.fld F.PKG_BOOT.STAGE ≠ 1 ∨ s.flag F.PWR_STATUS.SEQ_ERR ∨ s.pwr.released + 1 ≠ grp then s
  else
    let s := s.modPwr fun p => { p with released := grp }
    s.when (grp == 5) fun s =>
      (s.setFld F.PKG_BOOT.STAGE 0 2).modFlt fun h => { h with hb := if s.tmb.clk = 0 then [] else (List.range 32).map fun d => (d, s.tmb.clk) }

def execDieRelease (grp : Nat) (s : State) : Out := run (.dieRelease grp) s (dieRelease grp s)

/-! Power of one die (R35, R141, R391) -/

/-- A register instance lies in the window of die d; those of a store die, but its region's, stand with the matrix die. -/
def regOfDie (d : Nat) (k : RegKind) (key : Nat) : Bool :=
  match k.offset (keyIx key) with
  | some o =>
    if d < 12 then decide (0x1000000 + d * 0x100000 ≤ o ∧ o < 0x1100000 + d * 0x100000) && !(decide (o / 0x10000 % 16 = 0xB))
    else if d < 24 then false
    else if d < 28 then decide (0x2000000 + (d - 24) * 0x100000 ≤ o ∧ o < 0x2100000 + (d - 24) * 0x100000)
    else decide (0x2400000 + (d - 28) * 0x100000 ≤ o ∧ o < 0x2500000 + (d - 28) * 0x100000)
  | none => false

/-- An address lies in a memory of die d. -/
def inDie (d a : Nat) : Bool :=
  match place a with
  | .store n _ _ => 12 + n == d
  | .sram n _ => n == d
  | .rsram n _ => 24 + n == d
  | .dsp n _ _ => 24 + n == d
  | _ => false

/-- The registers, memory and units of a die that loses power take their reset values; fault status from the journal and the
spare maps stay. -/
def State.clearDie (s : State) (d : Nat) : State :=
  let n := d - 24
  let gone := fun (lo hi : Nat) (i : Nat) => decide (lo ≤ i ∧ i < hi)
  let q := fun i => if d < 12 then gone (16 * d) (16 * d + 16) i
    else if 24 ≤ d ∧ d < 28 then gone (192 + 32 * n) (224 + 32 * n) i || gone (320 + 18 * n) (338 + 18 * n) i else false
  let radio := decide (24 ≤ d ∧ d < 28)
  let s := { s with
    regs := s.regs.filter fun e => !(keyKind e.1).any fun k => regOfDie d k e.1 && !k.mapped && k != RegKind.FLT_RG_STATUS
    mem := s.mem.filter fun c => !inDie d c.1
    poison := s.poison.filter fun c => !inDie d (c.1 * 64)
    flips := s.flips.filter fun f => match f.1 with
      | .mem a => !inDie d a
      | .sinter g _ _ _ => g / 2 != d
      | .cache die _ _ => die != d
      | .poisonBit _ _ => true
    queues := s.queues.filter fun e => !q e.1
    cores := s.cores.filter fun e => !(decide (d < 12) && gone (2 * d) (2 * d + 2) e.1)
    stores := (s.stores.map fun (e : Nat × Store) => (e.1, if e.1 == d then e.2.kept true else e.2)).filter fun e => e.2 != ({} : Store)
    rrc := s.rrc.filter fun e => e.1 / 2 ^ 58 != d
    dsps := s.dsps.filter fun e => !(radio && gone (64 * n) (64 * n + 64) e.1)
    clusters := s.clusters.filter fun e => !(radio && gone (4 * n) (4 * n + 4) e.1)
    engines := s.engines.filter fun e => !(radio && gone (18 * n) (18 * n + 18) e.1)
    crcs := s.crcs.filter fun e => !(radio && gone (16 * n) (16 * n + 16) e.1)
    modems := s.modems.filter fun e => !(radio && gone (512 * n) (512 * n + 512) e.1)
    eqNow := s.eqNow.filter fun e => !(radio && gone (96 * n) (96 * n + 96) e.1)
    rdflt := s.rdflt.filter fun e => !(radio && e.1 == n)
    edges := s.edges.filter fun e => !(decide (28 ≤ d) && e.1 == d - 28)
    hcs := s.hcs.filter fun e => !(decide (28 ≤ d) && gone (16 * (d - 28)) (16 * (d - 28) + 16) e.1)
    fab := { s.fab with links := s.fab.links.filter fun e => !(decide (28 ≤ d) && gone (16 * (d - 28)) (16 * (d - 28) + 16) e.1) } }
  s.applyMaps

/-- R35, R391: die d is powered off, and its fence bit with it. -/
def diePowerOff (d : Nat) (s : State) : State :=
  if !s.dieEn d || s.dieOff d then s
  else
    let s := (s.dropInFlight d []).loseDie d true
    let s := (s.setDieBit true d true).setFen d
    let s := (s.clearDie d).modFlt fun h => { h with routeChg := true }
    s.fenceEvent d 0 3 (.region d) 2

/-- R35: a powered-off die regains power; its fence bit stays 1 until Caldera releases it. -/
def diePowerOn (d : Nat) (s : State) : State :=
  if !s.dieOff d then s
  else
    let s := s.setDieBit true d false
    let s := s.when (!s.fencedUnit (.region d)) fun s => s.addFence ⟨.region d, 3, false, false⟩
    s.modFlt fun h => { h with routeChg := true }

def execDiePowerOn (d : Nat) (s : State) : Out := run (.diePowerOn d) s (diePowerOn d s)

/-! Fencing and testing in service (R405 to R408) -/

/-- The kind of a unit in Table 13-7, where a test package exists for it (log entry 22). -/
def testKind (u : FUnit) : Option Nat :=
  match u with
  | .block d k => if d < 12 ∧ k < 2 then some 1 else none
  | .tile d k i =>
    if d < 12 ∧ k < 2 ∧ i < 4 then some 0
    else if 12 ≤ d ∧ d < 24 ∧ k < 4 ∧ i < 32 then some 6
    else if 24 ≤ d ∧ d < 28 then
      if k < 4 ∧ i < 16 then some 2
      else if k = 4 ∧ i < 16 then some 3
      else if k = 4 ∧ i < 18 then some 4
      else if k = 5 ∧ i < 16 then some 5
      else none
    else if 28 ≤ d ∧ d < 32 ∧ k < 4 ∧ i < 4 then some 7
    else none
  | _ => none

/-- STATE of a unit (Table 13-14). -/
def State.testState (s : State) (u : FUnit) : Nat :=
  if s.testFenced u then 1 else if s.unitOut u then 3 else 0

/-- A route entry has no other link in service than l (R405). -/
def State.onlyPath (s : State) (l : Nat) : Bool :=
  (List.range 512).any fun i => s.flag F.FAB_ROUTEi.VALID i && (s.rtLinks (s.sysid / 512 * 512 + i)).filter s.linkUp == [l]

/-- A test fence is refused (R405). -/
def State.testRefused (s : State) (u : FUnit) : Bool :=
  match u with
  | .block d k =>
    let g := 2 * d + k
    let m := s.core g
    decide (d < 12) && ((if m.read then !m.next.isEmpty else s.windowsIn g (s.tickNo + 1)) || s.windowsIn g (s.tickNo + 2))
  | .tile d k i =>
    if d < 12 then decide ((s.arraysIn (2 * d + k)).length ≤ 1)
    else if d < 24 then false
    else if d < 28 then
      if k < 4 then
        let q := 4 * (d - 24) + k
        let c := s.cluster q
        let lane := if c.read then c.next else if s.flag F.RDP_CLk_TPROG.EN q then (s.dspSlot q (s.tickNo + 1)).2 else none
        (s.flag F.GEY_CTRL.TICKING && match lane with
          | some m => bit m i
          | none => true) || decide ((s.clusterCores (4 * (d - 24) + k)).length ≤ 1)
      else false
    else s.onlyPath (16 * (d - 28) + 4 * k + i)
  | .region _ => false
  | .router _ => false

/-- The work of a unit leaves it when a test fence is set, as for a fault fence (R405). -/
def State.testStop (s : State) (u : FUnit) : State :=
  match u with
  | .block d k =>
    if d < 12 then
      let g := 2 * d + k
      let s := (s.discard d ((List.range 4).map fun a => s.retries g a).sum).killAll g
      let s := (List.range 4).foldl (fun s a => s.dropMaps g a) s
      let gone := (s.core g).rerun
      let s := (s.discard d gone.length).modCore g fun m => { m with wins := [], next := [], run := none, rerun := [] }
      let s := gone.foldl (fun s c => s.record g c (s.queueBasin c.q) 11 0 0 s.tickNo 0) s
      s.setFld F.FLT_RG_STATUS.BFENCE d (putBit (s.fld F.FLT_RG_STATUS.BFENCE d) k true)
    else s
  | .tile d k i =>
    if d < 12 then
      let g := 2 * d + k
      let hit := (SMap.get [] (s.core g).passes i).map (·.seq)
      let s := (s.discard d (s.retries g i)).dropMaps g i
      ((s.held4 g).foldl (fun s (c, x) => if hit.contains x.seq then s.killRerun g c else s) s).setFld F.MXC_ARR_STATUS.FENCED (4 * g + i) 1
    else if d < 24 then s
    else if d < 28 then
      if k < 4 then
        let c := 64 * (d - 24) + 16 * k + i
        ((s.taskRerun c).setFld F.RDP_CORE_STATUS.FENCED c 1).modDsp c fun x => { x with fenceTick := if isSpare c then none else some s.tickNo }
      else s
    else s.downLink (16 * (d - 28) + 4 * k + i) 7
  | _ => s

/-- The end of a command of FLT_TEST_CMD with its ERR. -/
def State.testErr (s : State) (u : FUnit) (e : Nat) : State :=
  (s.setFld F.FLT_TEST_CMD.ERR 0 e).setFld F.FLT_TEST_CMD.STATE 0 (s.testState u)

/-- OP 0: a test fence (R405). A unit with no test of its own, or one already test-fenced, is refused. -/
def State.testSet (s : State) (u : FUnit) : State :=
  if (testKind u).isNone || s.dieOut (unitDie u) || s.testState u == 1 || s.testRefused u || s.flt.caldera.isSome then s.testErr u 1
  else
    let s := (s.testStop u).addFence ⟨u, 3, false, true⟩
    let s := s.modFlt fun h => { h with tests := SMap.set 0 h.tests (unitSrc u) 0 }
    (s.fenceEvent (unitDie u) 0 3 u 0).testErr u 0

/-- The buffer lies in memory of basin 0 on the unit's die (R407). -/
def State.testBufOk (s : State) (u : FUnit) (a n : Nat) : Bool :=
  let d := unitDie u
  (points a (max n 1) ++ [a + n - 1]).all fun p =>
    match place p with
    | .sram m o => topDie d == m && s.fld F.STR_SRAM_OWNERg.STATE (m * 128 + o / 2 ^ 20) == 1 && s.fld F.STR_SRAM_OWNERg.OWNER (m * 128 + o / 2 ^ 20) == 0
    | .rsram m _ => d == 24 + m
    | _ => false

/-- OP 1: the package is verified, its BODY is copied to the buffer, and the run starts (R406, R407). -/
def State.testStart (s : State) (u : FUnit) : State :=
  let p := s.fld F.FLT_TEST_PKG.ADDR / 64 * 64
  let s := s.meet p (natOf (s.read (p + 8) 4))
  let h := s.read p 96
  let field := fun i n => natOf (slice h i n)
  let len := field 8 4
  let body := s.read (p + 96) (len - 96)
  let buf := s.fld F.FLT_TEST_BUF.ADDR / 64 * 64
  let owned := (s.badAddr { basin := 0, die := 28 } false p 96).isNone && (s.badAddr { basin := 0, die := 28 } false p len).isNone
  if field 0 4 ≠ 0x4D575450 ∨ field 4 2 ≠ 1 ∨ testKind u ≠ some (field 6 1) ∨ len < 128 ∨ 16777216 < len ∨ len % 64 ≠ 0 ∨
      3 < field 7 1 ∨ !owned ∨ s.testState u ≠ 1 then s.testErr u 3
  else if !Config.ed25519Verify (Config.fusedKey true (field 7 1)) (h.take 32 ++ body) (slice h 32 64) then s.testErr u 2
  else if !s.testBufOk u buf (max (len - 96) (field 24 4)) then s.testErr u 5
  else
    let s := s.putRam 0 buf body
    let s := s.modFlt fun h => { h with tests := SMap.set 0 h.tests (unitSrc u) 0, testBudget := field 12 4, testKey := field 16 8, testLen := field 24 4 }
    ((s.setFld F.FLT_TEST_CMD.ERR 0 0).setFld F.FLT_TEST_CMD.BUSY 0 1).setFld F.FLT_TEST_CMD.STATE 0 2

/-- A unit that returns to service is scrubbed (R101, R244). -/
def State.testScrub (s : State) (u : FUnit) : State :=
  match u with
  | .block d k => if d < 12 then scrubEnd (2 * d + k) (s.startScrub (2 * d + k)) else s
  | .tile d k i =>
    if d < 12 then s.shdInvalid (2 * d + k)
    else if 24 ≤ d ∧ d < 28 ∧ k < 4 then
      let c := 64 * (d - 24) + 16 * k + i
      ((s.zero (dspBase c) 0x50000).clearPoison (dspBase c) 0x50000).setDsp c {}
    else s
  | _ => s

/-- OP 3: the unit's permanent fence and its maps leave the map area, and Caldera journals each removal. Column maps and the
DSP spare map are released; a bank group's replacement goes at the next warm reset (R408). -/
def State.testUnmap (s : State) (u : FUnit) : State :=
  let s := s.releaseFences u 3 fun f => f.perm
  match u with
  | .tile d k i =>
    if d < 12 then
      let g := 2 * d + k
      let ixs := (List.range 8).map fun j => (g * 4 + i) * 8 + j
      let used := ixs.filter fun j => s.flag F.MXC_ARR_SPAREs.VALID j
      let s := used.foldl (fun s j => (s.resetReg .MXC_ARR_SPAREs j).journal 1 3 (unitSrc u) j) s
      if used.isEmpty then s
      else ((s.setFld F.MXC_ARR_STATUS.ACT_VALID (g * 4 + i) 0).setFld F.MXC_ARR_STATUS.SHD_VALID (g * 4 + i) 0).setFld
        F.MXC_ARR_STATUS.SPARES_USED (g * 4 + i) 0
    else if d < 24 then
      let bg := 32 * k + i
      if (s.store (d - 12)).spared.contains bg then
        (s.modStore (d - 12) fun st => { st with unspare := st.unspare ++ [bg] }).journal 6 3 (unitSrc u) bg
      else s
    else if d < 28 then
      let n := d - 24
      let c := 16 * k + i
      let drop := fun (s : State) (v f : Field) (sp : Nat) =>
        if s.flag v n && s.fld f n == c then
          (((s.setFld v n 0).setFld f n 0).setFld F.RDP_CORE_STATUS.SPARE (64 * n + sp) 0).journal 4 3 (unitSrc u) sp
        else s
      if k < 4 then drop (drop s F.RDP_SPARE.VALID0 F.RDP_SPARE.SUB0 31) F.RDP_SPARE.VALID1 F.RDP_SPARE.SUB1 63 else s
    else s
  | _ => s

/-- OP 2 and OP 3 (R408). -/
def State.testBack (s : State) (u : FUnit) (perm : Bool) : State :=
  if SMap.get 0 s.flt.tests (unitSrc u) != s.fld F.FLT_TEST_EXP.EXPECT + 1 || s.testState u != 1 || s.flt.caldera.isSome then
    s.testErr u 4
  else
    let s := s.when perm fun s => s.testUnmap u
    let s := s.releaseFences u 3 fun f => !f.perm
    let s := s.modFlt fun h => { h with tests := SMap.set 0 h.tests (unitSrc u) 0
                                        returning := if s.flag F.GEY_CTRL.TICKING then h.returning ++ [u] else h.returning }
    (s.testScrub u).testErr u 0

/-- The effect of one write of FLT_TEST_CMD (Table 13-14). -/
def testCmd (v : Nat) (s : State) : State :=
  let s := (s.setFld F.FLT_TEST_CMD.UNIT 0 (bits v 15 0)).setFld F.FLT_TEST_CMD.OP 0 (bits v 17 16)
  if !bit v 18 || s.flag F.FLT_TEST_CMD.BUSY then s
  else
    let u := unitOf (bits v 15 0)
    match bits v 17 16 with
    | 0 => s.testSet u
    | 1 => s.testStart u
    | 2 => s.testBack u false
    | _ => s.testBack u true

/-- A write of FLT_TEST_CMD with GO and the OP its row names. -/
def testWord (v op : Nat) : Nat := v % 2 ^ 16 + op * 2 ^ 16 + 2 ^ 18

/-- R405. -/
def testFence (v : Word) (s : State) : State := testCmd (testWord v.toNat 0) s
/-- R406, R407. -/
def testRun (v : Word) (s : State) : State := testCmd (testWord v.toNat 1) s
/-- R407: the run ends after `cycles` with STATUS 0 or 1; more cycles than the package's BUDGET end it with 2. What the unit
has left in the buffer is free (log entry 78); the digest is over its first OUTLEN bytes (R343). -/
def testRunEnd (cycles status : Nat) (s : State) : State :=
  if !s.flag F.FLT_TEST_CMD.BUSY then s
  else
    let u := unitOf (s.fld F.FLT_TEST_CMD.UNIT)
    let st := if s.flt.testBudget < cycles then 2 else min status 1
    let (d, s) := s.freshBytes s.flt.testLen
    let s := s.putRam 0 (s.fld F.FLT_TEST_BUF.ADDR / 64 * 64) d
    let s := (s.setFld F.FLT_TEST_RES.DIGEST 0 (digest s.flt.testKey d)).setFld F.FLT_TEST_RES.CYCLES 0 (min cycles (2 ^ 32 - 1))
    let s := (s.setFld F.FLT_TEST_RES.STATUS 0 st).setFld F.FLT_TEST_CMD.BUSY 0 0
    (s.modFlt fun h => { h with tests := SMap.set 0 h.tests (unitSrc u) (if st = 0 then digest s.flt.testKey d + 1 else 0) }).setFld
      F.FLT_TEST_CMD.STATE 0 (s.testState u)

def execTestRunEnd (cycles status : Nat) (s : State) : Out := run (.testRunEnd cycles status) s (testRunEnd cycles status s)

/-- R408. -/
def testReturn (v : Word) (s : State) : State := testCmd (testWord v.toNat 2) s
/-- R408. -/
def testRelease (v : Word) (s : State) : State := testCmd (testWord v.toNat 3) s
end Sys2Proof.Machine
end

