-- ==== Sys2Proof/Machine/Host.lean ====
section
/-! DEFINITION. The host interface (R30, R412 to R417), host cores (R418 to R426), the event controller (R428 to R432),
start-up (R433 to R437), calibration (R438, R439) and I3C (R440, R441). -/

namespace Sys2Proof.Machine

/-! PCIe (R30, R415, R416) -/

/-- R30: a write of PKG_BAR2_BASE of a port. -/
def bar2BaseWrite (port : Nat) (v : Word) (s : State) : State := s.setFld F.PKG_BAR2_BASE.BASE port (bits v.toNat 47 36)

def execBar2BaseWrite (port : Nat) (v : Word) (s : State) : Out := run (.bar2BaseWrite port v) s (bar2BaseWrite port v s)

/-- The MSI-X state of a PF takes its reset value, VF Enable clears, and the basins of the port close (R199, R416). -/
def State.pfReset (s : State) (port : Nat) : State :=
  let s := ((s.resetReg .MSIX_PF (2 * port)).resetReg .MSIX_PF (2 * port + 1)).resetReg .MSIX_PBA port
  (s.resetReg .CFG_SRIOV port).closePort port fun _ => true

/-- R416: a conventional reset of a port, by PERST_N or hot reset: its configuration space, those of its functions, and the
requests of its link. -/
def pcieConventionalReset (port : Nat) (s : State) : State :=
  let s := ((List.range 255).map (· + 1)).foldl (fun s b => s.vfPcieReset port b) s
  let s := { s with regs := s.regs.filter fun e => !((keyKind e.1 == some RegKind.CFG_ATS) && keyIx e.1 / 256 == port)
                    ats := s.ats.filter fun e => e.1 != port }
  s.pfReset port

def execPcieConventionalReset (port : Nat) (s : State) : Out := run (.pcieConventionalReset port) s (pcieConventionalReset port s)

/-- R416: a Function Level Reset of a PF, which also resets its PKG_BAR2_BASE. -/
def pfFlr (port : Nat) (s : State) : State := ((s.resetReg .CFG_ATS (256 * port)).resetReg .PKG_BAR2_BASE port).pfReset port

def execPfFlr (port : Nat) (s : State) : Out := run (.pfFlr port) s (pfFlr port s)

/-- R415: an ATS invalidation request for `count` pages of a function. -/
def atsInvalidation (port fn page count : Nat) (s : State) : State := { s with ats := s.ats ++ [(port, fn, page, count)] }

def execAtsInvalidation (port fn page count : Nat) (s : State) : Out :=
  run (.atsInvalidation port fn page count) s (atsInvalidation port fn page count s)

/-- R415: the accesses that used the entries of the port's oldest request have completed, and the device completes it. -/
def atsInvalidationDone (port : Nat) (s : State) : State :=
  match s.ats.find? fun e => e.1 == port with
  | some (p, fn, page, n) => { s with ats := s.ats.erase (p, fn, page, n) }.emit (.atsDone p fn page)
  | none => s

def execAtsInvalidationDone (port : Nat) (s : State) : Out := run (.atsInvalidationDone port) s (atsInvalidationDone port s)

/-! Host cores (R418 to R421) -/

/-- A host core issues instructions: it is not halted and its die is in service. -/
def State.hcRuns (s : State) (h : Nat) : Bool := !s.flag F.PKG_HC_CTRLh.HALTED h && !s.dieOut (28 + h / 16)

/-- The owner of a host core. -/
def State.hcBasin (s : State) (h : Nat) : Nat := s.fld F.BSN_HC_OWNERh.BASIN h

/-- A device trap of a host core (R421, Table 14-4). -/
def State.hcTrap (s : State) (h cause tval : Nat) : State :=
  (s.setFld F.HS_TVAL.VALUE h tval).modHc h fun c => { c with trap := some cause, traps := c.traps + 1 }

/-- A host core starts or halts; the two cores of a pair in pair mode go together (R418, R422). A core that is being cleared
for a new owner starts at the end of the clear (R207). -/
def State.hcSet (s : State) (h : Nat) (on : Bool) : State :=
  let p := h / 2
  let pair := s.flag F.PKG_HC_PAIRp.EN p
  let s := (if pair then [2 * p, 2 * p + 1] else [h]).foldl (fun s h =>
    let s := s.setFld F.PKG_HC_CTRLh.RUN h (b2n on)
    s.setFld F.PKG_HC_CTRLh.HALTED h (b2n (!on || s.flag F.BSN_HC_OWNERh.SCRUB h || s.dieOut (28 + h / 16)))) s
  s.when pair fun s => s.setFld F.PKG_HC_PAIRp.STATE p (if on then 1 else 3)

/-- The effect of one write of PKG_HC_CTRLh (Table 14-18). -/
def hcCtrl (h v : Nat) (s : State) : State :=
  let s := s.setFld F.PKG_HC_CTRLh.ENTRY h (bits v 63 32)
  if bit v 0 then (if s.flag F.PKG_HC_CTRLh.RUN h && !s.flag F.PKG_HC_CTRLh.HALTED h then s else s.hcSet h true) else s.hcSet h false

/-- R418: RUN written 1. -/
def hostCoreStart (h : Nat) (v : Word) (s : State) : State := hcCtrl h (putBit v.toNat 0 true) s

def execHostCoreStart (h : Nat) (v : Word) (s : State) : Out := run (.hostCoreStart h v) s (hostCoreStart h v s)

/-- R418: RUN written 0. -/
def hostCoreHalt (h : Nat) (v : Word) (s : State) : State := hcCtrl h (putBit v.toNat 0 false) s

def execHostCoreHalt (h : Nat) (v : Word) (s : State) : Out := run (.hostCoreHalt h v) s (hostCoreHalt h v s)

/-- The effect of a write of HS_TIMECMP (Table 14-2). -/
def State.timecmp (s : State) (h v : Nat) : State :=
  ((s.setFld F.HS_TIMECMP.VALUE h v).hcClear h 4).modHc h fun c => { c with timerOn := true }

/-- R419: a write of HS_TIMECMP clears a pending TIMER. -/
def hcTimecmpWrite (h : Nat) (v : Word) (s : State) : State := if s.hcRuns h then s.timecmp h v.toNat else s

def execHcTimecmpWrite (h : Nat) (v : Word) (s : State) : Out := run (.hcTimecmpWrite h v) s (hcTimecmpWrite h v s)

/-- R420: HS_NOW reaches HS_TIMECMP. -/
def hcTimerExpire (h : Nat) (s : State) : State :=
  if (s.hc h).timerOn && decide (s.fld F.HS_TIMECMP.VALUE h ≤ s.now) then
    (s.modHc h fun c => { c with timerOn := false }).hcAssert h 4
  else s

def execHcTimerExpire (h : Nat) (s : State) : Out := run (.hcTimerExpire h) s (hcTimerExpire h s)

/-- The event sources a host core serves that are asserted and not in service (R427, R428). -/
def State.awaiting (s : State) : List Nat :=
  (s.instances .EVC_SRCn 0).filter fun n => !srvCaldera n && s.flag F.EVC_SRCn.ACTIVE n && !s.flag F.EVC_SRCn.INSVC n

/-- Records in event queue q. -/
def State.evCount (s : State) (q : Nat) : Nat := diff32 (s.fld F.EVC_Qq_TAIL.TAIL q) (s.fld F.EVC_Qq_HEAD.HEAD q)

/-- The condition of a level-held source still holds (Table 14-3; log entry 79). -/
def State.hcHolds (s : State) (h k : Nat) : Bool :=
  match k with
  | 0 => s.fld F.EVC_CTRL.SRVHC == h && !s.awaiting.isEmpty
  | 1 => s.fld F.EVC_CTRL.Q1HC == h && s.evCount 1 != 0
  | 5 => s.flag F.PKG_NETQ_RX.EN (h / 16) && s.fld F.PKG_NETQ_RX.HC (h / 16) == h &&
      s.readNat (s.fld F.PKG_NETQ_RX.BASE (h / 16) * 64) 4 != s.readNat (s.fld F.PKG_NETQ_RX.BASE (h / 16) * 64 + 4) 4
  | _ => false

/-- The effect of a write of HS_IACK (R420). -/
def State.iack (s : State) (h mask : Nat) : State :=
  ((List.range 6).filter (bit mask)).foldl (fun s k =>
    if !bit (s.fld F.HS_IP.VALUE h) k then s.incFld F.PKG_HC_CTRLh.STRAY h
    else if s.hcHolds h k then s
    else s.hcClear h k) s

/-- R420: a core acknowledges interrupt sources. -/
def hcInterruptAck (h : Nat) (mask : Word) (s : State) : State := if s.hcRuns h then s.iack h mask.toNat else s

def execHcInterruptAck (h : Nat) (mask : Word) (s : State) : Out := run (.hcInterruptAck h mask) s (hcInterruptAck h mask s)

/-- A read of HS_RAND (Table 14-2): in a replay the value a record gives (Table 11-4), else a fresh one, which Obsidian
records. -/
def State.hsRand (s : State) (h : Nat) : State :=
  match (if s.noHostRead then s.obsd.hrand.find? fun e => e.1 == h else none) with
  | some e => { s with obsd := { s.obsd with hrand := s.obsd.hrand.erase e } }.answer (bytesOf 8 e.2)
  | none =>
    let v := Config.random64 s.free % 2 ^ 64
    ({ s with free := s.free + 1 }.obs 9 h 0 v).answer (bytesOf 8 v)

/-- R419. -/
def hsRandRead (h : Nat) (s : State) : State := if s.hcRuns h then s.hsRand h else s

def execHsRandRead (h : Nat) (s : State) : Out := run (.hsRandRead h) s (hsRandRead h s)

/-- RUNG, EXT and the captured fields of a source, as bits [63:0] of its record with PHASE 0 (Table 14-6). -/
def State.evWord (s : State) (n rung phase : Nat) : Nat :=
  let c := s.evCap n
  let ext := c.ext || decide (1 < s.fld F.EVC_SRCn.COUNT n)
  n % 2 ^ 12 + rung % 8 * 2 ^ 12 + b2n ext * 2 ^ 15 + c.basin % 2 ^ 8 * 2 ^ 16 + c.gen % 2 ^ 12 * 2 ^ 24 + c.mech % 2 ^ 8 * 2 ^ 36 +
    c.level % 4 * 2 ^ 44 + b2n c.jrnl * 2 ^ 46 + phase % 2 * 2 ^ 47 + c.data % 2 ^ 16 * 2 ^ 48

/-- A read of HS_EVSRV by the server (Table 14-2): the lowest source that awaits service is taken into service, and its
fields stand in HS_EVDATA. -/
def State.evTake (s : State) (h : Nat) : State :=
  if s.hcBasin h ≠ 0 then s.hcTrap h 0x33 0xC0C
  else
    match (if s.fld F.EVC_CTRL.SRVHC = h then s.awaiting else []) with
    | [] => ((s.setFld F.HS_EVSRV.VALID h 0).setFld F.HS_EVSRV.SOURCE h 0).answer (bytesOf 8 0)
    | a :: l =>
      let n := l.foldl min a
      let s := ((s.setFld F.EVC_SRCn.INSVC n 1).setFld F.HS_EVSRV.VALID h 1).setFld F.HS_EVSRV.SOURCE h n
      (s.setFld F.HS_EVDATA.VALUE h (s.evWord n (s.fld F.EVC_SRCn.RUNG n) 0)).answer (bytesOf 8 (n + 2 ^ 31))

/-- R419, R428. -/
def eventServiceTake (h : Nat) (s : State) : State := if s.hcRuns h then s.evTake h else s

def execEventServiceTake (h : Nat) (s : State) : Out := run (.eventServiceTake h) s (eventServiceTake h s)

/-- A write of HS_D2H (R426): flag k of the owner counts, and while EN is 1 the flag word goes to the host, then the vector.
A word whose address does not lie in the window is not written (log entry 83). -/
def State.d2h (s : State) (h k : Nat) : State :=
  let b := s.hcBasin h
  let f := s.fld F.PKG_D2H_WORDb.FLAGS b
  let n := bits f (8 * k + 7) (8 * k)
  let w := f - n * 2 ^ (8 * k) + (n + 1) % 256 * 2 ^ (8 * k)
  let s := s.setFld F.PKG_D2H_WORDb.FLAGS b w
  let a := s.fld F.PKG_D2H_ADDRb.ADDR b * 8
  let inHost := match place a with
    | .host _ => b == 0 || s.inWindow b a
    | _ => false
  if !s.flag F.PKG_D2H_ADDRb.EN b || !inHost then s
  else
    let s := s.put b a (bytesOf 8 w)
    if b = 0 then s.msixPf (s.portOf 0) 1 else s.msixVf b 3

/-- R426. -/
def d2hFlagRaise (h k : Nat) (s : State) : State := if s.hcRuns h then s.d2h h k else s

def execD2hFlagRaise (h k : Nat) (s : State) : Out := run (.d2hFlagRaise h k) s (d2hFlagRaise h k s)

/-- R425: a write of PKG_HC_DBELLh from the register region. -/
def hcDoorbell (h : Nat) (v : BitVec 32) (s : State) : State :=
  (s.setFld F.PKG_HC_DBELLh.BITS h (s.fld F.PKG_HC_DBELLh.BITS h ||| v.toNat)).hcAssert h 2

def execHcDoorbell (h : Nat) (v : BitVec 32) (s : State) : Out := run (.hcDoorbell h v) s (hcDoorbell h v s)

/-! Pair mode (R422, R423) -/

/-- The effect of one write of PKG_HC_PAIRp (Table 14-19): EN 1 is accepted while both cores are halted and owned by basin 0;
a pair in pair mode and halted stands by. -/
def pairEnable (p : Nat) (v : BitVec 32) (s : State) : State :=
  let s := (s.setFld F.PKG_HC_PAIRp.STANDBY p (bits v.toNat 5 1)).setFld F.PKG_HC_PAIRp.SBY_EN p (bits v.toNat 6 6)
  let ok := [2 * p, 2 * p + 1].all fun h => s.flag F.PKG_HC_CTRLh.HALTED h && s.hcBasin h == 0
  if !bit v.toNat 0 then (s.setFld F.PKG_HC_PAIRp.EN p 0).setFld F.PKG_HC_PAIRp.STATE p 0
  else if s.flag F.PKG_HC_PAIRp.EN p || !ok then s
  else (s.setFld F.PKG_HC_PAIRp.EN p 1).setFld F.PKG_HC_PAIRp.STATE p 3

def execPairEnable (p : Nat) (v : BitVec 32) (s : State) : Out := run (.pairEnable p v) s (pairEnable p v s)

/-- The standby pair of a failed pair starts at its entry address with trap 0x32, and takes over the event-server and Q1 roles
(R423, R432). -/
def State.standby (s : State) (p : Nat) : State :=
  let q := s.fld F.PKG_HC_PAIRp.STANDBY p
  if !s.flag F.PKG_HC_PAIRp.SBY_EN p || !s.flag F.PKG_HC_PAIRp.EN q || !s.flag F.PKG_HC_CTRLh.HALTED (2 * q) || q = p then s
  else
    let s := (s.hcSet (2 * q) true).hcTrap (2 * q) 0x32 p
    let s := if s.fld F.EVC_CTRL.SRVHC / 2 = p then
        let s := (s.instances .EVC_SRCn 1).foldl (fun s n => if srvCaldera n then s else s.setFld F.EVC_SRCn.INSVC n 0) s
        let s := s.setFld F.EVC_CTRL.SRVHC 0 (2 * q)
        s.when (!s.awaiting.isEmpty) fun s => s.hcAssert (2 * q) 0
      else s
    if s.fld F.EVC_CTRL.Q1HC / 2 = p then
      let s := s.setFld F.EVC_CTRL.Q1HC 0 (2 * q)
      s.when (s.evCount 1 != 0) fun s => s.hcAssert (2 * q) 1
    else s

/-- A mismatch of pair p (R367, R423): both cores halt, the region of their edge die detects, and the standby starts. A second
mismatch within a second, on the pair or its standby, escalates. -/
def State.pairFail (s : State) (p : Nat) (inj : Bool) : State :=
  let d := 28 + p / 8
  let again := !inj && (s.flt.misses.any fun m => m.mech == 11 && decide (s.tmb.clk < m.clk + oneSecond) &&
    (m.src == p || (s.flag F.PKG_HC_PAIRp.SBY_EN m.src && s.fld F.PKG_HC_PAIRp.STANDBY m.src == p)))
  let s := [2 * p, 2 * p + 1].foldl (fun s h => State.setFld s F.PKG_HC_CTRLh.HALTED h 1) s
  let s := s.setFld F.PKG_HC_PAIRp.STATE p 2
  let s := (s.when (!inj) fun s => s.note 11 p).detect d 11 2 (unitSrc (.region d)) 0 0 inj
  let s := s.when again fun s => s.escalate d (unitSrc (.region d)) 11
  s.standby p

/-- R423. -/
def pairMismatch (p : Nat) (s : State) : State :=
  if s.flag F.PKG_HC_PAIRp.EN p && s.hcRuns (2 * p) then s.pairFail p false else s

def execPairMismatch (p : Nat) (s : State) : Out := run (.pairMismatch p) s (pairMismatch p s)

/-! The event controller (R428 to R432) -/

/-- Ring size and record address of event queue q (R430). -/
def State.evSize (s : State) (q : Nat) : Nat := 2 ^ s.fld F.EVC_Qq_BASE.LOG2 q
def State.evAddr (s : State) (q i : Nat) : Nat :=
  s.fld F.EVC_Qq_BASE.BASE q * 16 / (16 * s.evSize q) * (16 * s.evSize q) + i % s.evSize q * 16

/-- A queue's ring lies in host memory or in device memory of basin 0 (R430, R431). -/
def State.evRingOk (s : State) (q : Nat) : Bool :=
  let a := s.evAddr q (s.fld F.EVC_Qq_TAIL.TAIL q)
  match place a with
  | .host _ => true
  | .regs _ => false
  | _ => (s.badAddr { basin := 0, die := 28 } true a 16).isNone

/-- Queues a source is routed to (Table 14-28). -/
def State.evRoutes (s : State) (n : Nat) : List Nat := (List.range 2).filter fun q => bit (s.fld F.EVC_SRCn.ROUTE n) q

/-- A queue is not empty: its host is told (R430). -/
def State.evSignal (s : State) (q : Nat) (first : Bool) : State :=
  if q = 0 then s.when first fun s => s.msixPf (s.fld F.EVC_CTRL.PORT) 0
  else s.hcAssert (s.fld F.EVC_CTRL.Q1HC) 1

/-- The records of a source appended to queue q (R429, R430, Tables 14-6 and 14-7). -/
def State.evAppend (s : State) (n rung time q : Nat) : State :=
  let c := s.evCap n
  let cnt := s.fld F.EVC_SRCn.COUNT n
  let t := s.fld F.EVC_Qq_TAIL.TAIL q
  let ph := fun i => i / s.evSize q % 2
  let ext := c.ext || decide (1 < cnt)
  let empty := s.evCount q == 0
  let s1 := s.put 0 (s.evAddr q t) (bytesOf 8 (s.evWord n rung (ph t)) ++ bytesOf 8 time)
  let s1 := s1.when ext fun u =>
    u.put 0 (s.evAddr q (t + 1)) (bytesOf 8 (min cnt 65535 + c.xdata1 % 2 ^ 31 * 2 ^ 16 + ph (t + 1) * 2 ^ 47) ++ bytesOf 8 c.xdata)
  (s1.setFld F.EVC_Qq_TAIL.TAIL q ((t + 1 + b2n ext) % 2 ^ 32)).evSignal q empty

/-- R428, R429, R431, R462: a write of EVC_CPLk. The host-core server completes a source it has taken into service; Caldera takes
its sources itself; a refused source stays in service (R431). -/
def eventCompletion (k : Nat) (v : BitVec 32) (hostRefuses : Bool) (s : State) : State :=
  let n := bits v.toNat 11 0
  let mine := if k = 0 then srvCaldera n else !srvCaldera n && s.flag F.EVC_SRCn.INSVC n
  if !s.flag F.EVC_SRCn.ACTIVE n || !mine then s.incFld F.EVC_STRAY_CNT.STRAY
  else if !s.flag F.EVC_CTRL.EN then s.setFld F.EVC_SRCn.INSVC n 1
  else
    let c := s.evCap n
    let kept := (s.setFld F.EVC_SRCn.INSVC n 1).incFld F.EVC_STATUS.QFULL_CNT
    let need := 1 + b2n (c.ext || decide (1 < s.fld F.EVC_SRCn.COUNT n))
    let qs := s.evRoutes n
    let werr := fun q => if q = 0 then F.EVC_STATUS.WERR0 else F.EVC_STATUS.WERR1
    if qs.any fun q => s.flag (werr q) || decide (s.evSize q < s.evCount q + need) then kept
    else if c.gen ≠ s.gen c.basin then (s.release n).incFld F.BSN_STALEb.EVENT c.basin
    else
      let bad := qs.filter fun q => !s.evRingOk q || (hostRefuses && decide (0x800000000000 ≤ s.evAddr q 0))
      if !bad.isEmpty then
        bad.foldl (fun s q =>
          let s := s.setFld (werr q) 0 1
          s.when (q == 0) fun s => s.msixPf (s.fld F.EVC_CTRL.PORT) 0) kept
      else
        let rung := max (bits v.toNat 14 12) (s.fld F.EVC_SRCn.RUNG n)
        let time := c.time.getD (SMap.get 0 s.cplTime k)
        let s := qs.foldl (fun s q => s.evAppend n rung time q) s
        (s.release n).setFld F.FLT_STATUS.RUNG 0 (max (s.fld F.FLT_STATUS.RUNG) rung)

def execEventCompletion (k : Nat) (v : BitVec 32) (hostRefuses : Bool) (s : State) : Out :=
  run (.eventCompletion k v hostRefuses) s (eventCompletion k v hostRefuses s)

/-- R430, R432: a write of EVC_Qq_HEAD. -/
def eventQueueHeadWrite (q : Nat) (v : BitVec 32) (s : State) : State :=
  let h := s.fld F.EVC_Qq_HEAD.HEAD q
  if diff32 (s.fld F.EVC_Qq_TAIL.TAIL q) h < diff32 v.toNat h then s.setFld F.EVC_STATUS.HEAD_ERR 0 1
  else
    let s := s.setFld F.EVC_Qq_HEAD.HEAD q v.toNat
    if s.evCount q ≠ 0 then s.evSignal q true
    else s.when (q == 1) fun s => s.hcClear (s.fld F.EVC_CTRL.Q1HC) 1

def execEventQueueHeadWrite (q : Nat) (v : BitVec 32) (s : State) : Out := run (.eventQueueHeadWrite q v) s (eventQueueHeadWrite q v s)

/-- The effect of one write of EVC_CTRL (Table 14-24): a new server or a new core of queue 1 is told what waits for it. -/
def evcCtrl (v : Nat) (s : State) : State :=
  let oldQ := s.fld F.EVC_CTRL.Q1HC
  let s := ((s.setFld F.EVC_CTRL.EN 0 (bits v 0 0)).setFld F.EVC_CTRL.PORT 0 (bits v 1 1)).setFld F.EVC_CTRL.SRVHC 0 (bits v 7 2)
  let s := s.setFld F.EVC_CTRL.Q1HC 0 (bits v 13 8)
  let s := s.when (!bit v 0) fun s => (s.setFld F.EVC_STATUS.WERR0 0 0).setFld F.EVC_STATUS.WERR1 0 0
  let s := s.when (!s.awaiting.isEmpty) fun s => s.hcAssert (bits v 7 2) 0
  let s := s.when (oldQ != bits v 13 8) fun s => s.hcClear oldQ 1
  s.when (s.evCount 1 != 0) fun s => s.hcAssert (bits v 13 8) 1

/-- R431: EN written 1. -/
def evcEnable (v : BitVec 32) (s : State) : State := evcCtrl (putBit v.toNat 0 true) s
def execEvcEnable (v : BitVec 32) (s : State) : Out := run (.evcEnable v) s (evcEnable v s)

/-- R431: EN written 0. -/
def evcDisable (v : BitVec 32) (s : State) : State := evcCtrl (putBit v.toNat 0 false) s
def execEvcDisable (v : BitVec 32) (s : State) : Out := run (.evcDisable v) s (evcDisable v s)

/-! Start-up (R433 to R437) -/

/-- Pair 0 starts at the entry of the image in the slot in use (Table 14-9, stage 5; R434): ENTRY of HC0 and HC1 names its page
in matrix SRAM of MD0. -/
def State.fwStart (s : State) : State :=
  let slot := s.fld F.PKG_BOOT.SLOT
  let e := (granBase 0 (32 * slot) + SMap.get 0 s.pwr.entry slot) / 4096
  let s := (s.setFld F.PKG_HC_CTRLh.ENTRY 0 e).setFld F.PKG_HC_CTRLh.ENTRY 1 e
  let s := (s.hcSet 0 true).setFld F.PKG_BOOT.STAGE 0 5
  s.modPwr fun p => { p with entryClk := some s.tmb.clk }

/-- R433, R435: stage 2 ends: key slot 0 of every enabled store die is generated where it is empty (R166). After a warm reset
pair 0 starts from the staged slot if one is staged; else the device waits for a firmware image. -/
def meminitEnd (s : State) : State :=
  if s.fld F.PKG_BOOT.STAGE ≠ 2 then s
  else
    let s := (s.storeDies.filter fun n => !s.keyFull n 0).foldl (fun s n => s.drawKey n 0) s
    if s.pwr.warm then
      let s := if s.flag F.PKG_FW_CMD.STAGED then
          (s.setFld F.PKG_BOOT.SLOT 0 (1 - s.fld F.PKG_BOOT.SLOT)).setFld F.PKG_FW_CMD.STAGED 0 0
        else s
      s.fwStart
    else (s.setFld F.PKG_BOOT.STAGE 0 3).modFlt fun h => { h with presenting := true }

def execMeminitEnd (s : State) : Out := run .meminitEnd s (meminitEnd s)

/-- The effect of one write of PKG_FW_CMD (Table 14-17). -/
def fwCmd (v : Nat) (s : State) : State :=
  let s := (s.setFld F.PKG_FW_CMD.LEN 0 (bits v 25 0)).setFld F.PKG_FW_CMD.OP 0 (bits v 26 26)
  if !bit v 27 || s.flag F.PKG_FW_CMD.BUSY then s
  else
    let stage := s.fld F.PKG_BOOT.STAGE
    if stage ≠ (if bit v 26 then 6 else 3) then s.setFld F.PKG_FW_CMD.ERR 0 5
    else
      let s := (s.setFld F.PKG_FW_CMD.ERR 0 0).setFld F.PKG_FW_CMD.BUSY 0 1
      s.when (stage == 3) fun s => s.setFld F.PKG_BOOT.STAGE 0 4

/-- A write of PKG_FW_CMD with GO and the OP its row names. -/
def fwWord (v op : Nat) : Nat := v % 2 ^ 26 + op * 2 ^ 26 + 2 ^ 27

/-- R434: GO with OP 0. -/
def fwLoad (v : Word) (s : State) : State := fwCmd (fwWord v.toNat 0) s
def execFwLoad (v : Word) (s : State) : Out := run (.fwLoad v) s (fwLoad v s)

/-- R435: GO with OP STAGE. -/
def fwStage (v : Word) (s : State) : State := fwCmd (fwWord v.toNat 1) s
def execFwStage (v : Word) (s : State) : Out := run (.fwStage v) s (fwStage v s)

/-- ERR of a firmware image as read from host memory (R434, Table 14-17): 2 header, 1 signature, 3 release. -/
def fwErr (image : List Byte) (len : Nat) : Nat :=
  let field := fun i n => natOf (slice image i n)
  if field 0 4 ≠ 0x4D574657 ∨ field 4 2 ≠ 1 ∨ 3 < field 6 1 ∨ field 7 1 < 2 ∨ 3 < field 7 1 ∨ field 8 4 < 128 ∨
      33554432 < field 8 4 ∨ field 8 4 % 64 ≠ 0 ∨ field 8 4 ≠ len ∨ image.length ≠ len then 2
  else if !Config.ed25519Verify (Config.fusedKey false (field 6 1)) (image.take 32 ++ image.drop 96) (slice image 32 64) then 1
  else if field 16 4 < Config.minRelease then 3
  else 0

/-- R434, R435: the image has been read, `readOk` where the host answered, and verified. An accepted one is copied into slot A at
a load, and into the slot not in use at a staging. -/
def fwVerifyEnd (image : List Byte) (readOk : Bool) (s : State) : State :=
  if !s.flag F.PKG_FW_CMD.BUSY then s
  else
    let s := s.setFld F.PKG_FW_CMD.BUSY 0 0
    let load := s.fld F.PKG_BOOT.STAGE == 4
    let err := if readOk then fwErr image (s.fld F.PKG_FW_CMD.LEN) else 4
    if err ≠ 0 then
      (s.setFld F.PKG_FW_CMD.ERR 0 err).when load fun s => s.setFld F.PKG_BOOT.STAGE 0 3
    else
      let slot := if load then s.fld F.PKG_BOOT.SLOT else 1 - s.fld F.PKG_BOOT.SLOT
      let s := s.putRam 0 (granBase 0 (32 * slot)) image
      let s := s.modPwr fun p => { p with entry := SMap.set 0 p.entry slot (natOf (slice image 12 4)) }
      if load then s.fwStart else s.setFld F.PKG_FW_CMD.STAGED 0 1

def execFwVerifyEnd (image : List Byte) (readOk : Bool) (s : State) : Out := run (.fwVerifyEnd image readOk) s (fwVerifyEnd image readOk s)

/-- R433, R436: the firmware writes READY at stage 5. -/
def fwReady (s : State) : State :=
  if s.fld F.PKG_BOOT.STAGE ≠ 5 then s
  else (s.setFld F.PKG_BOOT.STAGE 0 6).modPwr fun p => { p with warm := false, entryClk := none }

def execFwReady (s : State) : Out := run .fwReady s (fwReady s)

/-- R437: the firmware has not written READY 60 ms after its entry. -/
def fwReadyTimeout (s : State) : State :=
  match s.pwr.entryClk with
  | some t =>
    if s.fld F.PKG_BOOT.STAGE = 5 ∧ t + 9375000 ≤ s.tmb.clk ∧ !s.flag F.PKG_BOOT.ERR then
      (s.setFld F.PKG_BOOT.ERR 0 1).setFld F.FLT_STATUS.RUNG 0 (max (s.fld F.FLT_STATUS.RUNG) 3)
    else s
  | none => s

def execFwReadyTimeout (s : State) : Out := run .fwReadyTimeout s (fwReadyTimeout s)

/-! Calibration (R438, R439) -/

/-- User range and effective range of item i (Table 14-12). -/
def calRange (i : Nat) : Option (Int × Int × Int) :=
  if i < 64 then some (128, -512, 512)
  else if i < 128 then some (80, -400, 400)
  else if i < 192 then some (40, 0, 2000)
  else if i < 194 then some (2000, -5000, 5000)
  else none

/-- R439: a write of USER: stored as the nearest limit of its range, and the sum saturated; either sets CLAMP. A reserved item has
no quantity and keeps nothing. -/
def calUserWrite (i : Nat) (v : Word) (s : State) : State :=
  let s := s.when (bit v.toNat 48) fun s => s.setFld F.CAL_ITEMi.CLAMP i 0
  match calRange i with
  | none => s
  | some (r, lo, hi) =>
    let x := sext 16 (bits v.toNat 31 16)
    let u := clampInt (-r) r x
    let sum := sext 16 (s.fld F.CAL_ITEMi.FACTORY i) + u
    let e := clampInt lo hi sum
    let s := (s.setFld F.CAL_ITEMi.USER i (wrap 16 u)).setFld F.CAL_ITEMi.EFFECTIVE i (wrap 16 e)
    s.when (x != u || sum != e) fun s => s.setFld F.CAL_ITEMi.CLAMP i 1

def execCalUserWrite (i : Nat) (v : Word) (s : State) : Out := run (.calUserWrite i v) s (calUserWrite i v s)

/-! I3C (R440, R441) -/

/-- R440: a common command code. The provisional ID holds 0x1F5D above bits [32:0] of PKG_SERIAL; BCR, DCR and the status word
hold values the spec does not give, and are free. -/
def i3cCcc (c : Ccc) (s : State) : State :=
  if !s.pwr.aon then s
  else match c with
    | .entdaa a => s.modPwr fun p => { p with i3cAddr := if p.i3cAddr = 0 then a % 128 else p.i3cAddr }
    | .setdasa a => s.modPwr fun p => { p with i3cAddr := a % 128 }
    | .rstdaa => s.modPwr fun p => { p with i3cAddr := 0 }
    | .getpid => s.answer ((bytesOf 6 (s.fld F.PKG_SERIAL.SERIAL % 2 ^ 33 + 0x1F5D * 2 ^ 33)).reverse)
    | .getbcr => let (d, s) := s.freshBytes 1; s.answer d
    | .getdcr => let (d, s) := s.freshBytes 1; s.answer d
    | .getstatus => let (d, s) := s.freshBytes 2; s.answer d
    | .enec m => s.when (bit m 0) fun s => s.modPwr fun p => { p with i3cIbi := true }
    | .disec m => s.when (bit m 0) fun s => s.modPwr fun p => { p with i3cIbi := false }
    | .rstact a => s.modPwr fun p => { p with i3cRst := a }
    | .other _ => s

def execI3cCcc (c : Ccc) (s : State) : Out := run (.i3cCcc c) s (i3cCcc c s)

/-- Byte i of the index map (Table 14-13). -/
def State.i3cByte (s : State) (i : Nat) : Byte :=
  let n := fun v j => BitVec.ofNat 8 (v / 2 ^ (8 * j))
  if i < 0x08 then n (s.regBits .PKG_ID 0) i
  else if i < 0x10 then n (s.fld F.PKG_SERIAL.SERIAL) (i - 8)
  else if i = 0x10 then n (s.fld F.FLT_ALERT.ALARM) 0
  else if i = 0x11 then n (s.fld F.FLT_STATUS.RUNG) 0
  else if i = 0x12 then n (s.fld F.PKG_BOOT.STAGE) 0
  else if i = 0x13 then n (s.fld F.PKG_RESET.PCYC_REQ) 0
  else if 0x20 ≤ i ∧ i < 0x60 then n (s.fld F.PWR_DIEd.TJ ((i - 0x20) / 2)) (i % 2)
  else if 0x60 ≤ i ∧ i < 0x62 then n (s.fld F.PWR_STATUS.PKG_W) (i - 0x60)
  else 0#8

/-- R441: a private write: the index, and further bytes written from it on. -/
def i3cPrivateWrite (bytes : List Byte) (s : State) : State :=
  if !s.pwr.aon then s
  else match bytes with
    | [] => s
    | i :: l =>
      let s := s.modPwr fun p => { p with i3cIdx := i.toNat }
      l.zipIdx.foldl (fun s (b, j) =>
        let k := i.toNat + j
        if k = 0x10 then alertClear (b.setWidth 32) s
        else if k = 0x13 ∧ bit b.toNat 0 then s.setFld F.PKG_RESET.PCYC_REQ 0 0
        else s) s

def execI3cPrivateWrite (bytes : List Byte) (s : State) : Out := run (.i3cPrivateWrite bytes) s (i3cPrivateWrite bytes s)

/-- R441: a private read from the index onward. -/
def i3cPrivateRead (len : Nat) (s : State) : State :=
  if !s.pwr.aon then s else s.answer ((List.range len).map fun j => s.i3cByte (s.pwr.i3cIdx + j))

def execI3cPrivateRead (len : Nat) (s : State) : Out := run (.i3cPrivateRead len) s (i3cPrivateRead len s)

end Sys2Proof.Machine
end

