-- ==== Sys2Proof/Machine/Power.lean ====
section
/-! DEFINITION. Power, lending and temperature (R449 to R455), and the injection of faults (R380). -/

namespace Sys2Proof.Machine

/-! Throttle steps (R453, R454) -/

/-- Bit d of THR_MASK: die d is above step 0, or at its throttle action. -/
def State.thrMask (s : State) (d : Nat) : State :=
  let on := if d < 12 then s.fld F.PWR_DIEd.STEP d != 0 else s.hot d
  s.setFld F.PWR_STATUS.THR_MASK 0 (putBit (s.fld F.PWR_STATUS.THR_MASK) d on)

/-- A core of matrix die n carries radio work (R454). -/
def State.radioDie (s : State) (n : Nat) : Bool :=
  s.flag F.MXC_TPROG_BASE.RADIO_CORE (2 * n) || s.flag F.MXC_TPROG_BASE.RADIO_CORE (2 * n + 1)

/-- Array clock of a step (Table 15-6). -/
def stepMhz (step : Nat) : Nat := 1050 - 105 * min step 4

/-- CLK_MHZ of a matrix die from its step; a die with radio keeps its clock (R454). -/
def State.setClk (s : State) (n : Nat) : State :=
  s.setFld F.PWR_DIEd.CLK_MHZ n (if s.radioDie n then 1050 else stepMhz (s.fld F.PWR_DIEd.STEP n))

/-- A matrix die takes a step. -/
def State.setStep (s : State) (n step : Nat) : State := (((s.setFld F.PWR_DIEd.STEP n step).setClk n).thrMask n).mxSet

/-- A matrix die carries tenant work: a tenant command is held or waits for re-run on one of its cores (R449). -/
def State.tenantDie (s : State) (n : Nat) : Bool :=
  [2 * n, 2 * n + 1].any fun g => !(s.tenants g).isEmpty || (s.core g).rerun.any fun c => c.q % 8 != 0

/-- R449, R341: a window of 1 ms ends with the package at `watts`. -/
def pkgPowerWindow (watts : Nat) (s : State) : State :=
  if s.tmb.clk < s.pwr.windowClk + 156250 then s
  else
  let s := s.modPwr fun p => { p with windowClk := s.tmb.clk }
  let above := decide (s.fld F.PWR_PKG_LIMIT.LIMIT < watts)
  let s := (s.setFld F.PWR_STATUS.PKG_W 0 (min watts 4095)).setFld F.PWR_STATUS.LIMITING 0 (b2n above)
  s.when above fun s => s.detLoss 3

def execPkgPowerWindow (watts : Nat) (s : State) : Out := run (.pkgPowerWindow watts) s (pkgPowerWindow watts s)

/-- Budgets are lent: outside deterministic mode, while EN is 1 (R450, R451). -/
def State.lending (s : State) : Bool := s.flag F.PWR_LEND.EN && s.fld F.PWR_DET_CTRL.STATE != 2

/-- A matrix die exceeds its limit of 96 W and its share of the lent power (R450, R453). -/
def State.overDie (s : State) (n : Nat) : Bool :=
  let w := SMap.get 0 s.pwr.dieW n
  let lent := if s.lending then 12 * (s.pwr.gated.filter (· < 96)).length else 0
  let takers := ((List.range 12).filter fun m => decide (96 ≤ SMap.get 0 s.pwr.dieW m)).length
  decide (96 < w) && (decide (24 < w - 96) || decide (lent < (w - 96) * takers))

/-- The first instant of a tick's frame. -/
def State.atTick (s : State) : Bool := s.flag F.GEY_CTRL.TICKING && s.frameCyc == 0

/-- R453, R341: at a tick a matrix die takes one step down where a trigger holds: its junction, its power over the 100 µs before,
the package limit, or the current limit of VDD_MX. -/
def throttleStep (n watts : Nat) (mxLimit : Bool) (s : State) : State :=
  if !s.atTick || SMap.get 0 s.pwr.stepTick n == s.tickNo + 1 || s.dieOut n then s
  else
    let s := s.modPwr fun p => { p with dieW := SMap.set 0 p.dieW n watts, stepTick := SMap.set 0 p.stepTick n (s.tickNo + 1) }
    let power := s.overDie n
    let pkg := s.flag F.PWR_STATUS.LIMITING && s.tenantDie n
    if !(s.hot n || mxLimit || power || pkg) then s
    else
      let s := s.detLoss (if s.hot n then 1 else if mxLimit then 2 else 3)
      let s := s.setStep n (min (s.fld F.PWR_DIEd.STEP n + 1) 4)
      s.modPwr fun p => { p with trigClk := SMap.set 0 p.trigClk n s.tmb.clk }

def execThrottleStep (n watts : Nat) (mxLimit : Bool) (s : State) : Out :=
  run (.throttleStep n watts mxLimit) s (throttleStep n watts mxLimit s)

/-- R453: a matrix die steps up after 10 ms without a trigger and with its junction at least 3 °C below the throttle limit. -/
def throttleStepUp (n : Nat) (s : State) : State :=
  if !s.atTick || s.fld F.PWR_DIEd.STEP n == 0 || s.flag F.PWR_DIEd.TFAULT n || decide ((tjLimits n).1 - 48 < s.tj n) ||
      decide (s.tmb.clk < SMap.get 0 s.pwr.trigClk n + 1562500) then s
  else
    (s.setStep n (s.fld F.PWR_DIEd.STEP n - 1)).modPwr fun p => { p with trigClk := SMap.set 0 p.trigClk n s.tmb.clk }

def execThrottleStepUp (n : Nat) (s : State) : Out := run (.throttleStepUp n) s (throttleStepUp n s)

/-! Lending (R450) -/

/-- A unit is clock-gated. -/
def State.gateUnit (s : State) (i : Nat) : State := s.modPwr fun p => { p with gated := p.gated.filter (· != i) ++ [i] }

/-- R450: an array has issued no pass for THRESH cycles. -/
def arrayClockGate (g a : Nat) (s : State) : State :=
  let m := s.core g
  if s.lending && !s.arrayOut g a && (SMap.get [] m.passes a).isEmpty &&
      decide (SMap.get 0 m.idleT a + s.fld F.PWR_LEND.THRESH * 625 ≤ s.gey.arr) then s.gateUnit (4 * g + a)
  else s

def execArrayClockGate (g a : Nat) (s : State) : Out := run (.arrayClockGate g a) s (arrayClockGate g a s)

/-- R450: a tenant-lane ETV-D core has held no task for THRESH DSP cycles. -/
def dspCoreClockGate (d : Nat) (s : State) : State :=
  let c := s.dsp d
  if s.lending && s.dspRuns d && c.task.isNone && !s.flag F.RDP_CORE_STATUS.LANE d &&
      decide (s.fld F.PWR_LEND.THRESH ≤ dspCycles c.freeClk s.tmb.clk) then s.gateUnit (1024 + d)
  else s

def execDspCoreClockGate (d : Nat) (s : State) : Out := run (.dspCoreClockGate d) s (dspCoreClockGate d s)

/-! Temperature (R452, R455) -/

/-- R438, R452: a sample of the two sensors of die d, in 1/16 °C, corrected by their calibration items. -/
def thermalSensorSample (d : Nat) (raw0 raw1 : Int) (s : State) : State :=
  if !s.dieEn d then s
  else
    let cal := fun i => sext 16 (s.fld F.CAL_ITEMi.EFFECTIVE i)
    let t := clampInt (-32768) 32767 (max (raw0 + cal (2 * d)) (raw1 + cal (2 * d + 1)))
    let s := (s.setFld F.PWR_DIEd.TJ d (wrap 16 t)).when (decide (d < 12)) State.mxSet
    let s := s.when (decide (t < (tjLimits d).2.1)) fun s => s.setFld F.PWR_DIEd.TFAULT d 0
    if d < 12 then
      let s := s.when (decide ((tjLimits d).1 - 48 < t)) fun s => s.modPwr fun p => { p with trigClk := SMap.set 0 p.trigClk d s.tmb.clk }
      s.when (s.hot d) fun s => s.detLoss 1
    else s.thrMask d

def execThermalSensorSample (d : Nat) (raw0 raw1 : Int) (s : State) : Out :=
  run (.thermalSensorSample d raw0 raw1) s (thermalSensorSample d raw0 raw1 s)

/-- R455: a junction has reached its operating limit. -/
def thermalFault (d : Nat) (s : State) : State :=
  if !s.dieEn d || s.flag F.PWR_DIEd.TFAULT d || decide (s.tj d < (tjLimits d).2.1) then s
  else
    let s := s.setFld F.PWR_DIEd.TFAULT d 1
    let s := if d < 12 then s.setStep d 4 else s
    let s := (s.journal 19 3 (unitSrc (.region d)) d).raise 0x007 { mech := 19, level := 3, data := d } 4
    s.when (d == 28 || d == 29) fun s => s.backupAlarm 2

def execThermalFault (d : Nat) (s : State) : Out := run (.thermalFault d) s (thermalFault d s)

/-- R455, R391, R460: a junction has reached its critical limit: the die's clocks stop, and its work is lost. While Caldera is
stopped, the fences wait in the region controller (R26). -/
def criticalTemperature (d : Nat) (s : State) : State :=
  if !s.dieEn d || s.dieOff d || s.flag F.PWR_DIEd.CRIT d || decide (s.tj d < (tjLimits d).2.2) then s
  else
    let s := (s.setFld F.PWR_DIEd.CRIT d 1).setFld F.FLT_STATUS.ALERT 0 1
    let s := (s.journal 19 3 (unitSrc (.region d)) d).raise 0x007 { mech := 19, level := 3, data := d } 4
    let top := decide (topDie d = d)
    let s := if top then s.dropInFlight d [] else s
    let fences := ⟨.region d, 3, false, false⟩ :: (if top then [⟨.router d, 3, false, false⟩] else [])
    let s := if s.flt.caldera.isSome then s.modFlt fun h => { h with waiting := h.waiting ++ fences }
      else (s.modFlt fun h => { h with fences := h.fences ++ fences, routeChg := h.routeChg || top }).setFen d
    s.loseDie d true

/-! Injection (R380) -/

/-- A detection by mechanism `mech` on unit u of die d, handled as a real one: its action at once, no threshold, no fence, nothing
permanent. Tile mechanisms that correct what they find leave the count and the last fault; an unsuitable unit leaves nothing
(log entry 85). -/
def State.injectNow (s : State) (d mech : Nat) (u : FUnit) : State :=
  let src := unitSrc u
  let blk := unitSrc (.region d)
  let tile := fun (s : State) => (s.countAction d 0).lastFault d mech src 0 true
  let core := match u with
    | .block _ k => some (2 * d + k)
    | .tile _ k _ => some (2 * d + k)
    | _ => none
  if d < 12 ∧ (mech = 2 ∨ mech = 3) then
    match core with
    | some g =>
      if s.coreOut g || decide (g / 2 ≠ d) then s
      else
        let s := if mech = 2 then s.killRerun g (s.core g).last else s.killAll g
        s.detect d mech 1 (unitSrc (coreUnit g)) 0 0 true
    | none => s
  else match mech with
    | 4 => match u with
      | .tile _ k i =>
        if 24 ≤ d ∧ d < 28 ∧ k < 4 ∧ i < 16 then
          let c := 64 * (d - 24) + 16 * k + i
          (s.taskRerun c).detect d 4 1 src 0 0 true
        else s
      | _ => s
    | 5 => tile s
    | 6 => if 12 ≤ d ∧ d < 24 then tile s else s
    | 7 => tile s
    | 8 => if 28 ≤ d then tile s else s
    | 10 => if 24 ≤ d ∧ d < 28 then s.sctlMiss (d - 24) true else s
    | 11 => match u with
      | .tile _ _ i =>
        let p := 8 * (d - 28) + i % 8
        if 28 ≤ d ∧ s.flag F.PKG_HC_PAIRp.EN p ∧ s.hcRuns (2 * p) then s.pairFail p true else s
      | _ => s
    | 12 => if 24 ≤ d ∧ d < 28 then
        ((s.incFld F.FLT_DLM_CNT.DEADLINE (d - 24)).incFld F.FLT_STATUS.DEADLINE).detect d 12 2 blk 0 0 true
      else s
    | 13 =>
      let at' := if d < 12 then core.map fun g => coreSrc g 0
        else match u with
          | .tile _ k _ => if 24 ≤ d ∧ d < 28 ∧ k < 4 then some (clusterSrc (4 * (d - 24) + k) 0) else none
          | .block _ k => if 24 ≤ d ∧ d < 28 ∧ k < 4 then some (clusterSrc (4 * (d - 24) + k) 0) else none
          | _ => none
      match at' with
      | some n => ((s.countAction d 1).lastFault d 13 src 1 true).raise n
          { mech := 13, level := 1, data := s.tickNo % 2 ^ 16, ext := true, xdata := s.tickNo }
      | none => s
    | 14 => match u with
      | .tile _ _ i =>
        if 28 ≤ d then ((s.countAction d 1).lastFault d 14 src 1 true).raise (portSrc (4 * (d - 28) + i % 4) 0)
          { mech := 14, level := 1, data := src % 2 ^ 16 }
        else s
      | _ => s
    | 15 => s.tickFault d true
    | 17 => (s.incFld F.FLT_RG_CNT.ESC d).detect d 17 3 blk 0 0 true
    | _ => s

/-- R380: a write of FLT_INJECT of die d. Mechanisms 1 and 9 wait for the next pass of the array and the next job of the engine. -/
def faultInject (d : Nat) (v : BitVec 32) (s : State) : State :=
  let mech := bits v.toNat 7 0
  let unit := bits v.toNat 23 8
  let s := (s.setFld F.FLT_INJECT.MECH d mech).setFld F.FLT_INJECT.UNIT d unit
  let s := s.setFld F.FLT_INJECT.ARM d 0
  if !bit v.toNat 24 || mech == 0 || mech == 16 || decide (18 ≤ mech) || s.dieOut d then s
  else
    let u := unitOf (d * 2048 + unit % 2048)
    match mech, u with
    | 1, .tile _ k i =>
      if d < 12 ∧ k < 2 ∧ i < 4 then
        ((s.setFld F.MXC_ARR_INJECT.KIND (8 * d + 4 * k + i) 1).setFld F.MXC_ARR_INJECT.ARM (8 * d + 4 * k + i) 1).setFld
          F.FLT_INJECT.ARM d 1
      else s
    | 9, .tile _ k i => if 24 ≤ d ∧ d < 28 ∧ k = 4 ∧ i < 18 then s.setFld F.FLT_INJECT.ARM d 1 else s
    | m, u => s.injectNow d m u

def execFaultInject (d : Nat) (v : BitVec 32) (s : State) : Out := run (.faultInject d v) s (s.wr .FLT_INJECT d (faultInject d v))

end Sys2Proof.Machine
end

