-- ==== Sys2Proof/Machine/Tick.lean ====
section
/-! DEFINITION. The tick (R46 to R50, R53, R63): what every unit of the device does when Geyser delivers it. -/

namespace Sys2Proof.Machine

/-! The end of the old frame -/

/-- A tick kills the tenant commands a matrix core holds: the first such kill re-runs, a second ends with OVERRUN (R53, R134,
Table 4-8). Where a window starts in cycle 0, the two kills are one, the window's (Table 6-5). -/
def State.tickKill (s : State) (g : Nat) : State :=
  if (s.core g).run.isNone && !s.coreOut g && (s.core g).next.any fun w => w.start == 0 then s else
  let ks := (s.held4 g).filter fun x => x.2.cmd.q % 8 != 0
  let s := ks.foldl (fun s (c, x) => if x.cmd.tickKilled then s.killEnd g c 7 else s.killRerun g c true) s
  s.when (!ks.isEmpty) fun s => (s.incFld F.MXC_CORE_KILLS.TICK_KILL g ks.length).obsTiming (unitSrc (coreUnit g)) 15

/-- A radio command still running at a tick is a deadline fault (R53; log entry 87), and its window is handed back as soon as the
command ends: basin 0 is charged for the frame that ends, which had n + 1 cycles. -/
def State.tickRadio (s : State) (n g : Nat) : State :=
  let s := s.when ((s.held4 g).any fun x => x.2.cmd.q % 8 == 0) fun s =>
    (s.incFld F.FLT_STATUS.DEADLINE).detect (g / 2) 12 2 (unitSrc (coreUnit g)) 0
  match (s.core g).run with
  | none => s
  | some r =>
    if r.back then s
    else
      let s := s.charge 0 0 ((n + 1 - r.w.start) * (s.arraysIn g).length)
      s.modCore g fun m => { m with run := some { r with w := { r.w with start := 0, last := 0 }, late := true } }

/-- Cycles of a list of windows (R189). -/
def laneOf (l : List Window) : Nat := (l.map fun w => w.last + 1 - w.start).sum

/-- A matrix core at a tick: kills, the windows of the new frame (R175, R178), admission and usage from 0 (R188, R340). -/
def State.tickCore (s : State) (n g : Nat) : State :=
  let s := (s.tickKill g).tickRadio n g
  let s := s.setFld F.PWR_DET_QUOTAc.ADM g 0
  s.modCore g fun m =>
    { m with wins := m.next, next := [], read := false, lane := laneOf m.next, usage := [], hold := m.hold.map fun _ => s.gey.arr }

/-- The windows that start in cycle 0 of the new frame (R178). -/
def State.tickWindow (s : State) (g : Nat) : State :=
  match (s.core g).wins.find? fun w => w.start = 0 with
  | some w => if (s.core g).run.isSome || s.coreOut g then s else s.openWindow g w
  | none => s

/-- A cluster at a tick (R242, R243, R245): tenant tasks are killed, and the mask read for the new frame gives each position its
lane; a radio task keeps its position in the radio lane. -/
def State.tickCluster (s : State) (k : Nat) : State :=
  let s := (s.clusterCores k).foldl (fun s d =>
    match (s.dsp d).task with
    | some t =>
      if t.q % 8 = 0 || (s.dsp d).phase == 3 then s
      else
        let s := (s.incFld F.RDP_CLk_TSTAT.TKILL k).obsTiming (unitSrc (dspUnit d)) 15
        if t.tickKilled then s.taskKill d 7 else s.taskRerun d true
    | none => s) s
  let mask := (s.cluster k).next
  let s := s.modCluster k fun m => { m with usage := [], read := false, next := none, mask := mask }
  (s.clusterCores k).foldl (fun s d =>
    let radio := match mask with
      | some m => bit m (s.posOf d)
      | none => true
    let stays := !radio && s.flag F.RDP_CORE_STATUS.LANE d && (s.dsp d).task.any fun t => t.q % 8 == 0
    if stays then s.incFld F.RDP_CLk_TSTAT.RLATE k else s.setFld F.RDP_CORE_STATUS.LANE d (b2n radio)) s

/-! Obsidian and deterministic mode -/

/-- EN of PKG_OBS_CTRL takes effect at a tick (Table 11-6, R347). -/
def State.tickObsOn (s : State) : State :=
  if !s.flag F.PKG_OBS_CTRL.EN || s.obsd.on then s
  else
    let s := { s with obsd := { on := true, head := s.fld F.PKG_OBS_OLD.OLD % s.obsSize, lost := s.obsd.lost } }
    s.when (s.fld F.PKG_OBS_CTRL.OP == 1 && s.flag F.PKG_OBS_CTRL.HC_INJECT) State.haltTenants

/-- The TICK record, and the ticks left before a freeze (R344, R346). -/
def State.tickObs (s : State) (t : Nat) : State :=
  let n := s.obsd.count
  let s := ({ s with obsd := { s.obsd with count := 0 } }).obs 0 0 (min n (2 ^ 32 - 1)) t
  { s with obsd := { s.obsd with post := s.obsd.post.map (· - 1) } }

/-- Deterministic mode that was turned off leaves at a tick (R341). -/
def State.tickDet (s : State) : State :=
  if s.det.leaving then
    { (s.setFld F.PWR_DET_CTRL.STATE 0 0).setFld F.PWR_DET_CTRL.CAUSE 0 0 with det := { leaving := false } }
  else s

/-! The tick -/

/-- The tick period in force from a tick at time t on (R52). -/
def State.periodAt (s : State) (t : Nat) : Nat :=
  if s.gey.chgAt.any fun c => decide (c ≤ t) then s.fld F.GEY_CTRL.PERIOD_NEXT else s.fld F.GEY_CTRL.PERIOD

/-- Where a tick at time t is placed within the running reference period, in steps of 0.8 ns from its start (R48). -/
def State.tickPlace (s : State) (t : Nat) : Nat := (t * 2 ^ 32 - s.nowQ) * 8 / s.tmb.incr

/-- Cycle 0 of the frame of a tick at time t: the first array cycle strictly after it (R49), in units of 1/625 cycle; 0.8 ns are
525 of them. -/
def State.cycleZero (s : State) (t : Nat) : Nat := ((s.gey.arr + s.tickPlace t * 525) / 625 + 1) * 625

/-- The flows of the edge dies report what they counted in the tick that ends (R286). -/
def State.endOfTick (s : State) : State :=
  ((List.range 4).filter fun k => !s.dieOut (28 + k)).foldl (fun s k => s.flowEvents k) s

/-- Tick `s.tickNo + 1` at time t: the counts of R50 change together, and every block begins its frame. -/
def State.tickAt (s : State) (t : Nat) : State :=
  let late := !s.gey.fresh && decide (t + 40 < s.now)
  let eds := (List.range 4).filter fun k => !s.dieOut (28 + k)
  let s := s.endOfTick
  let s := s.when (s.flag F.PKG_LOCK_CTRL.EN) State.closeInterval
  let p := periodNs (s.periodAt t)
  let s := s.setFld F.GEY_TICK.TICK 0 (s.tickNo + 1)
  let s := (s.setFld F.GEY_POS.SFN 0 (s.sfnAt t)).setFld F.GEY_POS.TICK_IN_FRAME 0 (s.framePos t / p)
  let n := s.frameCyc
  let s := s.setFld F.GEY_CTRL.TICKING 0 1
  let s := s.modFlt fun h => { h with returning := [] }
  let s := { s with lock := { s.lock with idx := 0 }
                    tmb := { s.tmb with replica := { s.tmb.replica with tick := s.tickNo } }
                    gey := { s.gey with next := some (t + p), last := t, lastClk := s.tmb.clk, frame0 := s.cycleZero t
                                        fresh := false, tickSet := false, marginPend := s.gey.marginPend.map fun _ => true } }
  let s := (s.tickObsOn.tickObs t).tickDet
  let s := (List.range 24).foldl (fun s g => s.tickCore n g) s
  let s := (List.range 24).foldl (fun s g => s.tickWindow g) s
  let s := (List.range 16).foldl (fun s k => if s.dieOut (24 + k / 4) then s else s.tickCluster k) s
  let s := s.radioDies.foldl (fun s n => (s.latchRd n).cfwWrite n (s.tickNo + 2)) s
  let s := s.radioDies.foldl (fun s n => (List.range 64).foldl (fun s c => s.dspAssert (64 * n + c) 5) s) s
  let s := eds.foldl (fun s k => s.flowLatch k) s
  let s := s.when (s.framePos t == 0) fun s => eds.foldl (fun s k => State.gfskRecords s k) s
  let s := (List.range 64).foldl (fun s h => if s.dieOut (28 + h / 16) then s else s.hcAssert h 3) s
  s.when late fun s => ((List.range 32).filter fun d => !s.dieOut d).foldl (fun s d => s.tickFault d false) s

/-- R51: the stopping boundary comes; no tick is delivered at it, and the last tick ends. -/
def tickGeneratorStop (s : State) : State :=
  match s.gey.stopAt with
  | some t =>
    if t ≤ s.now then
      let s := s.endOfTick.dropReads
      { s.setFld F.GEY_CTRL.TICKING 0 0 with
        gey := { s.gey with next := none, stopAt := none }
        flt := { s.flt with returning := [] } }
    else s
  | none => s

def execTickGeneratorStop (s : State) : Out := run .tickGeneratorStop s (tickGeneratorStop s)

/-- R48: Geyser delivers a tick in the reference period its exact time falls in; none at the boundary at which the generator stops
(R51). -/
def tick (s : State) : State :=
  match s.gey.next with
  | none => s
  | some t => if !s.reached 1 t || s.gey.stopAt.any (fun b => decide (b ≤ t)) then s else s.tickAt t

def execTick (s : State) : Out := run .tick s (tick s)

end Sys2Proof.Machine
end

