-- ==== Sys2Proof/Machine/Registers.lean ====
section
/-! DEFINITION. Accesses to registers (R8 to R11, R461): where a register lies (R27, R28), what a read returns and clears,
what a write of each register does, and who may reach it (R33, R413, R419). -/

namespace Sys2Proof.Machine

/-! Places (Tables 1-6 and 1-7) -/

/-- The index within nested dimensions and the offset left over. -/
def dimsIx : List (Nat × Nat) → Nat → Nat → Option (Nat × Nat)
  | [], ix, o => some (ix, o)
  | (stride, count) :: l, ix, o => if o / stride < count then dimsIx l (ix * count + o / stride) (o % stride) else none

/-- The instance of a register kind an offset lies in, and the byte within it. -/
def RegKind.locate (k : RegKind) (off : Nat) : Option (RegKind × Nat × Nat) :=
  k.shapes.findSome? fun h =>
    if off < h.base then none
    else (dimsIx h.dims 0 (off - h.base)).bind fun (i, b) => if b < k.width / 8 then some (k, h.ix0 + i, b) else none

/-- The register at a BAR0 offset; none at an unassigned one (R10). -/
def locate (off : Nat) : Option (RegKind × Nat × Nat) := RegKind.all.findSome? fun k => k.locate off

/-- The port whose registers a requester meets where each PF has its own (R413, R416). -/
def State.ownPort (s : State) : Req → Nat
  | .pf p => p
  | .vf p _ => p
  | _ => s.portOf 0

/-- The instance of a register a requester meets at a place. -/
def State.inst (s : State) (r : Req) (k : RegKind) (ix : Nat) : Nat :=
  match k with
  | .PKG_BAR2_BASE => s.ownPort r
  | .MSIX_PBA => s.ownPort r
  | .MSIX_PF => 2 * s.ownPort r + ix
  | _ => ix

/-- An offset answers a requester: its die has power (R2, R29), and no warm reset hides it from PCIe (R435). -/
def State.answers (s : State) (r : Req) (o : Nat) : Bool :=
  !(s.pwr.warm && (pcieId r).isSome && decide (0x100000 ≤ o)) && !(windowDie o).any fun d => !s.dieEn d || s.dieOff d

/-- An offset takes writes: the window of a fenced die only in its region fault registers (R29). -/
def State.writable (s : State) (r : Req) (o : Nat) : Bool :=
  s.answers r o && ((windowDie o).all (fun d => !s.dieFen d) || faultWindow o)

/-! Values read -/

/-- STATE and BLOCK of a held context (Table 4-12). -/
def State.ctxState (s : State) (g : Nat) (x : Ctx) : Nat × Nat :=
  match x.blk with
  | .none =>
    if s.gey.arr < x.notBefore then (1, 0)
    else if x.word.any fun w => legal w && s.busy g x w then (3, 7)
    else (2, 0)
  | .load _ _ _ _ => (3, 0)
  | .vload _ _ => (3, 0)
  | .fload _ _ _ => (3, 1)
  | .wait _ _ => (3, 2)
  | .tickwait _ => (3, 3)
  | .swait _ => (3, 4)
  | .commit _ => (3, 5)
  | .frecv _ _ => (3, 6)

/-- MXC_CTXc_STATE (Table 4-12). -/
def State.ctxBits (s : State) (g c : Nat) : Nat :=
  match s.ctx g c with
  | none => 0
  | some x =>
    (s.ctxState g x).1 + x.cmd.q % 8 * 2 ^ 2 + (s.ctxState g x).2 * 2 ^ 5 + x.cmd.tag % 2 ^ 16 * 2 ^ 8 + x.cmd.gen % 2 ^ 12 * 2 ^ 24 +
      x.pc % 2 ^ 12 * 2 ^ 36 + min x.cmd.kills 255 * 2 ^ 48

/-- MXC_SEQ_STATUS (Table 4-10). -/
def State.seqBits (s : State) (g : Nat) : Nat :=
  (s.core g).basin % 256 + natOfBits ((List.range 4).map fun c => (s.ctx g c).isSome) * 2 ^ 8 + b2n (s.radioLane g) * 2 ^ 12 +
    b2n (s.core g).scrub * 2 ^ 13 + b2n (!(s.core g).drains.isEmpty) * 2 ^ 14

/-- SNT_STATUS (Table 4-16). -/
def State.sntBits (s : State) (g : Nat) : Nat :=
  min (s.unitsHeld g false) 2047 + min (s.unitsHeld g true) 2047 * 2 ^ 11 +
    min ((s.core g).drains.map (·.units)).sum 2047 * 2 ^ 22 + min (s.sideUsed g) 511 * 2 ^ 33 + (s.core g).rsvNow % 1024 * 2 ^ 42

/-- STALL of a queue (Table 6-11): matrix, cluster and engine queues. -/
def State.stallBits (s : State) (q : Nat) : Nat :=
  if q < 192 then s.stallOf (q / 8) q
  else if q < 320 then s.taskStall ((q - 192) / 8) ((q - 192) % 8)
  else if s.flag F.MXC_Qq_STATUS.QERR q then 1
  else if !s.flag F.MXC_Qq_CTRL.EN q && s.waitingIn q != 0 then 7
  else 0

/-- STATE, BASIN, LEVEL and BANK of RDP_CORE_STATUS (Table 8-16). -/
def State.dspBits (s : State) (d : Nat) : Nat :=
  let c := s.dsp d
  c.phase % 4 + c.basin % 256 * 2 ^ 3 + c.level % 8 * 2 ^ 11 + b2n c.inShadow * 2 ^ 14

/-- Every bit of a register as a read returns it: fields at their values, those that show the state of a unit taken from it. -/
def State.viewBits (s : State) (k : RegKind) (ix : Nat) : Nat :=
  match k with
  | .MXC_SEQ_STATUS => s.seqBits ix
  | .MXC_CTXc_STATE => s.ctxBits (ix / 4) (ix % 4)
  | .SNT_STATUS => s.sntBits ix
  | .MXC_Qq_STATUS => s.regBits k ix + s.stallBits ix * 2 ^ 32
  | .STR_KEY_CMD => s.regBits k ix + b2n (s.keyFull ix (s.fld F.STR_KEY_CMD.BASIN ix)) * 2 ^ 12
  | .EVC_STATUS => s.regBits k ix + b2n (decide (s.evSize 0 ≤ s.evCount 0)) + b2n (decide (s.evSize 1 ≤ s.evCount 1)) * 2
  | .BSN_STATEb => if ix = 0 then s.regBits k 0 / 8 * 8 + 2 else s.regBits k ix
  | .RDP_CORE_STATUS => s.regBits k ix + s.dspBits ix
  | .CRC_Uu_RUN => if s.flag F.CRC_Uu_CTRL.BUSY ix then s.crcRun ix else s.regBits k ix
  | .FAB_Ll_DTR => s.regBits k ix + b2n (!s.linkUp ix && (s.detours ix).any s.linkUp) * 2 ^ 27
  | _ => s.regBits k ix

/-- A read that samples clears the RC fields whose place begins in bits [hi:lo] (R11; log entry 147). -/
def State.clearRc (s : State) (k : RegKind) (ix hi lo : Nat) : State :=
  k.fields.foldl (fun s i => if i.acc = .rc ∧ lo ≤ i.lo ∧ i.lo ≤ hi then s.setFld ⟨k, i.hi, i.lo⟩ ix 0 else s) s

/-- The latch, and the held half, of 64-bit word j of a register. -/
def wordKey (k : RegKind) (ix j : Nat) : Nat := (ix * 512 + k.code) * 256 + 64 * j

/-- A 64-bit read of word j of a register, or the sample a read of its lower half takes (R11, R41). -/
def State.sample (s : State) (r : Req) (k : RegKind) (ix j : Nat) : Nat × State :=
  let v := bits (s.viewBits k ix) (64 * j + 63) (64 * j)
  let t := s.clearRc k ix (64 * j + 63) (64 * j)
  (v, if k = .TMB_NOW then t.latch r fracKey (s.fld F.TMB_NOW_FRAC.FRAC) else t)

/-- A read of the lower half: the sample, its upper half latched (R11). -/
def State.sampleLow (s : State) (r : Req) (k : RegKind) (ix j : Nat) : Nat × State :=
  let x := s.sample r k ix j
  (x.1 % 2 ^ 32, x.2.latch r (wordKey k ix j) (x.1 / 2 ^ 32))

/-- A read of the upper half: the latched bits, or the current ones (R11). -/
def State.sampleHigh (s : State) (r : Req) (k : RegKind) (ix j : Nat) : Nat × State :=
  match s.latched r (wordKey k ix j) with
  | some v => (v, s.unlatch r (wordKey k ix j))
  | none => (bits (s.viewBits k ix) (64 * j + 63) (64 * j + 32), s.clearRc k ix (64 * j + 63) (64 * j + 32))

/-- A read of a 32-bit register; TMB_NOW_FRAC has a latch of its own (R41). -/
def State.sample32 (s : State) (r : Req) (k : RegKind) (ix : Nat) : Nat × State :=
  match if k = .TMB_NOW_FRAC then s.latched r fracKey else none with
  | some v => (v, s.unlatch r fracKey)
  | none => (s.viewBits k ix % 2 ^ 32, s.clearRc k ix 31 0)

/-- The mailbox page and offset of a BAR0 offset (Table 1-6). -/
def mailboxAt (o : Nat) : Option (Nat × Nat) :=
  if 0x3000000 ≤ o ∧ o < 0x3100000 then some ((o - 0x3000000) / 4096, (o - 0x3000000) % 4096) else none

/-- A 32-bit read at a BAR0 offset. -/
def State.read32 (s : State) (r : Req) (o : Nat) : Nat × State :=
  if !s.answers r o then (0, s)
  else match mailboxAt o with
    | some (b, x) => (natOf (s.mbxRead b x 4), s)
    | none => match locate o with
      | none => (0, s)
      | some (k, i, b) =>
        let ix := s.inst r k i
        if k.width ≤ 32 then s.sample32 r k ix
        else if b % 8 = 0 then s.sampleLow r k ix (b / 8)
        else s.sampleHigh r k ix (b / 8)

/-- A 64-bit read at a BAR0 offset: a word of a 64-bit register, or two 32-bit registers. -/
def State.read64 (s : State) (r : Req) (o : Nat) : Nat × State :=
  let two := fun (_ : Unit) =>
    let x := s.read32 r o
    let y := x.2.read32 r (o + 4)
    (x.1 + y.1 * 2 ^ 32, y.2)
  if !s.answers r o then (0, s)
  else match mailboxAt o with
    | some (b, x) => (natOf (s.mbxRead b x 8), s)
    | none => match locate o with
      | none => two ()
      | some (k, i, b) => if k.width ≤ 32 || b % 8 != 0 then two () else s.sample r k (s.inst r k i) (b / 8)

/-- The accesses that cover bytes [a, e): 64 bits where aligned, else 32. -/
def spans : Nat → Nat → Nat → List (Nat × Nat)
  | 0, _, _ => []
  | f + 1, a, e =>
    if e ≤ a then []
    else if a % 8 = 0 ∧ a + 8 ≤ e then (a, 8) :: spans f (a + 8) e
    else (a, 4) :: spans f (a + 4) e

/-- Bytes of register space as a requester reads them. -/
def State.regBytes (s : State) (r : Req) (o n : Nat) : List Byte × State :=
  let a := o / 4 * 4
  let x := (spans (n + 2) a ((o + n + 3) / 4 * 4)).foldl (fun (x : List Byte × State) (p : Nat × Nat) =>
    let y := if p.2 = 8 then x.2.read64 r p.1 else x.2.read32 r p.1
    (x.1 ++ bytesOf p.2 y.1, y.2)) ([], s)
  (slice x.1 (o - a) n, x.2)

/-! Writes -/

/-- The RW fields of word j of a register, at their values; every other bit 0. -/
def State.wordRw (s : State) (k : RegKind) (ix j : Nat) : Nat :=
  bits (k.fields.foldl (fun v i => if i.acc = .rw then v + s.fld ⟨k, i.hi, i.lo⟩ ix * 2 ^ i.lo else v) 0) (64 * j + 63) (64 * j)

/-- A value with its bits [lo + n − 1:lo] replaced. -/
def patch (old lo n v : Nat) : Nat := old % 2 ^ lo + v % 2 ^ n * 2 ^ lo + old / 2 ^ (lo + n) * 2 ^ (lo + n)

/-- Word j of a register written by the access types alone (R8). -/
def State.plain (s : State) (k : RegKind) (ix j v : Nat) : State :=
  k.fields.foldl (fun s i =>
    if i.hi < 64 * j ∨ 64 * j + 63 < i.lo then s
    else
      let f : Field := ⟨k, i.hi, i.lo⟩
      match i.acc with
      | .rw => s.setFld f ix (bits (patch (s.fld f ix * 2 ^ i.lo) (64 * j) 64 v) i.hi i.lo)
      | .rw1c => s.setFld f ix (s.fld f ix - (s.fld f ix &&& bits (v * 2 ^ (64 * j)) i.hi i.lo))
      | _ => s) s

/-- A field takes the nearest value within limits. -/
def State.clampFld (s : State) (f : Field) (ix lo hi : Nat) : State := s.setFld f ix (clamp lo hi (s.fld f ix))

/-- The low n bits of a field read 0. -/
def State.alignFld (s : State) (f : Field) (ix n : Nat) : State := s.setFld f ix (s.fld f ix / 2 ^ n * 2 ^ n)

/-- A write of a register of the package window. -/
def State.writePkg (s : State) (r : Req) (k : RegKind) (ix j v : Nat) : State :=
  let w : BitVec 32 := BitVec.ofNat 32 v
  let d : Word := BitVec.ofNat 64 v
  match k with
  | .PKG_BAR2_BASE => bar2BaseWrite ix d s
  | .PKG_RESET => (s.when (bit v 1) powerCycleRequest).when (bit v 0) warmReset
  | .PKG_BOOT => (s.plain k ix j v).when (bit v 3) fwReady
  | .PKG_FW_ADDR => (s.plain k ix j v).alignFld F.PKG_FW_ADDR.ADDR ix 6
  | .PKG_FW_CMD => fwCmd v s
  | .PKG_ACCT_SNAP => acctSnap v s
  | .BSN_CMD => bsnCmd v s
  | .BSN_HC_OWNERh => hostCoreOwnerWrite ix w s
  | .BSN_STATEb => modeWrite ix w s
  | .BSN_HMW_BASEb => s.when (s.building ix) fun s => s.plain k ix j v
  | .BSN_HMW_LIMITb => s.when (s.building ix) fun s => s.plain k ix j v
  | .BSN_RINGb =>
    if s.flag F.BSN_STATEb.MODE ix || s.flag F.BSN_STATEb.MODE_PEND ix then s
    else ((s.plain k ix j v).clampFld F.BSN_RINGb.LOG2 ix 4 12).clampFld F.BSN_RINGb.POLL ix 1 4095
  | .PKG_OBS_CTRL => obsWrite v s
  | .PKG_OBS_RING => (s.plain k ix j v).clampFld F.PKG_OBS_RING.LOG2 ix 20 36
  | .PKG_OBS_OLD =>
    let moved := (v % s.obsSize + s.obsSize - s.fld F.PKG_OBS_OLD.OLD % s.obsSize) % s.obsSize
    let s := s.plain k ix j v
    { s with obsd := { s.obsd with used := s.obsd.used - moved } }
  | .PKG_OBS_MARK => obsidianMark d s
  | .PKG_LOCK_CTRL => lockWrite v s
  | .PWR_DET_CTRL => detWrite v s
  | .PWR_PKG_LIMIT =>
    let s := s.when (bit v 12) fun s => s.setFld F.PWR_PKG_LIMIT.CLAMP 0 0
    let n := clamp 800 (if s.fld F.PKG_ID.ORDER = 2 then 1700 else 2400) (bits v 11 0)
    (s.setFld F.PWR_PKG_LIMIT.LIMIT 0 n).when (n != bits v 11 0) fun s => s.setFld F.PWR_PKG_LIMIT.CLAMP 0 1
  | .PWR_LEND => ((s.plain k ix j v).clampFld F.PWR_LEND.THRESH ix 256 65535).when (!bit v 0) fun s => s.wakeUnits fun _ => true
  | .PKG_HC_CTRLh => hcCtrl ix v s
  | .PKG_HC_PAIRp => pairEnable ix w s
  | .PKG_HC_DBELLh => if r = .hc ix then s.plain k ix j v else hcDoorbell ix w s
  | .CAL_ITEMi => calUserWrite ix d s
  | .MSIX_PF =>
    let s := s.plain k ix j v
    let port := ix / 2
    let p := s.fld F.MSIX_PBA.PEND port
    if s.flag F.MSIX_PF.MASK ix || !bit p (ix % 2) then s
    else (s.setFld F.MSIX_PBA.PEND port (putBit p (ix % 2) false)).msixPf port (ix % 2)
  | _ => s.plain k ix j v

/-- A write of a register of the timebase, the tick generator, the event controller or the fault window. -/
def State.writeIsland (s : State) (k : RegKind) (ix j v : Nat) : State :=
  let w : BitVec 32 := BitVec.ofNat 32 v
  let d : Word := BitVec.ofNat 64 v
  match k with
  | .TMB_INCR => tmbIncrWrite d s
  | .TMB_STEP => tmbStepWrite d s
  | .TMB_TRIGn_CTRL => if bit v 0 then trigArm ix w s else trigDisarm ix w s
  | .TMB_TRIGn_START => if s.flag F.TMB_TRIGn_CTRL.ARM ix then s else s.plain k ix j v
  | .TMB_TRIGn_SHAPE => if s.flag F.TMB_TRIGn_CTRL.ARM ix then s else s.plain k ix j v
  | .GEY_CTRL => geyWrite v s
  | .GEY_FRAME_OFS => frameOfsWrite w s
  | .GEY_FUMAROLE => fumaroleWrite w s
  | .GEY_TICK_SET => tickSet d s
  | .EVC_CTRL => evcCtrl v s
  | .EVC_Qq_BASE => if s.flag F.EVC_CTRL.EN then s else (s.plain k ix j v).clampFld F.EVC_Qq_BASE.LOG2 ix 4 16
  | .EVC_Qq_HEAD => eventQueueHeadWrite ix w s
  | .EVC_CPL_TIMEk => { s with cplTime := SMap.set 0 s.cplTime ix v }
  | .EVC_CPLk => eventCompletion ix w false s
  | .EVC_SRCn => s.setFld F.EVC_SRCn.ROUTE ix (max 1 (bits v 3 2))
  | .FLT_CTRL =>
    let s := (s.when (bit v 0) rungClear).when (bit v 1) tstopClear
    s.setFld F.FLT_CTRL.TERR_LIM 0 (clamp 10 1000 (bits v 11 2))
  | .FLT_ALERT => alertClear w s
  | .FLT_TEST_CMD => testCmd v s
  | .FLT_TEST_PKG => (s.plain k ix j v).alignFld F.FLT_TEST_PKG.ADDR ix 6
  | .FLT_TEST_BUF => (s.plain k ix j v).alignFld F.FLT_TEST_BUF.ADDR ix 6
  | .FLT_INJECT => faultInject ix w s
  | .FLT_SCTL => (s.plain k ix j v).clampFld F.FLT_SCTL.DUE ix 1000 500000
  | _ => s.plain k ix j v

/-- A queue's ring registers, refused while EN is 1 (Table 6-10). -/
def State.writeRing (s : State) (k : RegKind) (ix j v : Nat) (f : Field) (unit : Nat) : State :=
  if s.flag F.MXC_Qq_CTRL.EN ix then s
  else
    let s := s.plain k ix j v
    s.setFld f ix (s.fld f ix / unit * unit)

/-- A write of a register of a matrix die: cores, queues, Sinter and store controller. -/
def State.writeMatrix (s : State) (k : RegKind) (ix j v : Nat) : State :=
  let w : BitVec 32 := BitVec.ofNat 32 v
  match k with
  | .MXC_ARR_INJECT => arrInjectWrite (ix / 4) (ix % 4) v s
  | .MXC_SEMn => semOwnerWrite (ix / 4096) (ix % 4096) w s
  | .MXC_SEM_SIGNAL => semSignalWrite ix w s
  | .MXC_DIGk => (s.plain k ix j v).when (j == 3 && bit v 8) (digestClear (ix / 16) (ix % 16))
  | .MXC_Qq_CTRL => queueCtrl ix v s
  | .MXC_Qq_RING => s.writeRing k ix j v F.MXC_Qq_RING.BASE (64 * s.queueSize ix)
  | .MXC_Qq_CRING => s.writeRing k ix j v F.MXC_Qq_CRING.BASE (16 * s.queueSize ix)
  | .MXC_Qq_DBL => s.writeRing k ix j v F.MXC_Qq_DBL.LINE 64
  | .MXC_TPROG_BASE => (s.plain k ix j v).setClk (ix / 2)
  | .SNT_CTRL => radioRsvWrite ix w s
  | .STR_PAGE_CMD => pageCmd ix v s
  | .STR_KEY_CMD => keyCmd ix v s
  | .STR_KEY_DATA => s.modStore (ix / 8) fun t => { t with keyData := patch t.keyData (64 * (ix % 8)) 64 v }
  | .STR_SRAM_OWNERg => sramOwnerWrite (ix / 128) (ix % 128) v s
  | _ => s.plain k ix j v

/-- A write of FHL_MAC_OP (R290, R291, Table 9-10). -/
def State.macCmd (s : State) (k v : Nat) : State :=
  let s := s.when (bit v 5) fun s => s.setFld F.FHL_MAC_OP.ERR k 0
  let s := s.setFld F.FHL_MAC_OP.OP k (bits v 2 0)
  if !bit v 3 then s
  else match bits v 2 0 with
    | 0 => macPin k s
    | 1 => macDelete k s
    | 2 => macRead k s
    | 3 => macFlushAll k s
    | 4 => macFlushPort k s
    | _ => s.when (!s.flag F.FHL_MAC_OP.BUSY k) fun s => s.setFld F.FHL_MAC_OP.ERR k 1

/-- A write of a register of a radio die, or of the fronthaul side of an edge die. -/
def State.writeRadio (s : State) (k : RegKind) (ix j v : Nat) : State :=
  let w : BitVec 32 := BitVec.ofNat 32 v
  let d : Word := BitVec.ofNat 64 v
  match k with
  | .RDP_CORE_IRQ =>
    (List.range 8).foldl (fun s i =>
      s.setFld ⟨.RDP_CORE_IRQ, 3 * i + 2, 3 * i⟩ ix (min 4 (bits v (3 * i + 2) (3 * i)))) s
  | .RDP_CORE_TIMER => dspTimerWrite ix d s
  | .RDP_CORE_DBELL => dspDoorbellWrite ix w s
  | .CRC_Uu_CTRL => crcCtrl ix v s
  | .CRC_Uu_RUN => crcRunWrite (ix / 16) (ix % 16) d s
  | .GFK_Bb_CARc_CFG =>
    if s.flag F.GFK_Bb_CARc_CFG.EN_RX ix || s.flag F.GFK_Bb_CARc_CFG.EN_TX ix then
      (s.setFld F.GFK_Bb_CARc_CFG.EN_RX ix (bits v 0 0)).setFld F.GFK_Bb_CARc_CFG.EN_TX ix (bits v 1 1)
    else ((s.plain k ix j v).clampFld F.GFK_Bb_CARc_CFG.H ix 16 64).clampFld F.GFK_Bb_CARc_CFG.RATE ix 12500 400000
  | .FHL_Pp_SHq => shaperWrite (ix / 28) (ix / 7 % 4) (ix % 7) d s
  | .FHL_SW_CTRL => (s.plain k ix j v).clampFld F.FHL_SW_CTRL.AGE ix 10 4095
  | .FHL_MAC_OP => s.macCmd ix v
  | .FHL_POLi => policerWrite (ix / 64) (ix % 64) j d s
  | .FHL_FLOWf => (s.plain k ix j v).alignFld F.FHL_FLOWf.BUF ix 6
  | _ => s.plain k ix j v

/-- A write of a register of the device fabric. -/
def State.writeFabric (s : State) (k : RegKind) (ix j v : Nat) : State :=
  let w : BitVec 32 := BitVec.ofNat 32 v
  let d : Word := BitVec.ofNat 64 v
  match k with
  | .FAB_CTRL =>
    let s := (s.plain k ix j v).clampFld F.FAB_CTRL.TMO 0 4 36
    let s := (s.clampFld F.FAB_CTRL.MC_RTO 0 1 63).clampFld F.FAB_CTRL.BAR_TMO 0 1 4095
    s.when (decide (s.fld F.FAB_CTRL.NATIVE < 2)) fun s => s.setFld F.FAB_CTRL.NATIVE 0 3
  | .FAB_HOPC =>
    let s := s.plain k ix j v
    s.setFld F.FAB_HOPC.BUDGET 0 (max (s.oneWay 2) (s.fld F.FAB_HOPC.BUDGET))
  | .FAB_TEARDOWN => teardownWrite v s
  | .FAB_QUORUM => if [0, 3, 5].contains (bits v 2 0) then s.plain k ix j v else s
  | .FAB_VOTE => voteWrite v s
  | .FAB_FTIDb => ftidWrite ix w s
  | .FAB_ROUTEi => routeWrite false ix d s
  | .FAB_PODRTp => routeWrite true ix d s
  | .FAB_MQn =>
    let owner := s.fld F.FAB_MQn.OWNER ix
    let was := s.flag F.FAB_MQn.EN ix
    let s := (s.plain k ix j v).clampFld F.FAB_MQn.LOG2 ix 4 12
    let s := (s.clampFld F.FAB_MQn.SLOT ix 0 9).alignFld F.FAB_MQn.BASE ix 6
    s.when was fun s => s.setFld F.FAB_MQn.OWNER ix owner
  | .FAB_Ll_CTRL => linkCtrl ix v s
  | _ => s.plain k ix j v

/-- Word j of a register takes a whole value, by the prefix of its name (R8, Table 1-6). -/
def State.writeReg (s : State) (r : Req) (k : RegKind) (ix j v : Nat) : State :=
  if k.code < RegKind.TMB_CTRL.code ∨ RegKind.MSIX_PF.code ≤ k.code then s.writePkg r k ix j v
  else if k.code < RegKind.MXC_ARR_STATUS.code then s.writeIsland k ix j v
  else if k.code < RegKind.RDP_CORE_STATUS.code then s.writeMatrix k ix j v
  else if k.code < RegKind.FAB_ID.code then s.writeRadio k ix j v
  else s.writeFabric k ix j v

/-- The lower half a requester holds for a word (R461). -/
def State.heldHalf (s : State) (r : Req) (key : Nat) : Option Nat :=
  (s.held.find? fun h => h.req == r && h.key == key).map (·.val)

/-- A requester's held half of a word goes. -/
def State.unhold (s : State) (r : Req) (key : Nat) : State :=
  { s with held := s.held.filter fun h => !(h.req == r && h.key == key) }

/-- A lower half is held, in place of one held before (R461). -/
def State.hold (s : State) (r : Req) (key v : Nat) : State :=
  { s.unhold r key with held := { req := r, key, val := v } :: (s.unhold r key).held }

/-- A write of the upper half: with the held lower half, or alone (R461). -/
def State.writeHigh (s : State) (r : Req) (k : RegKind) (ix j v : Nat) : State :=
  let key := wordKey k ix j
  let low := (s.heldHalf r key).getD (s.wordRw k ix j % 2 ^ 32)
  (s.unhold r key).writeReg r k ix j (low + v % 2 ^ 32 * 2 ^ 32)

/-- A 32-bit write at a BAR0 offset. -/
def State.write32 (s : State) (r : Req) (o v : Nat) : State :=
  match locate o with
  | none => s
  | some (k, i, b) =>
    let ix := s.inst r k i
    if k.width ≤ 32 then s.writeReg r k ix 0 (v % 2 ^ 32)
    else if b % 8 = 0 then s.hold r (wordKey k ix (b / 8)) (v % 2 ^ 32)
    else s.writeHigh r k ix (b / 8) v

/-- A 64-bit write at a BAR0 offset: a word of a 64-bit register, or two 32-bit registers. A lower half the requester holds stays
held (log entry 146). -/
def State.write64 (s : State) (r : Req) (o v : Nat) : State :=
  let two := fun (_ : Unit) => (s.write32 r o (v % 2 ^ 32)).write32 r (o + 4) (v / 2 ^ 32)
  match locate o with
  | none => two ()
  | some (k, i, b) => if k.width ≤ 32 || b % 8 != 0 then two () else s.writeReg r k (s.inst r k i) (b / 8) (v % 2 ^ 64)

/-- One write access of 4 or 8 bytes to register space. -/
def State.regAccess (s : State) (r : Req) (o : Nat) (d : List Byte) : State :=
  match mailboxAt o with
  | some (b, x) => if s.answers r o then s.mbxApply r b x d else s
  | none =>
    if !s.writable r o then s
    else if d.length = 8 then s.write64 r o (natOf d)
    else s.write32 r o (natOf d)

/-- The accesses a write of bytes makes: whole aligned words of 8 or 4 bytes. -/
def regSplit : Nat → Nat → List Byte → List (Nat × List Byte)
  | 0, _, _ => []
  | f + 1, o, d =>
    if d.length < 4 then []
    else if o % 4 ≠ 0 then regSplit f (o + (4 - o % 4)) (d.drop (4 - o % 4))
    else if o % 8 = 0 ∧ 8 ≤ d.length then (o, d.take 8) :: regSplit f (o + 8) (d.drop 8)
    else (o, d.take 4) :: regSplit f (o + 4) (d.drop 4)

/-- Bytes written to register space by a requester. -/
def regWr (r : Req) (o : Nat) (d : List Byte) (s : State) : State :=
  (regSplit (d.length + 1) o d).foldl (fun s (a, b) => s.regAccess r a b) s

/-! The requesters' ways in -/

/-- A PCIe write to BAR0 of a PF: recorded (R344) but for mailboxes, which record themselves, and PKG_OBS registers; in a replay
only the package control window takes one (R347). -/
def State.pcieIn (s : State) (r : Req) (o : Nat) (d : List Byte) (f : State → State) : State :=
  match pcieId r with
  | none => f s
  | some i =>
    if s.replaying && decide (0x100000 ≤ o) then s
    else if 0x8000 ≤ o ∧ o < 0x8030 then f s
    else f (s.obs 3 i d.length o d)

/-- A write of 4 or 8 bytes to BAR0 by the requester. -/
def State.bar0Write (s : State) (r : Req) (o : Nat) (d : List Byte) : State :=
  match r with
  | .vf _ b => if o < 4096 ∧ s.answers r 0x3000000 then s.mbxWrite r b o d else s
  | .hc h =>
    if !s.hcRuns h then s
    else if s.hcBasin h ≠ 0 then (s.addrFault (s.who (.hc h)) (regAddr o)).hcTrap h 0x30 (regAddr o)
    else s.regAccess r o d
  | _ =>
    match mailboxAt o with
    | some (b, x) => if s.answers r o then s.mbxWrite r b x d else s
    | none => s.pcieIn r o d fun s => s.regAccess r o d

/-- A read of BAR0 by the requester. -/
def State.bar0Read (s : State) (r : Req) (o n : Nat) : State :=
  match r with
  | .vf p b => s.answer (if o < 4096 ∧ p = s.portOf b ∧ s.answers r 0x3000000 then s.mbxRead b o n else List.replicate n 0#8)
  | .hc h =>
    if !s.hcRuns h then s
    else if s.hcBasin h ≠ 0 then (s.addrFault (s.who (.hc h)) (regAddr o)).hcTrap h 0x30 (regAddr o)
    else (s.regBytes r o n).2.answer (s.regBytes r o n).1
  | _ => (s.regBytes r o n).2.answer (s.regBytes r o n).1

/-- A host core reads a system register (Table 14-2). -/
def State.sysRead (s : State) (h num : Nat) : State :=
  let ret := fun v => s.answer (bytesOf 8 v)
  match num with
  | 0xC00 => ret (h + b2n (s.flag F.PKG_HC_PAIRp.EN (h / 2)) * 64 + (if h % 2 = 0 then h + 1 else h - 1) * 128)
  | 0xC01 => ret (s.hcBasin h + s.gen (s.hcBasin h) * 256)
  | 0xC02 => ret s.now
  | 0xC03 => ret s.tickNo
  | 0xC04 => ret (s.regBits .GEY_POS 0)
  | 0xC05 => ret (s.fld F.HS_TIMECMP.VALUE h)
  | 0xC06 => ret (s.fld F.HS_IP.VALUE h)
  | 0xC07 => ret (s.fld F.HS_IE.VALUE h)
  | 0xC09 => s.hsRand h
  | 0xC0B => ret (s.fld F.HS_TVAL.VALUE h)
  | 0xC0C => s.evTake h
  | 0xC0D => if s.hcBasin h ≠ 0 then s.hcTrap h 0x33 0xC0D else ret (s.fld F.HS_EVDATA.VALUE h)
  | _ => ret 0

/-- A host core writes a system register (Table 14-2). -/
def State.sysWrite (s : State) (h num v : Nat) : State :=
  match num with
  | 0xC05 => s.timecmp h v
  | 0xC07 => s.setFld F.HS_IE.VALUE h v
  | 0xC08 => s.iack h v
  | 0xC0A => s.d2h h (v % 8)
  | 0xC0C => if s.hcBasin h ≠ 0 then s.hcTrap h 0x33 0xC0C else s
  | 0xC0D => if s.hcBasin h ≠ 0 then s.hcTrap h 0x33 0xC0D else s
  | _ => s

/-- The register at an offset of BAR2 of instance `vf` of the VFs: its MSI-X table, and its pending bits at 0x1000 (07, Basin
registers). -/
def vfPlace (vf off : Nat) : Option (RegKind × Nat × Nat) :=
  if off < 0x40 then some (.MSIX_VF, vf * 4 + off / 16, off % 16)
  else if 0x1000 ≤ off ∧ off < 0x1008 then some (.MSIX_VFPBA, vf, off - 0x1000)
  else none

/-- The instance a requester reaches as VF b: VF b of its own port, also one whose port BSN_STATEb does not name (R414). -/
def vfOf (r : Req) (b : Nat) : Option Nat :=
  match r with
  | .vf p i => if i = b then some (vfIx p b) else none
  | _ => none

/-- A write of n bytes to BAR2 of instance `vf` of the VFs; a vector unmasked while its bit is pending is sent, by a VF of a
basin (R414). -/
def State.vfWrite (s : State) (vf off n v : Nat) : State :=
  match vfPlace vf off with
  | some (.MSIX_VF, ix, x) =>
    let old := s.regBits .MSIX_VF ix
    let s := s.plain .MSIX_VF ix (x / 8) (bits (patch old (8 * x) (8 * n) v) (64 * (x / 8) + 63) (64 * (x / 8)))
    let p := s.fld F.MSIX_VFPBA.PEND vf
    if s.flag F.MSIX_VF.MASK ix || !bit p (ix % 4) then s
    else (s.setFld F.MSIX_VFPBA.PEND vf (putBit p (ix % 4) false)).when (s.portOf (vf % 256) == vf / 256) fun s =>
      s.msixVf (vf % 256) (ix % 4)
  | _ => s

/-- A read of n bytes from BAR2 of instance `vf` of the VFs. -/
def State.vfRead (s : State) (vf off n : Nat) : State :=
  s.answer (match vfPlace vf off with
    | some (k, ix, x) => bytesOf n (s.regBits k ix / 2 ^ (8 * x) % 2 ^ (8 * n))
    | none => List.replicate n 0#8)

/-- A requester on the PCIe link of a port. -/
def onPort (r : Req) (port : Nat) : Bool :=
  match r with
  | .pf p => p == port
  | .vf p _ => p == port
  | _ => false

/-- A write of n bytes (4 or 8) to what an address names. -/
def State.accessWrite (s : State) (r : Req) (a : RegAddr) (n v : Nat) : State :=
  match a with
  | .bar0 o => s.bar0Write r o (bytesOf n v)
  | .sys h num => if r = .hc h ∧ s.hcRuns h then s.sysWrite h num v else s
  | .sriov port => if r = .pf port then vfDisable port (bit v 0) (bits v 16 1) s else s
  | .ats port fn => if onPort r port then s.plain .CFG_ATS (port * 256 + fn) 0 v else s
  | .vfBar2 b off => match vfOf r b with
    | some vf => s.vfWrite vf off n v
    | none => s

/-- A read of n bytes (4 or 8) from what an address names. -/
def State.accessRead (s : State) (r : Req) (a : RegAddr) (n : Nat) : State :=
  match a with
  | .bar0 o => s.bar0Read r o n
  | .sys h num => if r = .hc h ∧ s.hcRuns h then s.sysRead h num else s
  | .sriov port => if r = .pf port then s.answer (bytesOf n (s.regBits .CFG_SRIOV port)) else s
  | .ats port fn => if onPort r port then s.answer (bytesOf n (s.regBits .CFG_ATS (port * 256 + fn))) else s
  | .vfBar2 b off => match vfOf r b with
    | some vf => s.vfRead vf off n
    | none => s

/-- The upper half of what an address names. -/
def upperOf : RegAddr → RegAddr
  | .bar0 o => .bar0 (o + 4)
  | .vfBar2 b off => .vfBar2 b (off + 4)
  | a => a

/-- Bytes a whole access to an address takes: those of its register, at most 8. -/
def wholeLen : RegAddr → Nat
  | .bar0 o =>
    match mailboxAt o, locate o with
    | none, some (k, _, _) => if 64 ≤ k.width ∧ o % 8 = 0 then 8 else 4
    | some _, _ => if o % 8 = 0 then 8 else 4
    | _, _ => 4
  | .sys _ _ => 8
  | _ => 4

/-! The commands -/

/-- R8: a register write of 64 or of 32 bits. -/
def registerWrite (r : Req) (a : RegAddr) (wide : Bool) (v : Word) (s : State) : State :=
  s.accessWrite r a (if wide then 8 else 4) v.toNat

/-- R11: a whole read of a register clears its RC fields. -/
def registerReadClear (r : Req) (a : RegAddr) (s : State) : State := s.accessRead r a (wholeLen a)

def execRegisterReadClear (r : Req) (a : RegAddr) (s : State) : Out := run (.registerReadClear r a) s (registerReadClear r a s)

/-- R11: a read of bits [31:0]. -/
def lowHalfRead (r : Req) (a : RegAddr) (s : State) : State := s.accessRead r a 4

def execLowHalfRead (r : Req) (a : RegAddr) (s : State) : Out := run (.lowHalfRead r a) s (lowHalfRead r a s)

/-- R11: a read of bits [63:32]. -/
def highHalfRead (r : Req) (a : RegAddr) (s : State) : State := s.accessRead r (upperOf a) 4

def execHighHalfRead (r : Req) (a : RegAddr) (s : State) : Out := run (.highHalfRead r a) s (highHalfRead r a s)

/-- R461: a write of bits [31:0]. -/
def lowHalfWrite (r : Req) (a : RegAddr) (v : BitVec 32) (s : State) : State := s.accessWrite r a 4 v.toNat

/-- R461: a write of bits [63:32]. -/
def highHalfWrite (r : Req) (a : RegAddr) (v : BitVec 32) (s : State) : State := s.accessWrite r (upperOf a) 4 v.toNat

end Sys2Proof.Machine
end

