-- ==== Sys2Proof/Machine/Access.lean ====
section
/-! DEFINITION. Accesses to any address: reads and writes of memory that may reach register space or host memory (R31 to R33,
R120, R156, R158, R415), BAR2 (R30), host cores (R418), fabric requests on register space (R311), and the commands that end by
such accesses. -/

namespace Sys2Proof.Machine

/-- The register requester of a memory access; a unit that is none of R11's requesters is taken as Caldera (log entry 86). -/
def reqOf : Master → Req
  | .pf p => .pf p
  | .hc h => .hc h
  | _ => .caldera

/-- Register writes made through memory take effect, as of a requester. -/
def State.applyMmio (s : State) (r : Req) : State :=
  { s.mmio.foldl (fun s x => regWr r x.1 x.2 s) { s with mmio := [] } with mmio := [] }

/-- The bytes of a range: memory, registers, or what host memory answers, which is free (log entry 5). -/
def State.readAny (s : State) (r : Req) (a n : Nat) : List Byte × State :=
  match place a with
  | .regs o => s.regBytes r o n
  | .host _ => s.freshBytes n
  | _ => (s.view a n, s)

/-- A read by a requester: the data with its poison, or none and an address fault (R32, R156). -/
def State.load (s : State) (r : Req) (w : Who) (a n : Nat) (e : Ecc) : Option (List Byte × Bool) × State :=
  match s.badAddr w false a n with
  | some x => (none, s.addrFault w x)
  | none =>
    let s := (s.strike e).meet a n
    let x := s.readAny r a n
    (some (x.1, hasEcc a && s.rangePoison a n), x.2)

/-- A write by a requester (R158, R159), register space included. -/
def State.storeAs (s : State) (r : Req) (w : Who) (a : Nat) (d : List Byte) (pois : Bool) (e : Ecc) : State :=
  (memoryWriteAs w a d pois e s).applyMmio r

/-- A PCIe write to BAR2 is recorded (R344); in a replay only the package control window takes one (R347). -/
def State.bar2In (s : State) (port a : Nat) (d : List Byte) (pois : Bool) (f : State → State) : State :=
  let pkg := decide (0xFF00000000 ≤ a ∧ a < 0xFF00100000)
  if s.replaying && !pkg then s else f (s.obs 1 (port * 2 ^ 16) d.length a d pois)

/-- Device physical address of an offset in BAR2 of a port (R30). -/
def State.bar2Addr (s : State) (port ofs : Nat) : Nat := s.fld F.PKG_BAR2_BASE.BASE port * 2 ^ 36 + ofs

/-- What an address fault does to who made the access, its event record apart (R32): the command or the task ends with ADDR,
a host core takes an address trap. -/
def State.faulted (s : State) (m : Master) (a : Nat) : State :=
  match m with
  | .core g c => s.killEnd g c 2
  | .dsp d => s.taskKill d 2
  | .hc h => s.hcTrap h 0x30 a
  | _ => s

/-- A read by a requester answers: no data come from a faulted read (R32). -/
def State.readAs (s : State) (m : Master) (a n : Nat) (e : Ecc) : State :=
  match s.badAddr (s.who m) false a n with
  | some x => ((s.addrFault (s.who m) x).faulted m x).answer (List.replicate n 0#8)
  | none => match s.load (reqOf m) (s.who m) a n e with
    | (some (d, p), s) => s.answer d p
    | (none, s) => s

/-- R156: a read of memory. -/
def execMemoryRead (m : Master) (a n : Nat) (e : Ecc) (s : State) : Out := run (.memoryRead m a n e) s (s.readAs m a n e)

/-- A write by a requester; one of a PF comes over its BAR2. -/
def State.writeAs (s : State) (m : Master) (a : Nat) (d : List Byte) (pois : Bool) (e : Ecc) : State :=
  match m with
  | .pf p => s.bar2In p a d pois fun s => s.storeAs (.pf p) (s.who m) a d pois e
  | _ =>
    match s.badAddr (s.who m) true a d.length with
    | some x => (s.addrFault (s.who m) x).faulted m x
    | none => s.storeAs (reqOf m) (s.who m) a d pois e

/-- R158: a write of memory. -/
def execMemoryWrite (m : Master) (a : Nat) (d : List Byte) (pois : Bool) (e : Ecc) (s : State) : Out :=
  run (.memoryWrite m a d pois e) s (s.writeAs m a d pois e)

/-! BAR2 (R30, R32) -/

/-- R32, Table 5-4: a read of BAR2. A faulted one returns zeros, and poisoned data return with the EP bit. -/
def bar2Read (port ofs n : Nat) (e : Ecc) (s : State) : State :=
  let s := s.readAs (.pf port) (s.bar2Addr port ofs) n e
  s.when s.respPoison fun s => s.emit (.poisonedCpl port)

def execBar2Read (port ofs n : Nat) (e : Ecc) (s : State) : Out := run (.bar2Read port ofs n e) s (bar2Read port ofs n e s)

/-- R32: a write of BAR2. -/
def bar2Write (port ofs : Nat) (d : List Byte) (pois : Bool) (e : Ecc) (s : State) : State :=
  s.writeAs (.pf port) (s.bar2Addr port ofs) d pois e

def execBar2Write (port ofs : Nat) (d : List Byte) (pois : Bool) (e : Ecc) (s : State) : Out :=
  run (.bar2Write port ofs d pois e) s (bar2Write port ofs d pois e s)

/-! Host cores (R418, R421) -/

/-- A load or store of a host core: a refused translation and an address fault take trap 0x30, a load of a poisoned line trap
0x31; a store of a tenant's core is recorded (R344). -/
def hostCoreAccess (h a n : Nat) (store : Bool) (d : List Byte) (refused : Bool) (e : Ecc) (s : State) : State :=
  let w := s.who (.hc h)
  if !s.hcRuns h then s
  else if refused && decide (0x800000000000 ≤ a) then (s.addrFault w a).hcTrap h 0x30 a
  else if store then
    match s.badAddr w true a d.length with
    | some x => (s.addrFault w x).hcTrap h 0x30 x
    | none => (s.when (s.hcBasin h != 0) fun s => s.obs 4 h d.length a d).storeAs (.hc h) w a d false e
  else match s.badAddr w false a n with
    | some x => (s.addrFault w x).hcTrap h 0x30 x
    | none =>
      match s.load (.hc h) w a n e with
      | (some (l, p), s) => if p then s.hcTrap h 0x31 (a / 64 * 64) else s.answer l
      | (none, s) => s

def execHostCoreAccess (h a n : Nat) (store : Bool) (d : List Byte) (refused : Bool) (e : Ecc) (s : State) : Out :=
  run (.hostCoreAccess h a n store d refused e) s (hostCoreAccess h a n store d refused e s)

/-! Loads of a matrix core (R119, R120, R148) -/

/-- R120: the data of the read a context waits for return: from memory, from registers, or from host memory, whose data Obsidian
records (R344) and a replay takes from records alone (R347). -/
def loadReturn (g c : Nat) (ext : List Byte) (pois : Bool) (s : State) : State :=
  match s.ctx g c with
  | none => s
  | some x =>
    match x.reads with
    | none => s
    | some (a, n) =>
      match x.ranges.findSome? fun q => s.badAddr (s.coreWho g x) false q.1 q.2 with
      | some p => s.killAddr g c p
      | none =>
        match place a with
        | .host _ =>
          if s.noHostRead then s
          else (s.obs 2 g n a (slice ext 0 n) pois).loadFinish g c x (s.newestOver g x x.ranges ((slice ext 0 n).map (·, pois)))
        | .regs _ =>
          let r := x.ranges.foldl (fun (r : List Byte × State) q =>
            let y := r.2.regBytes .caldera (q.1 - 0xFF00000000) q.2
            (r.1 ++ y.1, y.2)) ([], s)
          r.2.loadFinish g c x (s.newestOver g x x.ranges (r.1.map (·, false)))
        | _ =>
          let s := s.meetAll x.ranges
          s.loadFinish g c x ((x.ranges.flatMap fun q => s.coreRead g x q.1 q.2).take 8192)

def execLoadReturn (g c : Nat) (ext : List Byte) (pois : Bool) (s : State) : Out :=
  run (.loadReturn g c ext pois) s (loadReturn g c ext pois s)

/-! Ends that write or read any address -/

/-- R140: the drains of core g end. -/
def execDrainEnd (g : Nat) (s : State) : Out := run (.drainEnd g) s ((drainEnd g s).applyMmio .caldera)

/-- R234, R235: a DMA transfer ends. -/
def dmaEnd (d ch : Nat) (s : State) : State := (dmaDone (fun a n s => s.readAny .caldera a n) d ch s).applyMmio .caldera

def execDmaEnd (d ch : Nat) (s : State) : Out := run (.dmaEnd d ch) s (dmaEnd d ch s)

/-- R240: the loads of a task end. -/
def dspTaskLoadEnd (d : Nat) (s : State) : State := taskLoaded (fun a n s => s.readAny .caldera a n) d s

def execDspTaskLoadEnd (d : Nat) (s : State) : Out := run (.dspTaskLoadEnd d) s (dspTaskLoadEnd d s)

/-- R240, R241: the output copy of a task ends. -/
def execDspOutputCopyEnd (d : Nat) (s : State) : Out := run (.dspOutputCopyEnd d) s ((dspOutputCopyEnd d s).applyMmio .caldera)

/-! Fabric requests (R311, R315, R316) -/

/-- R311, R315: an RDL request. -/
def fabricRdl (l : Nat) (p : Packet) (s : State) : State := rdlServe (fun o n s => s.regBytes .caldera o n) l p s

def execFabricRdl (l : Nat) (p : Packet) (s : State) : Out := run (.fabricRdl l p) s (fabricRdl l p s)

/-- R311, R315: an RDS request. -/
def fabricRds (l : Nat) (p : Packet) (s : State) : State := rdsServe (fun o n s => s.regBytes .caldera o n) l p s

def execFabricRds (l : Nat) (p : Packet) (s : State) : Out := run (.fabricRds l p) s (fabricRds l p s)

/-- R311, R316: a WR request. -/
def execFabricWr (l : Nat) (p : Packet) (e : Ecc) (s : State) : Out := run (.fabricWr l p e) s ((fabricWr l p e s).applyMmio .caldera)

/-- R317: a DATA reply; the return value of an atomic may go to register space. -/
def execFabricData (p : Packet) (s : State) : Out := run (.fabricData p) s ((fabricData p s).applyMmio .caldera)

/-! Commands that may declare a request unanswered: the value an atomic then returns may go to register space (R147, R319) -/

def execLinkTrainingEnd (l : Nat) (p : Partner) (s : State) : Out :=
  run (.linkTrainingEnd l p) s ((linkTrainingEnd l p s).applyMmio .caldera)

def execLinkDown (l cause : Nat) (s : State) : Out :=
  run (.linkDown l cause) s ((linkDown l cause s).applyMmio .caldera)

def execLinkEnable (l : Nat) (v : BitVec 32) (s : State) : Out :=
  run (.linkEnable l v) s ((s.wr .FAB_Ll_CTRL l (linkEnable l v)).applyMmio .caldera)

def execVoteCast (v : BitVec 32) (s : State) : Out :=
  run (.voteCast v) s ((s.wr .FAB_VOTE 0 (voteCast v)).applyMmio .caldera)

def execLinkseqTimeout (l : Nat) (s : State) : Out :=
  run (.linkseqTimeout l) s ((linkseqTimeout l s).applyMmio .caldera)

def execRequestUnanswered (tag : Nat) (s : State) : Out :=
  run (.requestUnanswered tag) s ((requestUnanswered tag s).applyMmio .caldera)

def execVote (slot target num : Nat) (s : State) : Out :=
  run (.vote slot target num) s ((vote slot target num s).applyMmio .caldera)

def execFabricAck (p : Packet) (s : State) : Out :=
  run (.fabricAck p) s ((fabricAck p s).applyMmio .caldera)

def execRouteWrite (pod : Bool) (i : Nat) (v : Word) (s : State) : Out :=
  run (.routeWrite pod i v) s ((s.wr (if pod then .FAB_PODRTp else .FAB_ROUTEi) i (routeWrite pod i v)).applyMmio .caldera)

def execLinkseq (l seq : Nat) (s : State) : Out :=
  run (.linkseq l seq) s ((linkseq l seq s).applyMmio .caldera)

def execFabricBarr (p : Packet) (s : State) : Out :=
  run (.fabricBarr p) s ((fabricBarr p s).applyMmio .caldera)

def execLinkRetrain (l : Nat) (v : BitVec 32) (s : State) : Out :=
  run (.linkRetrain l v) s ((s.wr .FAB_Ll_CTRL l (linkRetrain l v)).applyMmio .caldera)

def execTestReturn (v : Word) (s : State) : Out :=
  run (.testReturn v) s ((testReturn v s).applyMmio .caldera)

def execRegionFence (d : Nat) (s : State) : Out :=
  run (.regionFence d) s ((regionFence d s).applyMmio .caldera)

def execTestRelease (v : Word) (s : State) : Out :=
  run (.testRelease v) s ((testRelease v s).applyMmio .caldera)

def execBlockFence (d k : Nat) (s : State) : Out :=
  run (.blockFence d k) s ((blockFence d k s).applyMmio .caldera)

def execRouterFence (d : Nat) (past : List (Nat × Nat)) (s : State) : Out :=
  run (.routerFence d past) s ((routerFence d past s).applyMmio .caldera)

def execTestRun (v : Word) (s : State) : Out :=
  run (.testRun v) s ((testRun v s).applyMmio .caldera)

def execDiePowerOff (d : Nat) (s : State) : Out :=
  run (.diePowerOff d) s ((diePowerOff d s).applyMmio .caldera)

def execTestFence (v : Word) (s : State) : Out :=
  run (.testFence v) s ((testFence v s).applyMmio .caldera)

def execHeartbeatMiss (d : Nat) (s : State) : Out :=
  run (.heartbeatMiss d) s ((heartbeatMiss d s).applyMmio .caldera)

def execFload (g c : Nat) (s : State) : Out :=
  run (.fload g c) s ((fload g c s).applyMmio .caldera)

def execRegisterWrite (r : Req) (a : RegAddr) (wide : Bool) (v : Word) (s : State) : Out :=
  run (.registerWrite r a wide v) s ((registerWrite r a wide v s).applyMmio r)

def execLowHalfWrite (r : Req) (a : RegAddr) (v : BitVec 32) (s : State) : Out :=
  run (.lowHalfWrite r a v) s ((lowHalfWrite r a v s).applyMmio r)

def execHighHalfWrite (r : Req) (a : RegAddr) (v : BitVec 32) (s : State) : Out :=
  run (.highHalfWrite r a v) s ((highHalfWrite r a v s).applyMmio r)

def execCriticalTemperature (d : Nat) (s : State) : Out :=
  run (.criticalTemperature d) s ((criticalTemperature d s).applyMmio .caldera)

/-! Replay (R347) -/

/-- R347, R348, R350: the next record of a replay or of a shadow's stream. -/
def replayRecordApply (agrees : Bool) (s : State) : State := (replayRecord regWr agrees s).applyMmio .caldera

def execReplayRecordApply (agrees : Bool) (s : State) : Out := run (.replayRecordApply agrees) s (replayRecordApply agrees s)

end Sys2Proof.Machine
end

