-- ==== Sys2Proof/Machine/Dispatch.lean ====
section
/-! DEFINITION. One arm for each command: a direct call of its meaning. -/

namespace Sys2Proof.Machine

def exec (i : Instr) (s : State) : Host.Outcome State Fault Refusal :=
  match i with
  | .registerWrite x0 x1 x2 x3 => Sys2Proof.Machine.execRegisterWrite x0 x1 x2 x3 s
  | .registerReadClear x0 x1 => Sys2Proof.Machine.execRegisterReadClear x0 x1 s
  | .lowHalfRead x0 x1 => Sys2Proof.Machine.execLowHalfRead x0 x1 s
  | .highHalfRead x0 x1 => Sys2Proof.Machine.execHighHalfRead x0 x1 s
  | .lowHalfWrite x0 x1 x2 => Sys2Proof.Machine.execLowHalfWrite x0 x1 x2 s
  | .highHalfWrite x0 x1 x2 => Sys2Proof.Machine.execHighHalfWrite x0 x1 x2 s
  | .bar2Read x0 x1 x2 x3 => Sys2Proof.Machine.execBar2Read x0 x1 x2 x3 s
  | .bar2Write x0 x1 x2 x3 x4 => Sys2Proof.Machine.execBar2Write x0 x1 x2 x3 x4 s
  | .bar2BaseWrite x0 x1 => Sys2Proof.Machine.execBar2BaseWrite x0 x1 s
  | .routerFence x0 x1 => Sys2Proof.Machine.execRouterFence x0 x1 s
  | .routeChange => Sys2Proof.Machine.execRouteChange s
  | .regionFence x0 => Sys2Proof.Machine.execRegionFence x0 s
  | .blockFence x0 x1 => Sys2Proof.Machine.execBlockFence x0 x1 s
  | .fenceRelease x0 x1 => Sys2Proof.Machine.execFenceRelease x0 x1 s
  | .calderaMismatch => Sys2Proof.Machine.execCalderaMismatch s
  | .calderaResume => Sys2Proof.Machine.execCalderaResume s
  | .diePowerOff x0 => Sys2Proof.Machine.execDiePowerOff x0 s
  | .diePowerOn x0 => Sys2Proof.Machine.execDiePowerOn x0 s
  | .tmbIncrWrite x0 => Sys2Proof.Machine.execTmbIncrWrite x0 s
  | .tmbStepWrite x0 => Sys2Proof.Machine.execTmbStepWrite x0 s
  | .tmbNowRead x0 => Sys2Proof.Machine.execTmbNowRead x0 s
  | .tmbNowFracRead x0 => Sys2Proof.Machine.execTmbNowFracRead x0 s
  | .ppsEdge x0 => Sys2Proof.Machine.execPpsEdge x0 s
  | .todMessage x0 => Sys2Proof.Machine.execTodMessage x0 s
  | .ppsMiss => Sys2Proof.Machine.execPpsMiss s
  | .tick => Sys2Proof.Machine.execTick s
  | .tickGeneratorStart x0 => Sys2Proof.Machine.execTickGeneratorStart x0 s
  | .tickGeneratorStopRequest x0 => Sys2Proof.Machine.execTickGeneratorStopRequest x0 s
  | .tickGeneratorStop => Sys2Proof.Machine.execTickGeneratorStop s
  | .periodChangeRequest x0 => Sys2Proof.Machine.execPeriodChangeRequest x0 s
  | .periodChange => Sys2Proof.Machine.execPeriodChange s
  | .frameOfsWrite x0 => Sys2Proof.Machine.execFrameOfsWrite x0 s
  | .fumaroleWrite x0 => Sys2Proof.Machine.execFumaroleWrite x0 s
  | .fumaroleApply => Sys2Proof.Machine.execFumaroleApply s
  | .trigArm x0 x1 => Sys2Proof.Machine.execTrigArm x0 x1 s
  | .trigDisarm x0 x1 => Sys2Proof.Machine.execTrigDisarm x0 x1 s
  | .trigEdge x0 => Sys2Proof.Machine.execTrigEdge x0 s
  | .trigPulseEnd x0 => Sys2Proof.Machine.execTrigPulseEnd x0 s
  | .timebaseTakeover x0 => Sys2Proof.Machine.execTimebaseTakeover x0 s
  | .refLoss => Sys2Proof.Machine.execRefLoss s
  | .refReturn => Sys2Proof.Machine.execRefReturn s
  | .passCommit x0 x1 x2 => Sys2Proof.Machine.execPassCommit x0 x1 x2 s
  | .weightLoadEnd x0 => Sys2Proof.Machine.execWeightLoadEnd x0 s
  | .columnMapOut x0 x1 => Sys2Proof.Machine.execColumnMapOut x0 x1 s
  | .missCountClear x0 x1 x2 => Sys2Proof.Machine.execMissCountClear x0 x1 x2 s
  | .arrInjectArm x0 x1 x2 => Sys2Proof.Machine.execArrInjectArm x0 x1 x2 s
  | .scrubEnd x0 => Sys2Proof.Machine.execScrubEnd x0 s
  | .nop x0 x1 => Sys2Proof.Machine.execNop x0 x1 s
  | .j x0 x1 => Sys2Proof.Machine.execJ x0 x1 s
  | .jal x0 x1 => Sys2Proof.Machine.execJal x0 x1 s
  | .jr x0 x1 => Sys2Proof.Machine.execJr x0 x1 s
  | .beq x0 x1 => Sys2Proof.Machine.execBeq x0 x1 s
  | .bne x0 x1 => Sys2Proof.Machine.execBne x0 x1 s
  | .blt x0 x1 => Sys2Proof.Machine.execBlt x0 x1 s
  | .bge x0 x1 => Sys2Proof.Machine.execBge x0 x1 s
  | .dbnz x0 x1 => Sys2Proof.Machine.execDbnz x0 x1 s
  | .scalarOp x0 x1 => Sys2Proof.Machine.execScalarOp x0 x1 s
  | .mul x0 x1 => Sys2Proof.Machine.execMul x0 x1 s
  | .li x0 x1 => Sys2Proof.Machine.execLi x0 x1 s
  | .ld x0 x1 => Sys2Proof.Machine.execLd x0 x1 s
  | .st x0 x1 => Sys2Proof.Machine.execSt x0 x1 s
  | .rdsys x0 x1 => Sys2Proof.Machine.execRdsys x0 x1 s
  | .sdld x0 x1 => Sys2Proof.Machine.execSdld x0 x1 s
  | .sdset x0 x1 => Sys2Proof.Machine.execSdset x0 x1 s
  | .scopy x0 x1 => Sys2Proof.Machine.execScopy x0 x1 s
  | .swait x0 x1 => Sys2Proof.Machine.execSwait x0 x1 s
  | .loadReturn x0 x1 x2 x3 => Sys2Proof.Machine.execLoadReturn x0 x1 x2 x3 s
  | .streamEnd x0 x1 x2 => Sys2Proof.Machine.execStreamEnd x0 x1 x2 s
  | .wload x0 x1 => Sys2Proof.Machine.execWload x0 x1 s
  | .wswap x0 x1 => Sys2Proof.Machine.execWswap x0 x1 s
  | .astream x0 x1 => Sys2Proof.Machine.execAstream x0 x1 s
  | .accflush x0 x1 => Sys2Proof.Machine.execAccflush x0 x1 s
  | .accinit x0 x1 => Sys2Proof.Machine.execAccinit x0 x1 s
  | .vop x0 x1 x2 => Sys2Proof.Machine.execVop x0 x1 x2 s
  | .vld x0 x1 => Sys2Proof.Machine.execVld x0 x1 s
  | .vst x0 x1 => Sys2Proof.Machine.execVst x0 x1 s
  | .vred x0 x1 x2 => Sys2Proof.Machine.execVred x0 x1 x2 s
  | .vimg x0 x1 => Sys2Proof.Machine.execVimg x0 x1 s
  | .vtopk x0 x1 x2 => Sys2Proof.Machine.execVtopk x0 x1 x2 s
  | .vdigest x0 x1 => Sys2Proof.Machine.execVdigest x0 x1 s
  | .signal x0 x1 => Sys2Proof.Machine.execSignal x0 x1 s
  | .wait x0 x1 => Sys2Proof.Machine.execWait x0 x1 s
  | .semaphoreGrant x0 x1 => Sys2Proof.Machine.execSemaphoreGrant x0 x1 s
  | .tickwait x0 x1 => Sys2Proof.Machine.execTickwait x0 x1 s
  | .tickwaitRelease x0 x1 => Sys2Proof.Machine.execTickwaitRelease x0 x1 s
  | .fbar x0 x1 => Sys2Proof.Machine.execFbar x0 x1 s
  | .commit x0 x1 => Sys2Proof.Machine.execCommit x0 x1 s
  | .cabort x0 x1 => Sys2Proof.Machine.execCabort x0 x1 s
  | .fload x0 x1 => Sys2Proof.Machine.execFload x0 x1 s
  | .fstore x0 x1 => Sys2Proof.Machine.execFstore x0 x1 s
  | .fatom x0 x1 => Sys2Proof.Machine.execFatom x0 x1 s
  | .finv x0 x1 => Sys2Proof.Machine.execFinv x0 x1 s
  | .fsend x0 x1 => Sys2Proof.Machine.execFsend x0 x1 s
  | .frecv x0 x1 => Sys2Proof.Machine.execFrecv x0 x1 s
  | .frecvMessageReserve x0 x1 => Sys2Proof.Machine.execFrecvMessageReserve x0 x1 s
  | .dispatch x0 x1 => Sys2Proof.Machine.execDispatch x0 x1 s
  | .commitPoint x0 x1 => Sys2Proof.Machine.execCommitPoint x0 x1 s
  | .drainEnd x0 => Sys2Proof.Machine.execDrainEnd x0 s
  | .completionRecordWrite x0 x1 => Sys2Proof.Machine.execCompletionRecordWrite x0 x1 s
  | .budgetExceeded x0 x1 => Sys2Proof.Machine.execBudgetExceeded x0 x1 s
  | .radioRsvWrite x0 x1 => Sys2Proof.Machine.execRadioRsvWrite x0 x1 s
  | .radioRsvApply x0 => Sys2Proof.Machine.execRadioRsvApply x0 s
  | .semSignalWrite x0 x1 => Sys2Proof.Machine.execSemSignalWrite x0 x1 s
  | .semOwnerWrite x0 x1 x2 => Sys2Proof.Machine.execSemOwnerWrite x0 x1 x2 s
  | .memoryRead x0 x1 x2 x3 => Sys2Proof.Machine.execMemoryRead x0 x1 x2 x3 s
  | .memoryWrite x0 x1 x2 x3 x4 => Sys2Proof.Machine.execMemoryWrite x0 x1 x2 x3 x4 s
  | .refresh x0 x1 x2 => Sys2Proof.Machine.execRefresh x0 x1 x2 s
  | .patrolRead x0 x1 x2 x3 => Sys2Proof.Machine.execPatrolRead x0 x1 x2 x3 s
  | .bankGroupSparing x0 x1 x2 => Sys2Proof.Machine.execBankGroupSparing x0 x1 x2 s
  | .sparingCopyEnd x0 => Sys2Proof.Machine.execSparingCopyEnd x0 s
  | .pageAssign x0 x1 => Sys2Proof.Machine.execPageAssign x0 x1 s
  | .pageRelease x0 x1 => Sys2Proof.Machine.execPageRelease x0 x1 s
  | .pageZeroingEnd x0 => Sys2Proof.Machine.execPageZeroingEnd x0 s
  | .deferredPageRelease x0 x1 => Sys2Proof.Machine.execDeferredPageRelease x0 x1 s
  | .sramGranuleAssign x0 x1 x2 => Sys2Proof.Machine.execSramGranuleAssign x0 x1 x2 s
  | .sramGranuleRelease x0 x1 x2 => Sys2Proof.Machine.execSramGranuleRelease x0 x1 x2 s
  | .sramZeroingEnd x0 x1 => Sys2Proof.Machine.execSramZeroingEnd x0 x1 s
  | .keyGenerate x0 x1 => Sys2Proof.Machine.execKeyGenerate x0 x1 s
  | .keyLoad x0 x1 => Sys2Proof.Machine.execKeyLoad x0 x1 s
  | .keyDestroy x0 x1 => Sys2Proof.Machine.execKeyDestroy x0 x1 s
  | .keyOpEnd x0 => Sys2Proof.Machine.execKeyOpEnd x0 s
  | .tickProgramRead x0 => Sys2Proof.Machine.execTickProgramRead x0 s
  | .windowStart x0 => Sys2Proof.Machine.execWindowStart x0 s
  | .handBack x0 => Sys2Proof.Machine.execHandBack x0 s
  | .doorbellWrite x0 x1 x2 => Sys2Proof.Machine.execDoorbellWrite x0 x1 x2 s
  | .queueEnable x0 x1 => Sys2Proof.Machine.execQueueEnable x0 x1 s
  | .queueDisable x0 x1 => Sys2Proof.Machine.execQueueDisable x0 x1 s
  | .queueBasinWrite x0 x1 => Sys2Proof.Machine.execQueueBasinWrite x0 x1 s
  | .acctSnapshot x0 => Sys2Proof.Machine.execAcctSnapshot x0 s
  | .storeBsAccrual => Sys2Proof.Machine.execStoreBsAccrual s
  | .basinCreate x0 => Sys2Proof.Machine.execBasinCreate x0 s
  | .basinOpen x0 => Sys2Proof.Machine.execBasinOpen x0 s
  | .basinReset x0 => Sys2Proof.Machine.execBasinReset x0 s
  | .basinResetEnd x0 => Sys2Proof.Machine.execBasinResetEnd x0 s
  | .basinRemove x0 => Sys2Proof.Machine.execBasinRemove x0 s
  | .basinRemovalEnd x0 => Sys2Proof.Machine.execBasinRemovalEnd x0 s
  | .vfDisable x0 x1 x2 => Sys2Proof.Machine.execVfDisable x0 x1 x2 s
  | .vfFlr x0 x1 => Sys2Proof.Machine.execVfFlr x0 x1 s
  | .mailboxWrite x0 x1 x2 x3 => Sys2Proof.Machine.execMailboxWrite x0 x1 x2 x3 s
  | .upDoorbell x0 x1 x2 x3 => Sys2Proof.Machine.execUpDoorbell x0 x1 x2 x3 s
  | .downDoorbell x0 x1 x2 x3 x4 => Sys2Proof.Machine.execDownDoorbell x0 x1 x2 x3 x4 s
  | .ringPoll x0 x1 x2 x3 => Sys2Proof.Machine.execRingPoll x0 x1 x2 x3 s
  | .modeWrite x0 x1 => Sys2Proof.Machine.execModeWrite x0 x1 s
  | .modeChange x0 => Sys2Proof.Machine.execModeChange x0 s
  | .hostCoreOwnerWrite x0 x1 => Sys2Proof.Machine.execHostCoreOwnerWrite x0 x1 s
  | .hostCoreClearEnd x0 => Sys2Proof.Machine.execHostCoreClearEnd x0 s
  | .dspSpareMap x0 x1 => Sys2Proof.Machine.execDspSpareMap x0 x1 s
  | .dspNop x0 => Sys2Proof.Machine.execDspNop x0 s
  | .dspJ x0 => Sys2Proof.Machine.execDspJ x0 s
  | .jsr x0 => Sys2Proof.Machine.execJsr x0 s
  | .rts x0 => Sys2Proof.Machine.execRts x0 s
  | .bCc x0 => Sys2Proof.Machine.execBCc x0 s
  | .loop x0 => Sys2Proof.Machine.execLoop x0 s
  | .dspEnd x0 => Sys2Proof.Machine.execDspEnd x0 s
  | .dspTickwait x0 => Sys2Proof.Machine.execDspTickwait x0 s
  | .dspTickwaitRelease x0 => Sys2Proof.Machine.execDspTickwaitRelease x0 s
  | .cmac x0 x1 => Sys2Proof.Machine.execCmac x0 x1 s
  | .cmpy x0 x1 => Sys2Proof.Machine.execCmpy x0 x1 s
  | .rmac x0 x1 => Sys2Proof.Machine.execRmac x0 x1 s
  | .cpow x0 x1 => Sys2Proof.Machine.execCpow x0 x1 s
  | .xop x0 x1 => Sys2Proof.Machine.execXop x0 x1 s
  | .aop x0 x1 => Sys2Proof.Machine.execAop x0 x1 s
  | .cmp x0 x1 => Sys2Proof.Machine.execCmp x0 x1 s
  | .mvr x0 x1 => Sys2Proof.Machine.execMvr x0 x1 s
  | .mva x0 x1 => Sys2Proof.Machine.execMva x0 x1 s
  | .nrm x0 x1 => Sys2Proof.Machine.execNrm x0 x1 s
  | .rcp x0 x1 => Sys2Proof.Machine.execRcp x0 x1 s
  | .bcast x0 x1 => Sys2Proof.Machine.execBcast x0 x1 s
  | .dspLi x0 => Sys2Proof.Machine.execDspLi x0 s
  | .addi x0 => Sys2Proof.Machine.execAddi x0 s
  | .mvix x0 => Sys2Proof.Machine.execMvix x0 s
  | .dma x0 => Sys2Proof.Machine.execDma x0 s
  | .dmaEnd x0 x1 => Sys2Proof.Machine.execDmaEnd x0 x1 s
  | .dwait x0 => Sys2Proof.Machine.execDwait x0 s
  | .eng x0 => Sys2Proof.Machine.execEng x0 s
  | .msig x0 => Sys2Proof.Machine.execMsig x0 s
  | .rti x0 => Sys2Proof.Machine.execRti x0 s
  | .ilvl x0 => Sys2Proof.Machine.execIlvl x0 s
  | .iclr x0 => Sys2Proof.Machine.execIclr x0 s
  | .interruptEntry x0 => Sys2Proof.Machine.execInterruptEntry x0 s
  | .dspTimerExpire x0 => Sys2Proof.Machine.execDspTimerExpire x0 s
  | .dspTimerWrite x0 x1 => Sys2Proof.Machine.execDspTimerWrite x0 x1 s
  | .dspDoorbellWrite x0 x1 => Sys2Proof.Machine.execDspDoorbellWrite x0 x1 s
  | .dspTaskDispatch x0 x1 x2 => Sys2Proof.Machine.execDspTaskDispatch x0 x1 x2 s
  | .dspTaskLoadEnd x0 => Sys2Proof.Machine.execDspTaskLoadEnd x0 s
  | .dspOutputCopyEnd x0 => Sys2Proof.Machine.execDspOutputCopyEnd x0 s
  | .dspTaskBudgetExceeded x0 => Sys2Proof.Machine.execDspTaskBudgetExceeded x0 s
  | .dspTickProgramRead x0 => Sys2Proof.Machine.execDspTickProgramRead x0 s
  | .ldpcDecodeJob x0 x1 x2 => Sys2Proof.Machine.execLdpcDecodeJob x0 x1 x2 s
  | .ldpcEncodeJob x0 x1 x2 => Sys2Proof.Machine.execLdpcEncodeJob x0 x1 x2 s
  | .polarJob x0 x1 x2 => Sys2Proof.Machine.execPolarJob x0 x1 x2 s
  | .engineJobEnd x0 x1 => Sys2Proof.Machine.execEngineJobEnd x0 x1 s
  | .crcArm x0 x1 x2 => Sys2Proof.Machine.execCrcArm x0 x1 x2 s
  | .crcDisarm x0 x1 x2 => Sys2Proof.Machine.execCrcDisarm x0 x1 x2 s
  | .crcFrameEnd x0 x1 x2 x3 x4 => Sys2Proof.Machine.execCrcFrameEnd x0 x1 x2 x3 x4 s
  | .crcRunWrite x0 x1 x2 => Sys2Proof.Machine.execCrcRunWrite x0 x1 x2 s
  | .safetyMessage x0 x1 x2 => Sys2Proof.Machine.execSafetyMessage x0 x1 x2 s
  | .safetyTimeout x0 x1 => Sys2Proof.Machine.execSafetyTimeout x0 x1 s
  | .eqChange x0 x1 => Sys2Proof.Machine.execEqChange x0 x1 s
  | .gfskFrameReceived x0 x1 x2 x3 x4 x5 x6 => Sys2Proof.Machine.execGfskFrameReceived x0 x1 x2 x3 x4 x5 x6 s
  | .gfskTxRecord x0 x1 => Sys2Proof.Machine.execGfskTxRecord x0 x1 s
  | .gfskNoiseReport x0 x1 x2 => Sys2Proof.Machine.execGfskNoiseReport x0 x1 x2 s
  | .frameReceive x0 x1 => Sys2Proof.Machine.execFrameReceive x0 x1 s
  | .symbolDone x0 x1 x2 => Sys2Proof.Machine.execSymbolDone x0 x1 x2 s
  | .downlinkReadyCheck x0 x1 x2 => Sys2Proof.Machine.execDownlinkReadyCheck x0 x1 x2 s
  | .downlinkSend x0 x1 x2 => Sys2Proof.Machine.execDownlinkSend x0 x1 x2 s
  | .cplaneReadyCheck x0 x1 x2 => Sys2Proof.Machine.execCplaneReadyCheck x0 x1 x2 s
  | .cplaneSend x0 x1 x2 => Sys2Proof.Machine.execCplaneSend x0 x1 x2 s
  | .gfskDownlinkSend x0 x1 => Sys2Proof.Machine.execGfskDownlinkSend x0 x1 s
  | .macAgeRemoval x0 x1 x2 => Sys2Proof.Machine.execMacAgeRemoval x0 x1 x2 s
  | .macPin x0 => Sys2Proof.Machine.execMacPin x0 s
  | .macDelete x0 => Sys2Proof.Machine.execMacDelete x0 s
  | .macRead x0 => Sys2Proof.Machine.execMacRead x0 s
  | .macFlushAll x0 => Sys2Proof.Machine.execMacFlushAll x0 s
  | .macFlushPort x0 => Sys2Proof.Machine.execMacFlushPort x0 s
  | .macFlushEnd x0 => Sys2Proof.Machine.execMacFlushEnd x0 s
  | .egressTransmit x0 x1 => Sys2Proof.Machine.execEgressTransmit x0 x1 s
  | .shaperWrite x0 x1 x2 x3 => Sys2Proof.Machine.execShaperWrite x0 x1 x2 x3 s
  | .policerWrite x0 x1 x2 x3 => Sys2Proof.Machine.execPolicerWrite x0 x1 x2 x3 s
  | .linkEnable x0 x1 => Sys2Proof.Machine.execLinkEnable x0 x1 s
  | .linkRetrain x0 x1 => Sys2Proof.Machine.execLinkRetrain x0 x1 s
  | .linkTrainingEnd x0 x1 => Sys2Proof.Machine.execLinkTrainingEnd x0 x1 s
  | .flitReceive x0 x1 x2 x3 => Sys2Proof.Machine.execFlitReceive x0 x1 x2 x3 s
  | .replayRequest x0 x1 => Sys2Proof.Machine.execReplayRequest x0 x1 s
  | .linkDown x0 x1 => Sys2Proof.Machine.execLinkDown x0 x1 s
  | .fabricRdl x0 x1 => Sys2Proof.Machine.execFabricRdl x0 x1 s
  | .fabricRds x0 x1 => Sys2Proof.Machine.execFabricRds x0 x1 s
  | .fabricWr x0 x1 x2 => Sys2Proof.Machine.execFabricWr x0 x1 x2 s
  | .fabricAtom x0 x1 x2 => Sys2Proof.Machine.execFabricAtom x0 x1 x2 s
  | .fabricMsg x0 x1 => Sys2Proof.Machine.execFabricMsg x0 x1 s
  | .fabricBarr x0 => Sys2Proof.Machine.execFabricBarr x0 s
  | .fabricBrel x0 => Sys2Proof.Machine.execFabricBrel x0 s
  | .fabricData x0 => Sys2Proof.Machine.execFabricData x0 s
  | .fabricAck x0 => Sys2Proof.Machine.execFabricAck x0 s
  | .requestUnanswered x0 => Sys2Proof.Machine.execRequestUnanswered x0 s
  | .jobTeardown x0 => Sys2Proof.Machine.execJobTeardown x0 s
  | .jobTableRemove x0 => Sys2Proof.Machine.execJobTableRemove x0 s
  | .messageRetry x0 => Sys2Proof.Machine.execMessageRetry x0 s
  | .barrierReleaseApply x0 => Sys2Proof.Machine.execBarrierReleaseApply x0 s
  | .barrierTimeout x0 => Sys2Proof.Machine.execBarrierTimeout x0 s
  | .routeWrite x0 x1 x2 => Sys2Proof.Machine.execRouteWrite x0 x1 x2 s
  | .ftidWrite x0 x1 => Sys2Proof.Machine.execFtidWrite x0 x1 s
  | .detModeEnable x0 => Sys2Proof.Machine.execDetModeEnable x0 s
  | .detModeEntry => Sys2Proof.Machine.execDetModeEntry s
  | .detModeDisable x0 => Sys2Proof.Machine.execDetModeDisable x0 s
  | .detModeLoss x0 => Sys2Proof.Machine.execDetModeLoss x0 s
  | .obsidianEnable x0 => Sys2Proof.Machine.execObsidianEnable x0 s
  | .obsidianDisable x0 => Sys2Proof.Machine.execObsidianDisable x0 s
  | .obsidianFreeze x0 => Sys2Proof.Machine.execObsidianFreeze x0 s
  | .obsidianFrozen => Sys2Proof.Machine.execObsidianFrozen s
  | .obsidianMark x0 => Sys2Proof.Machine.execObsidianMark x0 s
  | .replayRecordApply x0 => Sys2Proof.Machine.execReplayRecordApply x0 s
  | .tickSet x0 => Sys2Proof.Machine.execTickSet x0 s
  | .lockstepEnable x0 => Sys2Proof.Machine.execLockstepEnable x0 s
  | .lockrec x0 => Sys2Proof.Machine.execLockrec x0 s
  | .locksig x0 => Sys2Proof.Machine.execLocksig x0 s
  | .signatureIntervalEnd => Sys2Proof.Machine.execSignatureIntervalEnd s
  | .lostsig => Sys2Proof.Machine.execLostsig s
  | .digestClear x0 x1 => Sys2Proof.Machine.execDigestClear x0 x1 s
  | .sequencerMismatch x0 => Sys2Proof.Machine.execSequencerMismatch x0 s
  | .bridgeFlitResend x0 x1 => Sys2Proof.Machine.execBridgeFlitResend x0 x1 s
  | .slotControlMiss x0 => Sys2Proof.Machine.execSlotControlMiss x0 s
  | .deadlineMarginCheck x0 x1 => Sys2Proof.Machine.execDeadlineMarginCheck x0 x1 s
  | .deadlineCheck x0 x1 => Sys2Proof.Machine.execDeadlineCheck x0 x1 s
  | .tickMissing x0 => Sys2Proof.Machine.execTickMissing x0 s
  | .timingStop => Sys2Proof.Machine.execTimingStop s
  | .tstopClear => Sys2Proof.Machine.execTstopClear s
  | .clockFault x0 x1 => Sys2Proof.Machine.execClockFault x0 x1 s
  | .railFault x0 => Sys2Proof.Machine.execRailFault x0 s
  | .heartbeatMiss x0 => Sys2Proof.Machine.execHeartbeatMiss x0 s
  | .watchdogExpiry => Sys2Proof.Machine.execWatchdogExpiry s
  | .faultInject x0 x1 => Sys2Proof.Machine.execFaultInject x0 x1 s
  | .journalWrite => Sys2Proof.Machine.execJournalWrite s
  | .mainRailsLost => Sys2Proof.Machine.execMainRailsLost s
  | .aonLow => Sys2Proof.Machine.execAonLow s
  | .alertClear x0 => Sys2Proof.Machine.execAlertClear x0 s
  | .journalPresentation => Sys2Proof.Machine.execJournalPresentation s
  | .rungClear => Sys2Proof.Machine.execRungClear s
  | .linkseq x0 x1 => Sys2Proof.Machine.execLinkseq x0 x1 s
  | .linkseqTimeout x0 => Sys2Proof.Machine.execLinkseqTimeout x0 s
  | .lstate x0 x1 x2 x3 => Sys2Proof.Machine.execLstate x0 x1 x2 x3 s
  | .lview x0 x1 => Sys2Proof.Machine.execLview x0 x1 s
  | .lviewSend => Sys2Proof.Machine.execLviewSend s
  | .voteCast x0 => Sys2Proof.Machine.execVoteCast x0 s
  | .vote x0 x1 x2 => Sys2Proof.Machine.execVote x0 x1 x2 s
  | .testFence x0 => Sys2Proof.Machine.execTestFence x0 s
  | .testRun x0 => Sys2Proof.Machine.execTestRun x0 s
  | .testRunEnd x0 x1 => Sys2Proof.Machine.execTestRunEnd x0 x1 s
  | .testReturn x0 => Sys2Proof.Machine.execTestReturn x0 s
  | .testRelease x0 => Sys2Proof.Machine.execTestRelease x0 s
  | .warmReset => Sys2Proof.Machine.execWarmReset s
  | .powerCycleRequest => Sys2Proof.Machine.execPowerCycleRequest s
  | .pcieConventionalReset x0 => Sys2Proof.Machine.execPcieConventionalReset x0 s
  | .pfFlr x0 => Sys2Proof.Machine.execPfFlr x0 s
  | .atsInvalidation x0 x1 x2 x3 => Sys2Proof.Machine.execAtsInvalidation x0 x1 x2 x3 s
  | .atsInvalidationDone x0 => Sys2Proof.Machine.execAtsInvalidationDone x0 s
  | .hostCoreAccess x0 x1 x2 x3 x4 x5 x6 => Sys2Proof.Machine.execHostCoreAccess x0 x1 x2 x3 x4 x5 x6 s
  | .hostCoreStart x0 x1 => Sys2Proof.Machine.execHostCoreStart x0 x1 s
  | .hostCoreHalt x0 x1 => Sys2Proof.Machine.execHostCoreHalt x0 x1 s
  | .hcTimecmpWrite x0 x1 => Sys2Proof.Machine.execHcTimecmpWrite x0 x1 s
  | .hcTimerExpire x0 => Sys2Proof.Machine.execHcTimerExpire x0 s
  | .hcInterruptAck x0 x1 => Sys2Proof.Machine.execHcInterruptAck x0 x1 s
  | .hsRandRead x0 => Sys2Proof.Machine.execHsRandRead x0 s
  | .eventServiceTake x0 => Sys2Proof.Machine.execEventServiceTake x0 s
  | .d2hFlagRaise x0 x1 => Sys2Proof.Machine.execD2hFlagRaise x0 x1 s
  | .pairEnable x0 x1 => Sys2Proof.Machine.execPairEnable x0 x1 s
  | .pairMismatch x0 => Sys2Proof.Machine.execPairMismatch x0 s
  | .hcDoorbell x0 x1 => Sys2Proof.Machine.execHcDoorbell x0 x1 s
  | .netqTransmit x0 => Sys2Proof.Machine.execNetqTransmit x0 s
  | .eventCompletion x0 x1 x2 => Sys2Proof.Machine.execEventCompletion x0 x1 x2 s
  | .eventQueueHeadWrite x0 x1 => Sys2Proof.Machine.execEventQueueHeadWrite x0 x1 s
  | .evcEnable x0 => Sys2Proof.Machine.execEvcEnable x0 s
  | .evcDisable x0 => Sys2Proof.Machine.execEvcDisable x0 s
  | .powerUp => Sys2Proof.Machine.execPowerUp s
  | .pgInput x0 x1 => Sys2Proof.Machine.execPgInput x0 x1 s
  | .dieRelease x0 => Sys2Proof.Machine.execDieRelease x0 s
  | .meminitEnd => Sys2Proof.Machine.execMeminitEnd s
  | .fwLoad x0 => Sys2Proof.Machine.execFwLoad x0 s
  | .fwStage x0 => Sys2Proof.Machine.execFwStage x0 s
  | .fwVerifyEnd x0 x1 => Sys2Proof.Machine.execFwVerifyEnd x0 x1 s
  | .fwReady => Sys2Proof.Machine.execFwReady s
  | .fwReadyTimeout => Sys2Proof.Machine.execFwReadyTimeout s
  | .calUserWrite x0 x1 => Sys2Proof.Machine.execCalUserWrite x0 x1 s
  | .i3cCcc x0 => Sys2Proof.Machine.execI3cCcc x0 s
  | .i3cPrivateWrite x0 => Sys2Proof.Machine.execI3cPrivateWrite x0 s
  | .i3cPrivateRead x0 => Sys2Proof.Machine.execI3cPrivateRead x0 s
  | .pkgPowerWindow x0 => Sys2Proof.Machine.execPkgPowerWindow x0 s
  | .throttleStep x0 x1 x2 => Sys2Proof.Machine.execThrottleStep x0 x1 x2 s
  | .throttleStepUp x0 => Sys2Proof.Machine.execThrottleStepUp x0 s
  | .arrayClockGate x0 x1 => Sys2Proof.Machine.execArrayClockGate x0 x1 s
  | .thermalFault x0 => Sys2Proof.Machine.execThermalFault x0 s
  | .criticalTemperature x0 => Sys2Proof.Machine.execCriticalTemperature x0 s
  | .fronthaulLinkChange x0 x1 x2 => Sys2Proof.Machine.execFronthaulLinkChange x0 x1 x2 s
  | .lightReturn x0 => Sys2Proof.Machine.execLightReturn x0 s
  | .vddAonLoss => Sys2Proof.Machine.execVddAonLoss s
  | .bkpActiveChange x0 => Sys2Proof.Machine.execBkpActiveChange x0 s
  | .watchdogService => Sys2Proof.Machine.execWatchdogService s
  | .regionHeartbeat x0 => Sys2Proof.Machine.execRegionHeartbeat x0 s
  | .thermalSensorSample x0 x1 x2 => Sys2Proof.Machine.execThermalSensorSample x0 x1 x2 s
  | .dspCoreClockGate x0 => Sys2Proof.Machine.execDspCoreClockGate x0 s

end Sys2Proof.Machine
end

