-- ==== Sys2Proof/Safety.lean ====
section
/-! DEFINITION. What a sound state is, and what it means that a command changes nothing but what it names: the terms the
statements use. -/

namespace Sys2Proof.Safety

open Sys2Proof.Machine

/-- The representation of a state between commands: memory, its poison and the mailboxes stand in canonical form, and no
register write through memory waits. -/
abbrev Canonical (s : State) : Prop :=
  Memory.wf s.mem = true ∧ SMap.wf 0 s.poison = true ∧ SMap.wf 0#8 s.mbx = true ∧ s.mmio = []

/-- `t` is `u` but for the register fields listed: every other field of every register, every byte of memory, the copies of
the poison bit of every line and every byte of every mailbox reads as in `u`, and every other part of the state is that of `u`. -/
def SameBut (fs : List (Field × Nat)) (u t : State) : Prop :=
  (∀ f i, (∀ p ∈ fs, p.1.key p.2 ≠ f.key i) → t.fld f i = u.fld f i) ∧
  (∀ a, t.rd a = u.rd a) ∧
  (∀ l, SMap.get 0 t.poison l = SMap.get 0 u.poison l) ∧
  (∀ a, SMap.get 0#8 t.mbx a = SMap.get 0#8 u.mbx a) ∧
  { u with regs := t.regs, mem := t.mem, poison := t.poison, mbx := t.mbx, mmio := t.mmio } = t

/-- `t` reads as `u` everywhere. -/
abbrev Same (u t : State) : Prop := SameBut [] u t

/-- The word `w` with opcode `op`, the next one of the command `x` in context `c` of core `g`, issues: the core runs, issue
passes to the context, and the word is legal (R108, R116). -/
abbrev Issues (op : Nat) (s : State) (g c w : Nat) (x : Ctx) : Prop :=
  g < 24 ∧ c < 4 ∧ s.coreRuns g = true ∧ s.selected g = some c ∧ s.ctx g c = some x ∧ x.word = some w ∧ iOp w = op ∧
    legal w = true

/-- Context `c` of core `g` has issued last (R108). -/
def issued (s : State) (g c : Nat) : State := s.modCore g fun m => { m with last := c }

/-- What an instruction leaves in its context: core `g` issued from `c` last, and the context holds `x`. -/
def into (s : State) (g c : Nat) (x : Ctx) : State := (issued s g c).put1 g c x

/-- The task `k` on the ETV-D core `d`, whose registers are `c`, has a next word, whose waiting errors are met in `u`: the core
runs, and nothing blocks it (R156, R231). -/
abbrev DspNext (s u : State) (d : Nat) (k : DTask) (c : DCore) : Prop :=
  d < 256 ∧ s.dsp d = c ∧ c.task = some k ∧ s.dspRuns d = true ∧ c.phase = 2 ∧ c.blk = .none ∧ c.pc < k.plen ∧
    u = s.meet (dspBase d + 0x40000 + 8 * c.pc) 8

/-- The word `w` with opcode `op` is that next word and issues: it is legal for its task and not poisoned (R231, R246). -/
abbrev DspIssues (op : Nat) (s u : State) (d w : Nat) (k : DTask) (c : DCore) : Prop :=
  DspNext s u d k c ∧ u.readNat (dspBase d + 0x40000 + 8 * c.pc) 8 = w ∧
    u.linePoison ((dspBase d + 0x40000 + 8 * c.pc) / 64) = false ∧ dOp w = op ∧ dLegal w (k.q % 8 != 0) = true

/-- The core, the context and the opcode of an instruction row of ETV-M (Table 4-4). -/
def mRow : Instr → Option (Nat × Nat × Nat)
  | .nop g c => some (g, c, 0x00)
  | .j g c => some (g, c, 0x01)
  | .jal g c => some (g, c, 0x02)
  | .jr g c => some (g, c, 0x03)
  | .beq g c => some (g, c, 0x04)
  | .bne g c => some (g, c, 0x05)
  | .blt g c => some (g, c, 0x06)
  | .bge g c => some (g, c, 0x07)
  | .dbnz g c => some (g, c, 0x08)
  | .scalarOp g c => some (g, c, 0x20)
  | .mul g c => some (g, c, 0x21)
  | .li g c => some (g, c, 0x22)
  | .ld g c => some (g, c, 0x23)
  | .st g c => some (g, c, 0x24)
  | .rdsys g c => some (g, c, 0x25)
  | .sdld g c => some (g, c, 0x40)
  | .sdset g c => some (g, c, 0x41)
  | .scopy g c => some (g, c, 0x42)
  | .swait g c => some (g, c, 0x43)
  | .wload g c => some (g, c, 0x60)
  | .wswap g c => some (g, c, 0x61)
  | .astream g c => some (g, c, 0x62)
  | .accflush g c => some (g, c, 0x63)
  | .accinit g c => some (g, c, 0x64)
  | .vop g c _ => some (g, c, 0x80)
  | .vld g c => some (g, c, 0x81)
  | .vst g c => some (g, c, 0x82)
  | .vred g c _ => some (g, c, 0x83)
  | .vimg g c => some (g, c, 0x84)
  | .vtopk g c _ => some (g, c, 0x85)
  | .vdigest g c => some (g, c, 0x86)
  | .signal g c => some (g, c, 0xA0)
  | .wait g c => some (g, c, 0xA1)
  | .tickwait g c => some (g, c, 0xA2)
  | .fbar g c => some (g, c, 0xA3)
  | .commit g c => some (g, c, 0xC0)
  | .cabort g c => some (g, c, 0xC1)
  | .fload g c => some (g, c, 0xE0)
  | .fstore g c => some (g, c, 0xE1)
  | .fatom g c => some (g, c, 0xE2)
  | .finv g c => some (g, c, 0xE3)
  | .fsend g c => some (g, c, 0xE4)
  | .frecv g c => some (g, c, 0xE5)
  | _ => none

/-- The core and the opcode of an instruction row of ETV-D (Table 8-4). -/
def dspRow : Instr → Option (Nat × Nat)
  | .dspNop d => some (d, 0x00)
  | .dspJ d => some (d, 0x01)
  | .jsr d => some (d, 0x02)
  | .rts d => some (d, 0x03)
  | .bCc d => some (d, 0x04)
  | .loop d => some (d, 0x05)
  | .dspEnd d => some (d, 0x06)
  | .dspTickwait d => some (d, 0x07)
  | .cmac d _ => some (d, 0x20)
  | .cmpy d _ => some (d, 0x21)
  | .rmac d _ => some (d, 0x22)
  | .cpow d _ => some (d, 0x23)
  | .xop d _ => some (d, 0x40)
  | .aop d _ => some (d, 0x41)
  | .cmp d _ => some (d, 0x42)
  | .mvr d _ => some (d, 0x60)
  | .mva d _ => some (d, 0x61)
  | .nrm d _ => some (d, 0x62)
  | .rcp d _ => some (d, 0x63)
  | .bcast d _ => some (d, 0x64)
  | .dspLi d => some (d, 0x80)
  | .addi d => some (d, 0x81)
  | .mvix d => some (d, 0x82)
  | .dma d => some (d, 0xA0)
  | .dwait d => some (d, 0xA1)
  | .eng d => some (d, 0xA2)
  | .msig d => some (d, 0xA3)
  | .rti d => some (d, 0xC0)
  | .ilvl d => some (d, 0xC1)
  | .iclr d => some (d, 0xC2)
  | _ => none

/-- The oldest record of queue `q` of matrix core `g`, or of cluster `g` − 24, whose die's router is in service: `drop` takes it from
where it waits, `hold` notes that it waits on (R133, R185). -/
abbrev OldestRecord (s : State) (g q : Nat) (r : Rec) (drop hold : State → State) : Prop :=
  q < 8 ∧
    ((g < 24 ∧ ((s.core g).recs.find? fun r => r.q % 8 == q) = some r ∧ s.routerDown (g / 2) = false ∧
      (drop = fun s => s.modCore g fun m => { m with recs := m.recs.erase r }) ∧
      (hold = fun s => s.modCore g fun m => { m with recs := m.recs.map fun e => if e = r then { e with wait := true } else e })) ∨
    (24 ≤ g ∧ g < 40 ∧ ((s.cluster (g - 24)).recs.find? fun r => r.q % 8 == q) = some r ∧ s.routerDown (24 + (g - 24) / 4) = false ∧
      (drop = fun s => s.modCluster (g - 24) fun m => { m with recs := m.recs.erase r }) ∧
      (hold = fun s => s.modCluster (g - 24) fun m => { m with recs := m.recs.map fun e => if e = r then { e with wait := true } else e })))

/-- A read of BAR0 by `r` reaches the registers: one of Caldera, of a physical function, or of a running host core of basin 0
(R33, R419). -/
abbrev ReadComes (s : State) (r : Req) : Prop :=
  r = .caldera ∨ (∃ p < 2, r = .pf p) ∨ ∃ h < 64, r = .hc h ∧ s.hcRuns h = true ∧ s.hcBasin h = 0

/-- A write of `d` at BAR0 offset `o` by `r` reaches the registers, which then stand in `u`: one of a physical function is
recorded, but for PKG_OBS registers, and in a replay comes to the package window alone (R33, R344, R347). -/
abbrev WriteComes (s : State) (r : Req) (o : Nat) (d : List Byte) (u : State) : Prop :=
  (u = s ∧ (r = .caldera ∨ ∃ h < 64, r = .hc h ∧ s.hcRuns h = true ∧ s.hcBasin h = 0)) ∨
    ∃ p < 2, r = .pf p ∧ (s.replaying = false ∨ o < 0x100000) ∧
      u = if 0x8000 ≤ o ∧ o < 0x8030 then s else s.obs 3 (p * 2 ^ 16) d.length o d

/-- A write of `d` at byte `o` of mailbox page `b` by `r` reaches the mailbox, which then stands in `u`: one over PCIe, of a physical
function or of VF b of its port, is recorded, and a replay takes none (R209, R344, R347). -/
abbrev MailboxComes (s : State) (r : Req) (b o : Nat) (d : List Byte) (u : State) : Prop :=
  (u = s ∧ (r = .caldera ∨ ∃ h < 64, r = .hc h ∧ s.hcBasin h = 0)) ∨
    (s.replaying = false ∧ ∃ p < 2,
      (r = .pf p ∧ u = s.obs 1 (p * 2 ^ 16) d.length (0xFF03000000 + b * 4096 + o) d) ∨
      (r = .vf p b ∧ s.portOf b = p ∧ u = s.obs 1 (b + p * 2 ^ 16) d.length (0xFF03000000 + b * 4096 + o) d ∧ u.portOf b = p))

/-- `i` is a write by `r` of `v` to the control word of a slot of mailbox page `b`; `fault` says that the ring is out of reach. -/
abbrev WritesControl (i : Instr) (r : Req) (b slot : Nat) (v : Nat) (fault : Bool) : Prop :=
  i.wf = true ∧ slot < 64 ∧
    ((∃ w : Word, v = w.toNat ∧ fault = false ∧ i = .mailboxWrite r b (slot * 64 + 56) (bytesOf 8 v)) ∨
     (∃ w : Word, v = putBit w.toNat 63 true ∧ slot < 32 ∧ fault = false ∧ i = .upDoorbell r b slot w) ∨
     ∃ w : Word, v = putBit w.toNat 63 true ∧ 32 ≤ slot ∧ i = .downDoorbell r b (slot - 32) w fault)

/-- `i` is a write by `r` of the 32 bits `v` at BAR0 offset `o`: a 32-bit write, or the write of a half of a 64-bit place. -/
abbrev Writes32 (i : Instr) (r : Req) (o : Nat) (v : BitVec 32) : Prop :=
  i.wf = true ∧
    ((∃ w : Word, i = .registerWrite r (.bar0 o) false w ∧ w.toNat % 2 ^ 32 = v.toNat) ∨ i = .lowHalfWrite r (.bar0 o) v ∨
      ∃ o', o = o' + 4 ∧ i = .highHalfWrite r (.bar0 o') v)

/-- `i` is a read by `r` of 32 bits at BAR0 offset `o`: the whole read of a place that is no aligned 64-bit register, or a read of a
half. -/
abbrev Reads32 (i : Instr) (r : Req) (o : Nat) : Prop :=
  i.wf = true ∧
    (i = .registerReadClear r (.bar0 o) ∧ wholeLen (.bar0 o) = 4 ∨ i = .lowHalfRead r (.bar0 o) ∨
      ∃ o', o = o' + 4 ∧ i = .highHalfRead r (.bar0 o'))

/-- The packet `p` of type `ty` comes to this device: it sends and accepts packets of the type, and `p` is for it and of no expelled
device (R301, R403). -/
abbrev Comes (s : State) (p : Packet) (ty : Nat) : Prop :=
  s.expelled p.src = false ∧ s.fabOn p.ty = true ∧ p.ty = ty ∧ p.dst = s.sysid

/-- The record `r`, applied to `s`, leaves `x`; `agrees` says whether the device has done what a record of its own doing says (Table
11-4). -/
abbrev Applies (s : State) (agrees : Bool) (r : ObsRec) (x : State) : Prop :=
  (r.kind = 0 ∧ x = if s.gey.last = r.value then s else s.diverge 2) ∨
    (r.kind = 1 ∧
      ((∃ o, place r.value = .regs o ∧
          x = regWr (if r.src % 65536 = 0 then .pf (r.src / 65536) else .vf (r.src / 65536) (r.src % 65536)) o (r.data.take r.aux) s) ∨
        ((∀ o, place r.value ≠ .regs o) ∧ x = memoryWriteAs (s.who (.pf (r.src / 65536))) r.value (r.data.take r.aux) r.poison .clean s))) ∨
    (r.kind = 2 ∧ (s.hostRead r = some x ∨ (s.hostRead r = none ∧ x = s.diverge 3))) ∨
    (r.kind = 3 ∧ x = regWr (if r.src % 65536 = 0 then .pf (r.src / 65536) else .vf (r.src / 65536) (r.src % 65536)) r.value (r.data.take r.aux) s) ∨
    (r.kind = 4 ∧ x = if s.flag F.PKG_OBS_CTRL.HC_INJECT
      then memoryWriteAs (s.who (.hc (r.src % 64))) r.value (r.data.take r.aux) r.poison .clean s.haltTenants else s) ∨
    (r.kind = 5 ∧ x = if agrees then s else s.diverge 1) ∨
    (r.kind = 6 ∧ x = if s.inSet r.src then (if agrees then s else s.diverge 1) else if r.dat then s.msgRecord r else s.diverge 4) ∨
    (r.kind = 7 ∧ x = if s.inSet r.src then (if agrees then s else s.diverge 1) else s.freqRecord r) ∨
    (r.kind = 8 ∧ x = if agrees then s else s.diverge 7) ∨
    (r.kind = 9 ∧ x = { s with obsd := { s.obsd with hrand := s.obsd.hrand ++ [(r.src % 64, r.value)] } }) ∨
    (r.kind = 12 ∧ x = s.diverge 5) ∨ ((r.kind = 10 ∨ r.kind = 11 ∨ 12 < r.kind) ∧ x = s)

/-- `i` is the arrival of the reply `p`. -/
abbrev IsReply (i : Instr) (p : Packet) : Prop := (i = .fabricData p ∧ p.ty = 8) ∨ (i = .fabricAck p ∧ p.ty = 9)

/-- `i` is the arrival of a packet `p` of type `ty` that comes with no link of its own. -/
abbrev IsPacket (i : Instr) (p : Packet) (ty : Nat) : Prop :=
  (i = .fabricData p ∧ ty = 8) ∨ (i = .fabricAck p ∧ ty = 9) ∨ (i = .fabricBarr p ∧ ty = 6) ∨ (i = .fabricBrel p ∧ ty = 7)

/-- `i` is the arrival of a packet `p` of type `ty` on link `l`, `e` the error of the words it writes. -/
abbrev IsRequest (i : Instr) (l : Nat) (p : Packet) (e : Ecc) (ty : Nat) : Prop :=
  l < 64 ∧ ((i = .fabricRdl l p ∧ ty = 1) ∨ (i = .fabricRds l p ∧ ty = 2) ∨ (i = .fabricWr l p e ∧ ty = 3) ∨
    (i = .fabricAtom l p e ∧ ty = 4) ∨ (i = .fabricMsg l p ∧ ty = 5))

/-- `i` is a write by `r` of the number `v` to what `a` names. -/
abbrev Writes (i : Instr) (r : Req) (a : RegAddr) (v : Nat) : Prop :=
  i.wf = true ∧
    ((∃ (w : Word) (wide : Bool), i = .registerWrite r a wide w ∧ w.toNat = v) ∨
      ∃ w : BitVec 32, w.toNat = v ∧ (i = .lowHalfWrite r a w ∨ i = .highHalfWrite r a w))

/-- `i` is a read by `r` of what `a` names. -/
abbrev Reads (i : Instr) (r : Req) (a : RegAddr) : Prop :=
  i.wf = true ∧ (i = .registerReadClear r a ∨ i = .lowHalfRead r a ∨ i = .highHalfRead r a)

/-- The read-clear fields of word `j` of register `k`, by instance (R11). -/
def rcFields (k : RegKind) (ix lo hi : Nat) : List (Field × Nat) :=
  (k.fields.filter fun f => f.acc == .rc && decide (lo ≤ f.lo ∧ f.lo ≤ hi)).map fun f => (⟨k, f.hi, f.lo⟩, ix)

/-- What an arithmetic word leaves whose own result is the bank `b`: its two moves meet the waiting errors of the words they load,
use the registers `c` before it, and the task goes on; a move that reads a poisoned line ends the task with POISON (R156, R228, R232,
R246). -/
def afterMoves (s : State) (d w : Nat) (c : DCore) (b : RBank) : State :=
  let s := (s.moveMeet d w 0 c.cur).moveMeet d w 1 c.cur
  match s.move d w 0 c.cur with
  | none => s.taskPoison d
  | some (s1, x) => match s1.move d w 1 c.cur with
    | none => s.taskPoison d
    | some (s2, y) => s2.setDsp d (c.setCur ((b.moved w 0 x).moved w 1 y)).next

end Sys2Proof.Safety
end

