-- ==== Sys2Proof/Certificates/Slice0/Obligations.lean ====
section
/-! DEFINITION. The statements about the device, for the provers. A command completes where `exec` answers a next state `t`; `SameBut fs u t`
says that `t` is `u` but for the register fields listed in `fs`, and `Same u t` that it is `u` (Safety.lean). -/

open Sys2Proof Sys2Proof.Machine Sys2Proof.Safety

/-- A write of TMB_INCR stores the value clamped to its range, the wide range while RUN and TICKING are 0 and the narrow
one otherwise, in both copies of the timebase, and sets INCR_CLAMP where it clamps. A write of TMB_STEP while ticks are
stopped adds to the step that waits in both copies; otherwise it only sets STEP_REFUSED. A read of TMB_NOW answers the
counter and latches the fraction of the same period for its requester; a read of TMB_NOW_FRAC answers and empties that
latch, or the current fraction. Nothing else changes. That a step waits for the next reference period is the model's
form of R40. -/
def Obligations.CounterCommandsComplete : Prop :=
  (∀ (s : State) (v : Word), s.flag F.GEY_CTRL.RUN = false → s.flag F.GEY_CTRL.TICKING = false →
    ∃ t, exec (.tmbIncrWrite v) s = .next t ∧
          t.fld F.TMB_INCR.INCR = clamp 0x600000000 0x6FFFFFFFF (bits v.toNat 39 0) ∧
          t.fld F.TMB_STATUS.INCR_CLAMP =
            (if bits v.toNat 39 0 = clamp 0x600000000 0x6FFFFFFFF (bits v.toNat 39 0) then s.fld F.TMB_STATUS.INCR_CLAMP else 1) ∧
          t.tmb.replica.incr = clamp 0x600000000 0x6FFFFFFFF (bits v.toNat 39 0) ∧
          SameBut [(F.TMB_INCR.INCR, 0), (F.TMB_STATUS.INCR_CLAMP, 0)]
            { s with tmb := { s.tmb with replica := { s.tmb.replica with incr := t.tmb.replica.incr } } } t) ∧
  (∀ (s : State) (v : Word), s.flag F.GEY_CTRL.RUN = true ∨ s.flag F.GEY_CTRL.TICKING = true →
    ∃ t, exec (.tmbIncrWrite v) s = .next t ∧
          t.fld F.TMB_INCR.INCR = clamp 0x6665E02EB 0x6666EC9E1 (bits v.toNat 39 0) ∧
          t.fld F.TMB_STATUS.INCR_CLAMP =
            (if bits v.toNat 39 0 = clamp 0x6665E02EB 0x6666EC9E1 (bits v.toNat 39 0) then s.fld F.TMB_STATUS.INCR_CLAMP else 1) ∧
          t.tmb.replica.incr = clamp 0x6665E02EB 0x6666EC9E1 (bits v.toNat 39 0) ∧
          SameBut [(F.TMB_INCR.INCR, 0), (F.TMB_STATUS.INCR_CLAMP, 0)]
            { s with tmb := { s.tmb with replica := { s.tmb.replica with incr := t.tmb.replica.incr } } } t) ∧
  (∀ (s : State) (v : Word), s.flag F.GEY_CTRL.RUN = false → s.flag F.GEY_CTRL.TICKING = false →
    ∃ t, exec (.tmbStepWrite v) s = .next t ∧
          t.tmb.stepPend = some ((s.tmb.stepPend.getD 0 + v.toNat) % 2 ^ 64) ∧
          Same { s with tmb := { s.tmb with stepPend := t.tmb.stepPend
                                            replica := { s.tmb.replica with stepPend := t.tmb.stepPend } } } t) ∧
  (∀ (s : State) (v : Word), s.flag F.GEY_CTRL.RUN = true ∨ s.flag F.GEY_CTRL.TICKING = true →
    ∃ t, exec (.tmbStepWrite v) s = .next t ∧ t.fld F.TMB_STATUS.STEP_REFUSED = 1 ∧
          SameBut [(F.TMB_STATUS.STEP_REFUSED, 0)] s t) ∧
  (∀ (s : State) (r : Req), r.wf = true →
    ∃ t, exec (.tmbNowRead r) s = .next t ∧ t.resp = bytesOf 8 (s.fld F.TMB_NOW.NS) ∧
          t.latched r fracKey = some (s.fld F.TMB_NOW_FRAC.FRAC) ∧
          (∀ r' k, r' ≠ r ∨ k ≠ fracKey → t.latched r' k = s.latched r' k) ∧
          Same { s with latches := t.latches, resp := t.resp, respPoison := false } t) ∧
  (∀ (s : State) (r : Req) (v : Nat), r.wf = true → s.latched r fracKey = some v →
    ∃ t, exec (.tmbNowFracRead r) s = .next t ∧ t.resp = bytesOf 4 v ∧ t.latched r fracKey = none ∧
          (∀ r' k, r' ≠ r ∨ k ≠ fracKey → t.latched r' k = s.latched r' k) ∧
          Same { s with latches := t.latches, resp := t.resp, respPoison := false } t) ∧
  (∀ (s : State) (r : Req), r.wf = true → s.latched r fracKey = none →
    ∃ t, exec (.tmbNowFracRead r) s = .next t ∧ t.resp = bytesOf 4 (s.fld F.TMB_NOW_FRAC.FRAC) ∧
          Same { s with resp := t.resp, respPoison := false } t)

/-- With PPS_EN 0, or where its direction is not PPS_POL's, an edge does nothing. An active edge less than 0.5 s after the
accepted one only counts a glitch; another copies the counter at the edge into TMB_PPS_CAP, clears PPS_MISS and VALID
and moves LOCK as `lockNext` says; where a valid message names it, firmware steps the counter by minus the offset while
ticks are stopped, and else writes an increment within R38's narrow range. With TOD_EN 1 a good message sets SEC, TRACE
and VALID and a bad one sets TOD_ERR; with TOD_EN 0 a message does nothing. After 1.5 s without an edge PPS_MISS sets
and LOCKED becomes HOLDOVER, with alarm 4 on the backup cell. A takeover from a failed master makes the replica's
timebase the timebase, sets TAKEOVER, journals and raises source 0x003; without a failure it does nothing. Loss and, 1 ms
after the last loss, return of the reference set and clear REF_LOSS and raise source 0x004. -/
def Obligations.TimeDisciplineComplete : Prop :=
  (∀ (s : State) (e : PpsEdge), e.sub < 8 → s.flag F.TMB_CTRL.PPS_EN = false ∨ e.rising = s.flag F.TMB_CTRL.PPS_POL →
    ∃ t, exec (.ppsEdge e) s = .next t ∧ Same s t) ∧
  (∀ (s : State) (e : PpsEdge), e.sub < 8 → s.flag F.TMB_CTRL.PPS_EN = true → e.rising ≠ s.flag F.TMB_CTRL.PPS_POL →
    s.tmb.edgeSeen = true → s.u08 e.sub < s.tmb.edgeU + 625000000 →
    ∃ t, exec (.ppsEdge e) s = .next t ∧ Same (s.incFld F.TMB_STATUS.PPS_GLITCH) t) ∧
  (∀ (s : State) (e : PpsEdge), e.sub < 8 → s.flag F.TMB_CTRL.PPS_EN = true → e.rising ≠ s.flag F.TMB_CTRL.PPS_POL →
    s.tmb.edgeSeen = false ∨ s.tmb.edgeU + 625000000 ≤ s.u08 e.sub → s.flag F.TMB_TOD_SEC.VALID = false →
    ∃ t, exec (.ppsEdge e) s = .next t ∧
          t.fld F.TMB_PPS_CAP.NS = (s.now * 2 ^ 32 + s.fld F.TMB_NOW_FRAC.FRAC + e.sub * s.tmb.incr / 8) / 2 ^ 32 % 2 ^ 64 ∧
          t.fld F.TMB_STATUS.PPS_MISS = 0 ∧ t.fld F.TMB_TOD_SEC.VALID = 0 ∧
          t.fld F.TMB_STATUS.LOCK = (lockNext (s.fld F.TMB_STATUS.LOCK) s.tmb.goodEdges none).1 ∧
          t.tmb.edgeSeen = true ∧ t.tmb.edgeU = s.u08 e.sub ∧ t.tmb.goodEdges = 0 ∧
          SameBut [(F.TMB_PPS_CAP.NS, 0), (F.TMB_STATUS.PPS_MISS, 0), (F.TMB_STATUS.LOCK, 0), (F.TMB_TOD_SEC.VALID, 0)]
            { s with tmb := { s.tmb with edgeU := t.tmb.edgeU, edgeSeen := true, goodEdges := 0, edgeSec := t.tmb.edgeSec } } t) ∧
  (∀ (s : State) (e : PpsEdge), e.sub < 8 → s.flag F.TMB_CTRL.PPS_EN = true → e.rising ≠ s.flag F.TMB_CTRL.PPS_POL →
    s.tmb.edgeSeen = false ∨ s.tmb.edgeU + 625000000 ≤ s.u08 e.sub → s.flag F.TMB_TOD_SEC.VALID = true → s.stopped = true →
    ∃ t, exec (.ppsEdge e) s = .next t ∧
          t.fld F.TMB_PPS_CAP.NS = (s.now * 2 ^ 32 + s.fld F.TMB_NOW_FRAC.FRAC + e.sub * s.tmb.incr / 8) / 2 ^ 32 % 2 ^ 64 ∧
          t.fld F.TMB_STATUS.PPS_MISS = 0 ∧ t.fld F.TMB_TOD_SEC.VALID = 0 ∧
          (let off : Int := (t.fld F.TMB_PPS_CAP.NS : Int) - s.fld F.TMB_TOD_SEC.SEC * 1000000000
           t.fld F.TMB_STATUS.LOCK = (lockNext (s.fld F.TMB_STATUS.LOCK) s.tmb.goodEdges (some off)).1 ∧
           t.tmb.goodEdges = (lockNext (s.fld F.TMB_STATUS.LOCK) s.tmb.goodEdges (some off)).2 ∧
           t.tmb.stepPend = some ((s.tmb.stepPend.getD 0 + wrap 64 (-off)) % 2 ^ 64)) ∧
          SameBut [(F.TMB_PPS_CAP.NS, 0), (F.TMB_STATUS.PPS_MISS, 0), (F.TMB_STATUS.LOCK, 0), (F.TMB_TOD_SEC.VALID, 0)]
            { s with tmb := { s.tmb with
                edgeU := s.u08 e.sub, edgeSeen := true, goodEdges := t.tmb.goodEdges, edgeSec := some (s.fld F.TMB_TOD_SEC.SEC)
                stepPend := t.tmb.stepPend, replica := { s.tmb.replica with stepPend := t.tmb.stepPend } } } t) ∧
  (∀ (s : State) (e : PpsEdge), e.sub < 8 → s.flag F.TMB_CTRL.PPS_EN = true → e.rising ≠ s.flag F.TMB_CTRL.PPS_POL →
    s.tmb.edgeSeen = false ∨ s.tmb.edgeU + 625000000 ≤ s.u08 e.sub → s.flag F.TMB_TOD_SEC.VALID = true → s.stopped = false →
    ∃ t, exec (.ppsEdge e) s = .next t ∧
          t.fld F.TMB_PPS_CAP.NS = (s.now * 2 ^ 32 + s.fld F.TMB_NOW_FRAC.FRAC + e.sub * s.tmb.incr / 8) / 2 ^ 32 % 2 ^ 64 ∧
          t.fld F.TMB_STATUS.PPS_MISS = 0 ∧ t.fld F.TMB_TOD_SEC.VALID = 0 ∧
          (let off : Int := (t.fld F.TMB_PPS_CAP.NS : Int) - s.fld F.TMB_TOD_SEC.SEC * 1000000000
           t.fld F.TMB_STATUS.LOCK = (lockNext (s.fld F.TMB_STATUS.LOCK) s.tmb.goodEdges (some off)).1) ∧
          0x6665E02EB ≤ t.fld F.TMB_INCR.INCR ∧ t.fld F.TMB_INCR.INCR ≤ 0x6666EC9E1 ∧
          SameBut [(F.TMB_PPS_CAP.NS, 0), (F.TMB_STATUS.PPS_MISS, 0), (F.TMB_STATUS.LOCK, 0), (F.TMB_TOD_SEC.VALID, 0), (F.TMB_INCR.INCR, 0)]
            { s with
              free := s.free + 1
              tmb := { s.tmb with
                edgeU := s.u08 e.sub, edgeSeen := true, goodEdges := t.tmb.goodEdges, edgeSec := some (s.fld F.TMB_TOD_SEC.SEC)
                replica := { s.tmb.replica with incr := t.fld F.TMB_INCR.INCR } } } t) ∧
  (∀ (s : State) (m : List Byte), s.flag F.TMB_CTRL.TOD_EN = true → todOk m s = true →
    ∃ t, exec (.todMessage m) s = .next t ∧ t.fld F.TMB_TOD_SEC.SEC = natOf (slice m 2 8) % 2 ^ F.TMB_TOD_SEC.SEC.w ∧
          t.flag F.TMB_TOD_SEC.TRACE = bit (m.getD 10 0).toNat 0 ∧ t.flag F.TMB_TOD_SEC.VALID = true ∧
          SameBut [(F.TMB_TOD_SEC.SEC, 0), (F.TMB_TOD_SEC.TRACE, 0), (F.TMB_TOD_SEC.VALID, 0)] s t) ∧
  (∀ (s : State) (m : List Byte), s.flag F.TMB_CTRL.TOD_EN = true → todOk m s = false →
    ∃ t, exec (.todMessage m) s = .next t ∧ Same (s.setFld F.TMB_STATUS.TOD_ERR 0 1) t) ∧
  (∀ (s : State) (m : List Byte), s.flag F.TMB_CTRL.TOD_EN = false → ∃ t, exec (.todMessage m) s = .next t ∧ Same s t) ∧
  (∀ s : State, s.flag F.TMB_STATUS.PPS_MISS = false → s.tmb.edgeU + 1875000000 ≤ s.u08 → s.pwr.backup = false →
    ∃ t, exec .ppsMiss s = .next t ∧ t.flag F.TMB_STATUS.PPS_MISS = true ∧
          t.fld F.TMB_STATUS.LOCK = (if s.fld F.TMB_STATUS.LOCK = 2 then 3 else s.fld F.TMB_STATUS.LOCK) ∧
          SameBut [(F.TMB_STATUS.PPS_MISS, 0), (F.TMB_STATUS.LOCK, 0)] s t) ∧
  (∀ (s : State) (cause : Nat), cause < 3 → s.tmb.onReplica = false → s.masterFailed cause = true →
    ∃ t, exec (.timebaseTakeover cause) s = .next t ∧ Same (takeover s) t ∧ t.tmb.onReplica = true ∧
          t.now = s.tmb.replica.now % 2 ^ 64 ∧ t.flag F.TMB_STATUS.TAKEOVER = true) ∧
  (∀ (s : State) (cause : Nat), cause < 3 → s.tmb.onReplica = true ∨ s.masterFailed cause = false →
    ∃ t, exec (.timebaseTakeover cause) s = .next t ∧ Same s t) ∧
  (∀ s : State, s.flag F.TMB_STATUS.REF_LOSS = false → s.pwr.backup = false →
    ∃ t, exec .refLoss s = .next t ∧
          Same (({ s.setFld F.TMB_STATUS.REF_LOSS 0 1 with
            tmb := { s.tmb with lossClk := s.tmb.clk, lastLoss := s.tmb.clk } }).raise 0x004 { mech := 16, level := 3, data := 1 }) t) ∧
  (∀ s : State, s.flag F.TMB_STATUS.REF_LOSS = true →
    ∃ t, exec .refLoss s = .next t ∧ Same { s with tmb := { s.tmb with lastLoss := s.tmb.clk } } t) ∧
  (∀ s : State, s.flag F.TMB_STATUS.REF_LOSS = true → s.tmb.lastLoss + 156250 ≤ s.tmb.clk →
    ∃ t, exec .refReturn s = .next t ∧
          Same ((s.setFld F.TMB_STATUS.REF_LOSS 0 0).raise 0x004 { mech := 16, level := 3, data := 0 }) t)

/-- A write of GEY_CTRL first stores FORCE and requests its period change. Setting RUN while LOCKED or with FORCE then sets
RUN, names the first boundary at least 100 µs ahead as the first tick, and writes the cell fault words of the first two
ticks; where ticks still run it cancels the stop; without LOCKED and FORCE RUN stays 0. Clearing RUN while ticking names
as the stop the next boundary whose tick is not delivered; at the stop TICKING clears and no tick follows. A tick whose
exact time is reached is delivered to every block as `tickAt` says. A request of another period sets CHG_PEND, and at its
boundary PERIOD takes PERIOD_NEXT. GEY_FRAME_OFS is written only while RUN and TICKING are 0. A margin is stored within
250 to 1,000, CLAMP is cleared by a 1 and set where the margin is clamped, and the margin applies once a tick has come. -/
def Obligations.TickGeneratorCommandsComplete : Prop :=
  (∀ (s : State) (v : BitVec 32), s.flag F.GEY_CTRL.RUN = false → s.flag F.GEY_CTRL.TICKING = false →
    s.fld F.TMB_STATUS.LOCK = 2 ∨ bit v.toNat 1 = true →
    ∃ t, exec (.tickGeneratorStart v) s = .next t ∧ t.flag F.GEY_CTRL.RUN = true ∧
      t.gey.next = some (s.boundaryFrom (s.now + 100000 + if s.fld F.TMB_NOW_FRAC.FRAC = 0 then 0 else 1)) ∧
      Same (let u := ((s.setFld F.GEY_CTRL.FORCE 0 (bits v.toNat 1 1)).periodRequest v.toNat).setFld F.GEY_CTRL.RUN 0 1
        let u := { u with gey := { u.gey with next := t.gey.next, stopAt := none, fresh := true } }
        u.radioDies.foldl (fun u n => ((u.latchRd n).cfwWrite n (u.tickNo + 1)).cfwWrite n (u.tickNo + 2)) u) t) ∧
  (∀ (s : State) (v : BitVec 32), s.flag F.GEY_CTRL.RUN = false → s.flag F.GEY_CTRL.TICKING = true →
    s.fld F.TMB_STATUS.LOCK = 2 ∨ bit v.toNat 1 = true →
    ∃ t, exec (.tickGeneratorStart v) s = .next t ∧ t.flag F.GEY_CTRL.RUN = true ∧ t.gey.stopAt = none ∧
      Same (let u := ((s.setFld F.GEY_CTRL.FORCE 0 (bits v.toNat 1 1)).periodRequest v.toNat).setFld F.GEY_CTRL.RUN 0 1
        { u with gey := { u.gey with stopAt := none } }) t) ∧
  (∀ (s : State) (v : BitVec 32), s.flag F.GEY_CTRL.RUN = false → s.fld F.TMB_STATUS.LOCK ≠ 2 → bit v.toNat 1 = false →
    ∃ t, exec (.tickGeneratorStart v) s = .next t ∧ t.flag F.GEY_CTRL.RUN = false ∧
      Same ((s.setFld F.GEY_CTRL.FORCE 0 (bits v.toNat 1 1)).periodRequest v.toNat) t) ∧
  (∀ (s : State) (v : BitVec 32), s.flag F.GEY_CTRL.RUN = true → s.flag F.GEY_CTRL.TICKING = true →
    ∃ t, exec (.tickGeneratorStopRequest v) s = .next t ∧ t.flag F.GEY_CTRL.RUN = false ∧ t.flag F.GEY_CTRL.TICKING = true ∧
      (s.gey.fresh = false → t.gey.stopAt = some (max s.now s.gey.last + (10000000 - s.framePos (max s.now s.gey.last)))) ∧
      Same (let u := ((s.setFld F.GEY_CTRL.FORCE 0 (bits v.toNat 1 1)).periodRequest v.toNat).setFld F.GEY_CTRL.RUN 0 0
        { u with gey := { u.gey with stopAt := some s.stopBoundary } }) t) ∧
  (∀ (s : State) (v : BitVec 32), s.flag F.GEY_CTRL.RUN = true → s.flag F.GEY_CTRL.TICKING = false →
    ∃ t, exec (.tickGeneratorStopRequest v) s = .next t ∧ t.flag F.GEY_CTRL.RUN = false ∧ t.gey.next = none ∧
      Same (let u := ((s.setFld F.GEY_CTRL.FORCE 0 (bits v.toNat 1 1)).periodRequest v.toNat).setFld F.GEY_CTRL.RUN 0 0
        { u with gey := { u.gey with next := none } }) t) ∧
  (∀ (s : State) (b : Nat), s.gey.stopAt = some b → b ≤ s.now →
    ∃ t, exec .tickGeneratorStop s = .next t ∧ t.flag F.GEY_CTRL.TICKING = false ∧ t.gey.next = none ∧
          Same (let u := s.endOfTick
            { u.setFld F.GEY_CTRL.TICKING 0 0 with
              gey := { s.gey with next := none, stopAt := none }, flt := { u.flt with returning := [] } }) t) ∧
  (∀ (s : State) (x : Nat), s.gey.next = some x → x * 2 ^ 32 < s.now * 2 ^ 32 + s.fld F.TMB_NOW_FRAC.FRAC + s.tmb.incr →
    s.gey.stopAt = none →
    ∃ t, exec .tick s = .next t ∧ Same (s.tickAt x) t) ∧
  (∀ (s : State) (v : BitVec 32), bit v.toNat 0 = s.flag F.GEY_CTRL.RUN →
    bits v.toNat 5 4 ≠ s.fld F.GEY_CTRL.PERIOD_NEXT ∨ bits v.toNat 25 16 ≠ s.fld F.GEY_CTRL.APPLY_SFN →
    bits v.toNat 5 4 ≠ s.fld F.GEY_CTRL.PERIOD →
    ∃ t, exec (.periodChangeRequest v) s = .next t ∧ t.flag F.GEY_CTRL.CHG_PEND = true ∧
          t.fld F.GEY_CTRL.PERIOD_NEXT = bits v.toNat 5 4 ∧ t.fld F.GEY_CTRL.APPLY_SFN = bits v.toNat 25 16 ∧
          t.gey.chgAt = some (s.boundarySfn ((s.now * 2 ^ 32 + s.fld F.TMB_NOW_FRAC.FRAC + s.tmb.incr - 1) / 2 ^ 32) (bits v.toNat 25 16)) ∧
          SameBut [(F.GEY_CTRL.FORCE, 0), (F.GEY_CTRL.PERIOD_NEXT, 0), (F.GEY_CTRL.APPLY_SFN, 0), (F.GEY_CTRL.CHG_PEND, 0)]
            (s.setChg t.gey.chgAt) t) ∧
  (∀ (s : State) (v : BitVec 32), bit v.toNat 0 = s.flag F.GEY_CTRL.RUN →
    bits v.toNat 5 4 ≠ s.fld F.GEY_CTRL.PERIOD_NEXT ∨ bits v.toNat 25 16 ≠ s.fld F.GEY_CTRL.APPLY_SFN →
    bits v.toNat 5 4 = s.fld F.GEY_CTRL.PERIOD →
    ∃ t, exec (.periodChangeRequest v) s = .next t ∧ t.flag F.GEY_CTRL.CHG_PEND = false ∧ t.gey.chgAt = none ∧
          t.fld F.GEY_CTRL.PERIOD_NEXT = bits v.toNat 5 4 ∧ t.fld F.GEY_CTRL.APPLY_SFN = bits v.toNat 25 16 ∧
          SameBut [(F.GEY_CTRL.FORCE, 0), (F.GEY_CTRL.PERIOD_NEXT, 0), (F.GEY_CTRL.APPLY_SFN, 0), (F.GEY_CTRL.CHG_PEND, 0)]
            (s.setChg none) t) ∧
  (∀ (s : State) (b : Nat), s.gey.chgAt = some b → b ≤ s.now →
    ∃ t, exec .periodChange s = .next t ∧ t.fld F.GEY_CTRL.PERIOD = s.fld F.GEY_CTRL.PERIOD_NEXT % 4 ∧
          t.flag F.GEY_CTRL.CHG_PEND = false ∧
          SameBut [(F.GEY_CTRL.PERIOD, 0), (F.GEY_CTRL.CHG_PEND, 0)] (s.setChg none) t) ∧
  (∀ (s : State) (v : BitVec 32), s.flag F.GEY_CTRL.RUN = false → s.flag F.GEY_CTRL.TICKING = false →
    ∃ t, exec (.frameOfsWrite v) s = .next t ∧ t.fld F.GEY_FRAME_OFS.OFS = min (bits v.toNat 23 0) 9999999 ∧
          (s.gey.chgAt = none → SameBut [(F.GEY_FRAME_OFS.OFS, 0)] s t) ∧
          (s.gey.chgAt ≠ none → SameBut [(F.GEY_FRAME_OFS.OFS, 0)] (s.setChg t.gey.chgAt) t)) ∧
  (∀ (s : State) (v : BitVec 32), s.flag F.GEY_CTRL.RUN = true ∨ s.flag F.GEY_CTRL.TICKING = true →
    ∃ t, exec (.frameOfsWrite v) s = .next t ∧ Same s t) ∧
  (∀ (s : State) (v : BitVec 32),
    ∃ t, exec (.fumaroleWrite v) s = .next t ∧ t.fld F.GEY_FUMAROLE.MARGIN = clamp 250 1000 (bits v.toNat 9 0) ∧
          t.flag F.GEY_FUMAROLE.CLAMP = (decide (bits v.toNat 9 0 ≠ clamp 250 1000 (bits v.toNat 9 0)) ||
            (s.flag F.GEY_FUMAROLE.CLAMP && !bit v.toNat 10)) ∧
          SameBut [(F.GEY_FUMAROLE.MARGIN, 0), (F.GEY_FUMAROLE.CLAMP, 0)]
            { s with gey := { s.gey with marginPend := some false } } t) ∧
  (∀ (s : State), s.gey.marginPend = some true →
    ∃ t, exec .fumaroleApply s = .next t ∧
          Same { s with gey := { s.gey with margin := s.fld F.GEY_FUMAROLE.MARGIN, marginPend := none } } t)

/-- A write of ARM 1 to a trigger that is not armed arms it for its compensated start, or sets ARM_ERR where the start,
the width or the period is not allowed; MODE, POL and DELAY_COMP of the write are stored (where it is refused, by log
entry 150). A write of ARM 0 clears ARM and cancels later edges; a pulse begun in an earlier reference period ends at
once, and an edge of the running period is kept. A due edge is output, unless the island runs from the backup cell,
and names the end of its pulse; at the end a one-shot trigger clears ARM. The output is active high, or low with POL 1.
Lock-step is off, so nothing it sends is held. -/
def Obligations.TriggerCommandsComplete : Prop :=
  (∀ (s : State) (n : Nat) (v : BitVec 32), n < 4 → s.flag F.TMB_TRIGn_CTRL.ARM n = false →
    (trigFields n v.toNat s).armBad n = false →
    ∃ t, exec (.trigArm n v) s = .next t ∧ t.flag F.TMB_TRIGn_CTRL.ARM n = true ∧
          (t.trigSt n).next = some ((trigFields n v.toNat s).trigStart n).toNat ∧
          SameBut [(F.TMB_TRIGn_CTRL.ARM, n)]
            ((trigFields n v.toNat s).setTrig n { s.trigSt n with next := some ((trigFields n v.toNat s).trigStart n).toNat }) t) ∧
  (∀ (s : State) (n : Nat) (v : BitVec 32), n < 4 → s.flag F.TMB_TRIGn_CTRL.ARM n = false →
    (trigFields n v.toNat s).armBad n = true →
    ∃ t, exec (.trigArm n v) s = .next t ∧ t.flag F.TMB_TRIGn_CTRL.ARM n = false ∧ t.flag F.TMB_TRIGn_CTRL.ARM_ERR n = true ∧
          SameBut [(F.TMB_TRIGn_CTRL.ARM_ERR, n)] (trigFields n v.toNat s) t) ∧
  (∀ (s : State) (n : Nat) (v : BitVec 32), n < 4 → s.flag F.PKG_LOCK_CTRL.EN = false →
    (trigFields n v.toNat s).fld F.TMB_TRIGn_CTRL.MODE n = bits v.toNat 1 1 ∧
    (trigFields n v.toNat s).fld F.TMB_TRIGn_CTRL.POL n = bits v.toNat 2 2 ∧
    (trigFields n v.toNat s).fld F.TMB_TRIGn_CTRL.DELAY_COMP n = bits v.toNat 31 16 ∧
    (trigFields n v.toNat s).flag F.TMB_TRIGn_CTRL.ARM_ERR n = (s.flag F.TMB_TRIGn_CTRL.ARM_ERR n && !bit v.toNat 3) ∧
    SameBut [(F.TMB_TRIGn_CTRL.MODE, n), (F.TMB_TRIGn_CTRL.POL, n), (F.TMB_TRIGn_CTRL.DELAY_COMP, n), (F.TMB_TRIGn_CTRL.ARM_ERR, n)]
      { s with out := s.out ++ if bits v.toNat 2 2 = s.fld F.TMB_TRIGn_CTRL.POL n then [] else
          [OutEv.trig n ((s.trigSt n).pulseEnd.isSome != bit v.toNat 2)] } (trigFields n v.toNat s)) ∧
  (∀ (s : State) (n : Nat) (v : BitVec 32), n < 4 → (s.trigSt n).pulseEnd = none →
    ∃ t, exec (.trigDisarm n v) s = .next t ∧ t.flag F.TMB_TRIGn_CTRL.ARM n = false ∧ (t.trigSt n).next = none ∧
          SameBut [(F.TMB_TRIGn_CTRL.ARM, n)] ((trigFields n v.toNat s).setTrig n { s.trigSt n with
            next := none
            kept := ((s.trigSt n).next.filter fun x => decide (x * 2 ^ 32 <
              (s.now * 2 ^ 32 + s.fld F.TMB_NOW_FRAC.FRAC + s.tmb.incr) * 10)).or (s.trigSt n).kept }) t) ∧
  (∀ (s : State) (n x : Nat), n < 4 → (s.trigSt n).kept = none → (s.trigSt n).next = some x →
    x * 2 ^ 32 < (s.now * 2 ^ 32 + s.fld F.TMB_NOW_FRAC.FRAC + s.tmb.incr) * 10 → s.pwr.backup = false →
    s.flag F.PKG_LOCK_CTRL.EN = false →
    ∃ t, exec (.trigEdge n) s = .next t ∧
          Same ({ s with out := s.out ++ [OutEv.trig n (!s.flag F.TMB_TRIGn_CTRL.POL n)] }.setTrig n
            { next := if s.flag F.TMB_TRIGn_CTRL.MODE n then some (x + s.fld F.TMB_TRIGn_SHAPE.PERIOD n * 10) else none
              kept := none, pulseEnd := some (x + s.fld F.TMB_TRIGn_SHAPE.WIDTH n * 10), edgeClk := s.tmb.clk }) t) ∧
  (∀ (s : State) (n x : Nat), n < 4 → (s.trigSt n).kept = some x → s.pwr.backup = false → s.flag F.PKG_LOCK_CTRL.EN = false →
    ∃ t, exec (.trigEdge n) s = .next t ∧
          Same ({ s with out := s.out ++ [OutEv.trig n (!s.flag F.TMB_TRIGn_CTRL.POL n)] }.setTrig n
            { next := (s.trigSt n).next, kept := none
              pulseEnd := some (x + s.fld F.TMB_TRIGn_SHAPE.WIDTH n * 10), edgeClk := s.tmb.clk }) t) ∧
  (∀ (s : State) (n x : Nat), n < 4 → (s.trigSt n).pulseEnd = some x →
    x * 2 ^ 32 < (s.now * 2 ^ 32 + s.fld F.TMB_NOW_FRAC.FRAC + s.tmb.incr) * 10 → s.flag F.PKG_LOCK_CTRL.EN = false →
    ∃ t, exec (.trigPulseEnd n) s = .next t ∧
          t.flag F.TMB_TRIGn_CTRL.ARM n = (s.flag F.TMB_TRIGn_CTRL.ARM n &&
            (s.flag F.TMB_TRIGn_CTRL.MODE n || (s.trigSt n).next.isSome)) ∧
          SameBut [(F.TMB_TRIGn_CTRL.ARM, n)]
            ({ s with out := s.out ++ [OutEv.trig n (s.flag F.TMB_TRIGn_CTRL.POL n)] }.setTrig n { s.trigSt n with pulseEnd := none }) t)

/-- While Caldera runs, a fence of an enabled region that is not yet fenced sets the region fence and the die's fence bit,
ends the die's work and is counted, journaled and reported; a fence of a router does so for the router, drops what is
in flight through it and leaves a route change for the next tick boundary, at which it takes effect. A region controller
fences its blocks: a matrix core with its commands, a cluster with its tasks, a link group with its links, and any other
block; on a die that is out the action is discarded and counted. The handler of a level releases the fences that it or a lower level set,
permanent and test fences aside. A mismatch stops Caldera with a count, a journal record and source 0x001; a restart
lets it run. -/
def Obligations.FenceCommandsComplete : Prop :=
  (∀ (s : State) (d : Nat), d < 32 → s.fencedUnit (.region d) = false → s.dieEn d = true → s.flt.caldera = none →
    ∃ t, exec (.regionFence d) s = .next t ∧
      Same ((let u := (((s.unwait (.region d)).addFence ⟨.region d, 3, false, false⟩).setFen d).loseDie d false
        u.fenceEvent d (u.fld F.FLT_RG_LAST.MECH d) 3 (.region d) 2).applyMmio .caldera) t) ∧
  (∀ (s : State) (d : Nat) (past : List (Nat × Nat)), d < 12 ∨ (24 ≤ d ∧ d < 32) → s.fencedUnit (.router d) = false →
    s.dieEn d = true → s.flt.caldera = none →
    ∃ t, exec (.routerFence d past) s = .next t ∧
      Same ((let u := (((s.dropInFlight d past).unwait (.router d)).addFence ⟨.router d, 3, false, false⟩).setFen d
        ((u.modFlt fun h => { h with routeChg := true }).loseDie d true).fenceEvent d 7 3 (.router d) 2).applyMmio .caldera) t) ∧
  (∀ (s : State), s.flt.routeChg = true → s.flag F.GEY_CTRL.TICKING = true → s.frameCyc = 0 →
    ∃ t, exec .routeChange s = .next t ∧
      Same { s with flt := { s.flt with routes := s.routersOut, routeChg := false } } t) ∧
  (∀ (s : State) (d k : Nat), d < 32 → k < 16 → (12 ≤ d ∧ d < 24) ∨ (24 ≤ d ∧ 4 ≤ k) → s.testFenced (.block d k) = false →
    s.dieOut d = false → s.unitOut (.block d k) = false →
    ∃ t, exec (.blockFence d k) s = .next t ∧
      Same ((let mech := s.fld F.FLT_RG_LAST.MECH d
        let u := (s.addFence ⟨.block d k, 2, false, false⟩).setFld F.FLT_RG_STATUS.BFENCE d (putBit (s.fld F.FLT_RG_STATUS.BFENCE d) k true)
        (((u.note 0x102 (unitSrc (.region d))).lastFault d mech (unitSrc (.block d k)) 2).fenceEvent d mech 2 (.block d k) 2).thirdBlock
          d mech).applyMmio .caldera) t) ∧
  (∀ (s : State) (d k : Nat), d < 12 → k < 2 → s.testFenced (.block d k) = false → s.dieOut d = false →
    s.unitOut (.block d k) = false →
    ∃ t, exec (.blockFence d k) s = .next t ∧
      Same ((s.fenceCore (2 * d + k) (s.fld F.FLT_RG_LAST.MECH d)).applyMmio .caldera) t) ∧
  (∀ (s : State) (d k : Nat), 24 ≤ d → d < 28 → k < 4 → s.testFenced (.block d k) = false → s.dieOut d = false →
    s.unitOut (.block d k) = false →
    ∃ t, exec (.blockFence d k) s = .next t ∧
      Same ((s.fenceCluster (4 * (d - 24) + k) (s.fld F.FLT_RG_LAST.MECH d)).applyMmio .caldera) t) ∧
  (∀ (s : State) (d k : Nat), 28 ≤ d → d < 32 → k < 4 → s.testFenced (.block d k) = false → s.dieOut d = false →
    s.unitOut (.block d k) = false →
    ∃ t, exec (.blockFence d k) s = .next t ∧
      Same ((s.fenceLinks (4 * (d - 28) + k) (s.fld F.FLT_RG_LAST.MECH d)).applyMmio .caldera) t) ∧
  (∀ (s : State) (d k : Nat), d < 32 → k < 16 → s.testFenced (.block d k) = false → s.dieOut d = true →
    ∃ t, exec (.blockFence d k) s = .next t ∧
      Same ((s.discard d (b2n (s.dieEn d && !s.dieOff d))).applyMmio .caldera) t) ∧
  (∀ (s : State) (u : FUnit) (lvl : Nat), lvl < 4 → u.wf = true → lvl ≠ 3 ∨ s.flt.caldera = none →
    (s.flt.fences.any fun f => f.unit == u && (decide (f.lvl ≤ lvl) && !f.perm && !f.test)) = true →
    ∃ t, exec (.fenceRelease u lvl) s = .next t ∧
      Same (((s.modFlt fun h => { h with fences := h.fences.filter fun f =>
          !(f.unit == u && (decide (f.lvl ≤ lvl) && !f.perm && !f.test)) }).unfence u).fenceEvent (unitDie u)
        (s.fld F.FLT_RG_LAST.MECH (unitDie u)) lvl u 0) t) ∧
  (∀ (s : State), s.flt.caldera = none → s.pwr.aon = true →
    ∃ t, exec .calderaMismatch s = .next t ∧
      Same (let recent := s.flt.stops.filter fun x => decide (s.tmb.clk < x + 60 * oneSecond)
        let u := s.modFlt fun h => { h with caldera := some s.tmb.clk, stops := recent ++ [s.tmb.clk] }
        ((u.incFld F.FLT_STATUS.CALDERA_STOPS).journal 21 3 (unitSrc (.region 28)) 0).raise 0x001 { mech := 21, level := 3 }
          (if 2 ≤ recent.length then 3 else 0)) t) ∧
  (∀ (s : State),
    ∃ t, exec .calderaResume s = .next t ∧ Same { s with flt := { s.flt with caldera := none } } t)

/-- Powering a die off ends its work, sets its power-off and fence bits, clears what it holds and reports it; powering it
on clears the power-off bit and leaves its fence. Power-up sets the island going. A power-good input is stored in its
rails' PG; one that rises out of order or late sets SEQ_ERR, is journaled and raises source 0x008 with rung 4; once
those of steps 2 to 8 are high the main rails are good and stage 1 begins. A die group leaves reset in its turn, and the
last one enters stage 2. A loss of the main rails moves the island onto the backup cell with alarm 0, each trigger output
to its inactive level, and lost drains to event records; a loss of VDD_AON stops it, and only the journal and what it
records stay. BKP_ACTIVE is shown in PWR_STATUS. -/
def Obligations.DiePowerCommandsComplete : Prop :=
  (∀ (s : State) (d : Nat), d < 32 → s.dieEn d = true → s.dieOff d = false →
    ∃ t, exec (.diePowerOff d) s = .next t ∧
      Same ((let u := ((((s.dropInFlight d []).loseDie d true).setDieBit true d true).setFen d).clearDie d
        (u.modFlt fun h => { h with routeChg := true }).fenceEvent d 0 3 (.region d) 2).applyMmio .caldera) t) ∧
  (∀ (s : State) (d : Nat), d < 32 → s.dieEn d = false ∨ s.dieOff d = true → s.mmio = [] →
    ∃ t, exec (.diePowerOff d) s = .next t ∧ Same s t) ∧
  (∀ (s : State) (d : Nat), d < 32 → s.dieOff d = true → s.fencedUnit (.region d) = true →
    ∃ t, exec (.diePowerOn d) s = .next t ∧
      Same { s.setDieBit true d false with flt := { s.flt with routeChg := true } } t) ∧
  (∀ (s : State) (d : Nat), d < 32 → s.dieOff d = true → (s.setDieBit true d false).fencedUnit (.region d) = false →
    ∃ t, exec (.diePowerOn d) s = .next t ∧
      Same { (s.setDieBit true d false).addFence ⟨.region d, 3, false, false⟩ with
        flt := { ((s.setDieBit true d false).addFence ⟨.region d, 3, false, false⟩).flt with routeChg := true } } t) ∧
  (∀ (s : State) (d : Nat), d < 32 → s.dieOff d = false → ∃ t, exec (.diePowerOn d) s = .next t ∧ Same s t) ∧
  (∀ (s : State), s.pwr.aon = false →
    ∃ t, exec .powerUp s = .next t ∧ Same { s with pwr := { s.pwr with aon := true } } t) ∧
  (∀ (s : State), s.pwr.aon = true → ∃ t, exec .powerUp s = .next t ∧ Same s t) ∧
  (∀ (s : State) (step : Nat), 1 ≤ step → step ≤ 8 → bit s.pwr.pg (step - 1) = false → s.pgError step = false →
    s.pwr.mainGood = true ∨ putBit s.pwr.pg (step - 1) true / 2 % 128 ≠ 127 →
    ∃ t, exec (.pgInput step true) s = .next t ∧ (∀ r ∈ stepRails step, t.flag F.PWR_RAILr.PG r = true) ∧
      SameBut ((stepRails step).map fun r => (F.PWR_RAILr.PG, r)) { s with pwr := { s.pwr with
        pg := putBit s.pwr.pg (step - 1) true, pgClk := SMap.set 0 s.pwr.pgClk step s.tmb.clk } } t) ∧
  (∀ (s : State) (step : Nat), 1 ≤ step → step ≤ 8 → bit s.pwr.pg (step - 1) = false → s.pgError step = false →
    s.pwr.mainGood = false → putBit s.pwr.pg (step - 1) true / 2 % 128 = 127 →
    ∃ t, exec (.pgInput step true) s = .next t ∧ (∀ r ∈ stepRails step, t.flag F.PWR_RAILr.PG r = true) ∧
      t.fld F.PKG_BOOT.STAGE = 1 ∧
      SameBut ((F.PKG_BOOT.STAGE, 0) :: (stepRails step).map fun r => (F.PWR_RAILr.PG, r)) { s with pwr := { s.pwr with
        pg := putBit s.pwr.pg (step - 1) true, pgClk := SMap.set 0 s.pwr.pgClk step s.tmb.clk
        mainGood := true, backup := false } } t) ∧
  (∀ (s : State) (step : Nat), 1 ≤ step → step ≤ 8 → bit s.pwr.pg (step - 1) = false → s.pgError step = true →
    s.pwr.mainGood = true ∨ putBit s.pwr.pg (step - 1) true / 2 % 128 ≠ 127 →
    ∃ t, exec (.pgInput step true) s = .next t ∧
      Same (let u := (stepRails step).foldl (fun u r => u.setFld F.PWR_RAILr.PG r 1) s
        let u := { u with pwr := { u.pwr with
          pg := putBit s.pwr.pg (step - 1) true, pgClk := SMap.set 0 s.pwr.pgClk step s.tmb.clk } }
        ((u.setFld F.PWR_STATUS.SEQ_ERR 0 1).journal 18 3 (unitSrc (.region 28)) step).raise 0x008
          { mech := 18, level := 3, data := step } 4) t) ∧
  (∀ (s : State) (step : Nat), 1 ≤ step → step ≤ 8 → s.pwr.mainGood = true ∨ putBit s.pwr.pg (step - 1) false / 2 % 128 ≠ 127 →
    ∃ t, exec (.pgInput step false) s = .next t ∧ (∀ r ∈ stepRails step, t.flag F.PWR_RAILr.PG r = false) ∧
      SameBut ((stepRails step).map fun r => (F.PWR_RAILr.PG, r))
        { s with pwr := { s.pwr with pg := putBit s.pwr.pg (step - 1) false } } t) ∧
  (∀ (s : State) (grp : Nat), 1 ≤ grp → grp ≤ 5 → s.fld F.PKG_BOOT.STAGE = 1 → s.flag F.PWR_STATUS.SEQ_ERR = false →
    s.pwr.released + 1 = grp →
    ∃ t, exec (.dieRelease grp) s = .next t ∧
      t.fld F.PKG_BOOT.STAGE = (if grp = 5 then 2 else 1) ∧
      (grp ≠ 5 → t.flt.hb = s.flt.hb) ∧
      SameBut [(F.PKG_BOOT.STAGE, 0)] { s with pwr := { s.pwr with released := grp }, flt := { s.flt with hb := t.flt.hb } } t) ∧
  (∀ (s : State) (grp : Nat), 1 ≤ grp → grp ≤ 5 →
    s.fld F.PKG_BOOT.STAGE ≠ 1 ∨ s.flag F.PWR_STATUS.SEQ_ERR = true ∨ s.pwr.released + 1 ≠ grp →
    ∃ t, exec (.dieRelease grp) s = .next t ∧ Same s t) ∧
  (∀ (s : State), s.pwr.mainGood = true → s.pwr.aon = true → s.pwr.pg / 2 % 128 ≠ 127 →
    ∃ t, exec .mainRailsLost s = .next t ∧
      Same (let x := (List.range 4).foldl (fun s n => trigReset n s) s.tearJournal
        let u := x.withIsland ((x.cleared (fun k _ => k.island) inJournal false).dropUnrecorded (s.flt.jrnl.take 1))
        let u := { u with pwr := { u.pwr with mainGood := false, backup := true, warm := false, entry := [] } }
        (((List.range 24).flatMap fun g => (x.core g).drains).foldl (fun u d => u.drainEvent d) u).alarm 0) t) ∧
  (∀ (s : State), s.pwr.mainGood = false ∨ s.pwr.aon = false ∨ s.pwr.pg / 2 % 128 = 127 →
    ∃ t, exec .mainRailsLost s = .next t ∧ Same s t) ∧
  (∀ (s : State), s.pwr.aon = true →
    ∃ t, exec .vddAonLoss s = .next t ∧ t.pwr.aon = false ∧
      Same (let u := (s.tearJournal.cleared (fun k _ => k == .FLT_JRNL_TORN) inJournal false).dropUnrecorded s.flt.jrnl
        { u.modFlt (fun h => { h with jrnl := [] }) with pwr := { aon := false } }.applyMaps) t) ∧
  (∀ (s : State) (high : Bool),
    ∃ t, exec (.bkpActiveChange high) s = .next t ∧ t.flag F.PWR_STATUS.BACKUP = high ∧ t.pwr.bkp = high ∧
      SameBut [(F.PWR_STATUS.BACKUP, 0)] { s with pwr := { s.pwr with bkp := high } } t)

/-- Each detection takes the action the spec gives it and reports it. A sequencer mismatch kills every command of the core
for re-run. A failing bridge flit is counted, and the third successive one on its hop escalates to Caldera, which is to
fence the router. A missed slot-control message, and a tick not arrived, act as the shared operations named here do. A
progress word found at D - M only marks the margin check as made, and at D ends the entry's watch; one that is missing is
counted, flags its cell and is reported. A timing error past the limit stops radio transmission. A clock past its limit is
reported, with rung 3 where it has stood for 1 ms. Five successive samples of a rail outside its range set RFAULT. Three
missing heartbeats fence the region, and an unserviced watchdog stops the device's sends. A heartbeat and a service
restart their counts. -/
def Obligations.DetectionCommandsComplete : Prop :=
  (∀ (s : State) (g : Nat), g < 24 → s.coreOut g = false →
    ∃ t, exec (.sequencerMismatch g) s = .next t ∧ Same (s.coreMiss g 3 fun s => s.killAll g) t) ∧
  (∀ (s : State) (g : Nat), g < 24 → s.coreOut g = true →
    ∃ t, exec (.sequencerMismatch g) s = .next t ∧ Same (s.discard (g / 2) (b2n (s.dieEn (g / 2) && !s.dieOff (g / 2)))) t) ∧
  (∀ (s : State) (d : Nat) (again : Bool), d < 12 ∨ (24 ≤ d ∧ d < 32) → again = false ∨ SMap.get 0 s.flt.hops d ≠ 2 →
    ∃ t, exec (.bridgeFlitResend d again) s = .next t ∧
      t.fld F.FLT_RG_CNT.TILE d = min (s.fld F.FLT_RG_CNT.TILE d + 1) (2 ^ F.FLT_RG_CNT.TILE.w - 1) ∧
      SameBut [(F.FLT_RG_CNT.TILE, d), (F.FLT_RG_LAST.MECH, d), (F.FLT_RG_LAST.UNIT, d), (F.FLT_RG_LAST.LEVEL, d),
        (F.FLT_RG_LAST.INJ, d), (F.FLT_RG_LAST.TICK, d)]
        { s with flt := { s.flt with hops := SMap.set 0 s.flt.hops d (if again then SMap.get 0 s.flt.hops d + 1 else 1) } } t) ∧
  (∀ (s : State) (d : Nat), d < 12 ∨ (24 ≤ d ∧ d < 32) → SMap.get 0 s.flt.hops d = 2 →
    ∃ t, exec (.bridgeFlitResend d true) s = .next t ∧
      Same (let u := ((s.countAction d 0).lastFault d 7 (unitSrc (.router d)) 0).modFlt fun h => { h with hops := SMap.set 0 h.hops d 0 }
        let u := (u.incFld F.FLT_RG_CNT.ESC d).modFlt fun h => { h with waiting := h.waiting ++ [⟨.router d, 3, false, false⟩] }
        u.raise (regSrc d 0) { mech := 7, level := 2, data := unitSrc (.router d) }) t) ∧
  (∀ (s : State) (n at' : Nat), n < 4 → s.gey.next = some at' → bit (s.rdFault n).sctl 0 = true →
    s.flag F.GEY_CTRL.TICKING = true → at' ≤ s.now + bits (s.rdFault n).sctl 20 1 → s.dieOut (24 + n) = false →
    (s.crcU (16 * n + 15)).tick ≠ some s.tickNo → (s.rdFault n).sctlTick ≠ some s.tickNo →
    ∃ t, exec (.slotControlMiss n) s = .next t ∧ Same (s.sctlMiss n false) t) ∧
  (∀ (s : State) (n i a : Nat), n < 4 → i < 256 → s.dlmAddr n i = some a → (s.dlmEntry n a).valid = true →
    (s.dlmEntry n a).d ≤ s.now + s.gey.margin * 100 → SMap.get 0 (s.rdFault n).margin i ≠ (s.dlmEntry n a).d →
    ∃ t, exec (.deadlineMarginCheck n i) s = .next t ∧
      Same (let e := s.dlmEntry n a
        let u := s.setRdFault n { s.rdFault n with margin := SMap.set 0 (s.rdFault n).margin i e.d }
        if e.done then u
        else ((if e.cell < 96 then u.cfwFlag n e.cell s.tickNo 1 else u).incFld F.FLT_DLM_CNT.MARGIN n).raise (regSrc (24 + n) 12)
          { mech := 12, level := 2, data := unitSrc (.region (24 + n)) }) t) ∧
  (∀ (s : State) (n i a : Nat), n < 4 → i < 256 → s.dlmAddr n i = some a → (s.dlmEntry n a).valid = true →
    (s.dlmEntry n a).d ≤ s.now → (s.dlmEntry n a).done = true →
    ∃ t, exec (.deadlineCheck n i) s = .next t ∧
      Same ((s.setRdFault n { s.rdFault n with margin := SMap.set 0 (s.rdFault n).margin i 0 }).write (a + 20) [s.rd (a + 20) &&& 0xFE#8]) t) ∧
  (∀ (s : State) (n i a : Nat), n < 4 → i < 256 → s.dlmAddr n i = some a → (s.dlmEntry n a).valid = true →
    (s.dlmEntry n a).d ≤ s.now → (s.dlmEntry n a).done = false →
    ∃ t, exec (.deadlineCheck n i) s = .next t ∧
      Same (let e := s.dlmEntry n a
        let u := s.setRdFault n { s.rdFault n with margin := SMap.set 0 (s.rdFault n).margin i 0 }
        let twice := decide (e.cell < 96 ∧ 0 < s.tickNo) && u.cfwHas n e.cell (s.tickNo - 1) 2
        let u := ((if e.cell < 96 then u.cfwFlag n e.cell s.tickNo 2 else u).incFld F.FLT_DLM_CNT.DEADLINE n).incFld F.FLT_STATUS.DEADLINE
        let u := u.detect (24 + n) 12 2 (unitSrc (.region (24 + n))) 0 (if twice then 2 else 0)
        u.write (a + 20) [u.rd (a + 20) &&& 0xFE#8]) t) ∧
  (∀ (s : State) (d : Nat), d < 32 → s.flag F.GEY_CTRL.TICKING = true → s.gey.fresh = false → s.dieOut d = false →
    ∃ t, exec (.tickMissing d) s = .next t ∧ Same (s.tickFault d false) t) ∧
  (∀ (s : State), s.flag F.TMB_STATUS.REF_LOSS = true → s.flag F.FLT_STATUS.TSTOP = false →
    s.fld F.FLT_CTRL.TERR_LIM * 100000000 < (s.tmb.clk - s.tmb.lossClk) * 3200 →
    ∃ t, exec .timingStop s = .next t ∧
      Same (let u := (List.range 4).foldl (fun s n => trigCancel n s) (s.setFld F.FLT_STATUS.TSTOP 0 1)
        ((u.radioDies.foldl (fun s n => s.cellsFlag n s.tickNo 6) u).journal 16 3 (unitSrc (.region 28)) 0).raise 0x005 { mech := 16, level := 3 }) t) ∧
  (∀ (s : State), s.fld F.TMB_STATUS.LOCK = 2 →
    ∃ t, exec .tstopClear s = .next t ∧ t.flag F.FLT_STATUS.TSTOP = false ∧ SameBut [(F.FLT_STATUS.TSTOP, 0)] s t) ∧
  (∀ (s : State), s.fld F.TMB_STATUS.LOCK ≠ 2 → ∃ t, exec .tstopClear s = .next t ∧ Same s t) ∧
  (∀ (s : State) (d : Nat) (clk : ClockDev), (Instr.clockFault d clk).wf = true → s.dieOff d = false → s.dieEn d = true →
    (if s.fld F.PWR_DET_CTRL.STATE = 2 ∨ s.radioClock d clk.clk = true then 1000 else 20000) < clk.ppm →
    ∃ t, exec (.clockFault d clk) s = .next t ∧
      Same (let stands := s.flt.misses.any fun m => m.mech == 0x110 + clk.clk && m.src == unitSrc (.region d) &&
          decide (m.clk + 156250 ≤ s.tmb.clk ∧ s.tmb.clk < m.clk + oneSecond)
        ((s.note (0x110 + clk.clk) (unitSrc (.region d))).incFld F.FLT_RG_CNT.ESC d).detect d 17 3 (unitSrc (.region d)) 0
          (if stands then 3 else 0)) t) ∧
  (∀ (s : State) (r : RailRun), r.rail < 9 → 5 ≤ r.samples.length →
    (r.samples.drop (r.samples.length - 5)).all (s.railBad r.rail) = true →
    ∃ t, exec (.railFault r) s = .next t ∧
      Same ((((s.setFld F.PWR_RAILr.V r.rail (r.samples.getLastD 0)).setFld F.PWR_RAILr.RFAULT r.rail 1).journal 18 3
        (unitSrc (.region 28)) r.rail).raise 0x006 { mech := 18, level := 3, data := r.rail } 4) t) ∧
  (∀ (s : State) (d : Nat), d < 32 → s.dieOff d = false →
    ∃ t, exec (.regionHeartbeat d) s = .next t ∧ Same { s with flt := { s.flt with hb := SMap.set 0 s.flt.hb d s.tmb.clk } } t) ∧
  (∀ (s : State) (d : Nat), d < 32 → 2 ≤ s.fld F.PKG_BOOT.STAGE → s.flag F.FLT_RG_STATUS.HB_FAIL d = false →
    s.dieOut d = false → SMap.get 0 s.flt.hb d + 1875 ≤ s.tmb.clk →
    ∃ t, exec (.heartbeatMiss d) s = .next t ∧
      Same (((((s.setFld F.FLT_RG_STATUS.HB_FAIL d 1).incFld F.FLT_RG_CNT.ESC d).detect d 20 3 (unitSrc (.region d)) 0).fenceRegion d).applyMmio
        .caldera) t) ∧
  (∀ (s : State), s.flt.caldera = none → s.pwr.aon = true →
    ∃ t, exec .watchdogService s = .next t ∧ Same { s with flt := { s.flt with wdtClk := s.tmb.clk } } t) ∧
  (∀ (s : State), s.flt.wdtStop = false → s.pwr.aon = true → s.flt.wdtClk + 7813 ≤ s.tmb.clk →
    ∃ t, exec .watchdogExpiry s = .next t ∧ t.flt.wdtStop = true ∧
      Same (let u := ((s.modFlt fun h => { h with wdtStop := true }).setFld F.FLT_STATUS.WDT 0 1).alarm 6 3
        (u.setFld F.FLT_STATUS.RUNG 0 (max (u.fld F.FLT_STATUS.RUNG) 3)).raise 0x002 { mech := 22, level := 3 } 3) t)

/-- Caldera writes the oldest waiting record into the slot that HEAD + 1 names, with its CRC, and advances HEAD; on the backup
cell after AON_LOW a record may be lost instead (R385; log entry 186). The presentation raises source 0 with the next record that has not been presented. Clearing bits of FLT_ALERT releases
ALERT_N once none is set. AON_LOW raises alarm 1 on the backup cell. RUNG_CLR clears RUNG. A warm reset with the main
rails good and BKP_ACTIVE low holds the trigger outputs inactive, enters stage 2 and clears what Table 13-4 clears; with
BKP_ACTIVE high or the main rails lost it is ignored. PCYC_REQ toggles, and where it becomes 1 with in-band interrupts on
one is raised. -/
def Obligations.JournalAndResetCommandsComplete : Prop :=
  (∀ (s : State) (r : JrnlRec) (l : List JrnlRec), s.flt.jrnl = r :: l → s.flt.caldera = none → s.pwr.aon = true →
    s.pwr.backup = false ∨ bit (s.fld F.FLT_ALERT.ALARM) 1 = false →
    ∃ t, exec .journalWrite s = .next t ∧
      Same ((let n := (s.fld F.FLT_JRNL.HEAD + 1) % 2 ^ 32
        ((s.modFlt fun h => { h with jrnl := l }).write (jrnlAddr n) (jrnlBody n r ++ bytesOf 4 (crc32 (jrnlBody n r)))).setFld
          F.FLT_JRNL.HEAD 0 n).mapRecorded r) t) ∧
  (∀ (s : State) (r : JrnlRec) (l : List JrnlRec), s.flt.jrnl = r :: l → s.flt.caldera = none → s.pwr.aon = true →
    s.pwr.backup = true → bit (s.fld F.FLT_ALERT.ALARM) 1 = true →
    ∃ t, exec .journalWrite s = .next t ∧
      (Same { s with free := s.free + 1, flt := { s.flt with jrnl := l } } t ∨
        Same ((let n := (s.fld F.FLT_JRNL.HEAD + 1) % 2 ^ 32
          (({ s with free := s.free + 1 }.modFlt fun h => { h with jrnl := l }).write (jrnlAddr n)
            (jrnlBody n r ++ bytesOf 4 (crc32 (jrnlBody n r)))).setFld F.FLT_JRNL.HEAD 0 n).mapRecorded r) t)) ∧
  (∀ (s : State), s.flt.presenting = true → s.fld F.PKG_BOOT.STAGE = 6 → s.flag F.EVC_SRCn.ACTIVE 0 = false →
    s.flt.caldera = none → (s.evCap 0).jrnl = false → s.fld F.FLT_JRNL.PRESENTED < s.fld F.FLT_JRNL.HEAD →
    s.fld F.FLT_JRNL.HEAD ≤ s.fld F.FLT_JRNL.PRESENTED + jrnlRecs →
    ∃ t, exec .journalPresentation s = .next t ∧
      Same (let n := (s.fld F.FLT_JRNL.PRESENTED + 1) % 2 ^ 32
        let u := s.meet (jrnlAddr n) 32
        let v := u.readNat (jrnlAddr n) 32
        u.raise 0x000 { mech := bits v 39 32, level := bits v 41 40, jrnl := true, data := bits v 63 48, ext := true
                        xdata := bits v 191 128, xdata1 := bits v 42 42 + n % 2 ^ 30 * 2, time := some (bits v 127 64) }) t) ∧
  (∀ (s : State) (v : BitVec 32),
    ∃ t, exec (.alertClear v) s = .next t ∧
      (∀ i < 7, bit (t.fld F.FLT_ALERT.ALARM) i = (bit (s.fld F.FLT_ALERT.ALARM) i && !bit v.toNat i)) ∧
      (t.fld F.FLT_ALERT.ALARM = 0 → t.flag F.FLT_STATUS.ALERT = false) ∧
      SameBut [(F.FLT_ALERT.ALARM, 0), (F.FLT_STATUS.ALERT, 0)] s t) ∧
  (∀ (s : State), s.pwr.aon = true → s.pwr.backup = true →
    ∃ t, exec .aonLow s = .next t ∧ Same (s.alarm 1 4) t) ∧
  (∀ (s : State), s.pwr.aon = false ∨ s.pwr.backup = false → ∃ t, exec .aonLow s = .next t ∧ Same s t) ∧
  (∀ (s : State),
    ∃ t, exec .rungClear s = .next t ∧ t.fld F.FLT_STATUS.RUNG = 0 ∧ SameBut [(F.FLT_STATUS.RUNG, 0)] s t) ∧
  (∀ (s : State), s.pwr.bkp = false → s.pwr.mainGood = true →
    ∃ t, exec .warmReset s = .next t ∧
      Same (let x := (List.range 4).foldl (fun s n => trigReset n s) s
        let u := x.keepOff (x.withIsland (x.cleared (fun k key => k.island || k.config || x.keepOwner k key) x.keepByte true))
        let u := ((u.setFld F.PKG_BOOT.STAGE 0 2).setFld F.PKG_BOOT.SLOT 0 (x.fld F.PKG_BOOT.SLOT)).setFld F.PKG_FW_CMD.STAGED 0
          (b2n (x.flag F.PKG_FW_CMD.STAGED && !x.flag F.PKG_FW_CMD.BUSY))
        let u := { u with pwr := { u.pwr with warm := true, entry := x.pwr.entry, released := x.pwr.released } }
        let u := u.modFlt fun h => { h with presenting := true, routes := u.routersOut
                                            renewed := (x.flt.renewed.filter fun e => !x.flt.asked.contains e.1) ++
                                              x.flt.asked.map fun k => (k, x.tmb.clk) }
        if s.tmb.onReplica then
          let u := u.fromReplica
          if u.dieFen 28 then takeover u else { u.setFld F.TMB_STATUS.TAKEOVER 0 0 with tmb := { u.tmb with onReplica := false } }
        else u) t) ∧
  (∀ (s : State), s.pwr.bkp = true ∨ s.pwr.mainGood = false → ∃ t, exec .warmReset s = .next t ∧ Same s t) ∧
  (∀ (s : State), s.flag F.PKG_RESET.PCYC_REQ = true ∨ s.pwr.i3cIbi = false →
    ∃ t, exec .powerCycleRequest s = .next t ∧
      t.flag F.PKG_RESET.PCYC_REQ = (!s.flag F.PKG_RESET.PCYC_REQ) ∧ SameBut [(F.PKG_RESET.PCYC_REQ, 0)] s t) ∧
  (∀ (s : State), s.flag F.PKG_RESET.PCYC_REQ = false → s.pwr.i3cIbi = true →
    ∃ t, exec .powerCycleRequest s = .next t ∧
      Same ((s.setFld F.PKG_RESET.PCYC_REQ 0 1).emit (.ibi (s.fld F.FLT_ALERT.ALARM))) t)

/-- With BUSY 0, a test fence of a unit that may take one stops its work, fences it and sets STATE; one that may not is refused
with ERR 1. A run starts where the package, its signature and the buffer are good; its end stores STATUS, CYCLES and the
digest of the first OUTLEN bytes of the buffer and clears BUSY; what the unit has left there is free (log entry 78). A
unit that passed returns by OP 2, and by OP 3 with its permanent fences and maps released; any other is refused with
ERR 4. While BUSY is 1, GO is ignored. A fault injection of a mechanism that acts at once is made at once; mechanisms 1 and
9 wait for the next pass of the array and the next job of the engine; codes 16 and 18 to 22 are refused. A write to a
window that does not answer is ignored. -/
def Obligations.UnitTestCommandsComplete : Prop :=
  (∀ (s : State) (v : Word), s.flag F.FLT_TEST_CMD.BUSY = false → testKind (unitOf (bits v.toNat 15 0)) ≠ none →
    s.dieOut (unitDie (unitOf (bits v.toNat 15 0))) = false → s.testState (unitOf (bits v.toNat 15 0)) ≠ 1 →
    s.testRefused (unitOf (bits v.toNat 15 0)) = false → s.flt.caldera = none →
    ∃ t, exec (.testFence v) s = .next t ∧
      Same (let w := unitOf (bits v.toNat 15 0)
        let x := (s.setFld F.FLT_TEST_CMD.UNIT 0 (bits v.toNat 15 0)).setFld F.FLT_TEST_CMD.OP 0 0
        let u := (x.testStop w).addFence ⟨w, 3, false, true⟩
        (((u.modFlt fun h => { h with tests := SMap.set 0 h.tests (unitSrc w) 0 }).fenceEvent (unitDie w) 0 3 w 0).testErr w 0).applyMmio
          .caldera) t) ∧
  (∀ (s : State) (v : Word), s.flag F.FLT_TEST_CMD.BUSY = false → s.mmio = [] →
    testKind (unitOf (bits v.toNat 15 0)) = none ∨ s.dieOut (unitDie (unitOf (bits v.toNat 15 0))) = true ∨
      s.testState (unitOf (bits v.toNat 15 0)) = 1 ∨ s.testRefused (unitOf (bits v.toNat 15 0)) = true ∨ s.flt.caldera ≠ none →
    ∃ t, exec (.testFence v) s = .next t ∧ t.fld F.FLT_TEST_CMD.ERR = 1 ∧
      t.fld F.FLT_TEST_CMD.STATE = s.testState (unitOf (bits v.toNat 15 0)) ∧
      SameBut [(F.FLT_TEST_CMD.UNIT, 0), (F.FLT_TEST_CMD.OP, 0), (F.FLT_TEST_CMD.ERR, 0), (F.FLT_TEST_CMD.STATE, 0)] s t) ∧
  (∀ (s : State) (v : Word), s.flag F.FLT_TEST_CMD.BUSY = false →
    ∃ t, exec (.testRun v) s = .next t ∧
      Same ((((s.setFld F.FLT_TEST_CMD.UNIT 0 (bits v.toNat 15 0)).setFld F.FLT_TEST_CMD.OP 0 1).testStart
        (unitOf (bits v.toNat 15 0))).applyMmio .caldera) t) ∧
  (∀ (s : State) (v : Word), s.flag F.FLT_TEST_CMD.BUSY = true → s.mmio = [] →
    ∃ t, exec (.testRun v) s = .next t ∧ SameBut [(F.FLT_TEST_CMD.UNIT, 0), (F.FLT_TEST_CMD.OP, 0)] s t) ∧
  (∀ (s : State) (cycles status : Nat), status < 4 → s.flag F.FLT_TEST_CMD.BUSY = true →
    ∃ t, exec (.testRunEnd cycles status) s = .next t ∧
      Same (let u := unitOf (s.fld F.FLT_TEST_CMD.UNIT)
        let st := if s.flt.testBudget < cycles then 2 else min status 1
        let d := (s.freshBytes s.flt.testLen).1
        let x := ((s.freshBytes s.flt.testLen).2.putRam 0 (s.fld F.FLT_TEST_BUF.ADDR / 64 * 64) d).setFld F.FLT_TEST_RES.DIGEST 0
          (digest s.flt.testKey d)
        let x := ((x.setFld F.FLT_TEST_RES.CYCLES 0 (min cycles (2 ^ 32 - 1))).setFld F.FLT_TEST_RES.STATUS 0 st).setFld
          F.FLT_TEST_CMD.BUSY 0 0
        (x.modFlt fun h => { h with tests := SMap.set 0 h.tests (unitSrc u) (if st = 0 then digest s.flt.testKey d + 1 else 0) }).setFld
          F.FLT_TEST_CMD.STATE 0 (s.testState u)) t) ∧
  (∀ (s : State) (v : Word), s.flag F.FLT_TEST_CMD.BUSY = false →
    SMap.get 0 s.flt.tests (unitSrc (unitOf (bits v.toNat 15 0))) = s.fld F.FLT_TEST_EXP.EXPECT + 1 →
    s.testState (unitOf (bits v.toNat 15 0)) = 1 → s.flt.caldera = none →
    ∃ t, exec (.testReturn v) s = .next t ∧
      Same (let w := unitOf (bits v.toNat 15 0)
        let x := (s.setFld F.FLT_TEST_CMD.UNIT 0 (bits v.toNat 15 0)).setFld F.FLT_TEST_CMD.OP 0 2
        let u := (x.releaseFences w 3 fun f => !f.perm)
        let u := u.modFlt fun h => { h with tests := SMap.set 0 h.tests (unitSrc w) 0
                                            returning := if u.flag F.GEY_CTRL.TICKING then h.returning ++ [w] else h.returning }
        ((u.testScrub w).testErr w 0).applyMmio .caldera) t) ∧
  (∀ (s : State) (v : Word), s.flag F.FLT_TEST_CMD.BUSY = false → s.mmio = [] →
    SMap.get 0 s.flt.tests (unitSrc (unitOf (bits v.toNat 15 0))) ≠ s.fld F.FLT_TEST_EXP.EXPECT + 1 ∨
      s.testState (unitOf (bits v.toNat 15 0)) ≠ 1 →
    ∃ t, exec (.testReturn v) s = .next t ∧ t.fld F.FLT_TEST_CMD.ERR = 4 ∧
      t.fld F.FLT_TEST_CMD.STATE = s.testState (unitOf (bits v.toNat 15 0)) ∧
      SameBut [(F.FLT_TEST_CMD.UNIT, 0), (F.FLT_TEST_CMD.OP, 0), (F.FLT_TEST_CMD.ERR, 0), (F.FLT_TEST_CMD.STATE, 0)] s t) ∧
  (∀ (s : State) (v : Word), s.flag F.FLT_TEST_CMD.BUSY = false →
    SMap.get 0 s.flt.tests (unitSrc (unitOf (bits v.toNat 15 0))) = s.fld F.FLT_TEST_EXP.EXPECT + 1 →
    s.testState (unitOf (bits v.toNat 15 0)) = 1 → s.flt.caldera = none →
    ∃ t, exec (.testRelease v) s = .next t ∧
      Same (let w := unitOf (bits v.toNat 15 0)
        let x := (s.setFld F.FLT_TEST_CMD.UNIT 0 (bits v.toNat 15 0)).setFld F.FLT_TEST_CMD.OP 0 3
        let u := ((x.testUnmap w).releaseFences w 3 fun f => !f.perm)
        let u := u.modFlt fun h => { h with tests := SMap.set 0 h.tests (unitSrc w) 0
                                            returning := if u.flag F.GEY_CTRL.TICKING then h.returning ++ [w] else h.returning }
        ((u.testScrub w).testErr w 0).applyMmio .caldera) t) ∧
  (∀ (s : State) (d : Nat) (v : BitVec 32), d < 32 → bit v.toNat 24 = true →
    bits v.toNat 7 0 ∈ [2, 3, 4, 5, 6, 7, 8, 10, 11, 12, 13, 14, 15, 17] → s.dieOut d = false →
    s.takesWrite .FLT_INJECT d = true → ∃ t, exec (.faultInject d v) s = .next t ∧
      Same ((((s.setFld F.FLT_INJECT.MECH d (bits v.toNat 7 0)).setFld F.FLT_INJECT.UNIT d (bits v.toNat 23 8)).setFld F.FLT_INJECT.ARM d 0).injectNow
        d (bits v.toNat 7 0) (unitOf (d * 2048 + bits v.toNat 23 8 % 2048))) t) ∧
  (∀ (s : State) (d k i : Nat) (v : BitVec 32), d < 12 → k < 2 → i < 4 → bit v.toNat 24 = true → bits v.toNat 7 0 = 1 →
    unitOf (d * 2048 + bits v.toNat 23 8 % 2048) = .tile d k i → s.dieOut d = false → s.takesWrite .FLT_INJECT d = true →
    ∃ t, exec (.faultInject d v) s = .next t ∧ t.flag F.FLT_INJECT.ARM d = true ∧
      t.fld F.MXC_ARR_INJECT.KIND (8 * d + 4 * k + i) = 1 ∧ t.flag F.MXC_ARR_INJECT.ARM (8 * d + 4 * k + i) = true ∧
      SameBut [(F.FLT_INJECT.MECH, d), (F.FLT_INJECT.UNIT, d), (F.FLT_INJECT.ARM, d), (F.MXC_ARR_INJECT.KIND, 8 * d + 4 * k + i),
        (F.MXC_ARR_INJECT.ARM, 8 * d + 4 * k + i)] s t) ∧
  (∀ (s : State) (d i : Nat) (v : BitVec 32), 24 ≤ d → d < 28 → i < 18 → bit v.toNat 24 = true → bits v.toNat 7 0 = 9 →
    unitOf (d * 2048 + bits v.toNat 23 8 % 2048) = .tile d 4 i → s.dieOut d = false → s.takesWrite .FLT_INJECT d = true →
    ∃ t, exec (.faultInject d v) s = .next t ∧ t.flag F.FLT_INJECT.ARM d = true ∧
      SameBut [(F.FLT_INJECT.MECH, d), (F.FLT_INJECT.UNIT, d), (F.FLT_INJECT.ARM, d)] s t) ∧
  (∀ (s : State) (d : Nat) (v : BitVec 32), d < 32 →
    bit v.toNat 24 = false ∨ bits v.toNat 7 0 ∈ [0, 16, 18, 19, 20, 21, 22] → s.takesWrite .FLT_INJECT d = true →
    ∃ t, exec (.faultInject d v) s = .next t ∧ t.flag F.FLT_INJECT.ARM d = false ∧
      SameBut [(F.FLT_INJECT.MECH, d), (F.FLT_INJECT.UNIT, d), (F.FLT_INJECT.ARM, d)] s t) ∧
  (∀ (s : State) (d : Nat) (v : BitVec 32), d < 32 → s.takesWrite .FLT_INJECT d = false →
    ∃ t, exec (.faultInject d v) s = .next t ∧ Same s t)

/-- When the word of a row issues, nop goes on; j and jal go to PC + IMM, jal leaving PC + 1 in RD; jr goes to the value
of RA; beq, bne, blt and bge go to PC + IMM where RA equals, differs from, is less than, or is not less than RB
(signed), and otherwise to the next word; dbnz writes RA - 1 and branches where that is not 0. A target outside the
program kills with ILLEGAL (State.goto says both). A poisoned register that steers kills with POISON. Nothing else
changes but which context issued last. -/
def Obligations.ControlFlowCompletes : Prop :=
  (∀ (s : State) (g c w : Nat) (x : Ctx), Issues 0x00 s g c w x →
    ∃ t, exec (.nop g c) s = .next t ∧ Same (into s g c { x with pc := x.pc + 1 }) t) ∧
  (∀ (s : State) (g c w : Nat) (x : Ctx), Issues 0x01 s g c w x →
    ∃ t, exec (.j g c) s = .next t ∧ Same ((issued s g c).goto g c x (x.pc + sext 32 (iImm w))) t) ∧
  (∀ (s : State) (g c w : Nat) (x : Ctx), Issues 0x02 s g c w x →
    ∃ t, exec (.jal g c) s = .next t ∧
          Same ((issued s g c).goto g c (x.setR (iRd w) (x.pc + 1) false) (x.pc + sext 32 (iImm w))) t) ∧
  (∀ (s : State) (g c w : Nat) (x : Ctx), Issues 0x03 s g c w x → x.poisoned (iRa w) = false →
    ∃ t, exec (.jr g c) s = .next t ∧ Same ((issued s g c).goto g c x (x.val (iRa w))) t) ∧
  (∀ (s : State) (g c w : Nat) (x : Ctx), Issues 0x04 s g c w x →
    x.poisoned (iRa w) = false ∧ x.poisoned (iRb w) = false →
    ∃ t, exec (.beq g c) s = .next t ∧
          Same (if x.val (iRa w) = x.val (iRb w) then (issued s g c).goto g c x (x.pc + sext 32 (iImm w)) else into s g c x.next) t) ∧
  (∀ (s : State) (g c w : Nat) (x : Ctx), Issues 0x05 s g c w x →
    x.poisoned (iRa w) = false ∧ x.poisoned (iRb w) = false →
    ∃ t, exec (.bne g c) s = .next t ∧
          Same (if x.val (iRa w) = x.val (iRb w) then into s g c x.next else (issued s g c).goto g c x (x.pc + sext 32 (iImm w))) t) ∧
  (∀ (s : State) (g c w : Nat) (x : Ctx), Issues 0x06 s g c w x →
    x.poisoned (iRa w) = false ∧ x.poisoned (iRb w) = false →
    ∃ t, exec (.blt g c) s = .next t ∧
          Same (if sext 64 (x.val (iRa w)) < sext 64 (x.val (iRb w)) then (issued s g c).goto g c x (x.pc + sext 32 (iImm w))
            else into s g c x.next) t) ∧
  (∀ (s : State) (g c w : Nat) (x : Ctx), Issues 0x07 s g c w x →
    x.poisoned (iRa w) = false ∧ x.poisoned (iRb w) = false →
    ∃ t, exec (.bge g c) s = .next t ∧
          Same (if sext 64 (x.val (iRa w)) < sext 64 (x.val (iRb w)) then into s g c x.next
            else (issued s g c).goto g c x (x.pc + sext 32 (iImm w))) t) ∧
  (∀ (s : State) (g c w : Nat) (x : Ctx), Issues 0x08 s g c w x → x.poisoned (iRa w) = false → iRa w ≠ 0 →
    ∃ t, exec (.dbnz g c) s = .next t ∧
          Same (let v := (x.val (iRa w) + 2 ^ 64 - 1) % 2 ^ 64
            if v ≠ 0 then (issued s g c).goto g c (x.setR (iRa w) v false) (x.pc + sext 32 (iImm w))
            else into s g c (x.setR (iRa w) v false).next) t) ∧
  (∀ (s : State) (g c w : Nat) (x : Ctx), Issues 0x08 s g c w x → iRa w = 0 →
    ∃ t, exec (.dbnz g c) s = .next t ∧ Same (into s g c x.next) t) ∧
  (∀ (s : State) (g c w op : Nat) (i : Instr) (x : Ctx), (op, i) ∈ [(0x03, Instr.jr g c), (0x08, .dbnz g c)] →
    Issues op s g c w x → x.poisoned (iRa w) = true →
    ∃ t, exec i s = .next t ∧ Same ((issued s g c).killEnd g c 6) t) ∧
  (∀ (s : State) (g c w op : Nat) (i : Instr) (x : Ctx),
    (op, i) ∈ [(0x04, Instr.beq g c), (0x05, .bne g c), (0x06, .blt g c), (0x07, .bge g c)] →
    Issues op s g c w x → x.poisoned (iRa w) = true ∨ x.poisoned (iRb w) = true →
    ∃ t, exec i s = .next t ∧ Same ((issued s g c).killEnd g c 6) t)

/-- When the word issues, the scalar operation of FN on RA and on RB or the sign-extended immediate, the product, the
48-bit immediate or the system value is written to RD with the poison of the operands read, and the context goes to
the next word; register 0 discards it (Ctx.setR). ld and sdld check the address and block their context on the read;
st stages its bytes at RA + IMM. An address they may not use kills the command with ADDR, and a poisoned RA with POISON.
Shifts take the low 6 bits of their amount by log entry 41. -/
def Obligations.ScalarCommandsComplete : Prop :=
  (∀ (s : State) (g c w : Nat) (x : Ctx), Issues 0x20 s g c w x →
    ∃ t, exec (.scalarOp g c) s = .next t ∧
          Same (let imm := bit (iFn w) 5
            let b := if imm then wrap 64 (sext 32 (iImm w)) else x.val (iRb w)
            into s g c (x.setR (iRd w) (alu (iFn w % 16) (x.val (iRa w)) b)
              (x.poisoned (iRa w) || (!imm && x.poisoned (iRb w)))).next) t) ∧
  (∀ (s : State) (g c w : Nat) (x : Ctx), Issues 0x21 s g c w x →
    ∃ t, exec (.mul g c) s = .next t ∧
          Same (into s g c (x.setR (iRd w) (mulHalf (iFn w) (x.val (iRa w)) (x.val (iRb w)))
            (x.poisoned (iRa w) || x.poisoned (iRb w))).next) t) ∧
  (∀ (s : State) (g c w : Nat) (x : Ctx), Issues 0x22 s g c w x →
    ∃ t, exec (.li g c) s = .next t ∧ Same (into s g c (x.setR (iRd w) (wrap 64 (sext 48 (bits w 47 0))) false).next) t) ∧
  (∀ (s : State) (g c w : Nat) (x : Ctx), Issues 0x25 s g c w x →
    ∃ t, exec (.rdsys g c) s = .next t ∧
          Same (into s g c (x.setR (iRd w) (match iFn w with
            | 0 => s.frameCyc
            | 1 => s.tickNo
            | 2 => x.cmd.tag
            | 3 => x.basin
            | 4 => c
            | 5 => x.cmd.kills
            | _ => g) false).next) t) ∧
  (∀ (s : State) (g c w : Nat) (x : Ctx), Issues 0x23 s g c w x → x.poisoned (iRa w) = false →
    (issued s g c).badAddr (s.coreWho g x) false (addImm (x.val (iRa w)) w) (2 ^ (iFn w % 4)) = none →
    ∃ t, exec (.ld g c) s = .next t ∧
          Same (into s g c { x with blk := .load (addImm (x.val (iRa w)) w) (2 ^ (iFn w % 4)) (iRd w) (iFn w) }) t) ∧
  (∀ (s : State) (g c w : Nat) (x : Ctx), Issues 0x40 s g c w x → x.poisoned (iRa w) = false →
    (issued s g c).badAddr (s.coreWho g x) false (addImm (x.val (iRa w)) w) 32 = none →
    ∃ t, exec (.sdld g c) s = .next t ∧
          Same (into s g c { x with blk := .load (addImm (x.val (iRa w)) w) 32 (iRd w) 0 }) t) ∧
  (∀ (s : State) (g c w : Nat) (x : Ctx), Issues 0x24 s g c w x → x.poisoned (iRa w) = false →
    (issued s g c).badAddr (s.coreWho g x) true (addImm (x.val (iRa w)) w) (2 ^ (iFn w % 4)) = none →
    quotaLines (x.staged ++ lineStores (addImm (x.val (iRa w)) w) ((bytesOf (2 ^ (iFn w % 4)) (x.val (iRb w))).map
      (·, x.poisoned (iRb w)))) ≤ x.cmd.sntq * 64 →
    ∃ t, exec (.st g c) s = .next t ∧
          Same (let d := (bytesOf (2 ^ (iFn w % 4)) (x.val (iRb w))).map (·, x.poisoned (iRb w))
            into s g c { x.next with staged := x.staged ++ lineStores (addImm (x.val (iRa w)) w) d }) t) ∧
  (∀ (s : State) (g c w a : Nat) (x : Ctx), Issues 0x23 s g c w x → x.poisoned (iRa w) = false →
    (issued s g c).badAddr (s.coreWho g x) false (addImm (x.val (iRa w)) w) (2 ^ (iFn w % 4)) = some a →
    ∃ t, exec (.ld g c) s = .next t ∧ Same (((issued s g c).addrFault (s.coreWho g x) a).killEnd g c 2) t) ∧
  (∀ (s : State) (g c w a : Nat) (x : Ctx), Issues 0x40 s g c w x → x.poisoned (iRa w) = false →
    (issued s g c).badAddr (s.coreWho g x) false (addImm (x.val (iRa w)) w) 32 = some a →
    ∃ t, exec (.sdld g c) s = .next t ∧ Same (((issued s g c).addrFault (s.coreWho g x) a).killEnd g c 2) t) ∧
  (∀ (s : State) (g c w a : Nat) (x : Ctx), Issues 0x24 s g c w x → x.poisoned (iRa w) = false →
    (issued s g c).badAddr (s.coreWho g x) true (addImm (x.val (iRa w)) w) (2 ^ (iFn w % 4)) = some a →
    ∃ t, exec (.st g c) s = .next t ∧ Same (((issued s g c).addrFault (s.coreWho g x) a).killEnd g c 2) t) ∧
  (∀ (s : State) (g c w op : Nat) (i : Instr) (x : Ctx), (op, i) ∈ [(0x23, Instr.ld g c), (0x24, .st g c), (0x40, .sdld g c)] →
    Issues op s g c w x → x.poisoned (iRa w) = true →
    ∃ t, exec i s = .next t ∧ Same ((issued s g c).killEnd g c 6) t)

/-- When its word issues, sdset writes a field of stream register RD with RB, or with the field plus RB; swait goes on
where no stream uses RA and else blocks its context; scopy stages the bytes of stream RA to the runs of stream RD
where both descriptors are legal and both streams may be accessed and its lines fit its quota (the words it reads meet
their waiting memory errors, State.meetStream), and both descriptors stay in use until their streams end. A poisoned
register or descriptor that steers kills with POISON. The end of a stream takes one stream with that descriptor from its context, and a
context blocked in swait on it goes on when it was the last. -/
def Obligations.StreamCommandsComplete : Prop :=
  (∀ (s : State) (g c w : Nat) (x : Ctx), Issues 0x41 s g c w x → x.poisoned (iRb w) = false →
    ∃ t, exec (.sdset g c) s = .next t ∧
          Same (let d := x.sdReg (iRd w)
            let v := x.val (iRb w) + (if bit (iFn w) 4 then sdGet d (iFn w % 16) else 0)
            into s g c (x.setSd (iRd w) (sdPut d (iFn w % 16) v)).next) t) ∧
  (∀ (s : State) (g c w : Nat) (x : Ctx), Issues 0x43 s g c w x →
    ∃ t, exec (.swait g c) s = .next t ∧
          Same (into s g c (if x.streams.any fun t => t.sd == iRa w % 8 then { x with blk := .swait (iRa w % 8) } else x.next)) t) ∧
  (∀ (s : State) (g c w : Nat) (x : Ctx) (b : List (Byte × Bool)), Issues 0x42 s g c w x →
    x.poisoned (sdSpec (iRa w)) = false → x.poisoned (sdSpec (iRd w)) = false →
    sdOk (x.sdReg (iRa w)) 0 = true → sdOk (x.sdReg (iRd w)) 1 = true →
    (issued s g c).streamBad g x false (x.sdReg (iRa w)) = none →
    (issued s g c).streamBad g x true (x.sdReg (iRd w)) = none →
    ((issued s g c).meetStream g (x.sdReg (iRa w))).streamRead g x (x.sdReg (iRa w)) = b →
    quotaLines (x.staged ++ sdStores (x.sdReg (iRd w)) b) ≤ x.cmd.sntq * 64 →
    ∃ t, exec (.scopy g c) s = .next t ∧
          Same (((issued s g c).meetStream g (x.sdReg (iRa w))).put1 g c { x.next with
            streams := x.streams ++ [⟨iRa w % 8, 0x42⟩, ⟨iRd w % 8, 0x42⟩]
            staged := x.staged ++ sdStores (x.sdReg (iRd w)) b }) t) ∧
  (∀ (s : State) (g c w : Nat) (x : Ctx), Issues 0x42 s g c w x →
    x.poisoned (sdSpec (iRa w)) = true ∨ x.poisoned (sdSpec (iRd w)) = true →
    ∃ t, exec (.scopy g c) s = .next t ∧ Same ((issued s g c).killEnd g c 6) t) ∧
  (∀ (s : State) (g c w : Nat) (x : Ctx), Issues 0x41 s g c w x → x.poisoned (iRb w) = true →
    ∃ t, exec (.sdset g c) s = .next t ∧ Same ((issued s g c).killEnd g c 6) t) ∧
  (∀ (s : State) (g c sd i : Nat) (x : Ctx), g < 24 ∧ c < 4 ∧ sd < 8 → s.ctx g c = some x →
    x.streams.findIdx? (fun t => t.sd == sd && t.op != 0x60) = some i →
    ∃ t, exec (.streamEnd g c sd) s = .next t ∧
          Same (s.put1 g c { x with streams := x.streams.eraseIdx i }.wake) t)

/-- When its word issues, wload reads the tile its descriptor names into a new shadow plane of the arrays in service, with the
residues of its weights, clears SHD_VALID and sets LOADING of those arrays, and the load runs for its context; from its last
cycle on, one a KiB, its end sets SHD_VALID of the arrays in service, clears LOADING, and frees the descriptor of its command.
wswap exchanges the planes of all arrays in service where every shadow plane is valid, and with them the valid bits; else it
kills with PLANE. A poisoned descriptor kills with POISON. Nothing else changes. -/
def Obligations.WeightCommandsComplete : Prop :=
  (∀ (s : State) (g c w : Nat) (x : Ctx), Issues 0x60 s g c w x →
    x.poisoned (sdSpec (iSd w)) = false ∧ sdOk (x.sdReg (iSd w)) 0 = true ∧ weightFmt (sdFmt (x.sdReg (iSd w))) = true →
    (sdMx (x.sdReg (iSd w)) = true → sdFmt (x.sdReg (iSd w)) ≤ 4) →
    sdLen (x.sdReg (iSd w)) = tileLen (sdFmt (x.sdReg (iSd w))) (sdMx (x.sdReg (iSd w))) →
    (issued s g c).streamBad g x false (x.sdReg (iSd w)) = none →
    ∃ t, exec (.wload g c) s = .next t ∧
          (let d := x.sdReg (iSd w)
           let v := (issued s g c).meetStream g d
           let b := splitPoison (v.streamRead g x d)
           let pl : Plane := { fmt := sdFmt d, mx := sdMx d, data := b.1, poison := b.2, res := tileRes (sdFmt d) b.1 }
           let u := v.modCore g fun m =>
             { m with planes := SMap.set {} m.planes m.nextPlane pl
                      shd := (v.arraysIn g).foldl (fun l a => SMap.set 0 l a m.nextPlane) m.shd
                      nextPlane := m.nextPlane + 1, loading := some (c, x.seq)
                      loadT := v.gey.arr + ((b.1.length + 1023) / 1024 - 1) * 625 }.cleanPlanes
           (∀ a ∈ s.arraysIn g, t.fld F.MXC_ARR_STATUS.SHD_VALID (g * 4 + a) = 0 ∧ t.fld F.MXC_ARR_STATUS.LOADING (g * 4 + a) = 1) ∧
           SameBut ((s.arraysIn g).flatMap fun a => [(F.MXC_ARR_STATUS.SHD_VALID, g * 4 + a), (F.MXC_ARR_STATUS.LOADING, g * 4 + a)])
             (u.put1 g c (x.addStream (iSd w) 0x60).next) t)) ∧
  (∀ (s : State) (g c w : Nat) (x : Ctx), Issues 0x60 s g c w x → x.poisoned (sdSpec (iSd w)) = true →
    ∃ t, exec (.wload g c) s = .next t ∧ Same ((issued s g c).killEnd g c 6) t) ∧
  (∀ (s : State) (g c q : Nat), g < 24 → (s.core g).loading = some (c, q) → (s.core g).loadT ≤ s.gey.arr →
    ∃ t, exec (.weightLoadEnd g) s = .next t ∧
          (let u := s.modCore g fun m => { m with loading := none }
           let v := if (s.ctx g c).any (fun x => x.seq == q) then u.endStream g c (fun t => t.op == 0x60) else u
           (∀ a ∈ s.arraysIn g, t.fld F.MXC_ARR_STATUS.SHD_VALID (g * 4 + a) = 1) ∧
           (∀ a < 4, t.fld F.MXC_ARR_STATUS.LOADING (g * 4 + a) = 0) ∧
           SameBut (((s.arraysIn g).map fun a => (F.MXC_ARR_STATUS.SHD_VALID, g * 4 + a)) ++
             (List.range 4).map fun a => (F.MXC_ARR_STATUS.LOADING, g * 4 + a)) v t)) ∧
  (∀ (s : State) (g c w : Nat) (x : Ctx), Issues 0x61 s g c w x →
    (∀ a ∈ s.arraysIn g, s.fld F.MXC_ARR_STATUS.SHD_VALID (g * 4 + a) = 1) →
    ∃ t, exec (.wswap g c) s = .next t ∧
          (∀ a ∈ s.arraysIn g, t.fld F.MXC_ARR_STATUS.ACT_VALID (g * 4 + a) = 1 ∧
            t.fld F.MXC_ARR_STATUS.SHD_VALID (g * 4 + a) = s.fld F.MXC_ARR_STATUS.ACT_VALID (g * 4 + a)) ∧
          SameBut ((s.arraysIn g).flatMap fun a => [(F.MXC_ARR_STATUS.SHD_VALID, g * 4 + a), (F.MXC_ARR_STATUS.ACT_VALID, g * 4 + a)])
            (((issued s g c).modCore g fun m => { m with
              act := (s.arraysIn g).foldl (fun y a => SMap.set 0 y a (SMap.get 0 m.shd a)) m.act
              shd := (s.arraysIn g).foldl (fun y a => SMap.set 0 y a (SMap.get 0 m.act a)) m.shd
              swapT := some (s.gey.arr + 625) }).put1 g c x.next) t) ∧
  (∀ (s : State) (g c w a : Nat) (x : Ctx), Issues 0x61 s g c w x →
    a ∈ s.arraysIn g ∧ s.fld F.MXC_ARR_STATUS.SHD_VALID (g * 4 + a) = 0 →
    ∃ t, exec (.wswap g c) s = .next t ∧ Same ((issued s g c).killEnd g c 8) t)

/-- When its word issues and its operands are legal for every array of AMASK, all of them in service with a valid plane, astream
appends to each of them the passes of one plane of its stream, in order, from its first free issue slot on (32 cycles later
where the array was gated, which wakes it), and nothing else of the core changes but the times of its last passes. accflush
converts its entries to rows, a value the spec leaves open free, and stages them at the runs of its output stream, or
writes them to vector registers where FN[5] is 1; a stochastic one leaves its seed with Obsidian. accinit sets every entry it
names to the start value of its mode, or to the images of its stream, and leaves the others. A fenced array kills a flush and
an accinit with FENCED; a poisoned register or descriptor that steers kills with POISON. -/
def Obligations.ArrayCommandsComplete : Prop :=
  (∀ (s : State) (g c w : Nat) (x : Ctx), Issues 0x62 s g c w x →
    x.poisoned (iRb w) = false ∧ x.poisoned (sdSpec (iSd w)) = false →
    sdOk (x.sdReg (iSd w)) 0 = true ∧ sdCnt2 (x.sdReg (iSd w)) = (arraysOf (iAmask w)).length ∧ weightFmt (sdFmt (x.sdReg (iSd w))) = true →
    sdMx (x.sdReg (iSd w)) = bit w 47 ∧ modeOk (bits w 46 44) (sdFmt (x.sdReg (iSd w))) (bit w 47) = true →
    sdLen0 (x.sdReg (iSd w)) = passLen (sdFmt (x.sdReg (iSd w))) (bit w 47) →
    (∀ a ∈ arraysOf (iAmask w), (issued s g c).arrayOut g a = false ∧ (issued s g c).flag F.MXC_ARR_STATUS.ACT_VALID (g * 4 + a) = true ∧
      pairOk (sdFmt (x.sdReg (iSd w))) ((issued s g c).actPlane g a).fmt = true ∧
      modeOk (bits w 46 44) ((issued s g c).actPlane g a).fmt (bit w 47) = true ∧
      ((issued s g c).actPlane g a).mx = bit w 47) →
    (issued s g c).streamBad g x false (x.sdReg (iSd w)) = none →
    ∃ t, exec (.astream g c) s = .next t ∧
          (let d := x.sdReg (iSd w)
           let v := (issued s g c).meetStream g d
           let late := fun a => if v.pwr.gated.contains (4 * g + a) then 32 * 625 else 0
           let new := fun a p => v.planePasses g c x w d a p (v.firstSlot g a (bits w 46 44) + late a)
           let add := (arraysOf (iAmask w)).zipIdx.map fun (a, p) => (a, new a p)
           (∀ a p, (a, p) ∈ (arraysOf (iAmask w)).zipIdx →
             SMap.get [] (t.core g).passes a = SMap.get [] (s.core g).passes a ++ new a p) ∧
           (∀ a, a ∉ arraysOf (iAmask w) → SMap.get [] (t.core g).passes a = SMap.get [] (s.core g).passes a) ∧
           Same (((v.modCore g fun m => { m with
             passes := (t.core g).passes
             passT := if x.cmd.q % 8 = 0 then m.passT else add.foldl (fun t (_, ps) => max t (lastSlot ps t)) m.passT
             idleT := add.foldl (fun l (a, ps) => SMap.set 0 l a (lastSlot ps v.gey.arr)) m.idleT }).wakeUnits fun i =>
               decide (i / 4 = g) && (arraysOf (iAmask w)).contains (i % 4)).put1 g c (x.addStream (iSd w) 0x62).next) t)) ∧
  (∀ (s : State) (g c w : Nat) (x : Ctx), Issues 0x63 s g c w x → bit (iFn w) 5 = false →
    (iRb w :: (if bit w 28 then [iFn w % 32, iFn w % 32 + 1] else []) ++ [sdSpec (iSd w)]).any x.poisoned = false →
    (arraysOf (iAmask w)).any ((issued s g c).arrayOut g) = false → (issued s g c).flushFpBad g x w = false →
    (issued s g c).flushShape g x w (x.sdReg (iSd w)) = true →
    (issued s g c).streamBad g x true (x.sdReg (iSd w)) = none →
    quotaLines (x.staged ++ (((issued s g c).flushRows g x w (sdNv (x.sdReg (iSd w)))).1.flatMap fun (p, k, r) =>
      match r with
      | some b => lineStores (sdRun (x.sdReg (iSd w)) p k) b
      | none => [])) ≤ x.cmd.sntq * 64 →
    ∃ t, exec (.accflush g c) s = .next t ∧
          Same (let r := (issued s g c).flushRows g x w (sdNv (x.sdReg (iSd w)))
            (r.2.seedRecord g c x w).put1 g c { (x.addStream (iSd w) 0x63).next with
              staged := x.staged ++ r.1.flatMap fun (p, k, r) => match r with
                | some b => lineStores (sdRun (x.sdReg (iSd w)) p k) b
                | none => [] }) t) ∧
  (∀ (s : State) (g c w : Nat) (x y : Ctx) (rows : List (Nat × Nat × Option (List (Byte × Bool)))) (u : State),
    Issues 0x63 s g c w x → bit (iFn w) 5 = true →
    (iRb w :: (if bit w 28 then [iFn w % 32, iFn w % 32 + 1] else []) ++ []).any x.poisoned = false →
    (arraysOf (iAmask w)).any ((issued s g c).arrayOut g) = false → (issued s g c).flushFpBad g x w = false →
    (issued s g c).flushRows g x w 512 = (rows, u) → flushToV x w (u.flushSize g x w) rows = some y →
    ∃ t, exec (.accflush g c) s = .next t ∧ Same ((u.seedRecord g c y w).put1 g c y.next) t) ∧
  (∀ (s : State) (g c w : Nat) (x : Ctx), Issues 0x64 s g c w x → x.poisoned (iRb w) = false ∧ bit w 20 = false →
    (arraysOf (iAmask w)).any ((issued s g c).arrayOut g) = false →
    ∃ t, exec (.accinit g c) s = .next t ∧
          (∀ a < 4, ∀ k < 1024, SMap.get {} (t.core g).entries (a * 1024 + k) =
            if bit (iAmask w) a ∧ (k + 1024 - entry0 x w) % 1024 < entryCnt w then
              { cols := List.replicate 512 (startAccum (bits w 46 44)), mode := bits w 46 44 }
            else SMap.get {} (s.core g).entries (a * 1024 + k)) ∧
          Same (((issued s g c).modCore g fun m => { m with entries := (t.core g).entries }).put1 g c x.next) t) ∧
  (∀ (s : State) (g c w : Nat) (x : Ctx), Issues 0x64 s g c w x → bit w 20 = true →
    x.poisoned (iRb w) = false ∧ x.poisoned (sdSpec (iSd w)) = false →
    (arraysOf (iAmask w)).any ((issued s g c).arrayOut g) = false →
    sdOk (x.sdReg (iSd w)) 0 = true ∧ sdLen0 (x.sdReg (iSd w)) = 8192 ∧ sdCnt1 (x.sdReg (iSd w)) = entryCnt w ∧
      sdCnt2 (x.sdReg (iSd w)) = (arraysOf (iAmask w)).length →
    (issued s g c).streamBad g x false (x.sdReg (iSd w)) = none →
    ∃ t, exec (.accinit g c) s = .next t ∧
          Same (let v := (issued s g c).meetStream g (x.sdReg (iSd w))
            (v.setEntries g x w fun p k =>
              let b := v.coreRead g x (sdRun (x.sdReg (iSd w)) p k) 8192
              { mode := bits w 46 44, cols := (List.range 512).map fun j =>
                  let y := (b.drop (16 * j)).take 16
                  accumOf (natOf (y.map Prod.fst)) (y.any Prod.snd) }).put1 g c (x.addStream (iSd w) 0x64).next) t) ∧
  (∀ (s : State) (g c w op : Nat) (i : Instr) (x : Ctx), (op, i) ∈ [(0x63, Instr.accflush g c), (0x64, .accinit g c)] →
    Issues op s g c w x → (∀ k, x.poisoned k = false) → (arraysOf (iAmask w)).any ((issued s g c).arrayOut g) = true →
    ∃ t, exec i s = .next t ∧ Same ((issued s g c).killEnd g c 11) t) ∧
  (∀ (s : State) (g c w op : Nat) (i : Instr) (x : Ctx),
    (op, i) ∈ [(0x62, Instr.astream g c), (0x63, .accflush g c), (0x64, .accinit g c)] →
    Issues op s g c w x → x.poisoned (iRb w) = true →
    ∃ t, exec i s = .next t ∧ Same ((issued s g c).killEnd g c 6) t)

/-- When its word issues and its unit finds no fault, vop writes the lane results of its operation to RD (cvt the converted
lanes, for the formats Table 3-5 converts), vred the pairwise tree result to lane 0, vimg the exact sums of 512 accumulator
images, vtopk feeds the selector and writes the sorted candidates where FN asks, vdigest folds lanes into the pending digest
of its command where its basin owns the slot, vld blocks on the read of its stream, vst stages its lanes. A lane the spec
states no result for holds a free value (log entry 32). Poison follows the operands, and a poisoned descriptor kills with
POISON. A failed check of the vector unit kills the command for re-run as a core's detection. Nothing else changes. -/
def Obligations.VectorCommandsComplete : Prop :=
  (∀ (s : State) (g c w : Nat) (x : Ctx), Issues 0x80 s g c w x → iFn w < 17 →
    ∃ t, exec (.vop g c false) s = .next t ∧
          Same (let b := vopB x w
            let r := (issued s g c).fillLanes (zip3 (laneOp (iFn w)) (x.lanes (iRa w)) b.1 (x.lanes (iRd w)))
            let p := (List.zip (x.lanePois (iRa w)) (List.zip b.2 (x.lanePois (iRd w)))).map fun q =>
              q.1 || (usesB (iFn w) && q.2.1) || (iFn w == 3 && q.2.2)
            r.2.put1 g c (x.setV (iRd w) r.1 p).next) t) ∧
  (∀ (s : State) (g c w k : Nat) (x : Ctx), Issues 0x80 s g c w x → iFn w = 17 → cvtTarget (bits w 7 4) = some k →
    (cvtTarget (bits w 3 0)).isSome = true →
    ∃ t, exec (.vop g c false) s = .next t ∧
          Same (let r := (issued s g c).cvt x (iRa w) (iRd w) (bits w 3 0) k
            r.2.2.put1 g c (x.setV (iRd w) r.1 r.2.1).next) t) ∧
  (∀ (s : State) (g c w : Nat) (x : Ctx), Issues 0x80 s g c w x → iFn w = 17 →
    cvtTarget (bits w 7 4) = none ∨ cvtTarget (bits w 3 0) = none →
    ∃ t, exec (.vop g c false) s = .next t ∧ Same ((issued s g c).killEnd g c 3) t) ∧
  (∀ (s : State) (g c w : Nat) (x : Ctx), Issues 0x81 s g c w x → x.poisoned (sdSpec (iRa w)) = false → sdOk (x.sdReg (iRa w)) 0 = true →
    (issued s g c).streamBad g x false (x.sdReg (iRa w)) = none →
    ∃ t, exec (.vld g c) s = .next t ∧ Same (into s g c { x with blk := .vload (iRd w) (iRa w % 8) }) t) ∧
  (∀ (s : State) (g c w : Nat) (x : Ctx), Issues 0x82 s g c w x → x.poisoned (sdSpec (iRd w)) = false → sdOk (x.sdReg (iRd w)) 1 = true →
    (issued s g c).streamBad g x true (x.sdReg (iRd w)) = none →
    quotaLines (x.staged ++ sdStores (x.sdReg (iRd w)) ((List.zip (x.lanes (iRa w)) (x.lanePois (iRa w))).flatMap
      fun (v, p) => (bytesOf 4 v).map (·, p))) ≤ x.cmd.sntq * 64 →
    ∃ t, exec (.vst g c) s = .next t ∧
          Same (let b := (List.zip (x.lanes (iRa w)) (x.lanePois (iRa w))).flatMap fun (v, p) => (bytesOf 4 v).map (·, p)
            into s g c { (x.addStream (iRd w) 0x82).next with staged := x.staged ++ sdStores (x.sdReg (iRd w)) b }) t) ∧
  (∀ (s : State) (g c w : Nat) (x : Ctx), Issues 0x83 s g c w x →
    ∃ t, exec (.vred g c false) s = .next t ∧
          Same (let r := (issued s g c).fillLanes [pairTree (redStep (iFn w)) 11 ((x.lanes (iRa w)).map some)]
            r.2.put1 g c (x.setV (iRd w) (r.1 ++ (x.lanes (iRd w)).drop 1)
              ((x.lanePois (iRa w)).any id :: (x.lanePois (iRd w)).drop 1)).next) t) ∧
  (∀ (s : State) (g c w : Nat) (x : Ctx), Issues 0x84 s g c w x →
    ∃ t, exec (.vimg g c) s = .next t ∧
          Same (let img := fun (l : List Nat) k => natOf (((l.drop (4 * k)).take 4).flatMap (bytesOf 4))
            let v := (List.range 512).flatMap fun k => (List.range 4).map fun i =>
              combineImages (img (x.lanes (iRa w)) k) (img (x.lanes (iRb w)) k) / 2 ^ (32 * i) % 2 ^ 32
            let p := (List.range 512).flatMap fun k => List.replicate 4
              ((((x.lanePois (iRa w)).drop (4 * k)).take 4 ++ ((x.lanePois (iRb w)).drop (4 * k)).take 4).any id)
            into s g c (x.setV (iRd w) v p).next) t) ∧
  (∀ (s : State) (g c w : Nat) (x : Ctx), Issues 0x85 s g c w x → bit (iFn w) 2 = false →
    ∃ t, exec (.vtopk g c false) s = .next t ∧
          Same
           (let k := TopK.feed (if bit (iFn w) 1 then {} else (s.core g).topk) (bits w 8 0) (bit (iFn w) 0)
              (List.zip (x.lanes (iRa w)) (x.lanes (iRb w))) ((x.lanePois (iRa w)).any id || (x.lanePois (iRb w)).any id)
            ((issued s g c).modCore g fun m => { m with topk := k }).put1 g c x.next) t) ∧
  (∀ (s : State) (g c w : Nat) (x : Ctx), Issues 0x85 s g c w x → bit (iFn w) 2 = true →
    ∃ t, exec (.vtopk g c false) s = .next t ∧
          Same
           (let k := TopK.feed (if bit (iFn w) 1 then {} else (s.core g).topk) (bits w 8 0) (bit (iFn w) 0)
              (List.zip (x.lanes (iRa w)) (x.lanes (iRb w))) ((x.lanePois (iRa w)).any id || (x.lanePois (iRb w)).any id)
            let n := k.cand.length
            let p := List.replicate n k.poison
            let y := x.setV (iRd w) (k.cand.map Prod.fst ++ (x.lanes (iRd w)).drop n) (p ++ (x.lanePois (iRd w)).drop n)
            let z := y.setV (iRd w + 1) (k.cand.map Prod.snd ++ (x.lanes (iRd w + 1)).drop n) (p ++ (x.lanePois (iRd w + 1)).drop n)
            ((issued s g c).modCore g fun m => { m with topk := k }).put1 g c z.next) t) ∧
  (∀ (s : State) (g c w : Nat) (x : Ctx), Issues 0x86 s g c w x → s.fld F.MXC_DIGk.OWNER (g * 16 + iFn w) = x.basin →
    ∃ t, exec (.vdigest g c) s = .next t ∧
          Same (let n := bits w 15 5 + 1
            let base := x.val (w % 32) % 2 ^ 48
            let key := s.fld F.MXC_DIGk.KEY (g * 16 + iFn w)
            let sum := ((x.lanes (iRa w)).take n).zipIdx.foldl (fun a (v, l) => (a + mix (mix key (base + l)) v) % 2 ^ 64) 0
            let d := SMap.get (0, 0, false) x.digs (iFn w)
            let p := d.2.2 || x.poisoned (w % 32) || ((x.lanePois (iRa w)).take n).any id
            into s g c { x with digs := SMap.set (0, 0, false) x.digs (iFn w) ((d.1 + sum) % 2 ^ 64, d.2.1 + n, p) }.next) t) ∧
  (∀ (s : State) (g c w : Nat) (x : Ctx), Issues 0x86 s g c w x → s.fld F.MXC_DIGk.OWNER (g * 16 + iFn w) ≠ x.basin →
    ∃ t, exec (.vdigest g c) s = .next t ∧ Same ((issued s g c).killEnd g c 3) t) ∧
  (∀ (s : State) (g c w op : Nat) (i : Instr) (x : Ctx),
    (op, i) ∈ [(0x80, Instr.vop g c true), (0x83, .vred g c true), (0x85, .vtopk g c true)] → Issues op s g c w x →
    ∃ t, exec i s = .next t ∧ Same ((issued s g c).coreMiss g 2 fun u => u.killRerun g c) t) ∧
  (∀ (s : State) (g c w : Nat) (x : Ctx), Issues 0x81 s g c w x → x.poisoned (sdSpec (iRa w)) = true →
    ∃ t, exec (.vld g c) s = .next t ∧ Same ((issued s g c).killEnd g c 6) t) ∧
  (∀ (s : State) (g c w : Nat) (x : Ctx), Issues 0x82 s g c w x → x.poisoned (sdSpec (iRd w)) = true →
    ∃ t, exec (.vst g c) s = .next t ∧ Same ((issued s g c).killEnd g c 6) t)

/-- When its word issues, signal stages +CNT to a semaphore of its basin and fbar an arrival at an enabled barrier of its
basin; wait blocks on a semaphore of its basin, tickwait until a cycle of the frame to come, frecv on a message queue
of its basin. A cycle already passed goes on at once and counts TW_LATE. A grant moves CNT from VAL to RSV and lets
its context go on; a release lets a context go on when its cycle has come. A semaphore, a barrier or a message queue the
basin may not use is an address fault, and a cycle outside every frame kills with ILLEGAL. -/
def Obligations.SynchronisationComplete : Prop :=
  (∀ (s : State) (g c w : Nat) (x : Ctx), Issues 0xA0 s g c w x →
    bits w 4 0 < 24 ∧ s.semOwner (bits w 4 0) (iSem w) = x.basin →
    quotaLines (x.staged ++ [.signal (bits w 4 0) (iSem w) (iCnt w)]) ≤ x.cmd.sntq * 64 →
    ∃ t, exec (.signal g c) s = .next t ∧
          Same (into s g c { x.next with staged := x.staged ++ [.signal (bits w 4 0) (iSem w) (iCnt w)] }) t) ∧
  (∀ (s : State) (g c w : Nat) (x : Ctx), Issues 0xA0 s g c w x →
    24 ≤ bits w 4 0 ∨ s.semOwner (bits w 4 0) (iSem w) ≠ x.basin →
    ∃ t, exec (.signal g c) s = .next t ∧ Same ((issued s g c).killAddr g c (semAddr (bits w 4 0) (iSem w))) t) ∧
  (∀ (s : State) (g c w : Nat) (x : Ctx), Issues 0xA1 s g c w x → s.semOwner g (iSem w) = x.basin →
    ∃ t, exec (.wait g c) s = .next t ∧ Same (into s g c { x with blk := .wait (iSem w) (iCnt w) }) t) ∧
  (∀ (s : State) (g c w : Nat) (x : Ctx), Issues 0xA1 s g c w x → s.semOwner g (iSem w) ≠ x.basin →
    ∃ t, exec (.wait g c) s = .next t ∧ Same ((issued s g c).killAddr g c (semAddr g (iSem w))) t) ∧
  (∀ (s : State) (g c n k : Nat) (x : Ctx), g < 24 ∧ c < 4 → s.ctx g c = some x ∧ x.blk = .wait n k →
    s.coreRuns g = true → s.waitersBefore g n x + k ≤ s.fld F.MXC_SEMn.VAL (g * 4096 + n) →
    ∃ t, exec (.semaphoreGrant g c) s = .next t ∧
          t.fld F.MXC_SEMn.VAL (g * 4096 + n) = (s.fld F.MXC_SEMn.VAL (g * 4096 + n) - k) % 2 ^ 8 ∧
          t.fld F.MXC_SEMn.RSV (g * 4096 + n) = (s.fld F.MXC_SEMn.RSV (g * 4096 + n) + k) % 2 ^ 8 ∧
          SameBut [(F.MXC_SEMn.VAL, g * 4096 + n), (F.MXC_SEMn.RSV, g * 4096 + n)]
            (s.put1 g c { x with blk := .none, pc := x.pc + 1, rsv := x.rsv ++ [(n, k)] }) t) ∧
  (∀ (s : State) (g c w : Nat) (x : Ctx), Issues 0xA2 s g c w x → bits w 19 0 < nMin (s.fld F.GEY_CTRL.PERIOD) →
    ∃ t, exec (.tickwait g c) s = .next t ∧
          Same (if bits w 19 0 < s.frameCyc then ((issued s g c).incFld F.MXC_SEQ_ERR.TW_LATE g).put1 g c x.next
            else if bits w 19 0 = s.frameCyc then into s g c x.next
            else into s g c { x with blk := .tickwait (bits w 19 0) }) t) ∧
  (∀ (s : State) (g c w : Nat) (x : Ctx), Issues 0xA2 s g c w x → nMin (s.fld F.GEY_CTRL.PERIOD) ≤ bits w 19 0 →
    ∃ t, exec (.tickwait g c) s = .next t ∧ Same ((issued s g c).killEnd g c 3) t) ∧
  (∀ (s : State) (g c k : Nat) (x : Ctx), g < 24 ∧ c < 4 → s.ctx g c = some x ∧ x.blk = .tickwait k → k ≤ s.frameCyc →
    ∃ t, exec (.tickwaitRelease g c) s = .next t ∧ Same (s.put1 g c { x with blk := .none, pc := x.pc + 1 }) t) ∧
  (∀ (s : State) (g c w : Nat) (x : Ctx), Issues 0xA3 s g c w x →
    (issued s g c).barEn (bits w 11 0) = true ∧ (issued s g c).barOwner (bits w 11 0) = x.basin →
    quotaLines (x.staged ++ [.fbar (bits w 11 0) (iSem w)]) ≤ x.cmd.sntq * 64 →
    ∃ t, exec (.fbar g c) s = .next t ∧
          Same (into s g c { x.next with staged := x.staged ++ [.fbar (bits w 11 0) (iSem w)] }) t) ∧
  (∀ (s : State) (g c w : Nat) (x : Ctx), Issues 0xA3 s g c w x →
    (issued s g c).barEn (bits w 11 0) = false ∨ (issued s g c).barOwner (bits w 11 0) ≠ x.basin →
    ∃ t, exec (.fbar g c) s = .next t ∧ Same ((issued s g c).killAddr g c (s.barAddr (bits w 11 0))) t) ∧
  (∀ (s : State) (g c w : Nat) (x : Ctx), Issues 0xE5 s g c w x → x.poisoned (sdSpec (iRd w)) = false →
    sdOk (x.sdReg (iRd w)) 1 = true → s.mqOwner (bits w 11 0) = x.basin →
    ∃ t, exec (.frecv g c) s = .next t ∧ Same (into s g c { x with blk := .frecv (bits w 11 0) (iRd w) }) t) ∧
  (∀ (s : State) (g c w : Nat) (x : Ctx), Issues 0xE5 s g c w x → x.poisoned (sdSpec (iRd w)) = false →
    sdOk (x.sdReg (iRd w)) 1 = true → s.mqOwner (bits w 11 0) ≠ x.basin →
    ∃ t, exec (.frecv g c) s = .next t ∧ Same ((issued s g c).killAddr g c (mqRegAddr (bits w 11 0))) t)

/-- When its word issues, commit blocks its context with its user status, and cabort ends the command with status 1. At
the commit point of the oldest command that may commit, its Sinter words are read, and with no poison or with PASSPOISON its
reservations end, its messages leave their queues, its digests reach their slots, its staged effects become a drain and its
context is free. With poison and without PASSPOISON it ends with POISON, after the report of a radio command's (log entry 90).
The drains of a core in service go on in commit order; that of a store and a signal, met by no memory error, writes the bytes,
then applies the signal, and its completion record waits to be written. A command past its BUDGET ends with status 4. -/
def Obligations.EndOfCommandsComplete : Prop :=
  (∀ (s : State) (g c w : Nat) (x : Ctx), Issues 0xC0 s g c w x →
    ∃ t, exec (.commit g c) s = .next t ∧ Same (into s g c { x with blk := .commit (bits w 15 0) }) t) ∧
  (∀ (s : State) (g c w : Nat) (x : Ctx), Issues 0xC1 s g c w x →
    ∃ t, exec (.cabort g c) s = .next t ∧ Same ((issued s g c).killEnd g c 1 (bits w 15 0)) t ∧ t.ctx g c = none ∧
          (t.core g).recs.map (fun r => (r.q, r.data)) = (s.core g).recs.map (fun r => (r.q, r.data)) ++
            [(x.cmd.q, recData x.cmd 1 (bits w 15 0) (s.since x.t0) s.tickNo)]) ∧
  (∀ (s : State) (g c user : Nat) (x : Ctx), g < 24 ∧ c < 4 → s.ctx g c = some x ∧ x.blk = .commit user →
    s.coreRuns g = true ∧ s.canCommit g c = true →
    ((s.held4 g).all fun (k, y) => k == c || !s.canCommit g k || decide (x.seq < y.seq)) = true →
    x.cmd.passPoison = true ∨ stagedPoison (s.meetSinter g x.seq x.staged).1 = false →
    ∃ t, exec (.commitPoint g c) s = .next t ∧
          Same
           (let r := s.meetSinter g x.seq x.staged
            let y := { x with staged := r.1 }
            let u := r.1.foldl State.signStaged (((r.2.semDrop g x.rsv).mqCommit x.msgs).foldDigests g y)
            let d : Drain := { seq := x.seq, cmd := x.cmd, basin := x.basin, gen := x.cmd.gen, user, cycles := u.since x.t0
                               tick := u.tickNo, ivl := some (u.tickNo, u.lock.idx), arrays := x.arrays, units := x.cmd.sntq
                               staged := r.1 }
            (((u.incFld F.SNT_CNT.COMMITS g).modCore g fun m => { m with drains := m.drains ++ [d] }).freeCtx g c).boundary g) t) ∧
  (∀ (s : State) (g c : Nat) (x : Ctx), g < 24 ∧ c < 4 → s.ctx g c = some x →
    s.coreRuns g = true ∧ s.canCommit g c = true →
    ((s.held4 g).all fun (k, y) => k == c || !s.canCommit g k || decide (x.seq < y.seq)) = true →
    x.cmd.passPoison = false ∧ stagedPoison (s.meetSinter g x.seq x.staged).1 = true →
    ∃ t, exec (.commitPoint g c) s = .next t ∧
          Same
           (let u := (s.meetSinter g x.seq x.staged).2
            (if x.cmd.q % 8 = 0 then (u.workCells u.radioDies 3).report (queueSrc x.cmd.q)
                { data := unitSrc (.block (g / 2) (g % 2)) % 2 ^ 16 } (unitSrc (.block (g / 2) (g % 2))) 2
              else u).killEnd g c 6) t) ∧
  (∀ (s : State) (g : Nat), g < 24 → s.routerDown (g / 2) = false →
    ∃ t, exec (.drainEnd g) s = .next t ∧
          Same ((((s.core g).drains.foldl (fun u d =>
            (u.meetSinter g d.seq d.staged).2.modDrain g d.seq fun e => { e with staged := (u.meetSinter g d.seq d.staged).1 })
              s).drainAll g).applyMmio .caldera) t) ∧
  (∀ (s : State) (g a k n cnt : Nat) (data : List Byte) (p : Bool) (d : Drain), g < 24 →
    s.routerDown (g / 2) = false → (s.core g).drains = [d] →
    d.staged = [.store a data p, .signal k n cnt] ∧ d.waiting = [] ∧ d.mcFail = [] →
    s.flips = [] ∧ s.mmio = [] ∧ a < 0xFF00000000 →
    ∃ t, exec (.drainEnd g) s = .next t ∧
          Same ((((s.put d.basin a data p).semAdd k n cnt (d.cmd.q % 8)).modCore g fun m => { m with drains := [] }).record g
            d.cmd d.basin (if d.failed then 10 else 0) d.user d.cycles d.tick d.arrays d.ivl) t) ∧
  (∀ (s : State) (g : Nat), g < 24 → s.routerDown (g / 2) = true → s.mmio = [] →
    ∃ t, exec (.drainEnd g) s = .next t ∧ Same s t) ∧
  (∀ (s : State) (g c : Nat) (x : Ctx), g < 24 ∧ c < 4 → s.ctx g c = some x → x.cmd.budget < s.since x.t0 →
    ∃ t, exec (.budgetExceeded g c) s = .next t ∧ Same (s.killEnd g c 4) t)

/-- Where the arbiter's choice is queue q and no window is due, or q is queue 0 and a window is in force, and no map-out waits to be
made, the head of the queue that nothing stalls is dispatched: a new entry whose words, tag, generation, quota and program pass
the checks is counted as dispatched in HEAD, the doorbell line and DISPATCHED, one of queue 0 also against NCMD, and a command
that waits for re-run leaves its place and is counted in DISPATCHED; the words read meet their waiting memory errors, and the
command enters the lowest free context with the arguments in registers 1 to 5 and its program's words (State.enter). An entry of
a former generation is only counted, a repeated tag gives a record, a poisoned entry ends with status 6; a torn job ends with 9, a
quota too large with 5, a misaligned program with 3, one out of reach with 2, a poisoned one with 6; an entry out of reach stops
its queue; otherwise nothing is dispatched. The oldest waiting record of a queue whose generation is current and whose ring has
room is written to the completion ring where its basin may write (State.queuePut, log entry 168); with EVREQ, or where the status
recommends rung 1, an event record follows. On a full ring it waits on. A record of a former generation is dropped and counted.
Records of clusters go the same way. -/
def Obligations.DispatchAndRecordsComplete : Prop :=
  (∀ (s v h : State) (g q ix a b : Nat) (c r : Cmd), g < 24 ∧ q < 8 → s.coreRuns g = true ∧ (s.core g).mapDue = [] →
    (q = 0 ∧ ∃ r, (s.core g).run = some r ∧ ix = qIx r.w.owner 0) ∨
      (0 < q ∧ s.windowDue g = none ∧ s.choice g = some q ∧ ix = qIx g q) →
    s.stallOf g ix = 0 ∧ s.headOf g ix = some (false, r) → a = s.entryAddr ix (s.fld F.MXC_Qq_STATUS.HEAD ix) ∧ b = s.queueBasin ix →
    s.badAddr (s.queueWho ix 0) false a 64 = none →
    v = s.meet a 64 ∧ h = v.headNext ix ∧ c = entryOf (v.readNat a 64) ix →
    (c.gen ≠ h.gen b → ∃ t, exec (.dispatch g q) s = .next t ∧ Same (h.incFld F.BSN_STALEb.ENTRY b) t) ∧
          (c.gen = h.gen b ∧ h.tagDup g c = true →
            ∃ t, exec (.dispatch g q) s = .next t ∧ Same (h.tagDupRecord g c b) t) ∧
          (c.gen = h.gen b ∧ h.tagDup g c = false → v.rangePoison (v.entryAddr ix (v.fld F.MXC_Qq_STATUS.HEAD ix)) 64 = true →
            ∃ t, exec (.dispatch g q) s = .next t ∧ Same (h.endAtDispatch g c b 6) t)) ∧
  (∀ (s v h u : State) (g q ix a b : Nat) (c r : Cmd), g < 24 ∧ q < 8 → s.coreRuns g = true ∧ (s.core g).mapDue = [] →
    (q = 0 ∧ ∃ r, (s.core g).run = some r ∧ ix = qIx r.w.owner 0) ∨
      (0 < q ∧ s.windowDue g = none ∧ s.choice g = some q ∧ ix = qIx g q) →
    s.stallOf g ix = 0 ∧ s.headOf g ix = some (false, r) → a = s.entryAddr ix (s.fld F.MXC_Qq_STATUS.HEAD ix) ∧ b = h.queueBasin ix →
    s.badAddr (s.queueWho ix 0) false a 64 = none →
    v = s.meet a 64 ∧ h = v.headNext ix ∧ c = entryOf (v.readNat a 64) ix →
    c.gen = h.gen (s.queueBasin ix) ∧ h.tagDup g c = false → v.rangePoison (v.entryAddr ix (v.fld F.MXC_Qq_STATUS.HEAD ix)) 64 = false →
    u = (let w := h.incFld F.MXC_Qq_CNT.DISPATCHED ix
      if ix % 8 = 0 then w.modCore g fun m => { m with run := m.run.map fun r => { r with left := r.left - 1 } } else w) →
    (u.jobTorn c.job = true → ∃ t, exec (.dispatch g q) s = .next t ∧ Same (u.endAtDispatch g c b 9) t) ∧
          (u.jobTorn c.job = false → u.sideCap g (c.q % 8 == 0) < c.sntq →
            ∃ t, exec (.dispatch g q) s = .next t ∧ Same (u.endAtDispatch g c b 5) t) ∧
          (u.jobTorn c.job = false ∧ c.sntq ≤ u.sideCap g (c.q % 8 == 0) → c.prog % 8 ≠ 0 →
            ∃ t, exec (.dispatch g q) s = .next t ∧ Same (u.endAtDispatch g c b 3) t) ∧
          (u.jobTorn c.job = false ∧ c.sntq ≤ u.sideCap g (c.q % 8 == 0) ∧ c.prog % 8 = 0 →
            (∀ e, u.badAddr (u.queueWho c.q c.tag) false c.prog (c.ninstr * 8) = some e →
            ∃ t, exec (.dispatch g q) s = .next t ∧ Same ((u.addrFault (u.queueWho c.q c.tag) e).endAtDispatch g c b 2) t) ∧
          (u.badAddr (u.queueWho c.q c.tag) false c.prog (c.ninstr * 8) = none →
            ((u.meet c.prog (c.ninstr * 8)).rangePoison c.prog (c.ninstr * 8) = true →
              ∃ t, exec (.dispatch g q) s = .next t ∧ Same ((u.meet c.prog (c.ninstr * 8)).endAtDispatch g c b 6) t) ∧
            ((u.meet c.prog (c.ninstr * 8)).rangePoison c.prog (c.ninstr * 8) = false →
              ∃ t, exec (.dispatch g q) s = .next t ∧
                Same
                 (let r := (u.meet c.prog (c.ninstr * 8)).progWords c.prog c.ninstr
                  r.2.enter g c b r.1) t)))) ∧
  (∀ (s u : State) (g q ix b : Nat) (c : Cmd), g < 24 ∧ q < 8 → s.coreRuns g = true ∧ (s.core g).mapDue = [] →
    (q = 0 ∧ ∃ r, (s.core g).run = some r ∧ ix = qIx r.w.owner 0) ∨
      (0 < q ∧ s.windowDue g = none ∧ s.choice g = some q ∧ ix = qIx g q) →
    s.stallOf g ix = 0 ∧ s.headOf g ix = some (true, c) → b = s.queueBasin c.q →
    u = (s.modCore g fun m => { m with rerun := m.rerun.filter (· != c) }).incFld F.MXC_Qq_CNT.DISPATCHED c.q →
    (u.jobTorn c.job = true → ∃ t, exec (.dispatch g q) s = .next t ∧ Same (u.endAtDispatch g c b 9) t) ∧
          (u.jobTorn c.job = false → u.sideCap g (c.q % 8 == 0) < c.sntq →
            ∃ t, exec (.dispatch g q) s = .next t ∧ Same (u.endAtDispatch g c b 5) t) ∧
          (u.jobTorn c.job = false ∧ c.sntq ≤ u.sideCap g (c.q % 8 == 0) →
            (∀ e, u.badAddr (u.queueWho c.q c.tag) false c.prog (c.ninstr * 8) = some e →
            ∃ t, exec (.dispatch g q) s = .next t ∧ Same ((u.addrFault (u.queueWho c.q c.tag) e).endAtDispatch g c b 2) t) ∧
          (u.badAddr (u.queueWho c.q c.tag) false c.prog (c.ninstr * 8) = none →
            ((u.meet c.prog (c.ninstr * 8)).rangePoison c.prog (c.ninstr * 8) = true →
              ∃ t, exec (.dispatch g q) s = .next t ∧ Same ((u.meet c.prog (c.ninstr * 8)).endAtDispatch g c b 6) t) ∧
            ((u.meet c.prog (c.ninstr * 8)).rangePoison c.prog (c.ninstr * 8) = false →
              ∃ t, exec (.dispatch g q) s = .next t ∧
                Same
                 (let r := (u.meet c.prog (c.ninstr * 8)).progWords c.prog c.ninstr
                  r.2.enter g c b r.1) t)))) ∧
  (∀ (s : State) (g q ix a : Nat) (r : Cmd), g < 24 ∧ q < 8 → s.coreRuns g = true ∧ (s.core g).mapDue = [] →
    (q = 0 ∧ ∃ r, (s.core g).run = some r ∧ ix = qIx r.w.owner 0) ∨
      (0 < q ∧ s.windowDue g = none ∧ s.choice g = some q ∧ ix = qIx g q) →
    s.stallOf g ix = 0 ∧ s.headOf g ix = some (false, r) →
    s.badAddr (s.queueWho ix 0) false (s.entryAddr ix (s.fld F.MXC_Qq_STATUS.HEAD ix)) 64 = some a →
    ∃ t, exec (.dispatch g q) s = .next t ∧ Same ((s.addrFault (s.queueWho ix 0) a).queueError ix 0) t) ∧
  (∀ (s : State) (g q : Nat), g < 24 ∧ q < 8 →
    s.coreRuns g = false ∨ (s.core g).mapDue ≠ [] ∨
      (∀ ix, (q = 0 ∧ ∃ r, (s.core g).run = some r ∧ ix = qIx r.w.owner 0) ∨
      (0 < q ∧ s.windowDue g = none ∧ s.choice g = some q ∧ ix = qIx g q) →
        s.stallOf g ix ≠ 0 ∨ s.headOf g ix = none) →
    ∃ t, exec (.dispatch g q) s = .next t ∧ Same s t) ∧
  (∀ (s : State) (g q : Nat) (r : Rec) (drop hold : State → State), OldestRecord s g q r drop hold →
    r.gen = s.gen r.basin ∧ s.cqFull r.q = false →
    ∃ t, exec (.completionRecordWrite g q) s = .next t ∧
          Same
           (let u := drop { s with lock := { s.lock with cause := r.ivl } }
            let n := (u.queue r.q).cqTail
            let a := u.fld F.MXC_Qq_CRING.BASE r.q + n % u.queueSize r.q * 16
            let u := ((u.queuePut r.q r.tag a r.data).sign a r.data).modQueue r.q fun x => { x with cqTail := (n + 1) % 2 ^ 32 }
            let u := u.queuePut r.q r.tag (u.fld F.MXC_Qq_DBL.LINE r.q / 64 * 64 + 16) (bytesOf 4 (n + 1))
            let u := if r.basin ≠ 0 ∨ r.q % 8 ≠ 0 then u.charge r.basin 0 (r.cycles * r.arrays) else u
            let k := if r.status = 6 ∧ r.q % 8 = 0 then 0 else if [6, 7, 9, 10].contains r.status then 1 else 0
            let u := if r.evreq = true ∨ k ≠ 0 then u.report (queueSrc r.q) { basin := r.basin, gen := r.gen, data := r.tag } (queueUnit r.q) k else u
            { u with lock := { u.lock with cause := none } }) t) ∧
  (∀ (s : State) (g q : Nat) (r : Rec) (drop hold : State → State), OldestRecord s g q r drop hold →
    r.gen = s.gen r.basin ∧ s.cqFull r.q = true →
    ∃ t, exec (.completionRecordWrite g q) s = .next t ∧ Same (hold s) t) ∧
  (∀ (s : State) (g q : Nat) (r : Rec) (drop hold : State → State), OldestRecord s g q r drop hold → r.gen ≠ s.gen r.basin →
    ∃ t, exec (.completionRecordWrite g q) s = .next t ∧ Same ((drop s).incFld F.BSN_STALEb.COMPL r.basin) t)

/-- A write of SNT_CTRL shows RADIO_RSV clamped to 64 to 768 units and waits; at a tick, where both sides hold no more
than the new split gives them, it takes effect. A write of MXC_SEM_SIGNAL with a count adds it to VAL, the excess over
255 being lost and recorded in OVF; a count of 0 does nothing. A write of MXC_SEMn with no reservation and both owners BUILDING
gives the semaphore its owner, the present one too (log entry 169), and VAL and OVF 0; a change of owner that is refused leaves
the write without effect, and any other write clears OVF by a 1; semaphores 0 to 255 keep their owner. A write to a die out of
service is ignored. -/
def Obligations.SinterAndSemaphoreWritesComplete : Prop :=
  (∀ (s : State) (g : Nat) (v : BitVec 32), g < 24 →
    s.takesWrite .SNT_CTRL g = true → ∃ t, exec (.radioRsvWrite g v) s = .next t ∧
          Same ((s.setFld F.SNT_CTRL.RADIO_RSV g (clamp 64 768 (v.toNat % 1024))).modCore g fun m =>
            { m with rsvPend := some (clamp 64 768 (v.toNat % 1024)) }) t) ∧
  (∀ (s : State) (g n : Nat), g < 24 → (s.core g).rsvPend = some n →
    s.unitsHeld g true ≤ n ∧ s.unitsHeld g false ≤ 1024 - n → s.frameCyc = 0 ∧ s.flag F.GEY_CTRL.TICKING = true →
    ∃ t, exec (.radioRsvApply g) s = .next t ∧ Same (s.modCore g fun m => { m with rsvNow := n, rsvPend := none }) t) ∧
  (∀ (s : State) (g : Nat) (v : BitVec 32), g < 24 → bits v.toNat 19 12 ≠ 0 →
    s.takesWrite .MXC_SEM_SIGNAL g = true → ∃ t, exec (.semSignalWrite g v) s = .next t ∧
          (let n := bits v.toNat 11 0
           let ix := g * 4096 + n
           let sum := s.fld F.MXC_SEMn.VAL ix + bits v.toNat 19 12
           Same (if sum + s.fld F.MXC_SEMn.RSV ix ≤ 255 then s.setFld F.MXC_SEMn.VAL ix sum
             else ((s.setFld F.MXC_SEMn.VAL ix (255 - s.fld F.MXC_SEMn.RSV ix)).setFld F.MXC_SEMn.OVF ix 1).raise (coreSrc g 0)
               { basin := if n < 256 then 0 else s.fld F.MXC_SEMn.OWNER ix,
                 gen := s.gen (if n < 256 then 0 else s.fld F.MXC_SEMn.OWNER ix), data := n }) t)) ∧
  (∀ (s : State) (g : Nat) (v : BitVec 32), g < 24 → bits v.toNat 19 12 = 0 →
    s.takesWrite .MXC_SEM_SIGNAL g = true → ∃ t, exec (.semSignalWrite g v) s = .next t ∧ Same s t) ∧
  (∀ (s : State) (g n : Nat) (v : BitVec 32), g < 24 ∧ 256 ≤ n ∧ n < 4096 → s.fld F.MXC_SEMn.RSV (g * 4096 + n) = 0 →
    s.building (s.fld F.MXC_SEMn.OWNER (g * 4096 + n)) = true ∧ s.building (bits v.toNat 23 16) = true →
    s.takesWrite .MXC_SEMn (4096 * g + n) = true → ∃ t, exec (.semOwnerWrite g n v) s = .next t ∧
          Same (((s.setFld F.MXC_SEMn.OWNER (g * 4096 + n) (bits v.toNat 23 16)).setFld F.MXC_SEMn.VAL (g * 4096 + n) 0).setFld
            F.MXC_SEMn.OVF (g * 4096 + n) 0) t) ∧
  (∀ (s : State) (g n : Nat) (v : BitVec 32), g < 24 ∧ n < 4096 →
    n < 256 ∨ s.fld F.MXC_SEMn.OWNER (g * 4096 + n) = bits v.toNat 23 16 ∧
      (s.fld F.MXC_SEMn.RSV (g * 4096 + n) ≠ 0 ∨ s.building (bits v.toNat 23 16) = false) →
    s.takesWrite .MXC_SEMn (4096 * g + n) = true → ∃ t, exec (.semOwnerWrite g n v) s = .next t ∧
          Same (if bit v.toNat 24 then s.setFld F.MXC_SEMn.OVF (g * 4096 + n) 0 else s) t) ∧
  (∀ (s : State) (g n : Nat) (v : BitVec 32), g < 24 ∧ 256 ≤ n ∧ n < 4096 →
    s.fld F.MXC_SEMn.OWNER (g * 4096 + n) ≠ bits v.toNat 23 16 →
    s.fld F.MXC_SEMn.RSV (g * 4096 + n) ≠ 0 ∨ s.building (s.fld F.MXC_SEMn.OWNER (g * 4096 + n)) = false ∨
      s.building (bits v.toNat 23 16) = false →
    s.takesWrite .MXC_SEMn (4096 * g + n) = true → ∃ t, exec (.semOwnerWrite g n v) s = .next t ∧ Same s t) ∧
  (∀ (s : State) (g n : Nat) (v : BitVec 32) (k : RegKind) (ix : Nat) (i : Instr), g < 24 ∧ n < 4096 →
    (k, ix, i) ∈ [(RegKind.SNT_CTRL, g, Instr.radioRsvWrite g v), (.MXC_SEM_SIGNAL, g, .semSignalWrite g v),
      (.MXC_SEMn, 4096 * g + n, .semOwnerWrite g n v)] → s.takesWrite k ix = false →
    ∃ t, exec i s = .next t ∧ Same s t)

/-- When its word issues on an assigned address, fload of the own device starts a local read, a hit in the remote-read
cache writes RD and marks the line used, and else a request goes out and the context blocks on its tag (a command that may
declare a request unanswered ends by the register writes that fall due, State.applyMmio); fstore stages its bytes, locally or
for the fabric; fatom stages its operation and return address; finv drops the cache lines of its die that overlap its range;
fsend stages a message, to one endpoint or to a group, with the payload of its stream and the poison of its lines. A misaligned
address kills with ILLEGAL, an unassigned one, and one without a route or out of the die's reach, with ADDR, and a poisoned
address or descriptor with POISON. -/
def Obligations.FabricInstructionsComplete : Prop :=
  (∀ (s : State) (g c w : Nat) (x : Ctx), Issues 0xE0 s g c w x → x.poisoned (iRa w) = false →
    addImm (x.val (iRa w)) w % 2 ^ (iFn w % 4) = 0 ∧ faRange (addImm (x.val (iRa w)) w) (2 ^ (iFn w % 4)) = true →
    faPidx (addImm (x.val (iRa w)) w) = s.pidx →
    ∃ t, exec (.fload g c) s = .next t ∧
          Same (((issued s g c).startLoad g c x (faOfs (addImm (x.val (iRa w)) w)) (2 ^ (iFn w % 4)) (iRd w) (iFn w % 8)).applyMmio .caldera) t) ∧
  (∀ (s : State) (g c w : Nat) (x : Ctx) (l : RLine), Issues 0xE0 s g c w x → x.poisoned (iRa w) = false →
    addImm (x.val (iRa w)) w % 2 ^ (iFn w % 4) = 0 ∧ faRange (addImm (x.val (iRa w)) w) (2 ^ (iFn w % 4)) = true →
    faPidx (addImm (x.val (iRa w)) w) ≠ s.pidx ∧ (issued s g c).faNoRoute (addImm (x.val (iRa w)) w) = false →
    (issued s g c).fabReach g (s.sysid / 512 * 512 + faPidx (addImm (x.val (iRa w)) w)) (hashAddr (addImm (x.val (iRa w)) w)) = true →
    bit (iFn w) 3 = false ∧ ((issued s g c).meetCache (g / 2) (addImm (x.val (iRa w)) w / 64)).rrcHit (g / 2) x.basin
      (addImm (x.val (iRa w)) w) = some l →
    ∃ t, exec (.fload g c) s = .next t ∧
          Same
           (let a := addImm (x.val (iRa w)) w
            let v := loadValue (iFn w) (l.data.drop (a % 64))
            ((((issued s g c).meetCache (g / 2) (a / 64)).rrcTouch (g / 2) a).put1 g c (x.setR (iRd w) v l.poison).next).applyMmio .caldera) t) ∧
  (∀ (s u : State) (g c w : Nat) (x : Ctx), Issues 0xE0 s g c w x → x.poisoned (iRa w) = false →
    addImm (x.val (iRa w)) w % 2 ^ (iFn w % 4) = 0 ∧ faRange (addImm (x.val (iRa w)) w) (2 ^ (iFn w % 4)) = true →
    faPidx (addImm (x.val (iRa w)) w) ≠ s.pidx ∧ (issued s g c).faNoRoute (addImm (x.val (iRa w)) w) = false →
    (issued s g c).fabReach g (s.sysid / 512 * 512 + faPidx (addImm (x.val (iRa w)) w)) (hashAddr (addImm (x.val (iRa w)) w)) = true →
    (bit (iFn w) 3 = true ∧ u = issued s g c) ∨
      (bit (iFn w) 3 = false ∧ u = (issued s g c).meetCache (g / 2) (addImm (x.val (iRa w)) w / 64) ∧
        u.rrcHit (g / 2) x.basin (addImm (x.val (iRa w)) w) = none) →
    ∃ t, exec (.fload g c) s = .next t ∧
          Same
           (let a := addImm (x.val (iRa w)) w
            let dst := u.sysid / 512 * 512 + faPidx a
            let p : Packet := if bit (iFn w) 3 then { ty := 2, dst, addr := a, mlen := 2 ^ (iFn w % 4) - 1 }
              else { ty := 1, dst, addr := a, mlen := 63 }
            ((u.put1 g c { x with blk := .fload u.fab.nextTag (iRd w) (iFn w % 8) }).cmdRequest g c x p (hashAddr a) (iRd w)
              (iFn w % 8)).2.applyMmio .caldera) t) ∧
  (∀ (s : State) (g c w : Nat) (x : Ctx), Issues 0xE0 s g c w x → x.poisoned (iRa w) = false →
    addImm (x.val (iRa w)) w % 2 ^ (iFn w % 4) ≠ 0 →
    ∃ t, exec (.fload g c) s = .next t ∧ Same (((issued s g c).killEnd g c 3).applyMmio .caldera) t) ∧
  (∀ (s : State) (g c w : Nat) (x : Ctx), Issues 0xE0 s g c w x → x.poisoned (iRa w) = false →
    addImm (x.val (iRa w)) w % 2 ^ (iFn w % 4) = 0 →
    faRange (addImm (x.val (iRa w)) w) (2 ^ (iFn w % 4)) = false ∨
      faPidx (addImm (x.val (iRa w)) w) ≠ s.pidx ∧ ((issued s g c).faNoRoute (addImm (x.val (iRa w)) w) = true ∨
        (issued s g c).fabReach g (s.sysid / 512 * 512 + faPidx (addImm (x.val (iRa w)) w)) (hashAddr (addImm (x.val (iRa w)) w)) = false) →
    ∃ t, exec (.fload g c) s = .next t ∧ Same (((issued s g c).killAddr g c (addImm (x.val (iRa w)) w)).applyMmio .caldera) t) ∧
  (∀ (s : State) (g c w : Nat) (x : Ctx), Issues 0xE0 s g c w x → x.poisoned (iRa w) = true →
    ∃ t, exec (.fload g c) s = .next t ∧ Same (((issued s g c).killEnd g c 6).applyMmio .caldera) t) ∧
  (∀ (s : State) (g c w : Nat) (x : Ctx), Issues 0xE1 s g c w x → x.poisoned (iRa w) = false →
    faRange (addImm (x.val (iRa w)) w) (2 ^ (iFn w % 4)) = true →
    faPidx (addImm (x.val (iRa w)) w) = s.pidx ∨ (issued s g c).faNoRoute (addImm (x.val (iRa w)) w) = false ∧
      (issued s g c).fabReach g (s.sysid / 512 * 512 + faPidx (addImm (x.val (iRa w)) w)) (hashAddr (addImm (x.val (iRa w)) w)) = true →
    ∃ t, exec (.fstore g c) s = .next t ∧
          Same
           (let a := addImm (x.val (iRa w)) w
            let d := bytesOf (2 ^ (iFn w % 4)) (x.val (iRb w))
            if faPidx a = s.pidx then (issued s g c).stageAt g c x (faOfs a) (d.map (·, x.poisoned (iRb w)))
            else (issued s g c).stage g c x.next [.fstore a d (x.poisoned (iRb w))]) t) ∧
  (∀ (s : State) (g c w : Nat) (x : Ctx), Issues 0xE1 s g c w x → x.poisoned (iRa w) = false →
    faRange (addImm (x.val (iRa w)) w) (2 ^ (iFn w % 4)) = false ∨
      faPidx (addImm (x.val (iRa w)) w) ≠ s.pidx ∧ ((issued s g c).faNoRoute (addImm (x.val (iRa w)) w) = true ∨
        (issued s g c).fabReach g (s.sysid / 512 * 512 + faPidx (addImm (x.val (iRa w)) w)) (hashAddr (addImm (x.val (iRa w)) w)) = false) →
    ∃ t, exec (.fstore g c) s = .next t ∧ Same ((issued s g c).killAddr g c (addImm (x.val (iRa w)) w)) t) ∧
  (∀ (s : State) (g c w : Nat) (x : Ctx), Issues 0xE2 s g c w x →
    x.poisoned (iRa w) = false ∧ x.poisoned (iRd w) = false →
    x.val (iRa w) % 8 = 0 ∧ faRange (x.val (iRa w)) 8 = true →
    (issued s g c).badAddr (s.coreWho g x) true (x.val (iRd w)) 8 = none →
    faPidx (x.val (iRa w)) ≠ s.pidx ∧ (issued s g c).faNoRoute (x.val (iRa w)) = false ∧
        (issued s g c).fabReach g (s.sysid / 512 * 512 + faPidx (x.val (iRa w))) (hashAddr (x.val (iRa w))) = true ∨
      faPidx (x.val (iRa w)) = s.pidx ∧ (issued s g c).badAddr (s.coreWho g x) true (faOfs (x.val (iRa w))) 8 = none →
    ∃ t, exec (.fatom g c) s = .next t ∧
          Same
           (let cas := iFn w % 4 == 3
            (issued s g c).stage g c x.next [.fatom (iFn w % 4) (bit (iFn w) 2) (x.val (iRa w)) (x.val (iRb w))
              (if cas then x.val (iRb w + 1) else 0) (x.val (iRd w)) (x.poisoned (iRb w) || (cas && x.poisoned (iRb w + 1)))]) t) ∧
  (∀ (s : State) (g c w : Nat) (x : Ctx), Issues 0xE2 s g c w x →
    x.poisoned (iRa w) = false ∧ x.poisoned (iRd w) = false → x.val (iRa w) % 8 ≠ 0 →
    ∃ t, exec (.fatom g c) s = .next t ∧ Same ((issued s g c).killEnd g c 3) t) ∧
  (∀ (s : State) (g c w a : Nat) (x : Ctx), Issues 0xE2 s g c w x →
    x.poisoned (iRa w) = false ∧ x.poisoned (iRd w) = false → x.val (iRa w) % 8 = 0 ∧ faRange (x.val (iRa w)) 8 = true →
    (issued s g c).badAddr (s.coreWho g x) true (x.val (iRd w)) 8 = some a →
    ∃ t, exec (.fatom g c) s = .next t ∧ Same ((issued s g c).killAddr g c a) t) ∧
  (∀ (s : State) (g c w : Nat) (x : Ctx), Issues 0xE3 s g c w x →
    x.poisoned (iRa w) = false ∧ x.poisoned (iRb w) = false →
    ∃ t, exec (.finv g c) s = .next t ∧
          Same
           (let a := x.val (iRa w)
            let n := x.val (iRb w)
            { into s g c x.next with rrc := s.rrc.filter fun e => !(e.1 / 2 ^ 58 == g / 2 &&
                decide (e.1 % 2 ^ 58 * 64 < a + n ∧ a < e.1 % 2 ^ 58 * 64 + 64 ∧ 0 < n)) }) t) ∧
  (∀ (s : State) (g c w : Nat) (x : Ctx), Issues 0xE4 s g c w x →
    x.poisoned (iRa w) = false ∧ x.poisoned (sdSpec (iRd w)) = false →
    (if bit (x.val (iRa w)) 31 then x.val (iRa w) % 2 ^ 31 / 64 = 0 ∧ x.val (iRa w) / 2 ^ 32 = 0 else x.val (iRa w) / 2 ^ 25 = 0) →
    sdOk (x.sdReg (iRd w)) 0 = true ∧ sdLen (x.sdReg (iRd w)) ≤ 262144 →
    (issued s g c).streamBad g x false (x.sdReg (iRd w)) = none →
    (∀ e ∈ (issued s g c).endpoints (x.val (iRa w)), e / 4096 = s.sysid ∨
      (issued s g c).rtValid (e / 4096) = true ∧ (issued s g c).fabReach g (e / 4096) (hashMsg (e % 4096) g) = true) →
    ∃ t, exec (.fsend g c) s = .next t ∧
          Same
           (let ep := x.val (iRa w)
            let v := (issued s g c).meetStream g (x.sdReg (iRd w))
            let r := v.streamRead g x (x.sdReg (iRd w))
            v.stage g c x.next
              [.fsend (if bit ep 31 then 8192 + ep % 64 else ep / 4096) (ep % 4096) (r.map (·.1)) (linePois (r.map (·.2)))]) t) ∧
  (∀ (s : State) (g c w : Nat) (x : Ctx), Issues 0xE4 s g c w x →
    x.poisoned (iRa w) = false ∧ x.poisoned (sdSpec (iRd w)) = false →
    (if bit (x.val (iRa w)) 31 then x.val (iRa w) % 2 ^ 31 / 64 ≠ 0 ∨ x.val (iRa w) / 2 ^ 32 ≠ 0 else x.val (iRa w) / 2 ^ 25 ≠ 0) →
    ∃ t, exec (.fsend g c) s = .next t ∧ Same ((issued s g c).killEnd g c 3) t) ∧
  (∀ (s : State) (g c w op : Nat) (i : Instr) (x : Ctx),
    (op, i) ∈ [(0xE1, Instr.fstore g c), (0xE2, .fatom g c), (0xE3, .finv g c), (0xE4, .fsend g c)] →
    Issues op s g c w x → x.poisoned (iRa w) = true →
    ∃ t, exec i s = .next t ∧ Same ((issued s g c).killEnd g c 6) t)

/-- When the data of a blocked ld, sdld or vld return, from memory whose waiting errors are met, from registers whose reads have
their effects, or from host memory as the command gives them (recorded, and not in a replay), the command's own staged bytes and
those of earlier commands before them (State.newestOver), ld writes its register, sign-extended where FN says so, with their
poison; sdld fills its stream register and its poison bit; vld fills the lanes of its v register; and the context goes on. An
address it may no longer use kills with ADDR. A blocked frecv reserves the first visible message of its queue and stages its
payload to the stream it named; one that does not fit kills with ILLEGAL. Nothing else changes. -/
def Obligations.ReadsAndMessagesReturn : Prop :=
  (∀ (s u : State) (g c a n rd fn : Nat) (ext : List Byte) (pois : Bool) (x : Ctx) (d : List (Byte × Bool)), g < 24 ∧ c < 4 →
    s.ctx g c = some x ∧ x.blk = .load a n rd fn → s.badAddr (s.coreWho g x) false a n = none →
    (a < 0xF000400000 ∧ u = s.meet a n ∧ d = u.coreRead g x a n) ∨
      (0xFF00000000 ≤ a ∧ a < 0xFF04000000 ∧ u = (s.regBytes .caldera (a - 0xFF00000000) n).2 ∧
        d = s.newest g x a ((s.regBytes .caldera (a - 0xFF00000000) n).1.map (·, false))) ∨
      (0x800000000000 ≤ a ∧ a < 0x1000000000000 ∧ s.noHostRead = false ∧ u = s.obs 2 g n a (slice ext 0 n) pois ∧
        d = s.newest g x a ((slice ext 0 n).map (·, pois))) →
    ∃ t, exec (.loadReturn g c ext pois) s = .next t ∧
          Same (u.put1 g c (if n = 32 then
              { Ctx.setSd { x with blk := .none } rd (natOf (d.map Prod.fst)) with
                rp := SMap.set false x.rp (sdSpec rd) (d.any Prod.snd) }.next
            else (Ctx.setR { x with blk := .none } rd (loadValue fn (d.map Prod.fst)) (d.any Prod.snd)).next)) t) ∧
  (∀ (s u : State) (g c rd sd : Nat) (ext : List Byte) (pois : Bool) (x : Ctx) (d : List (Byte × Bool)), g < 24 ∧ c < 4 →
    s.ctx g c = some x ∧ x.blk = .vload rd sd →
    (∀ r ∈ sdRuns (x.sdReg sd), s.badAddr (s.coreWho g x) false r (sdLen0 (x.sdReg sd)) = none) →
    (sdBase (x.sdReg sd) < 0xF000400000 ∧
        u = s.meetAll ((sdRuns (x.sdReg sd)).map (·, sdLen0 (x.sdReg sd))) ∧
        d = ((sdRuns (x.sdReg sd)).flatMap fun r => u.coreRead g x r (sdLen0 (x.sdReg sd))).take 8192) ∨
      (0x800000000000 ≤ sdBase (x.sdReg sd) ∧ sdBase (x.sdReg sd) < 0x1000000000000 ∧ s.noHostRead = false ∧
        u = s.obs 2 g (min (sdLen (x.sdReg sd)) 8192) (sdBase (x.sdReg sd)) (slice ext 0 (min (sdLen (x.sdReg sd)) 8192)) pois ∧
        d = s.newestOver g x ((sdRuns (x.sdReg sd)).map (·, sdLen0 (x.sdReg sd)))
          ((slice ext 0 (min (sdLen (x.sdReg sd)) 8192)).map (·, pois))) ∨
      (0xFF00000000 ≤ sdBase (x.sdReg sd) ∧ sdBase (x.sdReg sd) < 0xFF04000000 ∧
        ∃ b, (b, u) = (sdRuns (x.sdReg sd)).foldl (fun (r : List Byte × State) q =>
            (r.1 ++ (r.2.regBytes .caldera (q - 0xFF00000000) (sdLen0 (x.sdReg sd))).1,
              (r.2.regBytes .caldera (q - 0xFF00000000) (sdLen0 (x.sdReg sd))).2)) ([], s) ∧
          d = s.newestOver g x ((sdRuns (x.sdReg sd)).map (·, sdLen0 (x.sdReg sd))) (b.map (·, false))) →
    ∃ t, exec (.loadReturn g c ext pois) s = .next t ∧
          Same
           (let l := (x.lanes rd).zip (x.lanePois rd) |>.flatMap fun (v, p) => (bytesOf 4 v).map (·, p)
            u.put1 g c (Ctx.setVbytes { x with blk := .none } rd (overlay l 0 (d.take 8192))).next) t) ∧
  (∀ (s : State) (g c a n rd fn p : Nat) (ext : List Byte) (pois : Bool) (x : Ctx), g < 24 ∧ c < 4 →
    s.ctx g c = some x ∧ x.blk = .load a n rd fn → s.badAddr (s.coreWho g x) false a n = some p →
    ∃ t, exec (.loadReturn g c ext pois) s = .next t ∧ Same (s.killAddr g c p) t) ∧
  (∀ (s : State) (g c q sd i : Nat) (x : Ctx), g < 24 ∧ c < 4 → s.ctx g c = some x ∧ x.blk = .frecv q sd →
    s.coreRuns g = true → s.msgHead q = some i → s.readNat (s.mqAddr q i + 4) 4 ≤ sdLen (x.sdReg sd) →
    s.streamBad g x true (x.sdReg sd) = none →
    ∃ t, exec (.frecvMessageReserve g c) s = .next t ∧
          Same
           (let a := s.mqAddr q i
            let n := s.readNat (a + 4) 4
            let v := s.meet a (64 + n)
            let d := (List.range n).map fun k => (v.rd (a + 64 + k), v.linePoison ((a + 64 + k) / 64))
            v.stage g c { x with blk := .none, pc := x.pc + 1, msgs := x.msgs ++ [(q, i)] } (sdStores (x.sdReg sd) d)) t) ∧
  (∀ (s : State) (g c q sd i : Nat) (x : Ctx), g < 24 ∧ c < 4 → s.ctx g c = some x ∧ x.blk = .frecv q sd →
    s.coreRuns g = true → s.msgHead q = some i → sdLen (x.sdReg sd) < s.readNat (s.mqAddr q i + 4) 4 →
    ∃ t, exec (.frecvMessageReserve g c) s = .next t ∧ Same (s.killEnd g c 3) t)

/-- Caldera, a physical function and a running host core of basin 0 reach the registers of BAR0. A 64-bit write of a word of
a writable register takes effect as one write (State.writeReg), as does a 32-bit write of a 32-bit register; 64 bits over
two 32-bit places make two writes. A write of a lower half is held and changes no register; one of an upper half makes one
write with the held half, which goes, or, with none held, with the RW fields of the lower half as they stand (the model's
choice, log entry 146). A 64-bit read answers the word and clears its RC fields; a read of a lower half answers it, clears
them and latches the upper half; a read of an upper half answers and empties the latch, or samples its own bits; a 32-bit
register answers and clears its own. A register that does not answer, or an unassigned offset, reads 0 and takes no write.
Offsets of the mailbox window reach the mailboxes, for VF b its own page at offset 0. A tenant's host core that reads or
writes BAR0 takes trap 0x30 and an address fault instead, and a halted one does nothing; a system register is its own
core's. A write of SR-IOV control of a port is its VF Enable and NumVFs; BAR2 of VF b holds its vectors; none of these
answers another requester. -/
def Obligations.RegisterAccessesComplete : Prop :=
  (∀ (s u : State) (r : Req) (o : Nat) (v : Word) (k : RegKind) (i b : Nat), o < 0x4000000 ∧ o % 4 = 0 ∧ mailboxAt o = none →
    locate o = some (k, i, b) ∧ 32 < k.width ∧ b % 8 = 0 → WriteComes s r o (bytesOf 8 v.toNat) u → u.writable r o = true →
    ∃ t, exec (.registerWrite r (.bar0 o) true v) s = .next t ∧
          Same ((u.writeReg r k (u.inst r k i) (b / 8) v.toNat).applyMmio r) t) ∧
  (∀ (s u : State) (r : Req) (o : Nat) (v : Word), o < 0x4000000 ∧ o % 4 = 0 ∧ mailboxAt o = none →
    (∀ k i b, locate o = some (k, i, b) → k.width ≤ 32 ∨ b % 8 ≠ 0) → WriteComes s r o (bytesOf 8 v.toNat) u →
    u.writable r o = true →
    ∃ t, exec (.registerWrite r (.bar0 o) true v) s = .next t ∧
          Same (((u.write32 r o (v.toNat % 2 ^ 32)).write32 r (o + 4) (v.toNat / 2 ^ 32)).applyMmio r) t) ∧
  (∀ (s u : State) (j : Instr) (r : Req) (o : Nat) (v : BitVec 32) (k : RegKind) (i b : Nat), Writes32 j r o v →
    mailboxAt o = none ∧ locate o = some (k, i, b) ∧ k.width ≤ 32 → WriteComes s r o (bytesOf 4 v.toNat) u → u.writable r o = true →
    ∃ t, exec j s = .next t ∧ Same ((u.writeReg r k (u.inst r k i) 0 v.toNat).applyMmio r) t) ∧
  (∀ (s u : State) (j : Instr) (r : Req) (o : Nat) (v : BitVec 32) (k : RegKind) (i b : Nat), Writes32 j r o v →
    mailboxAt o = none ∧ locate o = some (k, i, b) ∧ 32 < k.width ∧ b % 8 = 0 → WriteComes s r o (bytesOf 4 v.toNat) u →
    u.writable r o = true →
    ∃ t, exec j s = .next t ∧
          Same (State.applyMmio { u with held := ⟨r, wordKey k (u.inst r k i) (b / 8), v.toNat⟩ :: u.held.filter fun h =>
            !(h.req == r && h.key == wordKey k (u.inst r k i) (b / 8)) } r) t) ∧
  (∀ (s u : State) (j : Instr) (r : Req) (o low : Nat) (v : BitVec 32) (k : RegKind) (i b : Nat), Writes32 j r o v →
    mailboxAt o = none ∧ locate o = some (k, i, b) ∧ 32 < k.width ∧ b % 8 ≠ 0 → WriteComes s r o (bytesOf 4 v.toNat) u →
    u.writable r o = true →
    u.heldHalf r (wordKey k (u.inst r k i) (b / 8)) = some low ∨
      (u.heldHalf r (wordKey k (u.inst r k i) (b / 8)) = none ∧ low = u.wordRw k (u.inst r k i) (b / 8) % 2 ^ 32) →
    ∃ t, exec j s = .next t ∧
          Same (((u.unhold r (wordKey k (u.inst r k i) (b / 8))).writeReg r k (u.inst r k i) (b / 8)
            (low + v.toNat * 2 ^ 32)).applyMmio r) t) ∧
  (∀ (s u : State) (r : Req) (o : Nat), s.mmio = [] ∧ mailboxAt o = none → u.writable r o = false →
    (∀ v : Word, o < 0x4000000 ∧ o % 4 = 0 → WriteComes s r o (bytesOf 8 v.toNat) u →
      ∃ t, exec (.registerWrite r (.bar0 o) true v) s = .next t ∧ Same u t) ∧
          (∀ (j : Instr) (v : BitVec 32), Writes32 j r o v → WriteComes s r o (bytesOf 4 v.toNat) u →
            ∃ t, exec j s = .next t ∧ Same u t)) ∧
  (∀ (s u : State) (j : Instr) (r : Req) (o : Nat) (v : BitVec 32), s.mmio = [] ∧ Writes32 j r o v →
    mailboxAt o = none ∧ locate o = none → WriteComes s r o (bytesOf 4 v.toNat) u → ∃ t, exec j s = .next t ∧ Same u t) ∧
  (∀ (s : State) (p o : Nat), s.mmio = [] ∧ mailboxAt o = none ∧ s.replaying = true ∧ 0x100000 ≤ o →
    (∀ v : Word, p < 2 ∧ o < 0x4000000 ∧ o % 4 = 0 → ∃ t, exec (.registerWrite (.pf p) (.bar0 o) true v) s = .next t ∧ Same s t) ∧
          (∀ (j : Instr) (v : BitVec 32), Writes32 j (.pf p) o v → ∃ t, exec j s = .next t ∧ Same s t)) ∧
  (∀ (s : State) (r : Req) (o b x : Nat) (d : List Byte) (j : Instr), ReadComes s r → mailboxAt o = some (b, x) →
    s.answers r o = true →
    (∃ v : Word, o % 4 = 0 ∧ j = .registerWrite r (.bar0 o) true v ∧ d = bytesOf 8 v.toNat) ∨
      (∃ v : BitVec 32, Writes32 j r o v ∧ d = bytesOf 4 v.toNat) →
    ∃ t, exec j s = .next t ∧ Same ((s.mbxWrite r b x d).applyMmio r) t) ∧
  (∀ (s : State) (p b o : Nat) (d : List Byte) (j : Instr), p < 2 ∧ 1 ≤ b ∧ b < 256 ∧ o < 4096 →
    s.answers (.vf p b) 0x3000000 = true →
    (∃ v : Word, o % 4 = 0 ∧ j = .registerWrite (.vf p b) (.bar0 o) true v ∧ d = bytesOf 8 v.toNat) ∨
      (∃ v : BitVec 32, Writes32 j (.vf p b) o v ∧ d = bytesOf 4 v.toNat) →
    ∃ t, exec j s = .next t ∧ Same ((s.mbxWrite (.vf p b) b o d).applyMmio (.vf p b)) t) ∧
  (∀ (s : State) (r : Req) (o : Nat) (k : RegKind) (i b : Nat), o < 0x4000000 ∧ o % 8 = 0 ∧ mailboxAt o = none →
    locate o = some (k, i, b) ∧ 64 ≤ k.width ∧ b % 8 = 0 → ReadComes s r → s.answers r o = true →
    ∃ t, exec (.registerReadClear r (.bar0 o)) s = .next t ∧
          t.resp = bytesOf 8 (bits (s.viewBits k (s.inst r k i)) (64 * (b / 8) + 63) (64 * (b / 8))) ∧
          (∀ p ∈ rcFields k (s.inst r k i) (64 * (b / 8)) (64 * (b / 8) + 63), t.fld p.1 p.2 = 0) ∧
          (∀ r' n, r' ≠ r ∨ n ≠ fracKey → t.latched r' n = s.latched r' n) ∧
          (k = .TMB_NOW → t.latched r fracKey = some (s.fld F.TMB_NOW_FRAC.FRAC)) ∧
          (k ≠ .TMB_NOW → t.latches = s.latches) ∧
          SameBut (rcFields k (s.inst r k i) (64 * (b / 8)) (64 * (b / 8) + 63))
            { s with resp := t.resp, respPoison := false, latches := t.latches } t) ∧
  (∀ (s : State) (j : Instr) (r : Req) (o : Nat) (k : RegKind) (i b : Nat), Reads32 j r o →
    mailboxAt o = none ∧ locate o = some (k, i, b) ∧ 32 < k.width ∧ b % 8 = 0 → ReadComes s r → s.answers r o = true →
    ∃ t, exec j s = .next t ∧
          (let v := bits (s.viewBits k (s.inst r k i)) (64 * (b / 8) + 63) (64 * (b / 8))
           t.resp = bytesOf 4 (v % 2 ^ 32) ∧ t.latched r (wordKey k (s.inst r k i) (b / 8)) = some (v / 2 ^ 32)) ∧
          (∀ p ∈ rcFields k (s.inst r k i) (64 * (b / 8)) (64 * (b / 8) + 63), t.fld p.1 p.2 = 0) ∧
          (∀ r' n, r' ≠ r ∨ (n ≠ wordKey k (s.inst r k i) (b / 8) ∧ (k ≠ .TMB_NOW ∨ n ≠ fracKey)) → t.latched r' n = s.latched r' n) ∧
          (k = .TMB_NOW → t.latched r fracKey = some (s.fld F.TMB_NOW_FRAC.FRAC)) ∧
          SameBut (rcFields k (s.inst r k i) (64 * (b / 8)) (64 * (b / 8) + 63))
            { s with resp := t.resp, respPoison := false, latches := t.latches } t) ∧
  (∀ (s : State) (j : Instr) (r : Req) (o v : Nat) (k : RegKind) (i b : Nat), Reads32 j r o →
    mailboxAt o = none ∧ locate o = some (k, i, b) ∧ 32 < k.width ∧ b % 8 ≠ 0 → ReadComes s r → s.answers r o = true →
    s.latched r (wordKey k (s.inst r k i) (b / 8)) = some v →
    ∃ t, exec j s = .next t ∧ t.resp = bytesOf 4 v ∧ t.latched r (wordKey k (s.inst r k i) (b / 8)) = none ∧
          (∀ r' n, r' ≠ r ∨ n ≠ wordKey k (s.inst r k i) (b / 8) → t.latched r' n = s.latched r' n) ∧
          Same { s with resp := t.resp, respPoison := false, latches := t.latches } t) ∧
  (∀ (s : State) (j : Instr) (r : Req) (o : Nat) (k : RegKind) (i b : Nat), Reads32 j r o →
    mailboxAt o = none ∧ locate o = some (k, i, b) ∧ 32 < k.width ∧ b % 8 ≠ 0 → ReadComes s r → s.answers r o = true →
    s.latched r (wordKey k (s.inst r k i) (b / 8)) = none →
    ∃ t, exec j s = .next t ∧
          t.resp = bytesOf 4 (bits (s.viewBits k (s.inst r k i)) (64 * (b / 8) + 63) (64 * (b / 8) + 32)) ∧
          (∀ p ∈ rcFields k (s.inst r k i) (64 * (b / 8) + 32) (64 * (b / 8) + 63), t.fld p.1 p.2 = 0) ∧
          SameBut (rcFields k (s.inst r k i) (64 * (b / 8) + 32) (64 * (b / 8) + 63)) { s with resp := t.resp, respPoison := false } t) ∧
  (∀ (s : State) (j : Instr) (r : Req) (o : Nat) (k : RegKind) (i b : Nat), Reads32 j r o →
    mailboxAt o = none ∧ locate o = some (k, i, b) ∧ k.width ≤ 32 → ReadComes s r → s.answers r o = true →
    k ≠ .TMB_NOW_FRAC ∨ s.latched r fracKey = none →
    ∃ t, exec j s = .next t ∧ t.resp = bytesOf 4 (s.viewBits k (s.inst r k i) % 2 ^ 32) ∧
          (∀ p ∈ rcFields k (s.inst r k i) 0 31, t.fld p.1 p.2 = 0) ∧
          SameBut (rcFields k (s.inst r k i) 0 31) { s with resp := t.resp, respPoison := false } t) ∧
  (∀ (s : State) (j : Instr) (r : Req) (o n : Nat), ReadComes s r →
    Reads32 j r o ∧ n = 4 ∨ j = .registerReadClear r (.bar0 o) ∧ wholeLen (.bar0 o) = 8 ∧ j.wf = true ∧ n = 8 →
    s.answers r o = false ∨ (mailboxAt o = none ∧ locate o = none) →
    ∃ t, exec j s = .next t ∧ Same { s with resp := bytesOf n 0, respPoison := false } t) ∧
  (∀ (s : State) (r : Req) (o b x n : Nat) (j : Instr), ReadComes s r → mailboxAt o = some (b, x) → s.answers r o = true →
    Reads32 j r o ∧ n = 4 ∨ j = .registerReadClear r (.bar0 o) ∧ o % 8 = 0 ∧ n = 8 →
    ∃ t, exec j s = .next t ∧ Same { s with resp := s.mbxRead b x n, respPoison := false } t) ∧
  (∀ (s : State) (p b o n : Nat) (j : Instr),
    Reads32 j (.vf p b) o ∧ n = 4 ∨ j = .registerReadClear (.vf p b) (.bar0 o) ∧ wholeLen (.bar0 o) = 8 ∧ j.wf = true ∧ n = 8 →
    (o < 4096 ∧ p = s.portOf b ∧ s.answers (.vf p b) 0x3000000 = true →
      ∃ t, exec j s = .next t ∧ Same { s with resp := s.mbxRead b o n, respPoison := false } t) ∧
          (4096 ≤ o ∨ p ≠ s.portOf b ∨ s.answers (.vf p b) 0x3000000 = false →
            ∃ t, exec j s = .next t ∧ Same { s with resp := List.replicate n 0#8, respPoison := false } t)) ∧
  (∀ (s : State) (p b o : Nat) (v : Word) (w : BitVec 32) (j : Instr), s.mmio = [] →
    Writes32 j (.vf p b) o w ∨ j = .registerWrite (.vf p b) (.bar0 o) true v ∧ j.wf = true →
    4096 ≤ o ∨ s.answers (.vf p b) 0x3000000 = false → ∃ t, exec j s = .next t ∧ Same s t) ∧
  (∀ (s : State) (h o v : Nat) (j : Instr), s.hcRuns h = true ∧ s.hcBasin h ≠ 0 →
    (Writes j (.hc h) (.bar0 o) v → (∀ w, j ≠ .highHalfWrite (.hc h) (.bar0 o) w) →
      ∃ t, exec j s = .next t ∧
        Same (((s.addrFault (s.who (.hc h)) (0xFF00000000 + o)).hcTrap h 0x30 (0xFF00000000 + o)).applyMmio (.hc h)) t) ∧
          (∀ w, j = .highHalfWrite (.hc h) (.bar0 o) w → j.wf = true →
            ∃ t, exec j s = .next t ∧
              Same (((s.addrFault (s.who (.hc h)) (0xFF00000004 + o)).hcTrap h 0x30 (0xFF00000004 + o)).applyMmio (.hc h)) t) ∧
          (j.wf = true → j = .registerReadClear (.hc h) (.bar0 o) ∨ j = .lowHalfRead (.hc h) (.bar0 o) →
            ∃ t, exec j s = .next t ∧ Same ((s.addrFault (s.who (.hc h)) (0xFF00000000 + o)).hcTrap h 0x30 (0xFF00000000 + o)) t) ∧
          (j.wf = true → j = .highHalfRead (.hc h) (.bar0 o) →
            ∃ t, exec j s = .next t ∧ Same ((s.addrFault (s.who (.hc h)) (0xFF00000004 + o)).hcTrap h 0x30 (0xFF00000004 + o)) t)) ∧
  (∀ (s : State) (h v : Nat) (a : RegAddr) (j : Instr), s.mmio = [] ∧ s.hcRuns h = false → Writes j (.hc h) a v ∨ Reads j (.hc h) a →
    (∃ o, a = .bar0 o) ∨ (∃ n, a = .sys h n) → ∃ t, exec j s = .next t ∧ Same s t) ∧
  (∀ (s u : State) (h num v : Nat) (j : Instr), s.hcRuns h = true → Writes j (.hc h) (.sys h num) v →
    (num = 0xC05 ∧ u = ((s.setFld F.HS_TIMECMP.VALUE h v).hcClear h 4).modHc h fun c => { c with timerOn := true }) ∨
      (num = 0xC07 ∧ u = s.setFld F.HS_IE.VALUE h v) ∨ (num = 0xC08 ∧ u = s.iack h v) ∨ (num = 0xC0A ∧ u = s.d2h h (v % 8)) ∨
      ((num = 0xC0C ∨ num = 0xC0D) ∧ s.hcBasin h ≠ 0 ∧ u = s.hcTrap h 0x33 num) ∨ ((num = 0xC0C ∨ num = 0xC0D) ∧ s.hcBasin h = 0 ∧ u = s) ∨
      (num ∉ [0xC05, 0xC07, 0xC08, 0xC0A, 0xC0C, 0xC0D] ∧ u = s) →
    ∃ t, exec j s = .next t ∧ Same (u.applyMmio (.hc h)) t) ∧
  (∀ (s u : State) (h num : Nat) (j : Instr), s.hcRuns h = true → Reads j (.hc h) (.sys h num) →
    (∃ v, u = { s with resp := bytesOf 8 v, respPoison := false } ∧
      ((num = 0xC00 ∧ v = h + b2n (s.flag F.PKG_HC_PAIRp.EN (h / 2)) * 64 + (if h % 2 = 0 then h + 1 else h - 1) * 128) ∨
       (num = 0xC01 ∧ v = s.hcBasin h + s.gen (s.hcBasin h) * 256) ∨ (num = 0xC02 ∧ v = s.fld F.TMB_NOW.NS) ∨
       (num = 0xC03 ∧ v = s.fld F.GEY_TICK.TICK) ∨ (num = 0xC04 ∧ v = s.regBits .GEY_POS 0) ∨
       (num = 0xC05 ∧ v = s.fld F.HS_TIMECMP.VALUE h) ∨ (num = 0xC06 ∧ v = s.fld F.HS_IP.VALUE h) ∨
       (num = 0xC07 ∧ v = s.fld F.HS_IE.VALUE h) ∨ (num = 0xC0B ∧ v = s.fld F.HS_TVAL.VALUE h) ∨
       (num = 0xC0D ∧ s.hcBasin h = 0 ∧ v = s.fld F.HS_EVDATA.VALUE h) ∨ ((num = 0xC08 ∨ num = 0xC0A) ∧ v = 0))) ∨
      (num = 0xC09 ∧ u = s.hsRand h) ∨ (num = 0xC0C ∧ u = s.evTake h) ∨
      (num = 0xC0D ∧ s.hcBasin h ≠ 0 ∧ u = s.hcTrap h 0x33 0xC0D) →
    ∃ t, exec j s = .next t ∧ Same u t) ∧
  (∀ (s : State) (p v : Nat) (j : Instr),
    (Writes j (.pf p) (.sriov p) v →
      ∃ t, exec j s = .next t ∧ Same ((vfDisable p (bit v 0) (bits v 16 1) s).applyMmio (.pf p)) t) ∧
          (Reads j (.pf p) (.sriov p) →
            ∃ t, exec j s = .next t ∧ Same { s with resp := bytesOf 4 (s.regBits .CFG_SRIOV p), respPoison := false } t)) ∧
  (∀ (s : State) (r : Req) (p fn v : Nat) (j : Instr), r = .pf p ∨ (∃ b, r = .vf p b) →
    (Writes j r (.ats p fn) v → ∃ t, exec j s = .next t ∧ Same ((s.plain .CFG_ATS (p * 256 + fn) 0 v).applyMmio r) t) ∧
          (Reads j r (.ats p fn) →
            ∃ t, exec j s = .next t ∧ Same { s with resp := bytesOf 4 (s.regBits .CFG_ATS (p * 256 + fn)), respPoison := false } t)) ∧
  (∀ (s : State) (p b off : Nat) (v : Word) (w : BitVec 32) (wide : Bool), p < 2 ∧ 1 ≤ b ∧ b < 256 ∧ off < 0x2000 ∧ off % 4 = 0 →
    (∃ t, exec (.registerWrite (.vf p b) (.vfBar2 b off) wide v) s = .next t ∧
          Same ((s.vfWrite (vfIx p b) off (if wide then 8 else 4) v.toNat).applyMmio (.vf p b)) t) ∧
          (∃ t, exec (.lowHalfWrite (.vf p b) (.vfBar2 b off) w) s = .next t ∧
            Same ((s.vfWrite (vfIx p b) off 4 w.toNat).applyMmio (.vf p b)) t) ∧
          (∃ t, exec (.highHalfWrite (.vf p b) (.vfBar2 b off) w) s = .next t ∧
            Same ((s.vfWrite (vfIx p b) (off + 4) 4 w.toNat).applyMmio (.vf p b)) t) ∧
          (∃ t, exec (.registerReadClear (.vf p b) (.vfBar2 b off)) s = .next t ∧ Same (s.vfRead (vfIx p b) off 4) t) ∧
          (∃ t, exec (.lowHalfRead (.vf p b) (.vfBar2 b off)) s = .next t ∧ Same (s.vfRead (vfIx p b) off 4) t) ∧
          (∃ t, exec (.highHalfRead (.vf p b) (.vfBar2 b off)) s = .next t ∧ Same (s.vfRead (vfIx p b) (off + 4) 4) t)) ∧
  (∀ (s : State) (r : Req) (a : RegAddr) (v : Nat) (j : Instr), s.mmio = [] → Writes j r a v ∨ Reads j r a →
    (∃ h num, a = .sys h num ∧ r ≠ .hc h) ∨ (∃ p, a = .sriov p ∧ r ≠ .pf p) ∨
      (∃ p fn, a = .ats p fn ∧ r ≠ .pf p ∧ ∀ b, r ≠ .vf p b) ∨ (∃ b off, a = .vfBar2 b off ∧ ∀ p, r ≠ .vf p b) →
    ∃ t, exec j s = .next t ∧ Same s t)

/-- A read of memory a requester may access meets the errors of the words it touches (State.meet) and answers the bytes with
their poison; of register space it answers the registers, and of host memory free bytes (log entry 5). A write stores its
bytes (State.put: bytes, poison, doorbell lines, host writes), register space taking register writes; a physical
function's comes over BAR2, is recorded, and in a replay reaches the package window alone. A range with an address the
requester may not access gives an address fault, zeros and no write; the command or task that made it ends with ADDR, and
a host core takes trap 0x30. BAR2 reaches the same memory at BASE times 2^36 plus the offset, as the physical function,
and poisoned data return with the EP bit; its base register takes 12 bits. A host core's load answers its bytes or traps
0x31 on poison; a refused host address traps 0x30; a store of a tenant's core is recorded; a halted core does nothing. -/
def Obligations.MemoryAccessesComplete : Prop :=
  (∀ (s u : State) (m : Master) (a n : Nat) (e : Ecc), m.wf = true ∧ a < 0x1000000000000 → s.badAddr (s.who m) false a n = none →
    u = (s.strike e).meet a n →
    (hasEcc a = true → ∃ t, exec (.memoryRead m a n e) s = .next t ∧
            Same { u with resp := u.view a n, respPoison := u.rangePoison a n } t) ∧
          (∀ o, place a = .regs o → ∃ t, exec (.memoryRead m a n e) s = .next t ∧
            Same { (u.regBytes (reqOf m) o n).2 with resp := (u.regBytes (reqOf m) o n).1, respPoison := false } t) ∧
          (∀ o, place a = .host o → ∃ t, exec (.memoryRead m a n e) s = .next t ∧
            Same { (u.freshBytes n).2 with resp := (u.freshBytes n).1, respPoison := false } t)) ∧
  (∀ (s : State) (m : Master) (a n x : Nat) (e : Ecc), m.wf = true ∧ a < 0x1000000000000 →
    s.badAddr (s.who m) false a n = some x →
    ∃ t, exec (.memoryRead m a n e) s = .next t ∧
          Same { (s.addrFault (s.who m) x).faulted m x with resp := List.replicate n 0#8, respPoison := false } t) ∧
  (∀ (s : State) (m : Master) (a : Nat) (d : List Byte) (pois : Bool) (e : Ecc), m.wf = true ∧ a < 0x1000000000000 →
    (∀ p, m ≠ .pf p) → s.badAddr (s.who m) true a d.length = none →
    ∃ t, exec (.memoryWrite m a d pois e) s = .next t ∧
          Same (((s.strikeWrite a d.length e).put (s.who m).basin a d pois).applyMmio (reqOf m)) t) ∧
  (∀ (s : State) (m : Master) (a x : Nat) (d : List Byte) (pois : Bool) (e : Ecc), m.wf = true ∧ a < 0x1000000000000 →
    (∀ p, m ≠ .pf p) → s.badAddr (s.who m) true a d.length = some x →
    ∃ t, exec (.memoryWrite m a d pois e) s = .next t ∧ Same ((s.addrFault (s.who m) x).faulted m x) t) ∧
  (∀ (s u : State) (port ofs a : Nat) (d : List Byte) (pois : Bool) (e : Ecc), port < 2 ∧ ofs < 0x1000000000 →
    a = s.fld F.PKG_BAR2_BASE.BASE port * 2 ^ 36 + ofs ∧ a < 0x1000000000000 →
    s.replaying = false ∨ (0xFF00000000 ≤ a ∧ a < 0xFF00100000) → u = s.obs 1 (port * 2 ^ 16) d.length a d pois →
    (u.badAddr (s.who (.pf port)) true a d.length = none →
      (∃ t, exec (.bar2Write port ofs d pois e) s = .next t ∧
          Same (((u.strikeWrite a d.length e).put 0 a d pois).applyMmio (.pf port)) t) ∧
        ∃ t, exec (.memoryWrite (.pf port) a d pois e) s = .next t ∧
          Same (((u.strikeWrite a d.length e).put 0 a d pois).applyMmio (.pf port)) t) ∧
          (∀ x, u.badAddr (s.who (.pf port)) true a d.length = some x →
            (∃ t, exec (.bar2Write port ofs d pois e) s = .next t ∧
                Same ((u.addrFault (s.who (.pf port)) x).applyMmio (.pf port)) t) ∧
              ∃ t, exec (.memoryWrite (.pf port) a d pois e) s = .next t ∧
                Same ((u.addrFault (s.who (.pf port)) x).applyMmio (.pf port)) t)) ∧
  (∀ (s : State) (port ofs a : Nat) (d : List Byte) (pois : Bool) (e : Ecc), port < 2 ∧ ofs < 0x1000000000 →
    a = s.fld F.PKG_BAR2_BASE.BASE port * 2 ^ 36 + ofs ∧ a < 0x1000000000000 →
    s.replaying = true ∧ (a < 0xFF00000000 ∨ 0xFF00100000 ≤ a) →
    (∃ t, exec (.bar2Write port ofs d pois e) s = .next t ∧ Same s t) ∧
          ∃ t, exec (.memoryWrite (.pf port) a d pois e) s = .next t ∧ Same s t) ∧
  (∀ (s u : State) (port ofs a n : Nat) (e : Ecc), port < 2 ∧ ofs < 0x1000000000 →
    a = s.fld F.PKG_BAR2_BASE.BASE port * 2 ^ 36 + ofs → s.badAddr (s.who (.pf port)) false a n = none →
    u = (s.strike e).meet a n →
    (hasEcc a = true ∧ u.rangePoison a n = false →
      ∃ t, exec (.bar2Read port ofs n e) s = .next t ∧ Same { u with resp := u.view a n, respPoison := false } t) ∧
          (hasEcc a = true ∧ u.rangePoison a n = true →
            ∃ t, exec (.bar2Read port ofs n e) s = .next t ∧
              Same (State.emit { u with resp := u.view a n, respPoison := true } (.poisonedCpl port)) t) ∧
          (∀ o, place a = .regs o → ∃ t, exec (.bar2Read port ofs n e) s = .next t ∧
            Same { (u.regBytes (.pf port) o n).2 with resp := (u.regBytes (.pf port) o n).1, respPoison := false } t) ∧
          (∀ o, place a = .host o → ∃ t, exec (.bar2Read port ofs n e) s = .next t ∧
            Same { (u.freshBytes n).2 with resp := (u.freshBytes n).1, respPoison := false } t)) ∧
  (∀ (s : State) (port ofs n x : Nat) (e : Ecc), port < 2 ∧ ofs < 0x1000000000 →
    s.badAddr (s.who (.pf port)) false (s.fld F.PKG_BAR2_BASE.BASE port * 2 ^ 36 + ofs) n = some x →
    ∃ t, exec (.bar2Read port ofs n e) s = .next t ∧
          Same { s.addrFault (s.who (.pf port)) x with resp := List.replicate n 0#8, respPoison := false } t) ∧
  (∀ (s : State) (port : Nat) (v : Word), port < 2 →
    ∃ t, exec (.bar2BaseWrite port v) s = .next t ∧ t.fld F.PKG_BAR2_BASE.BASE port = bits v.toNat 47 36 ∧
          SameBut [(F.PKG_BAR2_BASE.BASE, port)] s t) ∧
  (∀ (s u : State) (h a n : Nat) (refused : Bool) (d : List Byte) (e : Ecc), h < 64 ∧ a < 0x1000000000000 →
    s.hcRuns h = true ∧ (refused = false ∨ a < 0x800000000000) → s.badAddr (s.who (.hc h)) false a n = none →
    u = (s.strike e).meet a n →
    (hasEcc a = true → ∃ t, exec (.hostCoreAccess h a n false d refused e) s = .next t ∧
            Same (if u.rangePoison a n then u.hcTrap h 0x31 (a / 64 * 64) else { u with resp := u.view a n, respPoison := false }) t) ∧
          (∀ o, place a = .regs o → ∃ t, exec (.hostCoreAccess h a n false d refused e) s = .next t ∧
            Same { (u.regBytes (.hc h) o n).2 with resp := (u.regBytes (.hc h) o n).1, respPoison := false } t) ∧
          (∀ o, place a = .host o → ∃ t, exec (.hostCoreAccess h a n false d refused e) s = .next t ∧
            Same { (u.freshBytes n).2 with resp := (u.freshBytes n).1, respPoison := false } t)) ∧
  (∀ (s u : State) (h a n : Nat) (refused : Bool) (d : List Byte) (e : Ecc), h < 64 ∧ a < 0x1000000000000 →
    s.hcRuns h = true ∧ (refused = false ∨ a < 0x800000000000) → s.badAddr (s.who (.hc h)) true a d.length = none →
    (s.hcBasin h = 0 ∧ u = s) ∨ (s.hcBasin h ≠ 0 ∧ u = s.obs 4 h d.length a d) → u.badAddr (s.who (.hc h)) true a d.length = none →
    ∃ t, exec (.hostCoreAccess h a n true d refused e) s = .next t ∧
          Same (((u.strikeWrite a d.length e).put (s.hcBasin h) a d false).applyMmio (.hc h)) t) ∧
  (∀ (s : State) (h a n x : Nat) (store : Bool) (d : List Byte) (e : Ecc), h < 64 ∧ a < 0x1000000000000 → s.hcRuns h = true →
    s.badAddr (s.who (.hc h)) store a (if store then d.length else n) = some x →
    ∃ t, exec (.hostCoreAccess h a n store d false e) s = .next t ∧
          Same ((s.addrFault (s.who (.hc h)) x).hcTrap h 0x30 x) t) ∧
  (∀ (s : State) (h a n : Nat) (store : Bool) (d : List Byte) (e : Ecc), h < 64 ∧ 0x800000000000 ≤ a ∧ a < 0x1000000000000 →
    s.hcRuns h = true →
    ∃ t, exec (.hostCoreAccess h a n store d true e) s = .next t ∧
          Same ((s.addrFault (s.who (.hc h)) a).hcTrap h 0x30 a) t) ∧
  (∀ (s : State) (h a n : Nat) (store refused : Bool) (d : List Byte) (e : Ecc), h < 64 ∧ a < 0x1000000000000 →
    s.hcRuns h = false → ∃ t, exec (.hostCoreAccess h a n store d refused e) s = .next t ∧ Same s t)

/-- A refresh marks its bank group as refreshed in the running interval once it is due, (8 ch + bg) times 29 ns after the
interval's start, and changes no data; earlier, twice in an interval or on a die that is down it does nothing. That
intervals run on without ticks is the model's choice (log entry 163). A patrol read meets an error of its word as any
read does, and a pass of store counts; a write that overtakes it makes it skip the line; with PATROL_EN 0 or its die down
it reads nothing. Fencing a bank group with the channel's spare free puts the spare in its place, sets SPARE_USED and
starts the copy, and the third fence in 1 s falls to the region controller. The end of the copy has met every error of the
bank group and clears COPY_BUSY. With the spare used the bank group is fenced in place, the region degraded and the rung
raised to 4. A bank group fenced for a test only takes note of the detection. -/
def Obligations.StoreUpkeepCompletes : Prop :=
  (∀ (s : State) (n ch bg k i r : Nat) (done : List Nat), n < 12 ∧ ch < 16 ∧ bg < 8 → s.dieDown (12 + n) = false →
    k = (if s.flag F.GEY_CTRL.TICKING then s.fld F.GEY_TICK.TICK else 0) →
    4 * (s.fld F.TMB_NOW.NS - if s.flag F.GEY_CTRL.TICKING then s.gey.last else 0) = 15625 * i + r ∧ r < 15625 →
    done = (if (s.store n).refreshIv = (k, i) then (s.store n).refreshed else []) →
    (8 * ch + bg ∉ done ∧ 116 * (8 * ch + bg) ≤ r →
      ∃ t, exec (.refresh n ch bg) s = .next t ∧
        Same (s.modStore n fun st => { st with refreshIv := (k, i), refreshed := done ++ [8 * ch + bg] }) t) ∧
          (8 * ch + bg ∈ done ∨ r < 116 * (8 * ch + bg) → ∃ t, exec (.refresh n ch bg) s = .next t ∧ Same s t)) ∧
  (∀ (s : State) (n ch bg : Nat), n < 12 ∧ ch < 16 ∧ bg < 8 → s.dieDown (12 + n) = true →
    ∃ t, exec (.refresh n ch bg) s = .next t ∧ Same s t) ∧
  (∀ (s u : State) (a n p d : Nat) (e : Ecc) (overtaken last : Bool), a < 0x1000000000000 → place a = .store n p d → u = s.strike e →
    u.flag F.STR_CTRL.PATROL_EN n = true ∧ u.dieDown (12 + n) = false →
    ∃ t, exec (.patrolRead (.mem a) e overtaken last) s = .next t ∧
          Same
           (let v := if overtaken then u else u.meet a 1 true
            if last then v.setFld F.STR_STATUS.PATROL_PASSES n (v.fld F.STR_STATUS.PATROL_PASSES n + 1) else v) t) ∧
  (∀ (s u : State) (a n d : Nat) (e : Ecc) (overtaken last : Bool), a < 0x1000000000000 → u = s.strike e →
    (place a = .sram n d ∧ u.dieDown n = false) ∨ (place a = .rsram n d ∧ u.dieDown (24 + n) = false) →
    ∃ t, exec (.patrolRead (.mem a) e overtaken last) s = .next t ∧ Same (if overtaken then u else u.meet a 1 true) t) ∧
  (∀ (s u : State) (die line word : Nat) (e : Ecc) (overtaken last : Bool), die < 12 ∧ word < 8 → u = s.strike e →
    u.dieDown die = false →
    ∃ t, exec (.patrolRead (.cache die line word) e overtaken last) s = .next t ∧
          Same (if overtaken then u else u.meetCache die line) t) ∧
  (∀ (s u : State) (loc : EccLoc) (e : Ecc) (overtaken last : Bool), u = s.strike e →
    (∃ a, loc = .mem a ∧ a < 0x1000000000000 ∧
      ((∃ n p d, place a = .store n p d ∧ (u.flag F.STR_CTRL.PATROL_EN n = false ∨ u.dieDown (12 + n) = true)) ∨
        (∃ n d, place a = .sram n d ∧ u.dieDown n = true) ∨ (∃ n d, place a = .rsram n d ∧ u.dieDown (24 + n) = true) ∨
        ((∀ n p d, place a ≠ .store n p d) ∧ (∀ n d, place a ≠ .sram n d) ∧ ∀ n d, place a ≠ .rsram n d))) ∨
      (∃ die line word, loc = .cache die line word ∧ die < 12 ∧ word < 8 ∧ u.dieDown die = true) →
    ∃ t, exec (.patrolRead loc e overtaken last) s = .next t ∧ Same u t) ∧
  (∀ (s : State) (n ch bg : Nat), n < 12 ∧ ch < 16 ∧ bg < 8 →
    s.testFenced (.tile (12 + n) (ch / 4) (ch % 4 * 8 + bg)) = false →
    8 * ch + bg ∉ (s.store n).inPlace → bit (s.fld F.STR_STATUS.SPARE_USED n) ch = false →
    ∃ t, exec (.bankGroupSparing n ch bg) s = .next t ∧
          Same
           (let u := s.modStore n fun st => { st with spared := st.spared ++ [8 * ch + bg] }
            let u := u.setFld F.STR_STATUS.SPARE_USED n (putBit (u.fld F.STR_STATUS.SPARE_USED n) ch true)
            let u := ((u.setFld F.STR_STATUS.COPY_BUSY n 1).setFld F.STR_STATUS.COPY_CH n ch).setFld F.STR_STATUS.COPY_BG n bg
            (u.detect (12 + n) 6 1 (unitSrc (.tile (12 + n) (ch / 4) (ch % 4 * 8 + bg))) (8 * ch + bg) 0 false true).tileFenced
              (12 + n) (ch / 4) fun s => s.blockDown (12 + n) (ch / 4) 6 false) t) ∧
  (∀ (s : State) (n ch bg : Nat), n < 12 ∧ ch < 16 ∧ bg < 8 →
    s.testFenced (.tile (12 + n) (ch / 4) (ch % 4 * 8 + bg)) = false →
    8 * ch + bg ∉ (s.store n).inPlace → bit (s.fld F.STR_STATUS.SPARE_USED n) ch = true →
    ∃ t, exec (.bankGroupSparing n ch bg) s = .next t ∧
          Same
           (let src := unitSrc (.tile (12 + n) (ch / 4) (ch % 4 * 8 + bg))
            let u := s.modStore n fun st => { st with inPlace := st.inPlace ++ [8 * ch + bg] }
            let u := u.addFence ⟨.tile (12 + n) (ch / 4) (ch % 4 * 8 + bg), 3, true, false⟩
            let u := (u.setFld F.FLT_RG_STATUS.DEGRADED (12 + n) 1).incFld F.FLT_RG_CNT.ESC (12 + n)
            let u := u.setFld F.FLT_STATUS.RUNG 0 (max (u.fld F.FLT_STATUS.RUNG) 4)
            let u := ((u.countAction (12 + n) 3).lastFault (12 + n) 6 src 3).journal 6 3 src (8 * ch + bg) true
            u.raise (regSrc (12 + n) 0) { mech := 6, level := 3, data := src } 4) t) ∧
  (∀ (s : State) (n ch bg : Nat), n < 12 ∧ ch < 16 ∧ bg < 8 →
    s.testFenced (.tile (12 + n) (ch / 4) (ch % 4 * 8 + bg)) = false → 8 * ch + bg ∈ (s.store n).inPlace →
    ∃ t, exec (.bankGroupSparing n ch bg) s = .next t ∧ Same s t) ∧
  (∀ (s : State) (n ch bg : Nat), n < 12 ∧ ch < 16 ∧ bg < 8 →
    s.testFenced (.tile (12 + n) (ch / 4) (ch % 4 * 8 + bg)) = true →
    ∃ t, exec (.bankGroupSparing n ch bg) s = .next t ∧
          Same ((s.incFld F.FLT_RG_CNT.DISCARD (12 + n)).detect (12 + n) 6 1
            (unitSrc (.tile (12 + n) (ch / 4) (ch % 4 * 8 + bg))) 0) t) ∧
  (∀ (s : State) (n : Nat), n < 12 → s.flag F.STR_STATUS.COPY_BUSY n = true →
    ∃ t, exec (.sparingCopyEnd n) s = .next t ∧ t.fld F.STR_STATUS.COPY_BUSY n = 0 ∧
          SameBut [(F.STR_STATUS.COPY_BUSY, n)]
            ((s.flips.filter (inBankGroup n (s.fld F.STR_STATUS.COPY_CH n) (s.fld F.STR_STATUS.COPY_BG n))).foldl (fun s f =>
              match f.1 with
              | .mem a => s.meet a 1
              | _ => s) s) t) ∧
  (∀ (s : State) (n : Nat), n < 12 → s.flag F.STR_STATUS.COPY_BUSY n = false →
    ∃ t, exec (.sparingCopyEnd n) s = .next t ∧ Same s t)

/-- An accepted assignment writes the command's fields, sets BUSY and puts its first page into zeroing for the new owner.
When the zeroing of a page ends its 2 MiB are zero and clean, it is owned, and the next page of the operation takes
its turn, or the operation ends. An accepted release goes through its pages in ascending order (State.releaseRun): each is
freed and keeps the key its bytes stand under, and a page with lines still draining to it, with those after it, waits. A
refused operation sets ERR, a second one while BUSY is 1 is ignored; bit 40 clears ERR. Granules do the same one at a
time. A waiting release takes place when its drains have ended. A store die that takes no writes ignores all of it. -/
def Obligations.PageCommandsComplete : Prop :=
  (∀ (s : State) (n : Nat) (v : Word), n < 12 → s.takesWrite .STR_PAGE_CMD n = true → s.flag F.STR_PAGE_CMD.BUSY n = false →
    s.assignBad n (bits v.toNat 13 0) (bits v.toNat 27 14) (bits v.toNat 35 28) = false →
    ∃ t, exec (.pageAssign n v) s = .next t ∧ t.fld F.STR_PAGE_CMD.BUSY n = 1 ∧
          t.fld F.STR_PAGE_CMD.LPAGE n = bits v.toNat 13 0 ∧ t.fld F.STR_PAGE_CMD.COUNT n = bits v.toNat 27 14 ∧
          t.fld F.STR_PAGE_CMD.OWNER n = bits v.toNat 35 28 ∧ t.fld F.STR_PAGE_CMD.OP n = 0 ∧
          t.fld F.STR_PAGE_CMD.ERR n = (if bit v.toNat 40 then 0 else s.fld F.STR_PAGE_CMD.ERR n) ∧
          t.fld F.STR_PAGE_OWNERp.STATE (n * 12288 + bits v.toNat 13 0) = 2 ∧
          t.fld F.STR_PAGE_OWNERp.OWNER (n * 12288 + bits v.toNat 13 0) = bits v.toNat 35 28 ∧
          SameBut [(F.STR_PAGE_CMD.LPAGE, n), (F.STR_PAGE_CMD.COUNT, n), (F.STR_PAGE_CMD.OWNER, n), (F.STR_PAGE_CMD.OP, n),
              (F.STR_PAGE_CMD.BUSY, n), (F.STR_PAGE_CMD.ERR, n), (F.STR_PAGE_OWNERp.STATE, n * 12288 + bits v.toNat 13 0),
              (F.STR_PAGE_OWNERp.OWNER, n * 12288 + bits v.toNat 13 0)]
            (s.modStore n fun st => { st with pageOp := some (bits v.toNat 13 0, bits v.toNat 27 14, some (bits v.toNat 35 28)) }) t) ∧
  (∀ (s : State) (n : Nat) (v : Word), n < 12 → s.takesWrite .STR_PAGE_CMD n = true → s.flag F.STR_PAGE_CMD.BUSY n = false →
    s.assignBad n (bits v.toNat 13 0) (bits v.toNat 27 14) (bits v.toNat 35 28) = true →
    ∃ t, exec (.pageAssign n v) s = .next t ∧
          t.fld F.STR_PAGE_CMD.LPAGE n = bits v.toNat 13 0 ∧ t.fld F.STR_PAGE_CMD.COUNT n = bits v.toNat 27 14 ∧
          t.fld F.STR_PAGE_CMD.OWNER n = bits v.toNat 35 28 ∧ t.fld F.STR_PAGE_CMD.OP n = 0 ∧
          t.fld F.STR_PAGE_CMD.ERR n = 1 ∧
          SameBut [(F.STR_PAGE_CMD.LPAGE, n), (F.STR_PAGE_CMD.COUNT, n), (F.STR_PAGE_CMD.OWNER, n), (F.STR_PAGE_CMD.OP, n), (F.STR_PAGE_CMD.ERR, n)] s t) ∧
  (∀ (s : State) (n : Nat) (v : Word), n < 12 → s.takesWrite .STR_PAGE_CMD n = true → s.flag F.STR_PAGE_CMD.BUSY n = true →
    (∃ t, exec (.pageAssign n v) s = .next t ∧
          t.fld F.STR_PAGE_CMD.LPAGE n = bits v.toNat 13 0 ∧ t.fld F.STR_PAGE_CMD.COUNT n = bits v.toNat 27 14 ∧
          t.fld F.STR_PAGE_CMD.OWNER n = bits v.toNat 35 28 ∧ t.fld F.STR_PAGE_CMD.OP n = 0 ∧
          t.fld F.STR_PAGE_CMD.ERR n = (if bit v.toNat 40 then 0 else s.fld F.STR_PAGE_CMD.ERR n) ∧
          SameBut [(F.STR_PAGE_CMD.LPAGE, n), (F.STR_PAGE_CMD.COUNT, n), (F.STR_PAGE_CMD.OWNER, n), (F.STR_PAGE_CMD.OP, n), (F.STR_PAGE_CMD.ERR, n)] s t) ∧
          ∃ t, exec (.pageRelease n v) s = .next t ∧
          t.fld F.STR_PAGE_CMD.LPAGE n = bits v.toNat 13 0 ∧ t.fld F.STR_PAGE_CMD.COUNT n = bits v.toNat 27 14 ∧
          t.fld F.STR_PAGE_CMD.OWNER n = bits v.toNat 35 28 ∧ t.fld F.STR_PAGE_CMD.OP n = 1 ∧
          t.fld F.STR_PAGE_CMD.ERR n = (if bit v.toNat 40 then 0 else s.fld F.STR_PAGE_CMD.ERR n) ∧
          SameBut [(F.STR_PAGE_CMD.LPAGE, n), (F.STR_PAGE_CMD.COUNT, n), (F.STR_PAGE_CMD.OWNER, n), (F.STR_PAGE_CMD.OP, n), (F.STR_PAGE_CMD.ERR, n)] s t) ∧
  (∀ (s u : State) (n : Nat) (v : Word), n < 12 → s.takesWrite .STR_PAGE_CMD n = true → s.flag F.STR_PAGE_CMD.BUSY n = false →
    s.releaseBad n (bits v.toNat 13 0) (bits v.toNat 27 14) = false →
    u = (let w := (((s.setFld F.STR_PAGE_CMD.LPAGE n (bits v.toNat 13 0)).setFld F.STR_PAGE_CMD.COUNT n (bits v.toNat 27 14)).setFld
        F.STR_PAGE_CMD.OWNER n (bits v.toNat 35 28)).setFld F.STR_PAGE_CMD.OP n 1
      if bit v.toNat 40 then w.setFld F.STR_PAGE_CMD.ERR n 0 else w) →
    ∃ t, exec (.pageRelease n v) s = .next t ∧ Same (u.releaseRun (bits v.toNat 27 14) n (bits v.toNat 13 0)) t) ∧
  (∀ (s : State) (n : Nat) (v : Word), n < 12 → s.takesWrite .STR_PAGE_CMD n = true → s.flag F.STR_PAGE_CMD.BUSY n = false →
    bits v.toNat 27 14 = 1 ∧ s.releaseBad n (bits v.toNat 13 0) 1 = false →
    s.drainHits (pageBase n (bits v.toNat 13 0)) (2 ^ 21) = false →
    ∃ t, exec (.pageRelease n v) s = .next t ∧
          (let l := bits v.toNat 13 0
           let own := s.fld F.STR_PAGE_OWNERp.OWNER (n * 12288 + l)
           t.fld F.STR_PAGE_CMD.LPAGE n = bits v.toNat 13 0 ∧ t.fld F.STR_PAGE_CMD.COUNT n = bits v.toNat 27 14 ∧
          t.fld F.STR_PAGE_CMD.OWNER n = bits v.toNat 35 28 ∧ t.fld F.STR_PAGE_CMD.OP n = 1 ∧
          t.fld F.STR_PAGE_CMD.ERR n = (if bit v.toNat 40 then 0 else s.fld F.STR_PAGE_CMD.ERR n) ∧
           t.fld F.STR_PAGE_OWNERp.STATE (n * 12288 + l) = 0 ∧
           SameBut [(F.STR_PAGE_CMD.LPAGE, n), (F.STR_PAGE_CMD.COUNT, n), (F.STR_PAGE_CMD.OWNER, n), (F.STR_PAGE_CMD.OP, n),
               (F.STR_PAGE_CMD.ERR, n), (F.STR_PAGE_OWNERp.STATE, n * 12288 + l)]
             (s.modStore n fun x => { x with
               pageKey := SMap.set none x.pageKey l (SMap.get none x.keys own), pageOp := none }) t)) ∧
  (∀ (s : State) (n : Nat) (v : Word), n < 12 → s.takesWrite .STR_PAGE_CMD n = true → s.flag F.STR_PAGE_CMD.BUSY n = false →
    s.releaseBad n (bits v.toNat 13 0) (bits v.toNat 27 14) = false → 0 < bits v.toNat 27 14 →
    s.drainHits (pageBase n (bits v.toNat 13 0)) (2 ^ 21) = true →
    ∃ t, exec (.pageRelease n v) s = .next t ∧ t.fld F.STR_PAGE_CMD.BUSY n = 1 ∧
          t.fld F.STR_PAGE_CMD.LPAGE n = bits v.toNat 13 0 ∧ t.fld F.STR_PAGE_CMD.COUNT n = bits v.toNat 27 14 ∧
          t.fld F.STR_PAGE_CMD.OWNER n = bits v.toNat 35 28 ∧ t.fld F.STR_PAGE_CMD.OP n = 1 ∧
          t.fld F.STR_PAGE_CMD.ERR n = (if bit v.toNat 40 then 0 else s.fld F.STR_PAGE_CMD.ERR n) ∧
          SameBut [(F.STR_PAGE_CMD.LPAGE, n), (F.STR_PAGE_CMD.COUNT, n), (F.STR_PAGE_CMD.OWNER, n), (F.STR_PAGE_CMD.OP, n),
              (F.STR_PAGE_CMD.ERR, n), (F.STR_PAGE_CMD.BUSY, n)]
            (s.modStore n fun x => { x with pageOp := some (bits v.toNat 13 0, bits v.toNat 27 14, none) }) t) ∧
  (∀ (s : State) (n : Nat) (v : Word), n < 12 → s.takesWrite .STR_PAGE_CMD n = true → s.flag F.STR_PAGE_CMD.BUSY n = false →
    s.releaseBad n (bits v.toNat 13 0) (bits v.toNat 27 14) = true →
    ∃ t, exec (.pageRelease n v) s = .next t ∧
          t.fld F.STR_PAGE_CMD.LPAGE n = bits v.toNat 13 0 ∧ t.fld F.STR_PAGE_CMD.COUNT n = bits v.toNat 27 14 ∧
          t.fld F.STR_PAGE_CMD.OWNER n = bits v.toNat 35 28 ∧ t.fld F.STR_PAGE_CMD.OP n = 1 ∧
          t.fld F.STR_PAGE_CMD.ERR n = 1 ∧
          SameBut [(F.STR_PAGE_CMD.LPAGE, n), (F.STR_PAGE_CMD.COUNT, n), (F.STR_PAGE_CMD.OWNER, n), (F.STR_PAGE_CMD.OP, n), (F.STR_PAGE_CMD.ERR, n)] s t) ∧
  (∀ (s : State) (n l k b : Nat), n < 12 → (s.store n).pageOp = some (l, k, some b) → k ≤ 1 →
    ∃ t, exec (.pageZeroingEnd n) s = .next t ∧
          (∀ a, t.rd a = if pageBase n l ≤ a ∧ a < pageBase n l + 2 ^ 21 then 0#8 else s.rd a) ∧
          t.fld F.STR_PAGE_OWNERp.STATE (n * 12288 + l) = 1 ∧ t.fld F.STR_PAGE_CMD.BUSY n = 0 ∧
          SameBut [(F.STR_PAGE_OWNERp.STATE, n * 12288 + l), (F.STR_PAGE_CMD.BUSY, n)]
            (((s.zero (pageBase n l) (2 ^ 21)).clearPoison (pageBase n l) (2 ^ 21)).modStore n fun st => { st with
              rawLines := st.rawLines.filter (fun x => x / 32768 != l), pageKey := SMap.erase st.pageKey l, pageOp := none }) t) ∧
  (∀ (s : State) (n l k b : Nat), n < 12 → (s.store n).pageOp = some (l, k, some b) → 1 < k →
    ∃ t, exec (.pageZeroingEnd n) s = .next t ∧
          (∀ a, t.rd a = if pageBase n l ≤ a ∧ a < pageBase n l + 2 ^ 21 then 0#8 else s.rd a) ∧
          t.fld F.STR_PAGE_OWNERp.STATE (n * 12288 + l) = 1 ∧ t.fld F.STR_PAGE_OWNERp.STATE (n * 12288 + (l + 1)) = 2 ∧
          t.fld F.STR_PAGE_OWNERp.OWNER (n * 12288 + (l + 1)) = b % 256 ∧
          SameBut [(F.STR_PAGE_OWNERp.STATE, n * 12288 + l), (F.STR_PAGE_OWNERp.STATE, n * 12288 + (l + 1)),
              (F.STR_PAGE_OWNERp.OWNER, n * 12288 + (l + 1))]
            (((s.zero (pageBase n l) (2 ^ 21)).clearPoison (pageBase n l) (2 ^ 21)).modStore n fun st => { st with
              rawLines := st.rawLines.filter (fun x => x / 32768 != l), pageKey := SMap.erase st.pageKey l
              pageOp := some (l + 1, k - 1, some b) }) t) ∧
  (∀ (s : State) (n : Nat), n < 12 → (∀ l k b, (s.store n).pageOp ≠ some (l, k, some b)) →
    ∃ t, exec (.pageZeroingEnd n) s = .next t ∧ Same s t) ∧
  (∀ (s : State) (n l k : Nat), n < 12 ∧ l < 12288 → (s.store n).pageOp = some (l, k, none) →
    s.drainHits (pageBase n l) (2 ^ 21) = false →
    ∃ t, exec (.deferredPageRelease n l) s = .next t ∧ Same (s.releaseRun k n l) t) ∧
  (∀ (s : State) (n l own : Nat), n < 12 ∧ l < 12288 → (s.store n).pageOp = some (l, 1, none) →
    s.drainHits (pageBase n l) (2 ^ 21) = false ∧ s.fld F.STR_PAGE_OWNERp.STATE (n * 12288 + l) = 1 →
    own = s.fld F.STR_PAGE_OWNERp.OWNER (n * 12288 + l) →
    ∃ t, exec (.deferredPageRelease n l) s = .next t ∧ t.fld F.STR_PAGE_OWNERp.STATE (n * 12288 + l) = 0 ∧
          t.fld F.STR_PAGE_CMD.BUSY n = 0 ∧
          SameBut [(F.STR_PAGE_OWNERp.STATE, n * 12288 + l), (F.STR_PAGE_CMD.BUSY, n)]
            (s.modStore n fun x => { x with
              pageKey := SMap.set none x.pageKey l (SMap.get none x.keys own), pageOp := none }) t) ∧
  (∀ (s : State) (n p : Nat), n < 12 ∧ p < 12288 →
    (∀ k, (s.store n).pageOp ≠ some (p, k, none)) ∨ s.drainHits (pageBase n p) (2 ^ 21) = true →
    ∃ t, exec (.deferredPageRelease n p) s = .next t ∧ Same s t) ∧
  (∀ (s : State) (n gr : Nat), n < 12 ∧ gr < 128 → 12288 + gr ∈ (s.store n).relWait ∧ s.drainHits (granBase n gr) (2 ^ 20) = false →
    ∃ t, exec (.deferredPageRelease n (12288 + gr)) s = .next t ∧ t.fld F.STR_SRAM_OWNERg.STATE (n * 128 + gr) = 0 ∧
          SameBut [(F.STR_SRAM_OWNERg.STATE, n * 128 + gr)]
            (s.modStore n fun st => { st with relWait := st.relWait.filter (· != 12288 + gr) }) t) ∧
  (∀ (s : State) (n gr : Nat), n < 12 ∧ gr < 128 → 12288 + gr ∉ (s.store n).relWait ∨ s.drainHits (granBase n gr) (2 ^ 20) = true →
    ∃ t, exec (.deferredPageRelease n (12288 + gr)) s = .next t ∧ Same s t) ∧
  (∀ (s : State) (n gr : Nat) (v : BitVec 32), n < 12 ∧ gr < 128 → s.takesWrite .STR_SRAM_OWNERg (128 * n + gr) = true →
    s.fld F.STR_SRAM_OWNERg.STATE (n * 128 + gr) = 0 ∧ s.building (v.toNat % 256) = true →
    ∃ t, exec (.sramGranuleAssign n gr v) s = .next t ∧ t.fld F.STR_SRAM_OWNERg.STATE (n * 128 + gr) = 2 ∧
          t.fld F.STR_SRAM_OWNERg.OWNER (n * 128 + gr) = v.toNat % 256 ∧
          SameBut [(F.STR_SRAM_OWNERg.STATE, n * 128 + gr), (F.STR_SRAM_OWNERg.OWNER, n * 128 + gr)] s t) ∧
  (∀ (s : State) (n gr : Nat) (v : BitVec 32), n < 12 ∧ gr < 128 →
    s.fld F.STR_SRAM_OWNERg.STATE (n * 128 + gr) ≠ 0 ∨ s.building (v.toNat % 256) = false →
    ∃ t, exec (.sramGranuleAssign n gr v) s = .next t ∧ Same s t) ∧
  (∀ (s : State) (n gr : Nat), n < 12 ∧ gr < 128 → s.fld F.STR_SRAM_OWNERg.STATE (n * 128 + gr) = 2 →
    ∃ t, exec (.sramZeroingEnd n gr) s = .next t ∧
          (∀ a, t.rd a = if granBase n gr ≤ a ∧ a < granBase n gr + 2 ^ 20 then 0#8 else s.rd a) ∧
          t.fld F.STR_SRAM_OWNERg.STATE (n * 128 + gr) = 1 ∧
          SameBut [(F.STR_SRAM_OWNERg.STATE, n * 128 + gr)]
            ((s.zero (granBase n gr) (2 ^ 20)).clearPoison (granBase n gr) (2 ^ 20)) t) ∧
  (∀ (s : State) (n gr : Nat), n < 12 ∧ gr < 128 → s.fld F.STR_SRAM_OWNERg.STATE (n * 128 + gr) ≠ 2 →
    ∃ t, exec (.sramZeroingEnd n gr) s = .next t ∧ Same s t) ∧
  (∀ (s : State) (n gr : Nat) (v : BitVec 32), n < 12 ∧ gr < 128 → s.takesWrite .STR_SRAM_OWNERg (128 * n + gr) = true →
    s.fld F.STR_SRAM_OWNERg.STATE (n * 128 + gr) = 1 ∧ s.building (s.fld F.STR_SRAM_OWNERg.OWNER (n * 128 + gr)) = true →
    s.drainHits (granBase n gr) (2 ^ 20) = false →
    ∃ t, exec (.sramGranuleRelease n gr v) s = .next t ∧ t.fld F.STR_SRAM_OWNERg.STATE (n * 128 + gr) = 0 ∧
          SameBut [(F.STR_SRAM_OWNERg.STATE, n * 128 + gr)] s t) ∧
  (∀ (s : State) (n gr : Nat) (v : BitVec 32), n < 12 ∧ gr < 128 → s.takesWrite .STR_SRAM_OWNERg (128 * n + gr) = true →
    s.fld F.STR_SRAM_OWNERg.STATE (n * 128 + gr) = 1 ∧ s.building (s.fld F.STR_SRAM_OWNERg.OWNER (n * 128 + gr)) = true →
    s.drainHits (granBase n gr) (2 ^ 20) = true →
    ∃ t, exec (.sramGranuleRelease n gr v) s = .next t ∧
          Same (s.modStore n fun st => { st with relWait := st.relWait.filter (· != 12288 + gr) ++ [12288 + gr] }) t) ∧
  (∀ (s : State) (n gr : Nat) (v : BitVec 32), n < 12 ∧ gr < 128 →
    s.fld F.STR_SRAM_OWNERg.STATE (n * 128 + gr) ≠ 1 ∨ s.building (s.fld F.STR_SRAM_OWNERg.OWNER (n * 128 + gr)) = false →
    ∃ t, exec (.sramGranuleRelease n gr v) s = .next t ∧ Same s t) ∧
  (∀ (s : State) (n : Nat) (v : Word), n < 12 → s.takesWrite .STR_PAGE_CMD n = false →
    (∃ t, exec (.pageAssign n v) s = .next t ∧ Same s t) ∧ ∃ t, exec (.pageRelease n v) s = .next t ∧ Same s t) ∧
  (∀ (s : State) (n gr : Nat) (v : BitVec 32), n < 12 ∧ gr < 128 → s.takesWrite .STR_SRAM_OWNERg (128 * n + gr) = false →
    (∃ t, exec (.sramGranuleAssign n gr v) s = .next t ∧ Same s t) ∧
          ∃ t, exec (.sramGranuleRelease n gr v) s = .next t ∧ Same s t)

/-- An accepted generate, load or destroy writes BASIN and OP and sets BUSY; a refused one (basin 0, a full slot for
generate and load, a basin with pages or a running assignment for destroy) sets ERR; one while BUSY is 1 is ignored. Bit
13 clears ERR. When the operation ends, generate has filled the slot with a drawn key, load with STR_KEY_DATA, which is
cleared, and destroy has emptied it; BUSY clears. A drawn key is a free value of the model. A store die that takes no
writes ignores all of it. -/
def Obligations.KeyCommandsComplete : Prop :=
  (∀ (s : State) (n : Nat) (v : BitVec 32), n < 12 → s.takesWrite .STR_KEY_CMD n = true → s.flag F.STR_KEY_CMD.BUSY n = false →
    v.toNat % 256 ≠ 0 ∧ s.keyFull n (v.toNat % 256) = false →
    ∃ t, exec (.keyGenerate n v) s = .next t ∧ t.fld F.STR_KEY_CMD.BUSY n = 1 ∧
          t.fld F.STR_KEY_CMD.BASIN n = v.toNat % 256 ∧ t.fld F.STR_KEY_CMD.OP n = 0 ∧
          t.fld F.STR_KEY_CMD.ERR n = (if bit v.toNat 13 then 0 else s.fld F.STR_KEY_CMD.ERR n) ∧
          SameBut [(F.STR_KEY_CMD.BASIN, n), (F.STR_KEY_CMD.OP, n), (F.STR_KEY_CMD.ERR, n), (F.STR_KEY_CMD.BUSY, n)]
            (s.modStore n fun x => { x with keyOp := some (0, v.toNat % 256) }) t) ∧
  (∀ (s : State) (n : Nat) (v : BitVec 32), n < 12 → s.takesWrite .STR_KEY_CMD n = true → s.flag F.STR_KEY_CMD.BUSY n = false →
    v.toNat % 256 ≠ 0 ∧ s.keyFull n (v.toNat % 256) = false →
    ∃ t, exec (.keyLoad n v) s = .next t ∧ t.fld F.STR_KEY_CMD.BUSY n = 1 ∧
          t.fld F.STR_KEY_CMD.BASIN n = v.toNat % 256 ∧ t.fld F.STR_KEY_CMD.OP n = 1 ∧
          t.fld F.STR_KEY_CMD.ERR n = (if bit v.toNat 13 then 0 else s.fld F.STR_KEY_CMD.ERR n) ∧
          SameBut [(F.STR_KEY_CMD.BASIN, n), (F.STR_KEY_CMD.OP, n), (F.STR_KEY_CMD.ERR, n), (F.STR_KEY_CMD.BUSY, n)]
            (s.modStore n fun x => { x with keyOp := some (1, v.toNat % 256) }) t) ∧
  (∀ (s : State) (n : Nat) (v : BitVec 32), n < 12 → s.takesWrite .STR_KEY_CMD n = true → s.flag F.STR_KEY_CMD.BUSY n = false →
    v.toNat % 256 ≠ 0 ∧ s.pagesOf n (v.toNat % 256) = [] ∧ (∀ l k, (s.store n).pageOp ≠ some (l, k, some (v.toNat % 256))) →
    ∃ t, exec (.keyDestroy n v) s = .next t ∧ t.fld F.STR_KEY_CMD.BUSY n = 1 ∧
          t.fld F.STR_KEY_CMD.BASIN n = v.toNat % 256 ∧ t.fld F.STR_KEY_CMD.OP n = 2 ∧
          t.fld F.STR_KEY_CMD.ERR n = (if bit v.toNat 13 then 0 else s.fld F.STR_KEY_CMD.ERR n) ∧
          SameBut [(F.STR_KEY_CMD.BASIN, n), (F.STR_KEY_CMD.OP, n), (F.STR_KEY_CMD.ERR, n), (F.STR_KEY_CMD.BUSY, n)]
            (s.modStore n fun x => { x with keyOp := some (2, v.toNat % 256) }) t) ∧
  (∀ (s : State) (n : Nat) (v : BitVec 32), n < 12 → s.takesWrite .STR_KEY_CMD n = true → s.flag F.STR_KEY_CMD.BUSY n = false →
    v.toNat % 256 = 0 ∨ s.keyFull n (v.toNat % 256) = true →
    ∃ t, exec (.keyGenerate n v) s = .next t ∧ t.fld F.STR_KEY_CMD.ERR n = 1 ∧ t.fld F.STR_KEY_CMD.BASIN n = v.toNat % 256 ∧
          t.fld F.STR_KEY_CMD.OP n = 0 ∧ SameBut [(F.STR_KEY_CMD.BASIN, n), (F.STR_KEY_CMD.OP, n), (F.STR_KEY_CMD.ERR, n)] s t) ∧
  (∀ (s : State) (n : Nat) (v : BitVec 32), n < 12 → s.takesWrite .STR_KEY_CMD n = true → s.flag F.STR_KEY_CMD.BUSY n = false →
    v.toNat % 256 = 0 ∨ s.keyFull n (v.toNat % 256) = true →
    ∃ t, exec (.keyLoad n v) s = .next t ∧ t.fld F.STR_KEY_CMD.ERR n = 1 ∧ t.fld F.STR_KEY_CMD.BASIN n = v.toNat % 256 ∧
          t.fld F.STR_KEY_CMD.OP n = 1 ∧ SameBut [(F.STR_KEY_CMD.BASIN, n), (F.STR_KEY_CMD.OP, n), (F.STR_KEY_CMD.ERR, n)] s t) ∧
  (∀ (s : State) (n : Nat) (v : BitVec 32), n < 12 → s.takesWrite .STR_KEY_CMD n = true → s.flag F.STR_KEY_CMD.BUSY n = false →
    v.toNat % 256 = 0 ∨ s.pagesOf n (v.toNat % 256) ≠ [] ∨ (∃ l k, (s.store n).pageOp = some (l, k, some (v.toNat % 256))) →
    ∃ t, exec (.keyDestroy n v) s = .next t ∧ t.fld F.STR_KEY_CMD.ERR n = 1 ∧ t.fld F.STR_KEY_CMD.BASIN n = v.toNat % 256 ∧
          t.fld F.STR_KEY_CMD.OP n = 2 ∧ SameBut [(F.STR_KEY_CMD.BASIN, n), (F.STR_KEY_CMD.OP, n), (F.STR_KEY_CMD.ERR, n)] s t) ∧
  (∀ (s : State) (n : Nat) (v : BitVec 32), n < 12 → s.takesWrite .STR_KEY_CMD n = true → s.flag F.STR_KEY_CMD.BUSY n = true →
    (∃ t, exec (.keyGenerate n v) s = .next t ∧ t.fld F.STR_KEY_CMD.BASIN n = v.toNat % 256 ∧ t.fld F.STR_KEY_CMD.OP n = 0 ∧
          t.fld F.STR_KEY_CMD.ERR n = (if bit v.toNat 13 then 0 else s.fld F.STR_KEY_CMD.ERR n) ∧
          SameBut [(F.STR_KEY_CMD.BASIN, n), (F.STR_KEY_CMD.OP, n), (F.STR_KEY_CMD.ERR, n)] s t) ∧
          (∃ t, exec (.keyLoad n v) s = .next t ∧ t.fld F.STR_KEY_CMD.BASIN n = v.toNat % 256 ∧ t.fld F.STR_KEY_CMD.OP n = 1 ∧
          t.fld F.STR_KEY_CMD.ERR n = (if bit v.toNat 13 then 0 else s.fld F.STR_KEY_CMD.ERR n) ∧
          SameBut [(F.STR_KEY_CMD.BASIN, n), (F.STR_KEY_CMD.OP, n), (F.STR_KEY_CMD.ERR, n)] s t) ∧
          (∃ t, exec (.keyDestroy n v) s = .next t ∧ t.fld F.STR_KEY_CMD.BASIN n = v.toNat % 256 ∧ t.fld F.STR_KEY_CMD.OP n = 2 ∧
          t.fld F.STR_KEY_CMD.ERR n = (if bit v.toNat 13 then 0 else s.fld F.STR_KEY_CMD.ERR n) ∧
          SameBut [(F.STR_KEY_CMD.BASIN, n), (F.STR_KEY_CMD.OP, n), (F.STR_KEY_CMD.ERR, n)] s t)) ∧
  (∀ (s : State) (n : Nat) (v : BitVec 32), n < 12 → s.takesWrite .STR_KEY_CMD n = false →
    (∃ t, exec (.keyGenerate n v) s = .next t ∧ Same s t) ∧ (∃ t, exec (.keyLoad n v) s = .next t ∧ Same s t) ∧
          ∃ t, exec (.keyDestroy n v) s = .next t ∧ Same s t) ∧
  (∀ (s : State) (n op b : Nat), n < 12 → (s.store n).keyOp = some (op, b) → op < 3 →
    ∃ t, exec (.keyOpEnd n) s = .next t ∧ t.fld F.STR_KEY_CMD.BUSY n = 0 ∧
          SMap.get none (t.store n).keys b =
            (match op with
              | 0 => some (Config.randomKey n (s.store n).draws)
              | 1 => some (s.store n).keyData
              | _ => none) ∧
          (∀ c, c ≠ b → SMap.get none (t.store n).keys c = SMap.get none (s.store n).keys c) ∧
          SameBut [(F.STR_KEY_CMD.BUSY, n)] (s.modStore n fun x => { x with
            keys := (t.store n).keys, draws := if op = 0 then x.draws + 1 else x.draws,
            keyData := if op = 1 then 0 else x.keyData, keyOp := none }) t) ∧
  (∀ (s : State) (n : Nat), n < 12 → (s.store n).keyOp = none → ∃ t, exec (.keyOpEnd n) s = .next t ∧ Same s t)

/-- A pass is checked 1,026 cycles after its issue (State.checkPass). With no column missing and no injection its entry takes
it and it leaves the array; a retried one counts RETRY_OK. Otherwise MISS counts the columns and LASTMISS takes their
lowest, their number, the time and INJ; an entry the pass initialises is initialised, and an armed injection of kind 1 or
2 disarms. With only the injected column missing the pass is issued again (log entry 155). A first miss with the plane
intact is issued again (R96): in fewer than three columns their counts rise, in three or more the array becomes suspect.
With the plane overwritten the command is killed for re-run and the counts rise; a miss of a retried pass kills the
command and fences the array, or, of a sound one in fewer than three columns, raises the counts. A map-out at its command
boundary gives the lowest free spare the logical column and makes both planes of the array invalid. A miss count is cleared
after 1 s without a miss. The end of a scrub, once its time has run, leaves planes, entries, passes and top-k clear and
the core clean. -/
def Obligations.ArrayUpkeepCompletes : Prop :=
  (∀ (s : State) (g a : Nat) (faults : List ColFault) (p : Pass) (rest : List Pass) (e : Entry), g < 24 ∧ a < 4 →
    SMap.get [] (s.core g).passes a = p :: rest ∧ p.t + 1026 * 625 ≤ s.gey.arr → s.checkPass g a p faults = (e, []) →
    s.flag F.MXC_ARR_INJECT.ARM (g * 4 + a) = false ∨
      (s.fld F.MXC_ARR_INJECT.KIND (g * 4 + a) ≠ 1 ∧ s.fld F.MXC_ARR_INJECT.KIND (g * 4 + a) ≠ 2) →
    ∃ t, exec (.passCommit g a faults) s = .next t ∧
          Same ((if p.retried then s.incFld F.MXC_ARR_RESCNT.RETRY_OK (g * 4 + a) else s).modCore g fun m => { m with
            passes := SMap.set [] m.passes a rest
            entries := SMap.set {} m.entries (a * 1024 + p.entry) e }) t) ∧
  (∀ (s u : State) (g a ga : Nat) (faults : List ColFault) (p : Pass) (rest : List Pass) (e : Entry) (inj : Bool)
      (miss forced own cols : List Nat), g < 24 ∧ a < 4 ∧ ga = g * 4 + a →
    SMap.get [] (s.core g).passes a = p :: rest ∧ p.t + 1026 * 625 ≤ s.gey.arr → s.checkPass g a p faults = (e, miss) →
    (inj = true ∧ s.flag F.MXC_ARR_INJECT.ARM ga = true ∧ (s.fld F.MXC_ARR_INJECT.KIND ga = 1 ∨ s.fld F.MXC_ARR_INJECT.KIND ga = 2) ∧
        forced = [s.fld F.MXC_ARR_INJECT.PCOL ga]) ∨
      (inj = false ∧ forced = [] ∧ (s.flag F.MXC_ARR_INJECT.ARM ga = false ∨
        (s.fld F.MXC_ARR_INJECT.KIND ga ≠ 1 ∧ s.fld F.MXC_ARR_INJECT.KIND ga ≠ 2))) →
    own = miss.filter (fun c => !forced.contains c) ∧ cols = forced ++ own ∧ cols ≠ [] →
    u = (let w := s.incFld F.MXC_ARR_RESCNT.MISS ga cols.length
         let w := (((w.setFld F.MXC_ARR_LASTMISS.PCOL ga (cols.foldl min 519)).setFld F.MXC_ARR_LASTMISS.NCOL ga
           (min cols.length 7)).setFld F.MXC_ARR_LASTMISS.FP32 ga (b2n (fpPath p.pm.fw))).setFld F.MXC_ARR_LASTMISS.INJ ga (b2n inj)
         let w := (w.setFld F.MXC_ARR_LASTMISS.CYCLE ga s.frameCyc).setFld F.MXC_ARR_LASTMISS.TICK ga s.tickNo
         let w := if p.init then w.modCore g fun m => { m with
           entries := SMap.set {} m.entries (a * 1024 + p.entry) (startEntry p.pm.mode) } else w
         if inj then (w.setFld F.MXC_ARR_INJECT.ARM ga 0).injMade (g / 2) 1 (unitSrc (.tile (g / 2) (g % 2) a)) else w) →
    (own = [] →
      ∃ t, exec (.passCommit g a faults) s = .next t ∧
        Same ((u.setPasses g a (reissue s.gey.arr p rest)).detect (g / 2) 1 0 (unitSrc (.tile (g / 2) (g % 2) a)) 0 0 true) t) ∧
          (own ≠ [] ∧ p.retried = false ∧ (u.core g).intact a p = true → own.length < 3 →
            ∃ t, exec (.passCommit g a faults) s = .next t ∧
              Same (((u.setPasses g a (reissue s.gey.arr p rest)).detect (g / 2) 1 0 (unitSrc (.tile (g / 2) (g % 2) a))
                (own.foldl min 519)).bumpAll g a own) t) ∧
          (p.retried = false ∧ (u.core g).intact a p = true → 3 ≤ own.length →
            ∃ t, exec (.passCommit g a faults) s = .next t ∧
              Same ((((u.setPasses g a (reissue s.gey.arr p rest)).detect (g / 2) 1 0 (unitSrc (.tile (g / 2) (g % 2) a))
                (own.foldl min 519)).touchMiss g a own).setFld F.MXC_ARR_STATUS.ARRAY_SUSPECT ga 1) t) ∧
          (own ≠ [] ∧ p.retried = false → (u.core g).intact a p = false →
            ∃ t, exec (.passCommit g a faults) s = .next t ∧
              Same ((((u.killPass g a p).detect (g / 2) 1 1 (unitSrc (.tile (g / 2) (g % 2) a)) (own.foldl min 519)).bumpAll g a
                own).boundary g) t) ∧
          (p.retried = true ∧ (3 ≤ own.length ∨ own ≠ [] ∧ u.flag F.MXC_ARR_STATUS.ARRAY_SUSPECT ga = true) →
            ∃ t, exec (.passCommit g a faults) s = .next t ∧
              Same ((((u.killPass g a p).detect (g / 2) 1 1 (unitSrc (.tile (g / 2) (g % 2) a)) (own.foldl min 519)).touchMiss g a
                own).fenceArray g a) t) ∧
          (p.retried = true ∧ own ≠ [] ∧ own.length < 3 → u.flag F.MXC_ARR_STATUS.ARRAY_SUSPECT ga = false →
            ∃ t, exec (.passCommit g a faults) s = .next t ∧
              Same ((((u.killPass g a p).detect (g / 2) 1 1 (unitSrc (.tile (g / 2) (g % 2) a)) (own.foldl min 519)).bumpAll g a
                own).boundary g) t)) ∧
  (∀ (s : State) (g a : Nat) (faults : List ColFault), g < 24 ∧ a < 4 →
    SMap.get [] (s.core g).passes a = [] ∨ (∃ p rest, SMap.get [] (s.core g).passes a = p :: rest ∧ s.gey.arr < p.t + 1026 * 625) →
    ∃ t, exec (.passCommit g a faults) s = .next t ∧ Same s t) ∧
  (∀ (s : State) (g a k l : Nat) (ks : List Nat), g < 24 ∧ a < 4 →
    (s.core g).mapDue.filter (fun p => p.1 == a) = [(a, l)] → s.freeSpares (g * 4 + a) = k :: ks →
    ∃ t, exec (.columnMapOut g a) s = .next t ∧
          Same
           (let ga := g * 4 + a
            let u := ((s.setFld F.MXC_ARR_SPAREs.LCOL (ga * 8 + k) l).setFld F.MXC_ARR_SPAREs.VALID (ga * 8 + k) 1).setFld
              F.MXC_ARR_SPAREs.PERM (ga * 8 + k) 0
            let u := u.setFld F.MXC_ARR_STATUS.SPARES_USED ga (u.fld F.MXC_ARR_STATUS.SPARES_USED ga + 1)
            let u := (u.setFld F.MXC_ARR_STATUS.ACT_VALID ga 0).setFld F.MXC_ARR_STATUS.SHD_VALID ga 0
            let u := u.detect (g / 2) 1 1 (unitSrc (.tile (g / 2) (g % 2) a)) l 0 false true
            (u.modCore g fun m => { m with mapDue := m.mapDue.filter fun p => p.1 != a }).setFld F.MXC_ARR_STATUS.MAP_PEND ga
              (b2n ((u.core g).mapPend.any fun p => p.1 == a))) t) ∧
  (∀ (s u : State) (g a : Nat) (mine : List (Nat × Nat)), g < 24 ∧ a < 4 →
    mine = (s.core g).mapDue.filter (fun p => p.1 == a) ∧ mine ≠ [] → u = mine.foldl (fun s p => s.mapOut g a p.2) s →
    ∃ t, exec (.columnMapOut g a) s = .next t ∧
          Same ((u.modCore g fun m => { m with mapDue := m.mapDue.filter fun p => p.1 != a }).setFld F.MXC_ARR_STATUS.MAP_PEND
            (g * 4 + a) (b2n ((u.core g).mapPend.any fun p => p.1 == a))) t) ∧
  (∀ (s : State) (g a : Nat), g < 24 ∧ a < 4 → (s.core g).mapDue.filter (fun p => p.1 == a) = [] →
    ∃ t, exec (.columnMapOut g a) s = .next t ∧ Same s t) ∧
  (∀ (s : State) (g a col : Nat), g < 24 ∧ a < 4 ∧ col < 520 →
    (SMap.get (0, 0) (s.core g).miss (520 * a + col)).2 + 156250000 ≤ s.tmb.clk →
    ∃ t, exec (.missCountClear g a col) s = .next t ∧
          Same (s.modCore g fun m => { m with miss := SMap.set (0, 0) m.miss (520 * a + col) (0, 0) }) t) ∧
  (∀ (s : State) (g a col : Nat), g < 24 ∧ a < 4 ∧ col < 520 →
    s.tmb.clk < (SMap.get (0, 0) (s.core g).miss (520 * a + col)).2 + 156250000 →
    ∃ t, exec (.missCountClear g a col) s = .next t ∧ Same s t) ∧
  (∀ (s : State) (g a : Nat) (v : BitVec 32), g < 24 ∧ a < 4 → s.takesWrite .MXC_ARR_INJECT (4 * g + a) = true →
    ∃ t, exec (.arrInjectArm g a v) s = .next t ∧ t.fld F.MXC_ARR_INJECT.ARM (g * 4 + a) = 1 ∧
          t.fld F.MXC_ARR_INJECT.PCOL (g * 4 + a) = bits v.toNat 9 0 ∧ t.fld F.MXC_ARR_INJECT.KIND (g * 4 + a) = bits v.toNat 11 10 ∧
          SameBut [(F.MXC_ARR_INJECT.ARM, g * 4 + a), (F.MXC_ARR_INJECT.PCOL, g * 4 + a), (F.MXC_ARR_INJECT.KIND, g * 4 + a)] s t) ∧
  (∀ (s : State) (g a : Nat) (v : BitVec 32), g < 24 ∧ a < 4 → s.takesWrite .MXC_ARR_INJECT (4 * g + a) = false →
    ∃ t, exec (.arrInjectArm g a v) s = .next t ∧ Same s t) ∧
  (∀ (s : State) (g : Nat), g < 24 → (s.core g).scrub = true ∧ (s.core g).scrubT ≤ s.gey.arr →
    ∃ t, exec (.scrubEnd g) s = .next t ∧
          (∀ a < 4, t.fld F.MXC_ARR_STATUS.ACT_VALID (g * 4 + a) = 0 ∧ t.fld F.MXC_ARR_STATUS.SHD_VALID (g * 4 + a) = 0 ∧
            t.fld F.MXC_ARR_STATUS.LOADING (g * 4 + a) = 0) ∧
          SameBut ((List.range 4).flatMap fun a => [(F.MXC_ARR_STATUS.ACT_VALID, g * 4 + a), (F.MXC_ARR_STATUS.SHD_VALID, g * 4 + a),
            (F.MXC_ARR_STATUS.LOADING, g * 4 + a)]) (s.modCore g fun m => { m with
              scrub := false, clean := true, planes := [], act := [], shd := [], loading := none, passes := [], entries := [],
              topk := {}, run := if m.run.any (·.back) then none else m.run }) t) ∧
  (∀ (s : State) (g : Nat), g < 24 → (s.core g).scrub = false ∨ s.gey.arr < (s.core g).scrubT →
    ∃ t, exec (.scrubEnd g) s = .next t ∧ Same s t)

/-- From cycle N_min - 8,192 a core reads the slot of the next tick once: a good slot gives the next frame's windows and
TICK, a missing or bad one none and a count, with an event and SCHED in the words of cells (log entry 65) where the
core carries the radio. With the other core of its die fenced it reads that one's table too. At cycle S a window starts: the
tenant command whose commit point falls on it commits, the others are killed for re-run and counted, waiting map-outs
reach a boundary, gated arrays wake, and the window's first issue time is placed, 1,024 cycles later where a tenant pass
issued in the 1,024 cycles before S, and 512 later where a scrub is owed. At cycle E - 559 an idle core charges basin 0 for
the window and starts the scrub of the hand-back; a held queue-0 command delays it and counts WIN_OVR once, and the cycles
past E are basin 0's and leave the tenants' share. Too early, out of service or with nothing due, they do nothing. -/
def Obligations.WindowCommandsComplete : Prop :=
  (∀ (s : State) (g : Nat), g < 24 →
    s.coreOut g = false ∧ (s.core g).read = false ∧ s.flag F.GEY_CTRL.TICKING = true →
    nMin (s.fld F.GEY_CTRL.PERIOD) ≤ s.frameCyc + 8192 → s.fencedUnit (coreUnit (g + 1 - 2 * (g % 2))) = false →
    ∃ t, exec (.tickProgramRead g) s = .next t ∧
          Same
           (let k := s.tickNo + 1
            let u := s.meet (s.fld F.MXC_TPROG_BASE.BASE g * 65536 + k % 1024 * 64) 64
            let r := u.slotAt g k
            let report := fun (u : State) => if u.flag F.MXC_TPROG_BASE.RADIO_CORE g then
              (u.workCells u.radioDies 0).raise (coreSrc g 0) { mech := 13, level := 1, data := k % 2 ^ 16, ext := true, xdata := k }
              else u
            let x := if s.flag F.MXC_TPROG_BASE.EN g = false then ([], s) else match r.2 with
              | none => ([], report (u.incFld F.MXC_TPROG_STATUS.MISS g))
              | some false => ([], report (u.incFld F.MXC_TPROG_STATUS.BAD g))
              | some true => (slotWindows r.1 g, u.setFld F.MXC_TPROG_LAST.TICK g k)
            x.2.modCore g fun m => { m with read := true, next := x.1 }) t) ∧
  (∀ (s : State) (g p : Nat), g < 24 → p = g + 1 - 2 * (g % 2) →
    s.coreOut g = false ∧ (s.core g).read = false ∧ s.flag F.GEY_CTRL.TICKING = true →
    nMin (s.fld F.GEY_CTRL.PERIOD) ≤ s.frameCyc + 8192 → s.fencedUnit (coreUnit p) = true →
    ∃ t, exec (.tickProgramRead g) s = .next t ∧
          Same
           (let r := s.readSlot g
            let x := r.2.readSlot p
            x.2.modCore g fun m => { m with read := true, next := r.1 ++ x.1 }) t) ∧
  (∀ (s : State) (g : Nat), g < 24 →
    s.coreOut g = true ∨ (s.core g).read = true ∨ s.flag F.GEY_CTRL.TICKING = false ∨
      s.frameCyc + 8192 < nMin (s.fld F.GEY_CTRL.PERIOD) →
    ∃ t, exec (.tickProgramRead g) s = .next t ∧ Same s t) ∧
  (∀ (s u : State) (g k d x : Nat) (w : Window) (ks : List Nat), g < 24 →
    s.coreOut g = false ∧ (s.core g).run = none ∧ s.flag F.GEY_CTRL.TICKING = true →
    (s.core g).wins.find? (fun w => decide (w.start ≤ s.frameCyc)) = some w →
    (s.commitAtStart g = none ∧ u = s) ∨ (∃ c, s.commitAtStart g = some c ∧ u = commitPoint g c s) →
    k = s.gey.frame0 + w.start * 625 ∧ d = (if s.tenantPass g k then 1024 else 0) →
    x = (if (u.core g).used ∧ !(u.core g).clean ∧ (u.core g).basin ≠ 0 then 512 else 0) ∧ ks = u.tenants g →
    ∃ t, exec (.windowStart g) s = .next t ∧
          Same
           (let v := ks.foldl (fun s c => s.killRerun g c) u
            let v := if ks = [] then v else v.incFld F.MXC_CORE_KILLS.WIN_KILL g ks.length
            ((v.boundary g).wakeUnits fun i => decide (i / 4 = g)).modCore g fun m => { m with
              scrub := false, wins := m.wins.filter (· != w)
              run := some { w, left := w.ncmd, issueAt := k + (48 + d + x) * 625 } }) t) ∧
  (∀ (s : State) (g : Nat), g < 24 →
    s.coreOut g = true ∨ (s.core g).run ≠ none ∨ s.flag F.GEY_CTRL.TICKING = false ∨
      (s.core g).wins.find? (fun w => decide (w.start ≤ s.frameCyc)) = none →
    ∃ t, exec (.windowStart g) s = .next t ∧ Same s t) ∧
  (∀ (s : State) (g n : Nat) (r : WinRun), g < 24 → (s.core g).run = some r ∧ r.back = false →
    r.w.last ≤ s.frameCyc + 559 ∧ s.idle g = true →
    n = (if r.late then s.frameCyc + 560 else r.w.last + 1) - r.w.start →
    ∃ t, exec (.handBack g) s = .next t ∧
          Same
           (let k := s.q0Late g r
            let u := if k = 0 then s else s.incFld F.MXC_TPROG_STATUS.Q0_LATE g k
            (u.charge 0 0 (n * (s.arraysIn g).length)).modCore g fun m => { m with
              run := some { r with back := true }, lane := m.lane + (n - (r.w.last + 1 - r.w.start))
              scrub := true, scrubT := s.gey.arr + 512 * 625, clean := false }) t) ∧
  (∀ (s : State) (g : Nat) (r : WinRun), g < 24 → (s.core g).run = some r ∧ r.back = false ∧ r.late = false →
    r.w.last ≤ s.frameCyc + 559 ∧ s.idle g = false →
    ∃ t, exec (.handBack g) s = .next t ∧
          Same (((s.incFld F.MXC_TPROG_STATUS.WIN_OVR g).raise (coreSrc g 0)
            { mech := 13, level := 1, data := s.tickNo % 2 ^ 16, ext := true, xdata := s.tickNo }).modCore g fun m =>
              { m with run := some { r with late := true } }) t) ∧
  (∀ (s : State) (g : Nat), g < 24 →
    (s.core g).run = none ∨ (∃ r, (s.core g).run = some r ∧
      (r.back = true ∨ s.frameCyc + 559 < r.w.last ∨ r.late = true ∧ s.idle g = false)) →
    ∃ t, exec (.handBack g) s = .next t ∧ Same s t)

/-- A doorbell write in SRAM stores its 4 bytes at TAIL or CQ_HEAD of the queue's line and reaches the queue unit; a line
elsewhere takes none. A write of MXC_Qq_CTRL sets EN, or clears it with QERR; the size is clamped, 6 for an engine queue;
the owner changes only for a tenant queue that holds nothing, between BUILDING basins, and SHARE only while its owner is
BUILDING: a write that asks for another change is ignored whole. Queue 0 of a unit and engine queues keep their owner and
SHARE. A die that takes no writes ignores it. A snapshot sets BUSY and is taken in the next reference period; a GO
meanwhile is ignored. An accrual adds 2 MiB seconds for every owned page. -/
def Obligations.QueueCommandsComplete : Prop :=
  (∀ (s : State) (q n o : Nat) (cq : Bool) (v : BitVec 32), q < 392 →
    place (s.fld F.MXC_Qq_DBL.LINE q / 64 * 64) = .sram n o →
    ∃ t, exec (.doorbellWrite q cq v) s = .next t ∧
          Same (s.put (s.queueBasin q) (s.fld F.MXC_Qq_DBL.LINE q / 64 * 64 + if cq then 8 else 0) (bytesOf 4 v.toNat)) t) ∧
  (∀ (s : State) (q : Nat) (cq : Bool) (v : BitVec 32), q < 392 →
    (∀ n o, place (s.fld F.MXC_Qq_DBL.LINE q / 64 * 64) ≠ .sram n o) →
    ∃ t, exec (.doorbellWrite q cq v) s = .next t ∧ Same s t) ∧
  (∀ (s : State) (q b : Nat) (v : BitVec 32), q < 320 ∧ q % 8 ≠ 0 → s.takesWrite .MXC_Qq_CTRL q = true →
    b = bits v.toNat 8 1 →
    s.fld F.MXC_Qq_CTRL.BASIN q = b ∨
      (s.building (s.fld F.MXC_Qq_CTRL.BASIN q) = true ∧ s.queueBusy q = false ∧ s.building b = true) →
    s.fld F.MXC_Qq_CTRL.SHARE q = min (bits v.toNat 24 14) 1024 ∨ s.building b = true →
    (∃ t, exec (.queueEnable q v) s = .next t ∧ t.fld F.MXC_Qq_CTRL.BASIN q = bits v.toNat 8 1 ∧
            t.fld F.MXC_Qq_CTRL.LOG2SIZE q = clamp 4 16 (bits v.toNat 13 9) ∧ t.fld F.MXC_Qq_CTRL.SHARE q = min (bits v.toNat 24 14) 1024 ∧
            (let en := 1
             t.fld F.MXC_Qq_CTRL.EN q = en ∧ (en = 0 → t.fld F.MXC_Qq_STATUS.QERR q = 0) ∧
             (en = 1 → t.fld F.MXC_Qq_STATUS.QERR q = s.fld F.MXC_Qq_STATUS.QERR q)) ∧
            SameBut [(F.MXC_Qq_CTRL.BASIN, q), (F.MXC_Qq_CTRL.LOG2SIZE, q), (F.MXC_Qq_CTRL.SHARE, q), (F.MXC_Qq_CTRL.EN, q),
              (F.MXC_Qq_STATUS.QERR, q)] s t) ∧
          (∃ t, exec (.queueDisable q v) s = .next t ∧ t.fld F.MXC_Qq_CTRL.BASIN q = bits v.toNat 8 1 ∧
            t.fld F.MXC_Qq_CTRL.LOG2SIZE q = clamp 4 16 (bits v.toNat 13 9) ∧ t.fld F.MXC_Qq_CTRL.SHARE q = min (bits v.toNat 24 14) 1024 ∧
            (let en := 0
             t.fld F.MXC_Qq_CTRL.EN q = en ∧ (en = 0 → t.fld F.MXC_Qq_STATUS.QERR q = 0) ∧
             (en = 1 → t.fld F.MXC_Qq_STATUS.QERR q = s.fld F.MXC_Qq_STATUS.QERR q)) ∧
            SameBut [(F.MXC_Qq_CTRL.BASIN, q), (F.MXC_Qq_CTRL.LOG2SIZE, q), (F.MXC_Qq_CTRL.SHARE, q), (F.MXC_Qq_CTRL.EN, q),
              (F.MXC_Qq_STATUS.QERR, q)] s t) ∧
          (∃ t, exec (.queueBasinWrite q v) s = .next t ∧ t.fld F.MXC_Qq_CTRL.BASIN q = bits v.toNat 8 1 ∧
            t.fld F.MXC_Qq_CTRL.LOG2SIZE q = clamp 4 16 (bits v.toNat 13 9) ∧ t.fld F.MXC_Qq_CTRL.SHARE q = min (bits v.toNat 24 14) 1024 ∧
            (let en := v.toNat % 2
             t.fld F.MXC_Qq_CTRL.EN q = en ∧ (en = 0 → t.fld F.MXC_Qq_STATUS.QERR q = 0) ∧
             (en = 1 → t.fld F.MXC_Qq_STATUS.QERR q = s.fld F.MXC_Qq_STATUS.QERR q)) ∧
            SameBut [(F.MXC_Qq_CTRL.BASIN, q), (F.MXC_Qq_CTRL.LOG2SIZE, q), (F.MXC_Qq_CTRL.SHARE, q), (F.MXC_Qq_CTRL.EN, q),
              (F.MXC_Qq_STATUS.QERR, q)] s t)) ∧
  (∀ (s : State) (q b : Nat) (v : BitVec 32), q < 320 ∧ q % 8 ≠ 0 → b = bits v.toNat 8 1 →
    (s.fld F.MXC_Qq_CTRL.BASIN q ≠ b ∧
        (s.building (s.fld F.MXC_Qq_CTRL.BASIN q) = false ∨ s.queueBusy q = true ∨ s.building b = false)) ∨
      (s.fld F.MXC_Qq_CTRL.SHARE q ≠ min (bits v.toNat 24 14) 1024 ∧ s.building b = false) →
    (∃ t, exec (.queueEnable q v) s = .next t ∧ Same s t) ∧
          (∃ t, exec (.queueDisable q v) s = .next t ∧ Same s t) ∧
          (∃ t, exec (.queueBasinWrite q v) s = .next t ∧ Same s t)) ∧
  (∀ (s : State) (q : Nat) (v : BitVec 32), q < 392 ∧ (q % 8 = 0 ∨ 320 ≤ q) → s.takesWrite .MXC_Qq_CTRL q = true →
    (∃ t, exec (.queueEnable q v) s = .next t ∧ t.fld F.MXC_Qq_CTRL.LOG2SIZE q = (if 320 ≤ q then 6 else clamp 4 16 (bits v.toNat 13 9)) ∧
            (let en := 1
             t.fld F.MXC_Qq_CTRL.EN q = en ∧ (en = 0 → t.fld F.MXC_Qq_STATUS.QERR q = 0) ∧
             (en = 1 → t.fld F.MXC_Qq_STATUS.QERR q = s.fld F.MXC_Qq_STATUS.QERR q)) ∧
            SameBut [(F.MXC_Qq_CTRL.LOG2SIZE, q), (F.MXC_Qq_CTRL.EN, q), (F.MXC_Qq_STATUS.QERR, q)] s t) ∧
          (∃ t, exec (.queueDisable q v) s = .next t ∧ t.fld F.MXC_Qq_CTRL.LOG2SIZE q = (if 320 ≤ q then 6 else clamp 4 16 (bits v.toNat 13 9)) ∧
            (let en := 0
             t.fld F.MXC_Qq_CTRL.EN q = en ∧ (en = 0 → t.fld F.MXC_Qq_STATUS.QERR q = 0) ∧
             (en = 1 → t.fld F.MXC_Qq_STATUS.QERR q = s.fld F.MXC_Qq_STATUS.QERR q)) ∧
            SameBut [(F.MXC_Qq_CTRL.LOG2SIZE, q), (F.MXC_Qq_CTRL.EN, q), (F.MXC_Qq_STATUS.QERR, q)] s t) ∧
          (∃ t, exec (.queueBasinWrite q v) s = .next t ∧ t.fld F.MXC_Qq_CTRL.LOG2SIZE q = (if 320 ≤ q then 6 else clamp 4 16 (bits v.toNat 13 9)) ∧
            (let en := v.toNat % 2
             t.fld F.MXC_Qq_CTRL.EN q = en ∧ (en = 0 → t.fld F.MXC_Qq_STATUS.QERR q = 0) ∧
             (en = 1 → t.fld F.MXC_Qq_STATUS.QERR q = s.fld F.MXC_Qq_STATUS.QERR q)) ∧
            SameBut [(F.MXC_Qq_CTRL.LOG2SIZE, q), (F.MXC_Qq_CTRL.EN, q), (F.MXC_Qq_STATUS.QERR, q)] s t)) ∧
  (∀ (s : State) (q : Nat) (v : BitVec 32), q < 392 → s.takesWrite .MXC_Qq_CTRL q = false →
    (∃ t, exec (.queueEnable q v) s = .next t ∧ Same s t) ∧
          (∃ t, exec (.queueDisable q v) s = .next t ∧ Same s t) ∧
          (∃ t, exec (.queueBasinWrite q v) s = .next t ∧ Same s t)) ∧
  (∀ (s : State) (v : BitVec 32), s.flag F.PKG_ACCT_SNAP.BUSY = false →
    ∃ t, exec (.acctSnapshot v) s = .next t ∧ t.fld F.PKG_ACCT_SNAP.BASIN = v.toNat % 256 ∧ t.fld F.PKG_ACCT_SNAP.BUSY = 1 ∧
          SameBut [(F.PKG_ACCT_SNAP.BASIN, 0), (F.PKG_ACCT_SNAP.BUSY, 0)] { s with snap := some (v.toNat % 256) } t) ∧
  (∀ (s : State) (v : BitVec 32), s.flag F.PKG_ACCT_SNAP.BUSY = true →
    ∃ t, exec (.acctSnapshot v) s = .next t ∧ t.fld F.PKG_ACCT_SNAP.BASIN = v.toNat % 256 ∧
          SameBut [(F.PKG_ACCT_SNAP.BASIN, 0)] s t) ∧
  (∀ (s : State), s.tmb.secs ≠ 0 →
    ∃ t, exec .storeBsAccrual s = .next t ∧
          Same { s with
            acct := (s.regs.filterMap fun (k, v) => if k % 131072 = F.STR_PAGE_OWNERp.STATE.key 0 ∧ v = 1 then
                some (s.fld F.STR_PAGE_OWNERp.OWNER (k / 131072)) else none).foldl (fun m b =>
                  SMap.set 0 m (b * 8 + 4) ((SMap.get 0 m (b * 8 + 4) + 2 ^ 21) % 2 ^ 64)) s.acct
            tmb := { s.tmb with secs := s.tmb.secs - 1 } } t) ∧
  (∀ (s : State), s.tmb.secs = 0 → ∃ t, exec .storeBsAccrual s = .next t ∧ Same s t)

/-- At boot stage 6 with the journal presented and no operation running, a CREATE of a FREE number its port's VF has, or of the
lowest such number for 0, draws a key on every store die, empties its window, zeroes its counters, raises GEN and makes it
BUILDING; an OPEN within the shares makes a BUILDING basin OPEN; a RESET of an OPEN basin and a REMOVE of a BUILDING or
OPEN one stop it: GEN rises, its commands and tasks are dropped, its host cores halt, its cache lines and barriers go. A
refused command only sets ERR: 1 number not free, 3 VF off, 4 a key slot full, 2 wrong state, 5 and 6 shares of a core and
of the DSPs; any other time a command is ignored. The end of a reset leaves the basin OPEN and sends vector 2; the end of a
removal leaves it FREE with no key on any die. VF Enable and NumVFs close the basins of the port they take away; a VF's
FLR resets its PCIe state, and its basin where it is OPEN. -/
def Obligations.BasinLifeCycleCompletes : Prop :=
  (∀ (s : State) (v : BitVec 32) (b : Nat), s.flag F.BSN_CMD.BUSY = false ∧ s.fld F.PKG_BOOT.STAGE = 6 ∧ s.flt.presenting = false →
    (b = v.toNat % 256 ∧ b ≠ 0 ∧ s.bst b = 0 ∧ s.vfOn (bits v.toNat 8 8) b = true) ∨
      (v.toNat % 256 = 0 ∧ ((List.range 255).map (· + 1)).find? (fun i => s.bst i == 0 && s.vfOn (bits v.toNat 8 8) i) = some b) →
    (∀ n < 12, s.dieEn (12 + n) = true → s.keyFull n b = false) →
    ∃ t, exec (.basinCreate v) s = .next t ∧ t.fld F.BSN_CMD.BASIN = v.toNat % 256 ∧ t.fld F.BSN_CMD.PORT = bits v.toNat 8 8 ∧ t.fld F.BSN_CMD.OP = 0 ∧
          t.fld F.BSN_CMD.RESULT = b ∧ t.fld F.BSN_CMD.ERR = 0 ∧
          t.fld F.BSN_STATEb.STATE b = 1 ∧ t.fld F.BSN_STATEb.GEN b = (s.fld F.BSN_STATEb.GEN b + 1) % 4096 ∧
          t.fld F.BSN_STATEb.PORT b = bits v.toNat 8 8 ∧ t.fld F.BSN_HMW_BASEb.BASE b = 1 ∧ t.fld F.BSN_HMW_LIMITb.LIMIT b = 0 ∧
          SameBut [(F.BSN_CMD.BASIN, 0), (F.BSN_CMD.PORT, 0), (F.BSN_CMD.OP, 0), (F.BSN_CMD.RESULT, 0), (F.BSN_CMD.ERR, 0),
              (F.BSN_STATEb.GEN, b), (F.BSN_STATEb.PORT, b), (F.BSN_STATEb.STATE, b), (F.BSN_HMW_BASEb.BASE, b), (F.BSN_HMW_LIMITb.LIMIT, b)]
            { s with stores := (((List.range 12).filter fun n => s.dieEn (12 + n)).foldl (fun s n => s.drawKey n b) s).stores
                     acct := s.acct.filter fun e => e.1 / 8 != b } t) ∧
  (∀ (s : State) (v : BitVec 32) (b e : Nat), s.flag F.BSN_CMD.BUSY = false ∧ s.fld F.PKG_BOOT.STAGE = 6 ∧ s.flt.presenting = false → b = v.toNat % 256 →
    (e = 1 ∧ b ≠ 0 ∧ s.bst b ≠ 0) ∨ (e = 3 ∧ b ≠ 0 ∧ s.bst b = 0 ∧ s.vfOn (bits v.toNat 8 8) b = false) ∨
      (e = 1 ∧ b = 0 ∧ ∀ i, 1 ≤ i → i < 256 → s.bst i ≠ 0 ∨ s.vfOn (bits v.toNat 8 8) i = false) ∨
      (e = 4 ∧ b ≠ 0 ∧ s.bst b = 0 ∧ s.vfOn (bits v.toNat 8 8) b = true ∧ ∃ n < 12, s.dieEn (12 + n) = true ∧ s.keyFull n b = true) →
    ∃ t, exec (.basinCreate v) s = .next t ∧ t.fld F.BSN_CMD.BASIN = v.toNat % 256 ∧ t.fld F.BSN_CMD.PORT = bits v.toNat 8 8 ∧ t.fld F.BSN_CMD.OP = 0 ∧ t.fld F.BSN_CMD.ERR = e ∧
          SameBut [(F.BSN_CMD.BASIN, 0), (F.BSN_CMD.PORT, 0), (F.BSN_CMD.OP, 0), (F.BSN_CMD.ERR, 0)] s t) ∧
  (∀ (s : State) (v : BitVec 32) (b : Nat), s.flag F.BSN_CMD.BUSY = false ∧ s.fld F.PKG_BOOT.STAGE = 6 ∧ s.flt.presenting = false → b = v.toNat % 256 ∧ b ≠ 0 ∧ s.bst b = 1 →
    (∀ g < 24, ((b :: s.openBasins).map fun i => s.shareOf g i).sum ≤ 1024) →
    ((b :: s.openBasins).map fun i => s.fld F.BSN_STATEb.DSP_SHARE i).sum ≤ 1024 →
    ∃ t, exec (.basinOpen v) s = .next t ∧ t.fld F.BSN_CMD.BASIN = v.toNat % 256 ∧ t.fld F.BSN_CMD.PORT = bits v.toNat 8 8 ∧ t.fld F.BSN_CMD.OP = 1 ∧ t.fld F.BSN_CMD.ERR = 0 ∧ t.fld F.BSN_STATEb.STATE b = 2 ∧
          SameBut [(F.BSN_CMD.BASIN, 0), (F.BSN_CMD.PORT, 0), (F.BSN_CMD.OP, 0), (F.BSN_CMD.ERR, 0), (F.BSN_STATEb.STATE, b)] s t) ∧
  (∀ (s : State) (v : BitVec 32) (b e : Nat), s.flag F.BSN_CMD.BUSY = false ∧ s.fld F.PKG_BOOT.STAGE = 6 ∧ s.flt.presenting = false → b = v.toNat % 256 →
    (e = 2 ∧ (b = 0 ∨ s.bst b ≠ 1)) ∨
      (e = 5 ∧ b ≠ 0 ∧ s.bst b = 1 ∧ ∃ g < 24, 1024 < ((b :: s.openBasins).map fun i => s.shareOf g i).sum) ∨
      (e = 6 ∧ b ≠ 0 ∧ s.bst b = 1 ∧ (∀ g < 24, ((b :: s.openBasins).map fun i => s.shareOf g i).sum ≤ 1024) ∧
        1024 < ((b :: s.openBasins).map fun i => s.fld F.BSN_STATEb.DSP_SHARE i).sum) →
    ∃ t, exec (.basinOpen v) s = .next t ∧ t.fld F.BSN_CMD.BASIN = v.toNat % 256 ∧ t.fld F.BSN_CMD.PORT = bits v.toNat 8 8 ∧ t.fld F.BSN_CMD.OP = 1 ∧ t.fld F.BSN_CMD.ERR = e ∧
          SameBut [(F.BSN_CMD.BASIN, 0), (F.BSN_CMD.PORT, 0), (F.BSN_CMD.OP, 0), (F.BSN_CMD.ERR, 0)] s t) ∧
  (∀ (s u : State) (v : BitVec 32) (b : Nat), s.flag F.BSN_CMD.BUSY = false ∧ s.fld F.PKG_BOOT.STAGE = 6 ∧ s.flt.presenting = false → b = v.toNat % 256 ∧ b ≠ 0 ∧ s.bst b = 2 →
    u = ((((s.setFld F.BSN_CMD.BASIN 0 (v.toNat % 256)).setFld F.BSN_CMD.PORT 0 (bits v.toNat 8 8)).setFld F.BSN_CMD.OP 0 2).setFld
      F.BSN_CMD.ERR 0 0).setFld F.BSN_CMD.BUSY 0 1 →
    ∃ t, exec (.basinReset v) s = .next t ∧
          Same
           (let u := (u.setFld F.BSN_STATEb.GEN b ((s.gen b + 1) % 4096)).setFld F.BSN_STATEb.STATE b 3
            let u := ((u.setBasin b { u.basin b with clk := s.tmb.clk, byCmd := true }).dropBasin b).dropTasks b
            let u := (u.coresOf b).foldl (fun s h => s.setFld F.PKG_HC_CTRLh.HALTED h 1) u
            (u.rrcDrop fun _ l => l.basin == b).barriersReset b) t) ∧
  (∀ (s u : State) (v : BitVec 32) (b : Nat), s.flag F.BSN_CMD.BUSY = false ∧ s.fld F.PKG_BOOT.STAGE = 6 ∧ s.flt.presenting = false → b = v.toNat % 256 ∧ b ≠ 0 ∧ (s.bst b = 1 ∨ s.bst b = 2) →
    u = ((((s.setFld F.BSN_CMD.BASIN 0 (v.toNat % 256)).setFld F.BSN_CMD.PORT 0 (bits v.toNat 8 8)).setFld F.BSN_CMD.OP 0 3).setFld
      F.BSN_CMD.ERR 0 0).setFld F.BSN_CMD.BUSY 0 1 →
    ∃ t, exec (.basinRemove v) s = .next t ∧
          Same
           (let u := (u.setFld F.BSN_STATEb.GEN b ((s.gen b + 1) % 4096)).setFld F.BSN_STATEb.STATE b 4
            let u := ((u.setBasin b { u.basin b with clk := s.tmb.clk, byCmd := true }).dropBasin b).dropTasks b
            let u := (u.coresOf b).foldl (fun s h => s.setFld F.PKG_HC_CTRLh.HALTED h 1) u
            (u.rrcDrop fun _ l => l.basin == b).barriersReset b) t) ∧
  (∀ (s : State) (v : BitVec 32) (b : Nat), s.flag F.BSN_CMD.BUSY = false ∧ s.fld F.PKG_BOOT.STAGE = 6 ∧ s.flt.presenting = false → b = v.toNat % 256 →
    (b = 0 ∨ s.bst b ≠ 2 →
      ∃ t, exec (.basinReset v) s = .next t ∧ t.fld F.BSN_CMD.BASIN = v.toNat % 256 ∧ t.fld F.BSN_CMD.PORT = bits v.toNat 8 8 ∧ t.fld F.BSN_CMD.OP = 2 ∧ t.fld F.BSN_CMD.ERR = 2 ∧ SameBut [(F.BSN_CMD.BASIN, 0), (F.BSN_CMD.PORT, 0), (F.BSN_CMD.OP, 0), (F.BSN_CMD.ERR, 0)] s t) ∧
          (b = 0 ∨ (s.bst b ≠ 1 ∧ s.bst b ≠ 2) →
            ∃ t, exec (.basinRemove v) s = .next t ∧ t.fld F.BSN_CMD.BASIN = v.toNat % 256 ∧ t.fld F.BSN_CMD.PORT = bits v.toNat 8 8 ∧ t.fld F.BSN_CMD.OP = 3 ∧ t.fld F.BSN_CMD.ERR = 2 ∧
              SameBut [(F.BSN_CMD.BASIN, 0), (F.BSN_CMD.PORT, 0), (F.BSN_CMD.OP, 0), (F.BSN_CMD.ERR, 0)] s t)) ∧
  (∀ (s : State) (v : BitVec 32), s.flag F.BSN_CMD.BUSY = true ∨ s.fld F.PKG_BOOT.STAGE ≠ 6 ∨ s.flt.presenting = true →
    (∃ t, exec (.basinCreate v) s = .next t ∧ t.fld F.BSN_CMD.BASIN = v.toNat % 256 ∧ t.fld F.BSN_CMD.PORT = bits v.toNat 8 8 ∧ t.fld F.BSN_CMD.OP = 0 ∧ SameBut [(F.BSN_CMD.BASIN, 0), (F.BSN_CMD.PORT, 0), (F.BSN_CMD.OP, 0)] s t) ∧
          (∃ t, exec (.basinOpen v) s = .next t ∧ t.fld F.BSN_CMD.BASIN = v.toNat % 256 ∧ t.fld F.BSN_CMD.PORT = bits v.toNat 8 8 ∧ t.fld F.BSN_CMD.OP = 1 ∧ SameBut [(F.BSN_CMD.BASIN, 0), (F.BSN_CMD.PORT, 0), (F.BSN_CMD.OP, 0)] s t) ∧
          (∃ t, exec (.basinReset v) s = .next t ∧ t.fld F.BSN_CMD.BASIN = v.toNat % 256 ∧ t.fld F.BSN_CMD.PORT = bits v.toNat 8 8 ∧ t.fld F.BSN_CMD.OP = 2 ∧ SameBut [(F.BSN_CMD.BASIN, 0), (F.BSN_CMD.PORT, 0), (F.BSN_CMD.OP, 0)] s t) ∧
          (∃ t, exec (.basinRemove v) s = .next t ∧ t.fld F.BSN_CMD.BASIN = v.toNat % 256 ∧ t.fld F.BSN_CMD.PORT = bits v.toNat 8 8 ∧ t.fld F.BSN_CMD.OP = 3 ∧ SameBut [(F.BSN_CMD.BASIN, 0), (F.BSN_CMD.PORT, 0), (F.BSN_CMD.OP, 0)] s t)) ∧
  (∀ (s : State) (b : Nat), 0 < b ∧ b < 256 → s.bst b = 3 ∧ s.basinReady b = true →
    ∃ t, exec (.basinResetEnd b) s = .next t ∧ t.bst b = 2 ∧
          Same
           (let u := s.basinClear b
            let u := (u.coresOf b).foldl (fun s h => (s.hcReset h).setFld F.PKG_HC_CTRLh.HALTED h (1 - s.fld F.PKG_HC_CTRLh.RUN h)) u
            (((u.setFld F.BSN_STATEb.STATE b 2).cmdDone b).basinEvent b).msixVf b 2) t) ∧
  (∀ (s : State) (b : Nat), 0 < b ∧ b < 256 → s.bst b = 4 ∧ s.basinReady b = true →
    ∃ t, exec (.basinRemovalEnd b) s = .next t ∧ t.bst b = 0 ∧ (∀ n < 12, t.keyFull n b = false) ∧
          Same
           (let u := (((((s.basinClear b).scrubBasin b).returnMemory b).returnUnits b).returnFabric b).emptyWindow b
            let u := ((u.setFld F.BSN_STATEb.MODE b 0).setFld F.BSN_STATEb.MODE_PEND b 0).setFld F.BSN_STATEb.DSP_SHARE b 0
            ((u.setFld F.BSN_STATEb.STATE b 0).cmdDone b).basinEvent b) t) ∧
  (∀ (s : State) (b : Nat), 0 < b ∧ b < 256 →
    (s.bst b ≠ 3 ∨ s.basinReady b = false → ∃ t, exec (.basinResetEnd b) s = .next t ∧ Same s t) ∧
          (s.bst b ≠ 4 ∨ s.basinReady b = false → ∃ t, exec (.basinRemovalEnd b) s = .next t ∧ Same s t)) ∧
  (∀ (s u : State) (port n : Nat) (vfe : Bool) (l : List Nat), port < 2 ∧ n < 65536 →
    u = (s.setFld F.CFG_SRIOV.VFE port (b2n vfe)).setFld F.CFG_SRIOV.NUMVFS port (min n 255) →
    l = (s.instances .BSN_STATEb 0).filter (fun b => b != 0 && s.portOf b == port && !(vfe && decide (b ≤ min n 255))) →
    ∃ t, exec (.vfDisable port vfe n) s = .next t ∧
          Same (l.foldl (fun s b => if s.bst b = 0 ∨ s.bst b = 4 then s
            else (s.basinStop b 4 (s.basin b).byCmd).basinEvent b) u) t) ∧
  (∀ (s u : State) (port b : Nat), port < 2 ∧ 0 < b ∧ b < 256 → u = s.vfPcieReset port b →
    (s.portOf b = port ∧ s.bst b = 2 →
      ∃ t, exec (.vfFlr port b) s = .next t ∧
        Same
           (let u := (u.setFld F.BSN_STATEb.GEN b ((s.gen b + 1) % 4096)).setFld F.BSN_STATEb.STATE b 3
            let u := ((u.setBasin b { u.basin b with clk := s.tmb.clk, byCmd := false }).dropBasin b).dropTasks b
            let u := (u.coresOf b).foldl (fun s h => s.setFld F.PKG_HC_CTRLh.HALTED h 1) u
            (u.rrcDrop fun _ l => l.basin == b).barriersReset b) t) ∧
          (s.portOf b ≠ port ∨ s.bst b ≠ 2 → ∃ t, exec (.vfFlr port b) s = .next t ∧ Same u t))

/-- The tenant of a page (VF b, or for basin 0 a host core of basin 0; log entry 71) writes up slots and the driver down slots:
data to a slot it may produce with OWN 0; its up control word with OWN 1 takes the current generation, counts and raises
the driver's event; the driver's down control word of the current generation counts and sends vector 0, or in ring mode is
copied to the down ring, or stops the ring that is out of range. The other side gives a slot back with OWN 0. Reserved bits
are stored as 0. A write the tables do not accept, and in ring mode one of the tenant, only counts DROP; one of a VF whose
basin is not OPEN, of another function or of an empty range does nothing. A write over PCIe is recorded, and a replay takes
none. A poll of a ring in range, POLL microseconds after the last, copies up entries to free slots, takes DN_HEAD and
copies waiting down slots; out of range the ring stops. A write of MODE waits until every slot has OWN 0. An accepted new
owner of a halted host core starts its clear, at whose end its registers are reset and a start that came takes effect; a
refused one sets ERR. -/
def Obligations.MailboxCommandsComplete : Prop :=
  (∀ (s u : State) (r : Req) (b o : Nat) (d : List Byte), (Instr.mailboxWrite r b o d).wf = true ∧ d ≠ [] → MailboxComes s r b o d u →
    o % 64 + d.length ≤ 56 → (b = 0 ∨ u.bst b = 2 ∨ asTenant r b = false) →
    asTenant r b = false ∨ u.flag F.BSN_STATEb.MODE b = false →
    (asTenant r b = decide (o / 64 < 32) ∧ u.mbxOwn b (o / 64) = false →
      ∃ t, exec (.mailboxWrite r b o d) s = .next t ∧ Same (u.mbxPut b o d) t) ∧
          (asTenant r b ≠ decide (o / 64 < 32) ∨ u.mbxOwn b (o / 64) = true →
            ∃ t, exec (.mailboxWrite r b o d) s = .next t ∧ Same (u.incFld F.BSN_MBXb.DROP b) t)) ∧
  (∀ (s u : State) (r : Req) (b o : Nat) (d : List Byte), (Instr.mailboxWrite r b o d).wf = true ∧ d ≠ [] → MailboxComes s r b o d u →
    (asTenant r b = true ∧ u.flag F.BSN_STATEb.MODE b = true ∧ (b = 0 ∨ u.bst b = 2)) ∨
      (56 < o % 64 + d.length ∧ ¬(o % 64 = 56 ∧ d.length = 8) ∧ (asTenant r b = false ∨ (u.flag F.BSN_STATEb.MODE b = false ∧ (b = 0 ∨ u.bst b = 2)))) →
    ∃ t, exec (.mailboxWrite r b o d) s = .next t ∧ Same (u.incFld F.BSN_MBXb.DROP b) t) ∧
  (∀ (s u : State) (r : Req) (b o : Nat) (d : List Byte), (Instr.mailboxWrite r b o d).wf = true → MailboxComes s r b o d u →
    d = [] ∨ (asTenant r b = true ∧ b ≠ 0 ∧ u.bst b ≠ 2) →
    ∃ t, exec (.mailboxWrite r b o d) s = .next t ∧ Same u t) ∧
  (∀ (s u : State) (i : Instr) (r : Req) (b slot v : Nat) (fault : Bool), WritesControl i r b slot v fault → MailboxComes s r b (slot * 64 + 56) (bytesOf 8 v) u → (asTenant r b = false ∨ (u.flag F.BSN_STATEb.MODE b = false ∧ (b = 0 ∨ u.bst b = 2))) →
    (asTenant r b = true ∧ slot < 32 ∧ u.mbxOwn b slot = false ∧ bit v 63 = true →
      ∃ t, exec i s = .next t ∧
        Same
         (let c := v % 2 ^ 16 + u.gen b * 2 ^ 16 + bits v 41 28 * 2 ^ 28 + 2 ^ 63
          let w := (u.mbxPut b (slot * 64 + 56) (bytesOf 8 c)).incFld F.BSN_MBXb.UP b
          w.raise (mailSrc b) { basin := b, gen := w.gen b, data := slot, ext := true, xdata := c % 2 ^ 16 }) t) ∧
          (asTenant r b = false ∧ 32 ≤ slot ∧ u.mbxOwn b slot = false ∧ bit v 63 = true ∧ bits v 27 16 = u.gen b →
            ∃ t, exec i s = .next t ∧
              Same
               (let w := (u.mbxPut b (slot * 64 + 56) (bytesOf 8 (v % 2 ^ 42 + 2 ^ 63))).incFld F.BSN_MBXb.DOWN b
                if b = 0 then w
                else if u.flag F.BSN_STATEb.MODE b then (if fault || !w.ringOk b then w.ringStop b else w.downCopy b slot)
                else w.msixVf b 0) t) ∧
          (asTenant r b ≠ decide (slot < 32) ∧ u.mbxOwn b slot = true ∧ bit v 63 = false →
            ∃ t, exec i s = .next t ∧ Same (u.mbxPut b (slot * 64 + 56) (bytesOf 8 (v % 2 ^ 42))) t) ∧
          ((asTenant r b = decide (slot < 32) ∧
              (u.mbxOwn b slot = true ∨ bit v 63 = false ∨ (32 ≤ slot ∧ bits v 27 16 ≠ u.gen b))) ∨
            (asTenant r b ≠ decide (slot < 32) ∧ (u.mbxOwn b slot = false ∨ bit v 63 = true)) →
            ∃ t, exec i s = .next t ∧ Same (u.incFld F.BSN_MBXb.DROP b) t)) ∧
  (∀ (s u : State) (i : Instr) (r : Req) (b slot v : Nat) (fault : Bool), WritesControl i r b slot v fault → MailboxComes s r b (slot * 64 + 56) (bytesOf 8 v) u →
    asTenant r b = true →
    (b ≠ 0 ∧ u.bst b ≠ 2 → ∃ t, exec i s = .next t ∧ Same u t) ∧
          (u.flag F.BSN_STATEb.MODE b = true ∧ (b = 0 ∨ u.bst b = 2) →
            ∃ t, exec i s = .next t ∧ Same (u.incFld F.BSN_MBXb.DROP b) t)) ∧
  (∀ (s : State) (i : Instr) (r : Req) (b o slot v : Nat) (d : List Byte) (fault : Bool),
    (i = .mailboxWrite r b o d ∧ i.wf = true) ∨ WritesControl i r b slot v fault →
    (s.replaying = true ∧ ((∃ p, r = .pf p) ∨ ∃ p k, r = .vf p k)) ∨ (∃ h, r = .hc h ∧ s.hcBasin h ≠ 0) →
    ∃ t, exec i s = .next t ∧ Same s t) ∧
  (∀ (s u : State) (i : Instr) (p k b o slot v : Nat) (d : List Byte) (fault : Bool), s.replaying = false →
    (i = .mailboxWrite (.vf p k) b o d ∧ i.wf = true) ∨
      (WritesControl i (.vf p k) b slot v fault ∧ o = slot * 64 + 56 ∧ d = bytesOf 8 v) →
    u = s.obs 1 (k + p * 2 ^ 16) d.length (0xFF03000000 + b * 4096 + o) d → k ≠ b ∨ u.portOf b ≠ p →
    ∃ t, exec i s = .next t ∧ Same u t) ∧
  (∀ (s : State) (b : Nat) (line : List Byte) (es : List (List Byte)), (Instr.ringPoll b line es false).wf = true ∧ b ≠ 0 →
    s.flag F.BSN_STATEb.MODE b = true ∧ s.bst b = 2 ∧ s.noHostRead = false ∧ s.ringOk b = true →
    s.elapsed (s.basin b).pollClk (s.fld F.BSN_RINGb.POLL b) = true →
    ∃ t, exec (.ringPoll b line es false) s = .next t ∧
          Same
           (let src := unitSrc (.region (28 + s.portOf b))
            let u := s.setBasin b { s.basin b with pollClk := s.tmb.clk }
            let u := u.obs 2 src 64 (u.ringBase b) (slice line 0 64)
            let old := (u.basin b).upHead
            let u := u.setBasin b { u.basin b with dnHead := natOf (slice line 12 4) }
            let u := u.upCopies b (natOf (slice line 0 4)) es
            let u := ((es.take (diff32 (u.basin b).upHead old)).zipIdx).foldl (fun s (e, i) =>
              s.obs 2 src 64 (s.upEntry b (old + i)) (slice e 0 64)) u
            let u := if (u.basin b).upHead = old then u else u.put b (u.ringBase b + 4) (bytesOf 4 (u.basin b).upHead)
            (u.basin b).down.foldl (fun s i => s.downCopy b i) u) t) ∧
  (∀ (s u : State) (b : Nat) (line : List Byte) (es : List (List Byte)) (fault : Bool), (Instr.ringPoll b line es fault).wf = true ∧ b ≠ 0 →
    s.flag F.BSN_STATEb.MODE b = true ∧ s.bst b = 2 ∧ s.noHostRead = false ∧
      s.elapsed (s.basin b).pollClk (s.fld F.BSN_RINGb.POLL b) = true →
    fault = true ∨ s.ringOk b = false → u = s.setBasin b { s.basin b with pollClk := s.tmb.clk } →
    ∃ t, exec (.ringPoll b line es fault) s = .next t ∧
          Same (((u.setFld F.BSN_STATEb.MODE b 0).setFld F.BSN_STATEb.MODE_ERR b 1).report (0x340 + b)
            { basin := b, gen := s.gen b, data := s.bst b } (unitSrc (.region 28)) 2) t) ∧
  (∀ (s : State) (b : Nat) (line : List Byte) (es : List (List Byte)) (fault : Bool), (Instr.ringPoll b line es fault).wf = true →
    b = 0 ∨ s.flag F.BSN_STATEb.MODE b = false ∨ s.bst b ≠ 2 ∨ s.noHostRead = true ∨
      s.elapsed (s.basin b).pollClk (s.fld F.BSN_RINGb.POLL b) = false →
    ∃ t, exec (.ringPoll b line es fault) s = .next t ∧ Same s t) ∧
  (∀ (s : State) (b : Nat) (v : BitVec 32), (Instr.modeWrite b v).wf = true →
    (min (bits v.toNat 29 19) 1024 = s.fld F.BSN_STATEb.DSP_SHARE b ∨ s.building b = true →
      ∃ t, exec (.modeWrite b v) s = .next t ∧ t.fld F.BSN_STATEb.DSP_SHARE b = min (bits v.toNat 29 19) 1024 ∧
          t.fld F.BSN_STATEb.MODE_ERR b = (if bit v.toNat 18 then 0 else s.fld F.BSN_STATEb.MODE_ERR b) ∧
          t.flag F.BSN_STATEb.MODE_PEND b = (bit v.toNat 16 != s.flag F.BSN_STATEb.MODE b) ∧
          SameBut [(F.BSN_STATEb.MODE_ERR, b), (F.BSN_STATEb.DSP_SHARE, b), (F.BSN_STATEb.MODE_PEND, b)]
            (s.setBasin b { s.basin b with modeNext := bit v.toNat 16 }) t) ∧
          (min (bits v.toNat 29 19) 1024 ≠ s.fld F.BSN_STATEb.DSP_SHARE b ∧ s.building b = false →
            ∃ t, exec (.modeWrite b v) s = .next t ∧ Same s t)) ∧
  (∀ (s : State) (b : Nat), (Instr.modeChange b).wf = true →
    (s.flag F.BSN_STATEb.MODE_PEND b = true ∧ (∀ i < 64, s.mbxOwn b i = false) →
      ∃ t, exec (.modeChange b) s = .next t ∧ t.flag F.BSN_STATEb.MODE b = (s.basin b).modeNext ∧
          t.flag F.BSN_STATEb.MODE_PEND b = false ∧
          SameBut [(F.BSN_STATEb.MODE, b), (F.BSN_STATEb.MODE_PEND, b)] (s.setBasin b { s.basin b with pollClk := s.tmb.clk }) t) ∧
          (s.flag F.BSN_STATEb.MODE_PEND b = false ∨ (∃ i < 64, s.mbxOwn b i = true) →
            ∃ t, exec (.modeChange b) s = .next t ∧ Same s t)) ∧
  (∀ (s : State) (h : Nat) (v : BitVec 32), h < 64 →
    (v.toNat % 256 ≠ s.fld F.BSN_HC_OWNERh.BASIN h →
      s.flag F.PKG_HC_CTRLh.HALTED h = true ∧ s.flag F.PKG_HC_PAIRp.EN (h / 2) = false →
      s.building (s.fld F.BSN_HC_OWNERh.BASIN h) = true ∧ s.building (v.toNat % 256) = true →
      ∃ t, exec (.hostCoreOwnerWrite h v) s = .next t ∧ t.fld F.BSN_HC_OWNERh.BASIN h = v.toNat % 256 ∧
          t.flag F.BSN_HC_OWNERh.SCRUB h = true ∧ t.flag F.PKG_HC_CTRLh.RUN h = false ∧
          t.fld F.BSN_HC_OWNERh.ERR h = (if bit v.toNat 9 then 0 else s.fld F.BSN_HC_OWNERh.ERR h) ∧
          SameBut [(F.BSN_HC_OWNERh.BASIN, h), (F.BSN_HC_OWNERh.SCRUB, h), (F.BSN_HC_OWNERh.ERR, h), (F.PKG_HC_CTRLh.RUN, h)] s t) ∧
          (v.toNat % 256 ≠ s.fld F.BSN_HC_OWNERh.BASIN h →
            s.flag F.PKG_HC_CTRLh.HALTED h = false ∨ s.flag F.PKG_HC_PAIRp.EN (h / 2) = true ∨
              s.building (s.fld F.BSN_HC_OWNERh.BASIN h) = false ∨ s.building (v.toNat % 256) = false →
            ∃ t, exec (.hostCoreOwnerWrite h v) s = .next t ∧ t.flag F.BSN_HC_OWNERh.ERR h = true ∧
              SameBut [(F.BSN_HC_OWNERh.ERR, h)] s t) ∧
          (v.toNat % 256 = s.fld F.BSN_HC_OWNERh.BASIN h →
            ∃ t, exec (.hostCoreOwnerWrite h v) s = .next t ∧
              t.fld F.BSN_HC_OWNERh.ERR h = (if bit v.toNat 9 then 0 else s.fld F.BSN_HC_OWNERh.ERR h) ∧
              SameBut [(F.BSN_HC_OWNERh.ERR, h)] s t)) ∧
  (∀ (s : State) (h : Nat), h < 64 →
    (s.flag F.BSN_HC_OWNERh.SCRUB h = true →
      ∃ t, exec (.hostCoreClearEnd h) s = .next t ∧
          Same (((s.hcReset h).setFld F.BSN_HC_OWNERh.SCRUB h 0).setFld F.PKG_HC_CTRLh.HALTED h (1 - s.fld F.PKG_HC_CTRLh.RUN h)) t) ∧
          (s.flag F.BSN_HC_OWNERh.SCRUB h = false → ∃ t, exec (.hostCoreClearEnd h) s = .next t ∧ Same s t))

/-- When its word issues, each arithmetic instruction writes its destination from the registers before it, saturated to 24
or 56 bits with XSAT or ASAT set where that changes a part, and its two moves take place on the registers before it
(afterMoves): nop, cmac, cmpy, rmac, cpow, xop, aop, cmp, mvr, mva, nrm, rcp and bcast. The task goes on to the next
instruction of its loops. The word of the instruction, and the words it loads, meet their waiting memory errors. A failed lane
check of any of them instead kills the task for re-run, and a second one within 1 s fences the core (State.dspMiss). Nothing
else changes. -/
def Obligations.DspArithmeticCompletes : Prop :=
  (∀ (s u : State) (d w : Nat) (k : DTask) (c : DCore), DspIssues 0x00 s u d w k c →
    ∃ t, exec (.dspNop d) s = .next t ∧
          Same (afterMoves u d w c c.cur) t) ∧
  (∀ (s u : State) (d w : Nat) (k : DTask) (c : DCore), DspIssues 0x20 s u d w k c →
    ∃ t, exec (.cmac d false) s = .next t ∧
          Same (afterMoves u d w c (c.cur.putA (dD w) fun l p =>
            c.cur.ap (dD w) l p + (if bit (dFn w) 1 then -(c.cur.prod w l p (bit (dFn w) 0)) else c.cur.prod w l p (bit (dFn w) 0)))) t) ∧
  (∀ (s u : State) (d w : Nat) (k : DTask) (c : DCore), DspIssues 0x21 s u d w k c →
    ∃ t, exec (.cmpy d false) s = .next t ∧
          Same (afterMoves u d w c (c.cur.putA (dD w) fun l p => c.cur.prod w l p (bit (dFn w) 0))) t) ∧
  (∀ (s u : State) (d w : Nat) (k : DTask) (c : DCore), DspIssues 0x22 s u d w k c →
    ∃ t, exec (.rmac d false) s = .next t ∧
          Same (afterMoves u d w c (c.cur.putA (dD w) fun l p =>
            c.cur.ap (dD w) l p + (if bit (dFn w) 1 then -1 else 1) * (c.cur.xp (dA w) l p * c.cur.xp (dB w) l p))) t) ∧
  (∀ (s u : State) (d w : Nat) (k : DTask) (c : DCore), DspIssues 0x23 s u d w k c →
    ∃ t, exec (.cpow d false) s = .next t ∧
          Same (afterMoves u d w c (c.cur.putA (dD w) fun l p =>
            let old := if bit (dFn w) 2 then 0 else c.cur.ap (dD w) l p
            if p = 0 then old + c.cur.xp (dA w) l 0 * c.cur.xp (dA w) l 0 + c.cur.xp (dA w) l 1 * c.cur.xp (dA w) l 1 else old)) t) ∧
  (∀ (s u : State) (d w : Nat) (k : DTask) (c : DCore), DspIssues 0x40 s u d w k c →
    ∃ t, exec (.xop d false) s = .next t ∧
          Same (afterMoves u d w c (c.cur.putX (dD w) fun l p => c.cur.xopPart w l p)) t) ∧
  (∀ (s u : State) (d w : Nat) (k : DTask) (c : DCore), DspIssues 0x41 s u d w k c →
    ∃ t, exec (.aop d false) s = .next t ∧
          Same (afterMoves u d w c (c.cur.putA (dD w) fun l p =>
            match dFn w with
            | 0 => c.cur.ap (dA w) l p + c.cur.ap (dB w) l p
            | 1 => c.cur.ap (dA w) l p - c.cur.ap (dB w) l p
            | 2 => c.cur.ap (dA w) l p / (2 ^ dImm8 w : Nat)
            | _ => 0)) t) ∧
  (∀ (s u : State) (d w : Nat) (k : DTask) (c : DCore), DspIssues 0x42 s u d w k c →
    ∃ t, exec (.cmp d false) s = .next t ∧
          Same (afterMoves u d w c { c.cur with
            z := decide (c.cur.xp (dA w) 0 0 - c.cur.xp (dB w) 0 0 = 0), n := decide (c.cur.xp (dA w) 0 0 - c.cur.xp (dB w) 0 0 < 0) }) t) ∧
  (∀ (s u : State) (d w : Nat) (k : DTask) (c : DCore), DspIssues 0x60 s u d w k c →
    ∃ t, exec (.mvr d false) s = .next t ∧
          Same (afterMoves u d w c (c.cur.putX (dD w) fun l p => c.cur.ap (dA w) l p / (2 ^ dImm8 w : Nat))) t) ∧
  (∀ (s u : State) (d w : Nat) (k : DTask) (c : DCore), DspIssues 0x61 s u d w k c →
    ∃ t, exec (.mva d false) s = .next t ∧
          Same (afterMoves u d w c (c.cur.putA (dD w) fun l p => c.cur.xp (dA w) l p * (2 ^ dImm8 w : Nat))) t) ∧
  (∀ (s u : State) (d w : Nat) (k : DTask) (c : DCore), DspIssues 0x62 s u d w k c →
    ∃ t, exec (.nrm d false) s = .next t ∧
          Same (afterMoves u d w c (c.cur.putX (dD w) fun l p => (signBits (c.cur.ap (dA w) l p) : Int))) t) ∧
  (∀ (s u : State) (d w : Nat) (k : DTask) (c : DCore), DspIssues 0x63 s u d w k c →
    ∃ t, exec (.rcp d false) s = .next t ∧
          Same (afterMoves u d w c (let bad := fun l => decide (c.cur.xp (dA w) l 0 < (2 ^ 22 : Nat) ∨ (2 ^ 23 : Nat) ≤ c.cur.xp (dA w) l 0)
            let b := c.cur.putX (dD w) fun l _ => if bad l then (2 ^ 23 : Nat) - 1 else (2 ^ 45 : Nat) / c.cur.xp (dA w) l 0
            { b with dom := b.dom || (List.range 4).any bad })) t) ∧
  (∀ (s u : State) (d w : Nat) (k : DTask) (c : DCore), DspIssues 0x64 s u d w k c →
    ∃ t, exec (.bcast d false) s = .next t ∧
          Same (afterMoves u d w c (c.cur.putX (dD w) fun l p =>
            if dFn w = 0 then c.cur.xp (dA w) (dImm8 w % 4) p else c.cur.xp (dA w) ((l + 4 - dImm8 w % 4) % 4) p)) t) ∧
  (∀ (s u : State) (d w op : Nat) (k : DTask) (c : DCore) (i : Instr),
    (op, i) ∈ [(0x20, Instr.cmac d true), (0x21, .cmpy d true), (0x22, .rmac d true), (0x23, .cpow d true), (0x40, .xop d true),
      (0x41, .aop d true), (0x42, .cmp d true), (0x60, .mvr d true), (0x61, .mva d true),
      (0x62, .nrm d true), (0x63, .rcp d true), (0x64, .bcast d true)] →
    DspIssues op s u d w k c → ∃ t, exec i s = .next t ∧ Same (u.dspMiss d) t)

/-- When its word issues: j, jsr, rts and b.cc set PC, jsr pushing and rts popping its return; loop opens a loop or skips
a count of 0; end begins the output copy, or ends the task with ABORT; tickwait, dwait, dma and eng do their work or
block; li, addi and mvix write address and x registers; msig signals at once where no transfer writes out of the core;
ilvl sets the mask; iclr clears sources and counts those not asserted; rti restores PC, FLAGS and level, or goes on to a
pending source above the return level. A target past the program, a ninth call, a fifth loop, an empty stack (log entry 59) and
an illegal descriptor end the task with ILLEGAL, an address it may not reach with ADDR, poison with POISON. An interrupt
entry pushes PC, FLAGS and level and begins the handler in the shadow bank. A released task goes on. A row of ETV-D whose core
has no task that runs unblocked does nothing; a PC past the program and an illegal word end the task with ILLEGAL, a poisoned
word with POISON, and a word of another opcode waits for its own row. -/
def Obligations.DspControlCompletes : Prop :=
  (∀ (s u : State) (d w : Nat) (k : DTask) (c : DCore), DspIssues 0x01 s u d w k c →
    ∃ t, exec (.dspJ d) s = .next t ∧
          Same (if dImm w % 8192 < k.plen then u.setDsp d { c with pc := dImm w % 8192 } else u.taskKill d 3) t) ∧
  (∀ (s u : State) (d w : Nat) (k : DTask) (c : DCore), DspIssues 0x02 s u d w k c →
    c.cur.calls.length < 8 ∧ dImm w % 8192 < k.plen →
    ∃ t, exec (.jsr d) s = .next t ∧
          Same (u.setDsp d { c.setCur { c.cur with calls := (c.pc + 1) :: c.cur.calls } with pc := dImm w % 8192 }) t) ∧
  (∀ (s u : State) (d w : Nat) (k : DTask) (c : DCore), DspIssues 0x02 s u d w k c →
    8 ≤ c.cur.calls.length ∨ k.plen ≤ dImm w % 8192 →
    ∃ t, exec (.jsr d) s = .next t ∧
          Same (u.taskKill d 3) t) ∧
  (∀ (s u : State) (d w p : Nat) (l : List Nat) (k : DTask) (c : DCore), DspIssues 0x03 s u d w k c →
    c.cur.calls = p :: l ∧ p < k.plen →
    ∃ t, exec (.rts d) s = .next t ∧
          Same (u.setDsp d { c.setCur { c.cur with calls := l } with pc := p }) t) ∧
  (∀ (s u : State) (d w : Nat) (k : DTask) (c : DCore), DspIssues 0x03 s u d w k c →
    ∀ p l, c.cur.calls = p :: l → k.plen ≤ p →
    ∃ t, exec (.rts d) s = .next t ∧
          Same (u.taskKill d 3) t) ∧
  (∀ (s u : State) (d w : Nat) (k : DTask) (c : DCore), DspIssues 0x04 s u d w k c →
    ∃ t, exec (.bCc d) s = .next t ∧
          Same (if c.cur.cond (dRa w) then (if dImm w % 8192 < k.plen then u.setDsp d { c with pc := dImm w % 8192 } else u.taskKill d 3)
            else u.setDsp d c.next) t) ∧
  (∀ (s u : State) (d w n : Nat) (k : DTask) (c : DCore), DspIssues 0x05 s u d w k c →
    n = (if dRa w = 1 then c.cur.ir (dRb w) else dImm16 w) ∧ dImm w % 8192 < k.plen ∧ (n = 0 ∨ c.cur.loops.length < 4) →
    ∃ t, exec (.loop d) s = .next t ∧
          Same (if n = 0 then u.setDsp d { c with pc := dImm w % 8192 + 1 }
            else u.setDsp d { c.setCur { c.cur with loops := ⟨c.pc + 1, dImm w % 8192, n⟩ :: c.cur.loops } with pc := c.pc + 1 }) t) ∧
  (∀ (s u : State) (d w n : Nat) (k : DTask) (c : DCore), DspIssues 0x05 s u d w k c →
    n = (if dRa w = 1 then c.cur.ir (dRb w) else dImm16 w) ∧ (k.plen ≤ dImm w % 8192 ∨ (n ≠ 0 ∧ 4 ≤ c.cur.loops.length)) →
    ∃ t, exec (.loop d) s = .next t ∧
          Same (u.taskKill d 3) t) ∧
  (∀ (s u : State) (d w : Nat) (k : DTask) (c : DCore), DspIssues 0x06 s u d w k c →
    ∃ t, exec (.dspEnd d) s = .next t ∧
          Same (if bit (dImm16 w) 0 then u.taskKill d 1 else u.setDsp d { c with phase := 3, t1 := s.tmb.clk, tick1 := u.fld F.GEY_TICK.TICK }) t) ∧
  (∀ (s u : State) (d w : Nat) (k : DTask) (c : DCore), DspIssues 0x07 s u d w k c →
    ∃ t, exec (.dspTickwait d) s = .next t ∧
          Same (if u.gey.last + dImm w ≤ u.fld F.TMB_NOW.NS then u.setDsp d c.next else u.setDsp d { c with blk := .tick (u.gey.last + dImm w) }) t) ∧
  (∀ (s : State) (d v : Nat), d < 256 ∧ (s.dsp d).blk = .tick v →
    (v ≤ s.fld F.TMB_NOW.NS ∧ s.dspRuns d = true →
      ∃ t, exec (.dspTickwaitRelease d) s = .next t ∧ Same (s.setDsp d { (s.dsp d).next with blk := .none }) t) ∧
          (s.fld F.TMB_NOW.NS < v ∨ s.dspRuns d = false → ∃ t, exec (.dspTickwaitRelease d) s = .next t ∧ Same s t)) ∧
  (∀ (s : State) (d : Nat), d < 256 ∧ (∀ v, (s.dsp d).blk ≠ .tick v) →
    ∃ t, exec (.dspTickwaitRelease d) s = .next t ∧ Same s t) ∧
  (∀ (s u : State) (d w : Nat) (k : DTask) (c : DCore), DspIssues 0x80 s u d w k c →
    ∃ t, exec (.dspLi d) s = .next t ∧
          Same (let b := if dRa w < 8 then c.cur.setI (dRa w) (dImm w)
              else { c.cur with m := SMap.set 0 c.cur.m (dRa w - 8) (dImm w % 2 ^ 29) }
            u.setDsp d (c.setCur b).next) t) ∧
  (∀ (s u : State) (d w : Nat) (k : DTask) (c : DCore), DspIssues 0x81 s u d w k c →
    ∃ t, exec (.addi d) s = .next t ∧
          Same (u.setDsp d (c.setCur { c.cur with i := SMap.set 0 c.cur.i (dRa w) ((c.cur.ir (dRa w) + dImm w) % 4096) }).next) t) ∧
  (∀ (s u : State) (d w : Nat) (k : DTask) (c : DCore), DspIssues 0x82 s u d w k c →
    ∃ t, exec (.mvix d) s = .next t ∧
          Same (let b : RBank := match dImm16 w with
              | 0 => { c.cur with x := SMap.set 0 c.cur.x (8 * dRb w) (c.cur.ir (dRa w)) }
              | 1 => c.cur.setI (dRa w) (SMap.get 0 c.cur.x (8 * dRb w))
              | _ => { c.cur with x := SMap.set 0 c.cur.x (8 * dRb w) (u.srcs d) }
            u.setDsp d (c.setCur b).next) t) ∧
  (∀ (s u v : State) (d w a ch desc : Nat) (k : DTask) (c : DCore), DspIssues 0xA0 s u d w k c → a = dspWord d 1 (c.cur.ir (dRa w)) ∧ ch = dImm16 w % 4 ∧ v = u.meet a 32 ∧ desc = v.readNat a 32 →
    (SMap.get none c.dma ch ≠ none → ∃ t, exec (.dma d) s = .next t ∧ Same v t) ∧
          (SMap.get none c.dma ch = none ∧ v.linePoison (a / 64) = true →
            ∃ t, exec (.dma d) s = .next t ∧ Same (v.taskPoison d) t) ∧
          (SMap.get none c.dma ch = none ∧ v.linePoison (a / 64) = false → ¬(sdOk desc (sdKind desc) = true ∧ sdKind desc < 2 ∧ (sdFmt desc = 9 ∨ sdFmt desc = 12 ∨ sdFmt desc = 15)) →
            ∃ t, exec (.dma d) s = .next t ∧ Same (v.taskKill d 3) t) ∧
          (SMap.get none c.dma ch = none ∧ v.linePoison (a / 64) = false → sdOk desc (sdKind desc) = true ∧ sdKind desc < 2 ∧ (sdFmt desc = 9 ∨ sdFmt desc = 12 ∨ sdFmt desc = 15) →
            (4096 < c.cur.ir (dRb w) + dmaWords desc →
              ∃ t, exec (.dma d) s = .next t ∧ Same (v.taskAddr d (dspWord d (b2n (bit (dImm16 w) 2)) 4095)) t) ∧
            (c.cur.ir (dRb w) + dmaWords desc ≤ 4096 →
              (∀ p, (sdRuns desc).findSome? (fun r => v.badAddr (v.taskWho d k) (sdKind desc == 1) r (sdLen0 desc)) = some p →
                ∃ t, exec (.dma d) s = .next t ∧ Same (v.taskAddr d p) t) ∧
              ((sdRuns desc).findSome? (fun r => v.badAddr (v.taskWho d k) (sdKind desc == 1) r (sdLen0 desc)) = none →
                ∃ t, exec (.dma d) s = .next t ∧
                  Same ((v.setDsp d { c with dma := SMap.set none c.dma ch (some ⟨desc, c.cur.ir (dRb w), bit (dImm16 w) 2⟩) }.next).dmaCrcStart
                    d ch) t)))) ∧
  (∀ (s u : State) (d w : Nat) (k : DTask) (c : DCore), DspIssues 0xA1 s u d w k c →
    ∃ t, exec (.dwait d) s = .next t ∧
          Same (if c.idleDma (dImm16 w % 16) then u.setDsp d c.next else u.setDsp d { c with blk := .dwait (dImm16 w % 16) }) t) ∧
  (∀ (s u v : State) (d w a e : Nat) (k : DTask) (c : DCore), DspIssues 0xA2 s u d w k c →
    a = dspWord d 1 (c.cur.ir (dRa w)) ∧ e = d / 64 * 18 + bits (dImm16 w) 4 0 ∧ v = u.meet a 32 →
    (v.linePoison (a / 64) = true → ∃ t, exec (.eng d) s = .next t ∧ Same (v.taskPoison d) t) ∧
          (v.linePoison (a / 64) = false ∧ 64 ≤ (v.engine e).length → ∃ t, exec (.eng d) s = .next t ∧ Same v t) ∧
          (v.linePoison (a / 64) = false ∧ (v.engine e).length < 64 →
            ∃ t, exec (.eng d) s = .next t ∧
              Same ((v.setDsp d c.next).setEngine e (v.engine e ++ [{ desc := v.readNat a 32, core := d, clk := s.tmb.clk }])) t)) ∧
  (∀ (s u : State) (d w : Nat) (k : DTask) (c : DCore), DspIssues 0xA3 s u d w k c →
    dImm w % 32 < 24 ∧ u.semOwner (dImm w % 32) (dImm16 w % 4096) = 0 →
    ∃ t, exec (.msig d) s = .next t ∧
          Same (if c.writers.isEmpty then (u.setDsp d c.next).semAdd (dImm w % 32) (dImm16 w % 4096) (bits (dImm w) 15 8) 0
            else u.setDsp d { c.next with sigs := c.sigs ++ [⟨c.writers, dImm w % 32, dImm16 w % 4096, bits (dImm w) 15 8⟩] }) t) ∧
  (∀ (s u : State) (d w : Nat) (k : DTask) (c : DCore), DspIssues 0xA3 s u d w k c →
    24 ≤ dImm w % 32 ∨ u.semOwner (dImm w % 32) (dImm16 w % 4096) ≠ 0 →
    ∃ t, exec (.msig d) s = .next t ∧
          Same (u.taskAddr d (semAddr (dImm w % 32) (dImm16 w % 4096))) t) ∧
  (∀ (s u : State) (d w : Nat) (k : DTask) (c : DCore), DspIssues 0xC1 s u d w k c →
    ∃ t, exec (.ilvl d) s = .next t ∧
          Same (u.setDsp d { c with mask := dImm16 w % 8 }.next) t) ∧
  (∀ (s u : State) (d w : Nat) (k : DTask) (c : DCore), DspIssues 0xC2 s u d w k c →
    ∃ t, exec (.iclr d) s = .next t ∧
          Same (let m := dImm16 w % 256
            let n := ((List.range 8).filter fun i => bit m i && !bit (u.srcs d) i).length
            let v := if n = 0 then u else u.incFld F.RDP_CORE_STATUS.STRAY d n
            (v.setFld F.RDP_CORE_STATUS.PEND d (u.srcs d &&& (255 - m))).setDsp d c.next) t) ∧
  (∀ (s u : State) (d w : Nat) (k : DTask) (c : DCore) (p : Push) (l : List Push), DspIssues 0xC0 s u d w k c →
    c.stack = p :: l ∧ u.irq d p.level = 0 →
    ∃ t, exec (.rti d) s = .next t ∧
          Same (let x : DCore := { c with stack := l, level := p.level, pc := p.pc, inShadow := p.level != 0 }
            u.setDsp d (x.setCur (x.cur.setFlags p.flags))) t) ∧
  (∀ (s u : State) (d w : Nat) (k : DTask) (c : DCore) (p : Push) (l : List Push), DspIssues 0xC0 s u d w k c →
    c.stack = p :: l ∧ u.irq d p.level ≠ 0 →
    ∃ t, exec (.rti d) s = .next t ∧
          Same (u.setDsp d { c with level := u.irq d p.level, pc := 16 * u.irq d p.level }) t) ∧
  (∀ (s u : State) (d w : Nat) (k : DTask) (c : DCore), DspIssues 0xC0 s u d w k c →
    c.stack = [] →
    ∃ t, exec (.rti d) s = .next t ∧
          Same (u.taskKill d 3) t) ∧
  (∀ (s : State) (d : Nat), d < 256 →
    ((s.dsp d).phase = 2 ∧ s.dspRuns d = true ∧ s.irq d (s.dsp d).level ≠ 0 →
      ∃ t, exec (.interruptEntry d) s = .next t ∧
          Same
           (let c := s.dsp d
            s.setDsp d { c with stack := ⟨c.pc, c.cur.flags, c.level⟩ :: c.stack, inShadow := true, level := s.irq d c.level,
                                pc := 16 * s.irq d c.level, blk := .none }) t) ∧
          ((s.dsp d).phase ≠ 2 ∨ s.dspRuns d = false ∨ s.irq d (s.dsp d).level = 0 →
            ∃ t, exec (.interruptEntry d) s = .next t ∧ Same s t)) ∧
  (∀ (s u : State) (i : Instr) (d w op a : Nat) (k : DTask) (c : DCore), dspRow i = some (d, op) → DspNext s u d k c →
    a = dspBase d + 0x40000 + 8 * c.pc ∧ w = u.readNat a 8 →
    (u.linePoison (a / 64) = true → ∃ t, exec i s = .next t ∧ Same (u.taskPoison d) t) ∧
          (u.linePoison (a / 64) = false ∧ dLegal w (k.q % 8 != 0) = false →
            ∃ t, exec i s = .next t ∧ Same (u.taskKill d 3) t) ∧
          (u.linePoison (a / 64) = false ∧ dLegal w (k.q % 8 != 0) = true ∧ dOp w ≠ op → ∃ t, exec i s = .next t ∧ Same u t)) ∧
  (∀ (s : State) (i : Instr) (d op : Nat) (k : DTask), dspRow i = some (d, op) ∧ d < 256 →
    (s.dsp d).task = some k ∧ s.dspRuns d = true ∧ (s.dsp d).phase = 2 ∧ (s.dsp d).blk = .none ∧ k.plen ≤ (s.dsp d).pc →
    ∃ t, exec i s = .next t ∧ Same (s.taskKill d 3) t) ∧
  (∀ (s : State) (i : Instr) (d op : Nat), dspRow i = some (d, op) ∧ d < 256 →
    (s.dsp d).task = none ∨ s.dspRuns d = false ∨ (s.dsp d).phase ≠ 2 ∨ (s.dsp d).blk ≠ .none →
    ∃ t, exec i s = .next t ∧ Same s t)

/-- The arbiter gives the head of a cluster queue nothing stalls to a free core of its lane, for a tenant queue the one it chooses. A
re-run task takes the core at once. Of a new entry, an address the queue may not read is a fault and sets QERR; an entry of another
generation counts in ENTRY; a tag in use raises event 0x005 of the queue's basin; a poisoned entry, with the errors its words met,
gets a record with status 6; any other takes the core (State.takeCore): each moves HEAD past it. When the loads end, program and X
and Y words are in the core's memories and it runs from PC 0; an address the task may not read ends it with ADDR, a poisoned range
with POISON. When the output copy ends the X and Y words stand at the task's output address, line by line with their poison, the core
is free and the record waits, with status 0, or 2 where the task may not write there. A task past its BUDGET ends with status 4. At the
next tick a fenced core's position passes to its spare in the lane of the running frame. A cluster reads the slot of the next tick once,
8,000 ns before it: it takes the slot's mask, or counts a miss or a bad slot and raises its event; with EN 0 it takes none. Where
nothing is due, nothing changes. -/
def Obligations.DspTasksComplete : Prop :=
  (∀ (s : State) (k q p d : Nat) (r : DTask), k < 16 ∧ q < 8 ∧ p < 16 → s.posCore k p = some d →
    (s.dsp d).task = none ∧ s.flag F.RDP_CORE_STATUS.LANE d = (q == 0) ∧ s.taskStall k q = 0 →
    q = 0 ∨ s.taskChoice k = some q → s.headTask k q = some (true, r) →
    ∃ t, exec (.dspTaskDispatch k q p) s = .next t ∧
          Same ((s.modCluster k fun m => { m with rerun := m.rerun.filter (· != r) }).takeCore k d r) t) ∧
  (∀ (s : State) (k q p d ix a : Nat) (r0 : DTask) (w : Who), k < 16 ∧ q < 8 ∧ p < 16 → s.posCore k p = some d →
    (s.dsp d).task = none ∧ s.flag F.RDP_CORE_STATUS.LANE d = (q == 0) ∧ s.taskStall k q = 0 →
    q = 0 ∨ s.taskChoice k = some q → s.headTask k q = some (false, r0) →
    ix = 192 + 8 * k + q ∧ a = s.entryAddr ix (s.fld F.MXC_Qq_STATUS.HEAD ix) →
    w = { basin := s.queueBasin ix, die := 24 + k / 4, src := unitSrc (.block (24 + k / 4) (k % 4)) } →
    (∀ x, s.badAddr w false a 64 = some x → ∃ t, exec (.dspTaskDispatch k q p) s = .next t ∧ Same ((s.addrFault w x).queueError ix 0) t) ∧
          (∀ (v x : State) (r : DTask) (pois : Bool), s.badAddr w false a 64 = none →
            v = s.meet a 64 ∧ r = taskOf (v.readNat a 64) ix ∧ pois = v.rangePoison a 64 ∧ x = v.headNext ix →
            (r.gen ≠ x.gen (s.queueBasin ix) →
              ∃ t, exec (.dspTaskDispatch k q p) s = .next t ∧ Same (x.incFld F.BSN_STALEb.ENTRY (s.queueBasin ix)) t) ∧
            (r.gen = x.gen (s.queueBasin ix) ∧ x.taskDup k r = true →
              ∃ t, exec (.dspTaskDispatch k q p) s = .next t ∧
                Same (x.raise (queueSrc ix) { basin := s.queueBasin ix, gen := x.gen (s.queueBasin ix), data := r.tag }) t) ∧
            (r.gen = x.gen (s.queueBasin ix) ∧ x.taskDup k r = false ∧ pois = true →
              ∃ t, exec (.dspTaskDispatch k q p) s = .next t ∧ Same (x.taskRecord r (s.queueBasin ix) 6 0) t) ∧
            (r.gen = x.gen (s.queueBasin ix) ∧ x.taskDup k r = false ∧ pois = false →
              ∃ t, exec (.dspTaskDispatch k q p) s = .next t ∧ Same (x.takeCore k d r) t ∧ (t.dsp d).phase = 1))) ∧
  (∀ (s : State) (k q p : Nat), k < 16 ∧ q < 8 ∧ p < 16 →
    (∀ d, s.posCore k p = some d →
      (s.dsp d).task ≠ none ∨ s.flag F.RDP_CORE_STATUS.LANE d ≠ (q == 0) ∨ s.taskStall k q ≠ 0 ∨
        (q ≠ 0 ∧ s.taskChoice k ≠ some q) ∨ s.headTask k q = none) →
    ∃ t, exec (.dspTaskDispatch k q p) s = .next t ∧ Same s t) ∧
  (∀ (s : State) (d : Nat) (k : DTask) (parts : List (Nat × Nat × Nat)), d < 256 →
    (s.dsp d).task = some k ∧ (s.dsp d).phase = 1 ∧ s.dspRuns d = true →
    parts = [(k.prog, k.plen * 8, dspBase d + 0x40000), (k.src, k.inx * 32, dspWord d 0 0),
      (k.src + 32 * k.inx, k.iny * 32, dspWord d 1 0)].filter (fun x => x.2.1 != 0) →
    (∀ a, (parts.findSome? fun x => s.badAddr (s.taskWho d k) false x.1 x.2.1) = some a →
      ∃ t, exec (.dspTaskLoadEnd d) s = .next t ∧ Same (s.taskAddr d a) t) ∧
          (∀ u : State, (∀ x ∈ parts, s.badAddr (s.taskWho d k) false x.1 x.2.1 = none) →
            u = s.meetAll (parts.map fun x => (x.1, x.2.1)) →
            ((∃ x ∈ parts, u.rangePoison x.1 x.2.1 = true) → ∃ t, exec (.dspTaskLoadEnd d) s = .next t ∧ Same (u.taskPoison d) t) ∧
            ((∀ x ∈ parts, u.rangePoison x.1 x.2.1 = false) →
              ∃ t, exec (.dspTaskLoadEnd d) s = .next t ∧
                Same ((parts.foldl (fun u x => (u.readAny .caldera x.1 x.2.1).2.put 0 x.2.2 (u.readAny .caldera x.1 x.2.1).1) u).setDsp d
                  { s.dsp d with phase := 2, pc := 0 }) t))) ∧
  (∀ (s : State) (d : Nat), d < 256 → (s.dsp d).task = none ∨ (s.dsp d).phase ≠ 1 ∨ s.dspRuns d = false →
    ∃ t, exec (.dspTaskLoadEnd d) s = .next t ∧ Same s t) ∧
  (∀ (s : State) (d n cyc : Nat) (k : DTask) (c : DCore), d < 256 →
    s.dsp d = c ∧ c.task = some k ∧ c.phase = 3 ∧ s.dieDown (24 + d / 64) = false →
    n = (k.outx + k.outy) * 32 ∧ cyc = dspCycles c.t0 c.t1 →
    (∀ a, n ≠ 0 ∧ s.badAddr (s.taskWho d k) true k.dst n = some a →
      ∃ t, exec (.dspOutputCopyEnd d) s = .next t ∧
        Same ((((s.addrFault (s.taskWho d k) a).dspFree d).taskRecord k c.basin 2 cyc (some c.tick1)).applyMmio .caldera) t) ∧
          (∀ (u : State) (data : List (Byte × Bool)), n = 0 ∨ s.badAddr (s.taskWho d k) true k.dst n = none →
            u = (s.meet (dspWord d 0 0) (k.outx * 32)).meet (dspWord d 1 0) (k.outy * 32) →
            data = ((List.range (k.outx * 32)).map fun i => (u.rd (dspWord d 0 0 + i), u.linePoison ((dspWord d 0 0 + i) / 64))) ++
              ((List.range (k.outy * 32)).map fun i => (u.rd (dspWord d 1 0 + i), u.linePoison ((dspWord d 1 0 + i) / 64))) →
            ∃ t, exec (.dspOutputCopyEnd d) s = .next t ∧
              Same (((((lineStores k.dst data).foldl (fun u x => match x with
                | .store a b p => u.put c.basin a b p
                | _ => u) u).dspFree d).taskRecord k c.basin 0 cyc (some c.tick1)).applyMmio .caldera) t)) ∧
  (∀ (s : State) (d : Nat), d < 256 ∧ s.mmio = [] → (s.dsp d).task = none ∨ (s.dsp d).phase ≠ 3 ∨ s.dieDown (24 + d / 64) = true →
    ∃ t, exec (.dspOutputCopyEnd d) s = .next t ∧ Same s t) ∧
  (∀ (s : State) (d : Nat) (k : DTask), d < 256 → (s.dsp d).task = some k ∧ (s.dsp d).phase ≠ 3 →
    k.budget < dspCycles (s.dsp d).t0 s.tmb.clk →
    ∃ t, exec (.dspTaskBudgetExceeded d) s = .next t ∧
          Same ((s.dspFree d).taskRecord k (s.dsp d).basin 4 (dspCycles (s.dsp d).t0 s.tmb.clk)) t) ∧
  (∀ (s : State) (d : Nat), d < 256 →
    (s.dsp d).phase = 3 ∨ (∀ k, (s.dsp d).task = some k → dspCycles (s.dsp d).t0 s.tmb.clk ≤ k.budget) →
    ∃ t, exec (.dspTaskBudgetExceeded d) s = .next t ∧ Same s t) ∧
  (∀ (s : State) (n pair d sp i : Nat) (radio : Bool), n < 4 ∧ pair < 2 ∧ d = n * 64 + pair * 32 + i ∧ sp = n * 64 + pair * 32 + 31 →
    (List.range 31).find? (fun i => (s.dsp (n * 64 + pair * 32 + i)).fenceTick.any fun t => decide (t < s.tickNo)) = some i →
    s.flag (if pair = 0 then F.RDP_SPARE.VALID0 else F.RDP_SPARE.VALID1) n = false ∧ s.dspRuns sp = true →
    (∀ m, (s.cluster (d / 16)).mask = some m → radio = bit m (d % 16)) ∧ ((s.cluster (d / 16)).mask = none → radio = true) →
    ∃ t, exec (.dspSpareMap n pair) s = .next t ∧
          Same
           (let u := (s.modDsp d fun c => { c with fenceTick := none }).setFld (if pair = 0 then F.RDP_SPARE.SUB0 else F.RDP_SPARE.SUB1) n (d % 64)
            let u := u.setFld (if pair = 0 then F.RDP_SPARE.VALID0 else F.RDP_SPARE.VALID1) n 1
            let u := (u.setFld F.RDP_CORE_STATUS.SPARE sp 1).setFld F.RDP_CORE_STATUS.LANE sp (b2n radio)
            u.journal 4 2 (unitSrc (.tile (24 + d / 64) (d % 64 / 16) (d % 16))) (sp % 64) true) t) ∧
  (∀ (s : State) (n pair : Nat), n < 4 ∧ pair < 2 →
    (∀ i < 31, ∀ t, (s.dsp (n * 64 + pair * 32 + i)).fenceTick = some t → s.tickNo ≤ t) ∨
      s.flag (if pair = 0 then F.RDP_SPARE.VALID0 else F.RDP_SPARE.VALID1) n = true ∨ s.dspRuns (n * 64 + pair * 32 + 31) = false →
    ∃ t, exec (.dspSpareMap n pair) s = .next t ∧ Same s t) ∧
  (∀ (s u : State) (k at' n : Nat) (r : Bool × Option Nat), k < 16 →
    s.gey.next = some at' ∧ (s.cluster k).read = false ∧ at' ≤ s.now + 8000 →
    s.dieDown (24 + k / 4) = false ∧ s.flag F.RDP_CLk_TPROG.EN k = true →
    n = s.tickNo + 1 ∧ u = s.meet (s.dspSlotAddr k n) 16 ∧ r = u.dspSlot k n →
    (r.2 ≠ none → ∃ t, exec (.dspTickProgramRead k) s = .next t ∧
        Same (u.modCluster k fun _ => { s.cluster k with read := true, next := r.2 }) t) ∧
          (r.2 = none → ∃ t, exec (.dspTickProgramRead k) s = .next t ∧
            Same
             (let x := u.modCluster k fun _ => { s.cluster k with read := true, next := none }
              ((if r.1 then x.incFld F.RDP_CLk_TSTAT.MISS k else x.incFld F.RDP_CLk_TSTAT.BAD k).workCells [k / 4] 0).raise (clusterSrc k 0)
                { mech := 13, level := 1, data := n % 2 ^ 16, ext := true, xdata := n }) t)) ∧
  (∀ (s : State) (k at' : Nat), k < 16 →
    s.gey.next = some at' ∧ (s.cluster k).read = false ∧ at' ≤ s.now + 8000 →
    s.dieDown (24 + k / 4) = false ∧ s.flag F.RDP_CLk_TPROG.EN k = false →
    ∃ t, exec (.dspTickProgramRead k) s = .next t ∧
          Same (s.modCluster k fun m => { m with read := true, next := none }) t) ∧
  (∀ (s : State) (k : Nat), k < 16 →
    (s.cluster k).read = true ∨ s.dieDown (24 + k / 4) = true ∨ (∀ at', s.gey.next = some at' → s.now + 8000 < at') →
    ∃ t, exec (.dspTickProgramRead k) s = .next t ∧ Same s t)

/-- When a transfer in ends, the bytes of its stream stand in the local words, CI16 elements as 24-bit parts; when a transfer out ends, the
local words stand in the runs of its stream, 24-bit parts saturated to 16 bits. A CRC unit armed on the channel ends its frame, the
channel is idle, signals that waited for it alone apply, a task that waits for its channels goes on, and the channel's source asserts.
The words it reads meet their errors; poisoned, it ends the task of the core with POISON. A read of host memory is recorded, and in
a replay waits for its record. A write of the timer clears TIMER and arms it, and it asserts source 6 when the counter reaches it. A
doorbell write with RING 1 asserts source 7. A die that takes no writes ignores both. -/
def Obligations.DspPeripheralsComplete : Prop :=
  (∀ (s u v : State) (d ch n : Nat) (x : Dma) (runs : List Nat) (data : List Byte) (host : Bool), d < 256 ∧ ch < 4 →
    SMap.get none (s.dsp d).dma ch = some x ∧ sdKind x.desc = 0 ∧ s.dieDown (24 + d / 64) = false →
    runs = sdRuns x.desc ∧ n = sdLen0 x.desc → u = s.meetAll (runs.map (·, n)) →
    ((∃ o, place (sdBase x.desc) = .host o) ↔ host = true) ∧ (host = true → s.noHostRead = false) →
    ((∃ r ∈ runs, u.rangePoison r n = true) ∧ (s.dsp d).task ≠ none →
      ∃ t, exec (.dmaEnd d ch) s = .next t ∧ Same ((u.taskPoison d).applyMmio .caldera) t) ∧
          ((∀ r ∈ runs, u.rangePoison r n = false) ∨ (s.dsp d).task = none →
            (data, v) = runs.foldl (fun (acc, s) r => (acc ++ (s.readAny .caldera r n).1, (s.readAny .caldera r n).2)) ([], u) →
            ∃ t, exec (.dmaEnd d ch) s = .next t ∧
              Same
               (let v := if host then v.obs 2 (64 + d) data.length (sdBase x.desc) data else v
                let v := v.put 0 (dspWord d (b2n x.y) x.word) (if sdFmt x.desc = 9 then ciIn data else data)
                let v := (v.dmaCrcEnd d ch (data.take (runs.length * n))).modDsp d fun c => { c with dma := SMap.set none c.dma ch none }
                let go := (v.dsp d).sigs.filter fun m => m.chans == [ch]
                let v := v.modDsp d fun c =>
                  { c with sigs := (c.sigs.filter fun m => m.chans != [ch]).map fun m => { m with chans := m.chans.filter (· != ch) } }
                let v := go.foldl (fun v m => v.semAdd m.core m.sem m.cnt 0) v
                let v := v.modDsp d fun c => match c.blk with
                  | .dwait m => if c.idleDma m then { c.next with blk := .none } else c
                  | _ => c
                (v.dspAssert d ch).applyMmio .caldera) t)) ∧
  (∀ (s u : State) (d ch n base local' : Nat) (x : Dma) (runs : List Nat) (data : List Byte), d < 256 ∧ ch < 4 →
    SMap.get none (s.dsp d).dma ch = some x ∧ sdKind x.desc ≠ 0 ∧ s.dieDown (24 + d / 64) = false →
    runs = sdRuns x.desc ∧ n = sdLen0 x.desc → base = dspWord d (b2n x.y) x.word ∧ local' = dmaWords x.desc * 32 →
    u = s.meet base local' → data = (if sdKind x.desc = 1 ∧ sdFmt x.desc = 9 then ciOut (u.read base local') else u.read base local') →
    (u.rangePoison base local' = true ∧ (s.dsp d).task ≠ none →
      ∃ t, exec (.dmaEnd d ch) s = .next t ∧ Same ((u.taskPoison d).applyMmio .caldera) t) ∧
          (u.rangePoison base local' = false ∨ (s.dsp d).task = none →
            ∃ t, exec (.dmaEnd d ch) s = .next t ∧
              Same
               (let v := runs.zipIdx.foldl (fun v (r, i) => v.put 0 r ((data.drop (i * n)).take n)) u
                let v := (v.dmaCrcEnd d ch (data.take (runs.length * n))).modDsp d fun c => { c with dma := SMap.set none c.dma ch none }
                let go := (v.dsp d).sigs.filter fun m => m.chans == [ch]
                let v := v.modDsp d fun c =>
                  { c with sigs := (c.sigs.filter fun m => m.chans != [ch]).map fun m => { m with chans := m.chans.filter (· != ch) } }
                let v := go.foldl (fun v m => v.semAdd m.core m.sem m.cnt 0) v
                let v := v.modDsp d fun c => match c.blk with
                  | .dwait m => if c.idleDma m then { c.next with blk := .none } else c
                  | _ => c
                (v.dspAssert d ch).applyMmio .caldera) t)) ∧
  (∀ (s : State) (d ch : Nat), d < 256 ∧ ch < 4 ∧ s.mmio = [] →
    s.dieDown (24 + d / 64) = true ∨
      (∀ x, SMap.get none (s.dsp d).dma ch = some x →
        sdKind x.desc = 0 ∧ (∃ o, place (sdBase x.desc) = .host o) ∧ s.noHostRead = true) →
    ∃ t, exec (.dmaEnd d ch) s = .next t ∧ Same s t) ∧
  (∀ (s : State) (d : Nat) (v : Word), d < 256 →
    (s.takesWrite .RDP_CORE_TIMER d = true → ∃ t, exec (.dspTimerWrite d v) s = .next t ∧ t.fld F.RDP_CORE_TIMER.T d = v.toNat ∧
          t.srcs d = putBit (s.srcs d) 6 false % 2 ^ 8 ∧
          SameBut [(F.RDP_CORE_TIMER.T, d), (F.RDP_CORE_STATUS.PEND, d)] (s.modDsp d fun c => { c with timerOn := true }) t) ∧
      (s.takesWrite .RDP_CORE_TIMER d = false → ∃ t, exec (.dspTimerWrite d v) s = .next t ∧ Same s t)) ∧
  (∀ (s : State) (d : Nat), d < 256 →
    ((s.dsp d).timerOn = true ∧ s.fld F.RDP_CORE_TIMER.T d ≤ s.now →
      ∃ t, exec (.dspTimerExpire d) s = .next t ∧ t.srcs d = putBit (s.srcs d) 6 true % 2 ^ 8 ∧
          SameBut [(F.RDP_CORE_STATUS.PEND, d)] (s.modDsp d fun c => { c with timerOn := false }) t) ∧
      ((s.dsp d).timerOn = false ∨ s.now < s.fld F.RDP_CORE_TIMER.T d → ∃ t, exec (.dspTimerExpire d) s = .next t ∧ Same s t)) ∧
  (∀ (s : State) (d : Nat) (v : BitVec 32), d < 256 →
    (s.takesWrite .RDP_CORE_DBELL d = true ∧ bit v.toNat 0 = true →
      ∃ t, exec (.dspDoorbellWrite d v) s = .next t ∧ t.srcs d = putBit (s.srcs d) 7 true % 2 ^ 8 ∧
          SameBut [(F.RDP_CORE_STATUS.PEND, d)] s t) ∧
      (s.takesWrite .RDP_CORE_DBELL d = false ∨ bit v.toNat 0 = false → ∃ t, exec (.dspDoorbellWrite d v) s = .next t ∧ Same s t))

/-- The job at the head of an engine's FIFO runs, where its queue is enabled and its unit in service. It reads its input with the errors
its words meet. A legal LDPC decoder job writes every block's K - F hard decisions, with the poison of its input or of a failed
self-check, and its record holds STATUS (6 with such a block), PCHK, the most iterations a block used and the number of failing
blocks; a legal encoder job writes every block's codeword; a polar decoder job writes the payload of the likeliest path whose check
holds and a polar encoder job the bits sent. A failed self-check names the engine in an event record, and so does a poisoned input. A
CRC unit armed for the job's tap and tag begins a frame over its blocks, and serves it; a job that names a unit which does not serve
it gets CRC 3. Cycles beyond the stated formula are a free value. An illegal descriptor only gives STATUS 3. When a job that has run
ends, the frames of its unit end, and its record with their check and the tick number goes to the Y word of the posting core, whose
ENG source asserts. With no job that may run, nothing changes. -/
def Obligations.EngineJobsComplete : Prop :=
  (∀ (s v : State) (n e z f inB outB c : Nat) (bad bads : List Nat) (bg : Bool) (j : EngJob) (blk : List ((List Bool × Bool × Nat) × Bool × Bool))
      (outs : List (List Bool × Bool)), n < 4 ∧ e < 8 → s.engHead n e = some j →
    bads = (if s.engInj n e then 0 :: bad else bad) ∧ bg = bit j.desc 2 ∧ z = bits j.desc 11 3 ∧ f = bits j.desc 45 32 ∧ c = bits j.desc 63 48 ∧
      inB = ldpcN bg * z ∧ outB = (ldpcK bg * z - f + 7) / 8 →
    (ldpcLegal j.desc 0 inB outB = false → ∃ t, exec (.ldpcDecodeJob n e bad) s = .next t ∧ Same (s.engDone n e j 3 0 0 0 0 0) t) ∧
          (ldpcLegal j.desc 0 inB outB = true → v = s.meet (rsAddr n (jIn j.desc)) (c * inB) →
            blk = (List.range c).map (fun i => (ldpcBlock bg z (bits j.desc 16 12) f (bit j.desc 17) (v.read (rsAddr n (jIn j.desc + i * inB)) inB),
              v.rangePoison (rsAddr n (jIn j.desc + i * inB)) inB, bads.contains i)) →
            outs = blk.map (fun b => (b.1.1, b.2.1 || b.2.2)) →
            ∃ t, exec (.ldpcDecodeJob n e bad) s = .next t ∧
              Same
               (let u := v.engWrite n j.desc outB outs
                let u := if blk.any (·.2.2) then u.engBad n e else u
                let u := u.engPoison n e (blk.any (·.2.1) && !blk.any (·.2.2))
                let on := bit j.desc 18 && u.crcReady n (bits j.desc 22 19) e (jTag j.desc)
                let u := if on then u.crcStart (16 * n + bits j.desc 22 19) outs else u
                { u with free := u.free + 1 }.engDone n e j (if outs.any (·.2) then 6 else 0) (b2n (blk.all (·.1.2.1)))
                  (if bit j.desc 18 && !on then 3 else 0) ((blk.map fun (b : (List Bool × Bool × Nat) × Bool × Bool) => b.1.2.2).foldl max 0)
                  (blk.filter fun (b : (List Bool × Bool × Nat) × Bool × Bool) => !b.1.2.1).length
                  ((blk.map fun (b : (List Bool × Bool × Nat) × Bool × Bool) => 6 + 19 * b.1.2.2).sum + Config.freeValue u.free % 2 ^ 16 % 65)
                  (if on then some (16 * n + bits j.desc 22 19) else none)) t)) ∧
  (∀ (s v : State) (n e z k len inB outB c : Nat) (bad bads : List Nat) (bg on : Bool) (j : EngJob) (seen ins outs : List (List Bool × Bool)),
    n < 4 ∧ 8 ≤ e ∧ e < 16 → s.engHead n e = some j →
    bads = (if s.engInj n e then 0 :: bad else bad) ∧ bg = bit j.desc 2 ∧ z = bits j.desc 11 3 ∧ k = ldpcK bg * z ∧
      len = k - bits j.desc 45 32 ∧ c = bits j.desc 63 48 ∧ inB = (len + 7) / 8 ∧ outB = (ldpcN bg * z + 7) / 8 →
    (ldpcLegal j.desc 1 inB outB = false → ∃ t, exec (.ldpcEncodeJob n e bad) s = .next t ∧ Same (s.engDone n e j 3 0 0 0 0 0) t) ∧
          (ldpcLegal j.desc 1 inB outB = true → v = s.meet (rsAddr n (jIn j.desc)) (c * inB) →
            on = (bit j.desc 18 && v.crcReady n (bits j.desc 22 19) e (jTag j.desc)) →
            (seen, ins) = v.encodeIn n (bits j.desc 22 19) len on j.desc inB c →
            outs = ins.zipIdx.map (fun (b, i) => ((List.range (ldpcN bg * z)).map fun i =>
              (Config.ldpcEncode (b2n bg) z (b.1 ++ List.replicate (k - len) false)).getD i false, b.2 || bads.contains i)) →
            ∃ t, exec (.ldpcEncodeJob n e bad) s = .next t ∧
              Same
               (let u := v.engWrite n j.desc outB outs
                let u := if (List.range c).any bads.contains then u.engBad n e else u
                let u := u.engPoison n e (ins.any (·.2) && !(List.range c).any bads.contains)
                let u := if on then u.crcStart (16 * n + bits j.desc 22 19) seen else u
                { u with free := u.free + 1 }.engDone n e j (if outs.any (·.2) then 6 else 0) 1 (if bit j.desc 18 && !on then 3 else 0) 0 0
                  (118 * c + Config.freeValue u.free % 2 ^ 16 % 65) (if on then some (16 * n + bits j.desc 22 19) else none)) t)) ∧
  (∀ (s v : State) (n e kind a el list inB outB : Nat) (bad b dec pin : Bool) (j : EngJob) (unit : Option Nat)
      (seen ins : List (List Bool × Bool)) (r : List Bool × Bool), n < 4 ∧ 16 ≤ e ∧ e < 18 → s.engHead n e = some j →
    b = (bad || s.engInj n e) ∧ dec = (bits j.desc 1 0 == 0) ∧ kind = bits j.desc 3 2 ∧ a = bits j.desc 13 4 ∧ el = bits j.desc 27 14 ∧
      list = 2 ^ bits j.desc 29 28 ∧ inB = (if dec then el else (a + 7) / 8) ∧ outB = (if dec then (a + 7) / 8 else (el + 7) / 8) →
    (2 ≤ bits j.desc 1 0 ∨ kind = 3 ∨ 2 ^ 25 < jIn j.desc + inB ∨ 2 ^ 25 < jOut j.desc + outB →
      ∃ t, exec (.polarJob n e bad) s = .next t ∧ Same (s.engDone n e j 3 0 0 0 0 0) t) ∧
          (bits j.desc 1 0 < 2 ∧ kind ≠ 3 ∧ jIn j.desc + inB ≤ 2 ^ 25 ∧ jOut j.desc + outB ≤ 2 ^ 25 →
            v = s.meet (rsAddr n (jIn j.desc)) inB ∧ pin = v.rangePoison (rsAddr n (jIn j.desc)) inB →
            unit = (List.range 16).find? (fun u => v.crcReady n u (if dec then e else e + 2) (jTag j.desc)) →
            (seen, ins) = v.encodeIn n (unit.getD 0) a unit.isSome j.desc inB 1 →
            (dec = true → r = polarDecode kind (bits j.desc 47 32) a el list ((v.read (rsAddr n (jIn j.desc)) inB).map fun b => max (-127) (sext 8 b.toNat))) ∧
              (dec = false → r = (polarEncode kind (bits j.desc 47 32) a el (ins.flatMap (·.1)), true)) →
            ∃ t, exec (.polarJob n e bad) s = .next t ∧
              Same
               (let u := v.engWrite n j.desc outB [(r.1, pin || b)]
                let u := (if b then u.engBad n e else u).engPoison n e (pin && !b)
                let u := match unit with
                  | some x => u.crcStart (16 * n + x) (if dec then [(r.1, pin || b)] else seen)
                  | none => u
                { u with free := u.free + 1 }.engDone n e j (if pin || b then 6 else 0) (b2n r.2) 0 0 (b2n (!r.2))
                  (Config.freeValue u.free % 2 ^ 16 % (polarCycles dec (polarSize kind a el).2.2.2 list + 1)) (unit.map (16 * n + ·))) t)) ∧
  (∀ (s u : State) (n e d c k r crc : Nat) (x : Option Nat) (l : List EngJob), n < 4 ∧ e < 18 →
    s.engine (18 * n + e) = ⟨d, c, k, some r, x⟩ :: l →
    (x = none ∧ u = s ∧ crc = 0) ∨ (∃ y, x = some y ∧ u = (s.crcU y).frames.foldl (fun s _ => s.crcNext y) s ∧
      crc = if (u.crcU y).good then 1 else 2) →
    ∃ t, exec (.engineJobEnd n e) s = .next t ∧
          Same (((u.setEngine (18 * n + e) l).put 0 (dspWord c 1 (jCplw d))
            (bytesOf 16 (r + crc * 2 ^ 21 + s.tickNo % 2 ^ 32 * 2 ^ 96))).dspAssert c 4) t) ∧
  (∀ (s : State) (n e : Nat) (bads : List Nat) (bad : Bool), n < 4 ∧ e < 18 →
    (s.engHead n e = none ∨ 8 ≤ e → ∃ t, exec (.ldpcDecodeJob n e bads) s = .next t ∧ Same s t) ∧
          (s.engHead n e = none ∨ e < 8 ∨ 16 ≤ e → ∃ t, exec (.ldpcEncodeJob n e bads) s = .next t ∧ Same s t) ∧
          (s.engHead n e = none ∨ e < 16 → ∃ t, exec (.polarJob n e bad) s = .next t ∧ Same s t) ∧
          (s.engine (18 * n + e) = [] ∨ (∃ j l, s.engine (18 * n + e) = j :: l ∧ j.result = none) →
            ∃ t, exec (.engineJobEnd n e) s = .next t ∧ Same s t))

/-- A write of CRC_Uu_CTRL to a unit that is not armed sets every field, and with ARM 1 arms it where the tap is not reserved and APPEND
stands on an encoder tap; an armed unit takes only ARM. The running frame of a job's unit ends with its bits: RUN covers it, RESULT
says how it ended, and BUSY falls with the last; the frame of a stopped transfer ends incomplete with the bits that passed. A write of
CRC_Uu_RUN applies while BUSY is 0. A safety message with a right CRC-8 whose counter is one past LAST, or past a gap MAXGAP allows, or
the first since arming, is accepted; a repeated counter, a wider gap and a wrong CRC-8 are counted, reported and discarded; a timeout is
counted and reported. A changed EQ applies at a slot boundary. A GFSK frame on an enabled receiver whose sync word fits counts in RX_OK
or RX_BAD; a good one, and with KEEPBAD a bad one, goes into the bank's ring with its header if there is space, or counts in RX_DROP. A
transmit record is taken from the ring: one too soon or inside the frame before it counts in TX_LATE; one of an enabled transmitter,
while the device transmits, has its frame sent at its start time as symbols of its levels, index and filter. At a tick the noise floor
of every enabled receiver is written once with the tick number. A die that is off takes none of these. The waveform is a free value. -/
def Obligations.CrcUnitsAndModemsComplete : Prop :=
  (∀ (s : State) (n u x : Nat) (v : Word), n < 4 ∧ u < 16 ∧ x = 16 * n + u → s.takesWrite .CRC_Uu_CTRL x = true →
    s.flag F.CRC_Uu_CTRL.ARM x = false →
    (bits v.toNat 9 5 < 22 ∧ (bits v.toNat 4 3 = 2 → 8 ≤ bits v.toNat 9 5 ∧ bits v.toNat 9 5 < 16 ∨ bits v.toNat 9 5 = 18 ∨ bits v.toNat 9 5 = 19) →
      ∃ t, exec (.crcArm n u v) s = .next t ∧ t.flag F.CRC_Uu_CTRL.ARM x = true ∧
          (∀ f ∈ [F.CRC_Uu_CTRL.POLY, F.CRC_Uu_CTRL.MODE, F.CRC_Uu_CTRL.TAP, F.CRC_Uu_CTRL.CORE, F.CRC_Uu_CTRL.CH,
            F.CRC_Uu_CTRL.BLOCK, F.CRC_Uu_CTRL.CONT, F.CRC_Uu_CTRL.TAG], t.fld f x = bits v.toNat f.hi f.lo) ∧
          SameBut (([F.CRC_Uu_CTRL.POLY, F.CRC_Uu_CTRL.MODE, F.CRC_Uu_CTRL.TAP, F.CRC_Uu_CTRL.CORE, F.CRC_Uu_CTRL.CH,
            F.CRC_Uu_CTRL.BLOCK, F.CRC_Uu_CTRL.CONT, F.CRC_Uu_CTRL.TAG] ++ [F.CRC_Uu_CTRL.ARM]).map fun f => (f, x))
            (s.setCrcU x { s.crcU x with primed := false, clk := s.tmb.clk, tick := none }) t) ∧
          (22 ≤ bits v.toNat 9 5 ∨ (bits v.toNat 4 3 = 2 ∧ (bits v.toNat 9 5 < 8 ∨ bits v.toNat 9 5 = 16 ∨ bits v.toNat 9 5 = 17 ∨ 20 ≤ bits v.toNat 9 5)) →
            ∃ t, exec (.crcArm n u v) s = .next t ∧
              (∀ f ∈ [F.CRC_Uu_CTRL.POLY, F.CRC_Uu_CTRL.MODE, F.CRC_Uu_CTRL.TAP, F.CRC_Uu_CTRL.CORE, F.CRC_Uu_CTRL.CH,
            F.CRC_Uu_CTRL.BLOCK, F.CRC_Uu_CTRL.CONT, F.CRC_Uu_CTRL.TAG], t.fld f x = bits v.toNat f.hi f.lo) ∧ SameBut ([F.CRC_Uu_CTRL.POLY, F.CRC_Uu_CTRL.MODE, F.CRC_Uu_CTRL.TAP, F.CRC_Uu_CTRL.CORE, F.CRC_Uu_CTRL.CH,
            F.CRC_Uu_CTRL.BLOCK, F.CRC_Uu_CTRL.CONT, F.CRC_Uu_CTRL.TAG].map fun f => (f, x)) s t) ∧
          (∃ t, exec (.crcDisarm n u v) s = .next t ∧
            (∀ f ∈ [F.CRC_Uu_CTRL.POLY, F.CRC_Uu_CTRL.MODE, F.CRC_Uu_CTRL.TAP, F.CRC_Uu_CTRL.CORE, F.CRC_Uu_CTRL.CH,
            F.CRC_Uu_CTRL.BLOCK, F.CRC_Uu_CTRL.CONT, F.CRC_Uu_CTRL.TAG], t.fld f x = bits v.toNat f.hi f.lo) ∧ SameBut ([F.CRC_Uu_CTRL.POLY, F.CRC_Uu_CTRL.MODE, F.CRC_Uu_CTRL.TAP, F.CRC_Uu_CTRL.CORE, F.CRC_Uu_CTRL.CH,
            F.CRC_Uu_CTRL.BLOCK, F.CRC_Uu_CTRL.CONT, F.CRC_Uu_CTRL.TAG].map fun f => (f, x)) s t)) ∧
  (∀ (s : State) (n u : Nat) (v : Word), n < 4 ∧ u < 16 →
    (s.takesWrite .CRC_Uu_CTRL (16 * n + u) = true ∧ s.flag F.CRC_Uu_CTRL.ARM (16 * n + u) = true →
      (∃ t, exec (.crcDisarm n u v) s = .next t ∧ t.flag F.CRC_Uu_CTRL.ARM (16 * n + u) = false ∧ SameBut [(F.CRC_Uu_CTRL.ARM, 16 * n + u)] s t) ∧
        ∃ t, exec (.crcArm n u v) s = .next t ∧ Same s t) ∧
          (s.takesWrite .CRC_Uu_CTRL (16 * n + u) = false →
            (∃ t, exec (.crcDisarm n u v) s = .next t ∧ Same s t) ∧ ∃ t, exec (.crcArm n u v) s = .next t ∧ Same s t)) ∧
  (∀ (s : State) (n u x : Nat) (l : List Bool) (pois complete : Bool), n < 4 ∧ u < 16 ∧ x = 16 * n + u → s.dieDown (24 + n) = false →
    ((s.crcU x).stopped = true ∧ complete = false →
      ∃ t, exec (.crcFrameEnd n u l pois complete) s = .next t ∧
        Same (((s.crcFrame x l pois false).setFld F.CRC_Uu_CTRL.BUSY x 0).setCrcU x { s.crcU x with stopped := false }) t) ∧
          (∀ r, (s.crcU x).stopped = false ∧ (s.crcU x).frames = (l, pois) :: r ∧ complete = true →
            ∃ t, exec (.crcFrameEnd n u l pois complete) s = .next t ∧
              Same
               (let v := (s.crcFrame x l pois true).setFld F.CRC_Uu_CTRL.BUSY x (b2n (!r.isEmpty))
                v.setCrcU x { v.crcU x with frames := r, good := (v.crcU x).good && v.fld F.CRC_Uu_CTRL.RESULT x == 1 }) t)) ∧
  (∀ (s : State) (n u x : Nat) (l : List Bool) (pois complete : Bool), n < 4 ∧ u < 16 ∧ x = 16 * n + u →
    s.dieDown (24 + n) = true ∨ ((s.crcU x).stopped = true ∧ complete = true) ∨
      ((s.crcU x).stopped = false ∧ (complete = false ∨ (s.crcU x).frames.head? ≠ some (l, pois))) →
    ∃ t, exec (.crcFrameEnd n u l pois complete) s = .next t ∧ Same s t) ∧
  (∀ (s : State) (u : Nat) (l : List Bool) (pois complete : Bool),
    (s.crcFrame u l pois complete).fld F.CRC_Uu_RUN.BITS u = l.length % 2 ^ 32 ∧
      (s.crcFrame u l pois complete).fld F.CRC_Uu_RUN.VALUE u = crcuOver (s.fld F.CRC_Uu_CTRL.POLY u) (s.crcFrom u) l % 2 ^ 32 ∧
      (pois = true ∨ complete = false → (s.crcFrame u l pois complete).fld F.CRC_Uu_CTRL.RESULT u = 3) ∧
      (pois = false ∧ complete = true ∧ s.fld F.CRC_Uu_CTRL.MODE u ≠ 1 → (s.crcFrame u l pois complete).fld F.CRC_Uu_CTRL.RESULT u = 1) ∧
      (pois = false ∧ complete = true ∧ s.fld F.CRC_Uu_CTRL.MODE u = 1 → ∀ p w, p = s.fld F.CRC_Uu_CTRL.POLY u ∧ w = (crcPoly p).1 →
        ((s.crcFrame u l pois complete).fld F.CRC_Uu_CTRL.RESULT u = 1 ↔
          w ≤ l.length ∧ crcBits p (crcuOver p (s.crcFrom u) (l.take (l.length - w)) ^^^ s.crcXor u) = l.drop (l.length - w)) ∧
        ((s.crcFrame u l pois complete).fld F.CRC_Uu_CTRL.RESULT u = 1 ∨ (s.crcFrame u l pois complete).fld F.CRC_Uu_CTRL.RESULT u = 2)) ∧
      SameBut [(F.CRC_Uu_RUN.BITS, u), (F.CRC_Uu_RUN.VALUE, u), (F.CRC_Uu_CTRL.RESULT, u)] s (s.crcFrame u l pois complete)) ∧
  (∀ (s : State) (n u : Nat) (v : Word), n < 4 ∧ u < 16 →
    (s.flag F.CRC_Uu_CTRL.BUSY (16 * n + u) = false ∧ s.takesWrite .CRC_Uu_RUN (16 * n + u) = true →
      ∃ t, exec (.crcRunWrite n u v) s = .next t ∧
          t.fld F.CRC_Uu_RUN.VALUE (16 * n + u) = bits v.toNat 31 0 ∧ t.fld F.CRC_Uu_RUN.BITS (16 * n + u) = bits v.toNat 63 32 ∧
          SameBut [(F.CRC_Uu_RUN.VALUE, 16 * n + u), (F.CRC_Uu_RUN.BITS, 16 * n + u)] s t) ∧
          (s.flag F.CRC_Uu_CTRL.BUSY (16 * n + u) = true ∨ s.takesWrite .CRC_Uu_RUN (16 * n + u) = false →
            ∃ t, exec (.crcRunWrite n u v) s = .next t ∧ Same s t)) ∧
  (∀ (s : State) (n u x cnt d gap : Nat) (m : List Byte) (fail : State), n < 4 ∧ u < 16 ∧ x = 16 * n + u →
    s.flag F.CRC_Uu_CTRL.ARM x = true ∧ s.fld F.CRC_Uu_CTRL.MODE x = 3 ∧ s.fld F.CRC_Uu_CTRL.TAP x = 21 ∧ s.dieDown (24 + n) = false →
    cnt = (m.getD 0 0).toNat ∧ d = (cnt + 256 - s.fld F.CRC_Uu_SAFE.LAST x) % 256 ∧
      gap = (if u = 15 ∧ bit (s.rdFault n).sctl 0 = true then 0 else s.fld F.CRC_Uu_SAFE.MAXGAP x) ∧ fail = s.setFld F.CRC_Uu_CTRL.RESULT x 2 →
    (s.safeOk x m = true ∧ ((s.crcU x).primed = false ∨ d = 1) →
      ∃ t, exec (.safetyMessage n u m) s = .next t ∧ t.fld F.CRC_Uu_SAFE.LAST x = cnt ∧ t.fld F.CRC_Uu_CTRL.RESULT x = 1 ∧
        SameBut [(F.CRC_Uu_SAFE.LAST, x), (F.CRC_Uu_CTRL.RESULT, x)]
          (s.setCrcU x { s.crcU x with primed := true, clk := s.tmb.clk, tick := some s.tickNo }) t) ∧
          (s.safeOk x m = true ∧ (s.crcU x).primed = true ∧ 2 ≤ d ∧ d ≤ gap + 1 →
            ∃ t, exec (.safetyMessage n u m) s = .next t ∧ Same ((s.incFld F.CRC_Uu_SAFE.SKIP x (d - 1)).safeAccept x cnt) t) ∧
          (s.safeOk x m = false → ∃ t, exec (.safetyMessage n u m) s = .next t ∧ Same (fail.safeError n u (s.crcU x).primed) t) ∧
          (s.safeOk x m = true ∧ (s.crcU x).primed = true ∧ d = 0 →
            ∃ t, exec (.safetyMessage n u m) s = .next t ∧ Same (fail.safeError n u true) t) ∧
          (s.safeOk x m = true ∧ (s.crcU x).primed = true ∧ d ≠ 1 ∧ gap + 1 < d →
            ∃ t, exec (.safetyMessage n u m) s = .next t ∧ Same (fail.safeError n u false) t)) ∧
  (∀ (s : State) (n u : Nat) (m : List Byte), n < 4 ∧ u < 16 →
    s.flag F.CRC_Uu_CTRL.ARM (16 * n + u) = false ∨ s.fld F.CRC_Uu_CTRL.MODE (16 * n + u) ≠ 3 ∨
      s.fld F.CRC_Uu_CTRL.TAP (16 * n + u) ≠ 21 ∨ s.dieDown (24 + n) = true →
    ∃ t, exec (.safetyMessage n u m) s = .next t ∧ Same s t) ∧
  (∀ (s : State) (n u x : Nat), n < 4 ∧ u < 16 ∧ x = 16 * n + u →
    (s.flag F.CRC_Uu_CTRL.ARM x = true ∧ s.fld F.CRC_Uu_CTRL.MODE x = 3 ∧ s.fld F.CRC_Uu_SAFE.TIMEOUT x ≠ 0 ∧
        (s.crcU x).clk * 64 + s.fld F.CRC_Uu_SAFE.TIMEOUT x * 10000 ≤ s.tmb.clk * 64 →
      ∃ t, exec (.safetyTimeout n u) s = .next t ∧
          Same ((s.setCrcU x { s.crcU x with clk := s.tmb.clk }).safeError n u (s.crcU x).primed) t) ∧
          (s.flag F.CRC_Uu_CTRL.ARM x = false ∨ s.fld F.CRC_Uu_CTRL.MODE x ≠ 3 ∨ s.fld F.CRC_Uu_SAFE.TIMEOUT x = 0 ∨
              s.tmb.clk * 64 < (s.crcU x).clk * 64 + s.fld F.CRC_Uu_SAFE.TIMEOUT x * 10000 →
            ∃ t, exec (.safetyTimeout n u) s = .next t ∧ Same s t)) ∧
  (∀ (s : State) (n j : Nat), n < 4 ∧ j < 96 →
    ∃ t, exec (.eqChange n j) s = .next t ∧
          Same { s with eqNow := SMap.set false s.eqNow (96 * n + j) (s.flag F.RDP_CELL_CFGj.EQ (96 * n + j)) } t) ∧
  (∀ (s u : State) (n b car c len base log2 prod m : Nat) (sync : GfskSync) (frame data : List Byte) (rssi fofs : Int) (ok : Bool),
    n < 4 ∧ b < 4 ∧ car < 128 ∧ c = 128 * (4 * n + b) + car → s.flag F.GFK_Bb_CARc_CFG.EN_RX c = true ∧ s.dieDown (24 + n) = false →
    len = (frame.headD 0).toNat ∧ 0 < len ∧ frame.length = len + 3 →
    syncErrors sync.word.toNat (s.fld F.GFK_Bb_CARc_SYNC.SYNC c) ≤ s.fld F.GFK_Bb_CARc_CFG.SYNC_ERR c ∧ sync.time ≤ s.now →
    (ok = true ↔ gfskCrc (frame.take (len + 1)) = frame.drop (len + 1)) →
    u = (if ok then (s.gfskConsume c).incFld F.GFK_Bb_CARc_CNT.RX_OK c else (s.gfskConsume c).incFld F.GFK_Bb_CARc_CNT.RX_BAD c) →
    base = u.fld F.GFK_Bb_RXRING.BASE (4 * n + b) * 64 ∧ log2 = clamp 4 12 (u.fld F.GFK_Bb_RXRING.LOG2 (4 * n + b)) ∧
      prod = u.ringProd base ∧ m = 1 + (len + 15) / 16 →
    data = gfkHeader b car ok len rssi fofs sync.time ++ slice frame 1 len ++ List.replicate ((len + 15) / 16 * 16 - len) 0#8 →
    (ok = false ∧ u.flag F.GFK_Bb_CARc_CFG.KEEPBAD c = false →
      ∃ t, exec (.gfskFrameReceived n b car sync frame rssi fofs) s = .next t ∧ Same u t) ∧
          (ok = true ∨ u.flag F.GFK_Bb_CARc_CFG.KEEPBAD c = true →
            (2 ^ log2 < (prod + 2 ^ 32 - u.ringCons base) % 2 ^ 32 + m →
              ∃ t, exec (.gfskFrameReceived n b car sync frame rssi fofs) s = .next t ∧ Same (u.incFld F.GFK_Bb_CARc_CNT.RX_DROP c) t) ∧
            ((prod + 2 ^ 32 - u.ringCons base) % 2 ^ 32 + m ≤ 2 ^ log2 →
              ∃ t, exec (.gfskFrameReceived n b car sync frame rssi fofs) s = .next t ∧
                Same (((List.range m).foldl (fun u i => State.putRam u 0 (gfkChunk base log2 (prod + i)) (slice data (16 * i) 16)) u).putRam 0 base
                  (bytesOf 4 ((prod + m) % 2 ^ 32))) t))) ∧
  (∀ (s : State) (n b car c : Nat) (sync : GfskSync) (frame : List Byte) (rssi fofs : Int),
    n < 4 ∧ b < 4 ∧ car < 128 ∧ c = 128 * (4 * n + b) + car →
    s.flag F.GFK_Bb_CARc_CFG.EN_RX c = false ∨ s.dieDown (24 + n) = true ∨ (frame.headD 0).toNat = 0 ∨
      frame.length ≠ (frame.headD 0).toNat + 3 ∨ s.fld F.GFK_Bb_CARc_CFG.SYNC_ERR c < syncErrors sync.word.toNat (s.fld F.GFK_Bb_CARc_SYNC.SYNC c) ∨
      s.now < sync.time →
    ∃ t, exec (.gfskFrameReceived n b car sync frame rssi fofs) s = .next t ∧ Same s t) ∧
  (∀ (s v u : State) (n b h base log2 cons c m len start : Nat) (pay : List Byte), n < 4 ∧ b < 4 ∧ s.dieDown (24 + n) = false →
    base = s.fld F.GFK_Bb_TXRING.BASE (4 * n + b) * 64 ∧ log2 = clamp 4 12 (s.fld F.GFK_Bb_TXRING.LOG2 (4 * n + b)) ∧
      cons = s.ringCons base ∧ cons ≠ s.ringProd base →
    v = s.meet (gfkChunk base log2 cons) 16 ∧ h = v.readNat (gfkChunk base log2 cons) 16 →
    len = bits h 19 12 ∧ c = 128 * (4 * n + b) + bits h 6 0 ∧ start = bits h 127 64 ∧ m = (len + 15) / 16 →
    u = v.meetAll ((List.range m).map fun i => (gfkChunk base log2 (cons + 1 + i), 16)) →
    pay = ((List.range m).flatMap fun i => u.read (gfkChunk base log2 (cons + 1 + i)) 16).take len →
    ∃ t, exec (.gfskTxRecord n b) s = .next t ∧
          Same
           (let u := u.putRam 0 (base + 4) (bytesOf 4 ((cons + 1 + m) % 2 ^ 32))
            if start < u.now + 10000 ∨ start < (SMap.get ({} : Modem) u.modems c).txEnd then u.incFld F.GFK_Bb_CARc_CNT.TX_LATE c
            else if u.flag F.GFK_Bb_CARc_CFG.EN_TX c = false ∨ u.flag F.FLT_STATUS.TSTOP = true ∨ u.flt.wdtStop = true then u
            else
              let md := SMap.get ({} : Modem) u.modems c
              let pre := clamp 2 15 (u.fld F.GFK_Bb_CARc_CFG.PRE c)
              let rate := clamp 12500 400000 (u.fld F.GFK_Bb_CARc_CFG.RATE c)
              let ns := (8 * (pre + 7 + len) * 1000000000 + rate - 1) / rate
              let sym := gfskSymbols (u.flag F.GFK_Bb_CARc_CFG.LEVELS c) (gfskFrame pre (u.fld F.GFK_Bb_CARc_SYNC.SYNC c) pay)
              let hx := clamp 16 64 (u.fld F.GFK_Bb_CARc_CFG.H c)
              let bt := u.flag F.GFK_Bb_CARc_CFG.BT c
              let wave := (List.range (32 * sym.length)).map fun i => (Config.gfskWave sym hx bt).getD i 0
              let u := { u with modems := SMap.set {} u.modems c { md with txEnd := start + ns, wave := md.wave ++ wave } }
              let u := (u.gfskFlows c 1).foldl (fun u x => u.gfskFill c x.2) u
              u.emit (.gfsk c start (rate / (if u.flag F.GFK_Bb_CARc_CFG.LEVELS c then 2 else 1)) hx bt sym)) t) ∧
  (∀ (s : State) (n b : Nat), n < 4 ∧ b < 4 →
    s.dieDown (24 + n) = true ∨
      s.ringCons (s.fld F.GFK_Bb_TXRING.BASE (4 * n + b) * 64) = s.ringProd (s.fld F.GFK_Bb_TXRING.BASE (4 * n + b) * 64) →
    ∃ t, exec (.gfskTxRecord n b) s = .next t ∧ Same s t) ∧
  (∀ (s : State) (n b : Nat) (l : List NoiseStat), n < 4 ∧ b < 4 →
    (s.dieDown (24 + n) = false →
      ∃ t, exec (.gfskNoiseReport n b l) s = .next t ∧
        Same ((List.range 128).foldl (fun u car =>
          let c := 128 * (4 * n + b) + car
          let x := (l.find? fun x => x.car == car).getD { car, idle := 0, total := 0, sum := 0 }
          if u.flag F.GFK_Bb_CARc_CFG.EN_RX c = false ∨ (SMap.get ({} : Modem) u.modems c).noise = u.tickNo then u
          else
            let nf := if x.idle * 4 < x.total ∨ x.sum = 0 ∨ x.idle = 0 then 0x8000 else wrap 16 (noiseFloor x.sum x.idle)
            let md := SMap.get ({} : Modem) u.modems c
            { u.gfskConsume c with modems := SMap.set {} u.modems c { md with noise := u.tickNo } }.putRam 0
              (u.fld F.GFK_Bb_NOISE.BASE (4 * n + b) * 64 + 4 * car) (bytesOf 4 (nf + u.tickNo % 2 ^ 16 * 2 ^ 16))) s) t) ∧
          (s.dieDown (24 + n) = true ∨ (∀ car < 128, s.flag F.GFK_Bb_CARc_CFG.EN_RX (128 * (4 * n + b) + car) = false) →
            ∃ t, exec (.gfskNoiseReport n b l) s = .next t ∧ Same s t))

/-- A frame at a port that is down has no effect; one with a bad FCS, a wrong length or a pause frame is counted and dropped; one that its
policer discards ends there; one that it passes goes to the eCPRI terminator where it is addressed to the port with EtherType 0xAEFE,
else to the switch. A well-formed U-plane frame inside its symbol's window writes its PRBs to the flow's buffer; an early, a late
and a malformed one is counted. At the end of a symbol's window the missing PRBs are zeroed, their number and then DONE are written,
and after the last symbol of a slot its record. 2,000 ns before its send time a symbol or slot whose count stands in READY is found
ready, another is counted early. At its send time a symbol found ready is compressed and queued frame by frame, a slot record of at
most 1,022 bytes is queued as one frame, and a GFSK flow with enough bytes queues one; a frame with poisoned samples is counted and
not sent. What is not due, or of a flow that is not in force or may not send, changes nothing. A change of a port's link state shows
in its status register. -/
def Obligations.FronthaulFlowsComplete : Prop :=
  (∀ (s : State) (p : Nat) (fr : Frame), p < 16 ∧ s.portUp p = false →
    ∃ t, exec (.frameReceive p fr) s = .next t ∧ Same s t) ∧
  (∀ (s : State) (p : Nat) (fr : Frame), p < 16 ∧ s.portUp p = true →
    fr.fcsOk = false ∨ fr.len < 64 ∨ 9216 < fr.len ∨ fr.etype = 0x8808 →
    ∃ t, exec (.frameReceive p fr) s = .next t ∧
          Same (if fr.fcsOk = false then s.incFld F.FHL_Pp_CNT.WORD (p * 11 + 2)
            else if fr.len < 64 ∨ 9216 < fr.len then (s.incFld F.FHL_Pp_CNT.WORD (p * 11)).incFld F.FHL_Pp_CNT.WORD (p * 11 + 3)
            else (s.incFld F.FHL_Pp_CNT.WORD (p * 11)).incFld F.FHL_Pp_CNT.WORD (p * 11 + 4)) t) ∧
  (∀ (s s1 : State) (p : Nat) (fr : Frame) (r : Option Frame),
    p < 16 ∧ s.portUp p = true ∧ fr.fcsOk = true ∧ 64 ≤ fr.len ∧ fr.len ≤ 9216 ∧ fr.etype ≠ 0x8808 →
    (s.incFld F.FHL_Pp_CNT.WORD (p * 11)).police p fr = (s1, r) →
    ∃ t, exec (.frameReceive p fr) s = .next t ∧
          Same (match r with
            | none => s1
            | some x => if x.dst = s1.fld F.FHL_Pp_MAC.ADDR p ∧ x.etype = 0xAEFE then s1.terminate p x else s1.switchIn (p / 4) (p % 4) x) t) ∧
  (∀ (s s1 : State) (p k f v : Nat) (fr x : Frame) (e : Ecpri) (good : Bool) (nsym air : Int),
    p < 16 ∧ k = p / 4 ∧ s.portUp p = true ∧ fr.fcsOk = true ∧ 64 ≤ fr.len ∧ fr.len ≤ 9216 ∧ fr.etype ≠ 0x8808 →
    (s.incFld F.FHL_Pp_CNT.WORD (p * 11)).police p fr = (s1, some x) →
    x.dst = s1.fld F.FHL_Pp_MAC.ADDR p ∧ x.etype = 0xAEFE ∧ x.ecpri = some e →
    e.rev = 1 ∧ e.concat = false ∧ e.ebit = true ∧ e.msgType = 0 →
    (s1.edge k).flows.find? (fun y => flw y.2 F.FHL_FLOWf.PORT == p % 4 && flw y.2 F.FHL_FLOWf.EAXC == e.eaxc &&
      [0, 2].contains (flw y.2 F.FHL_FLOWf.KIND) && flw y.2 F.FHL_FLOWf.DIR == 0) = some (f, v) → flw v F.FHL_FLOWf.KIND = 0 →
    (good = true ↔ x.src = flw v F.FHL_FLOWf.RUMAC ∧ e.dataDirection = 0 ∧ e.payloadVersion = 1 ∧ e.extension = false ∧
      e.symbolId < 14 ∧ e.slotId < 2 ^ flw v F.FHL_FLOWf.MU ∧ e.subframeId < 10 ∧
      ∀ y ∈ e.sections, y.startPrb + y.prbs.length ≤ flw v F.FHL_FLOWf.NPRB ∧ ∀ b ∈ y.prbs, b.length = iqBytes (flw v F.FHL_FLOWf.IQW)) →
    s1.airOf (flw v F.FHL_FLOWf.MU) e = (nsym, air) →
    ∃ t, exec (.frameReceive p fr) s = .next t ∧
          Same
           (if good = false then s1.flowBad k f
            else if (s1.now : Int) < air + flw v F.FHL_FLOWf.T1 then s1.flowEarly k f
            else if air + flw v F.FHL_FLOWf.T2 < s1.now ∨ ∃ d, (s1.flowSt k f).done = some d ∧ nsym ≤ d then s1.flowLate k f
            else
              let u := e.sections.foldl (fun u y => y.prbs.zipIdx.foldl (fun u (b, i) => State.fhPut u k (flw v F.FHL_FLOWf.RD)
                (flowBuf v (64 + (ringIx (flw v F.FHL_FLOWf.NSYM) nsym * flw v F.FHL_FLOWf.NPRB + y.startPrb + i) * 48))
                (prbIn (flw v F.FHL_FLOWf.IQW) b)) u) s1
              let got := e.sections.flatMap fun y => (List.range y.prbs.length).map fun i => (count64 nsym, y.startPrb + i)
              (u.flowSeq k f e.seqId).modFlow k f fun y => { y with got := y.got ++ got }) t) ∧
  (∀ (s : State) (k f v np rd ix : Nat) (nsym : Int) (miss : List Nat),
    k < 4 ∧ f < 4096 ∧ s.flow k f = some v ∧ flw v F.FHL_FLOWf.KIND = 0 ∧ flw v F.FHL_FLOWf.DIR = 0 ∧ s.dieOut (28 + k) = false →
    s.flowDue (s.flowSt k f).done nsym (fun n => s.airAt (flw v F.FHL_FLOWf.MU) n + flw v F.FHL_FLOWf.T2) = true →
    np = flw v F.FHL_FLOWf.NPRB ∧ rd = flw v F.FHL_FLOWf.RD ∧ ix = ringIx (flw v F.FHL_FLOWf.NSYM) nsym →
    miss = (List.range np).filter (fun i => !(s.flowSt k f).got.contains (count64 nsym, i)) →
    ∃ t, exec (.symbolDone k f nsym) s = .next t ∧
          Same
           (let u := miss.foldl (fun u i => State.fhPut u k rd (flowBuf v (64 + (ix * np + i) * 48)) (List.replicate 48 0#8)) s
            let u := (u.fhPut k rd (flowBuf v 16) (bytesOf 8 miss.length)).fhPut k rd (flowBuf v 8) (bytesOf 8 (count64 nsym))
            let u := if miss = [] then u else u.incFld F.FHL_FCNTf.ZEROPRB (4096 * k + f) miss.length
            let u := u.modFlow k f fun x =>
              { x with done := some nsym, got := x.got.filter (·.1 != count64 nsym), zeros := x.zeros + miss.length }
            if nsym % 14 = 13 then u.flowRecord k f ((List.range 14).flatMap fun i =>
              (u.flowRead v (64 + ringIx (flw v F.FHL_FLOWf.NSYM) (nsym - 13 + (i : Nat)) * np * 48) (np * 48)).1)
            else u) t) ∧
  (∀ (s : State) (k f : Nat) (nsym : Int), k < 4 ∧ f < 4096 →
    (∀ v, s.flow k f = some v → flw v F.FHL_FLOWf.KIND ≠ 0 ∨ flw v F.FHL_FLOWf.DIR ≠ 0 ∨ s.dieOut (28 + k) = true ∨
      s.flowDue (s.flowSt k f).done nsym (fun n => s.airAt (flw v F.FHL_FLOWf.MU) n + flw v F.FHL_FLOWf.T2) = false) →
    ∃ t, exec (.symbolDone k f nsym) s = .next t ∧ Same s t) ∧
  (∀ (s u : State) (k f v : Nat) (nsym : Int), k < 4 ∧ f < 4096 ∧ s.txFlow k f 0 = some v → u = s.flowMeet v 0 8 →
    s.flowDue (s.flowSt k f).done nsym (fun n => s.airAt (flw v F.FHL_FLOWf.MU) n - flw v F.FHL_FLOWf.T1 - 2000) = true →
    ∃ t, exec (.downlinkReadyCheck k f nsym) s = .next t ∧
          Same (if u.flowReady v = count64 nsym then u.modFlow k f fun x => { x with done := some nsym, ready := some nsym }
            else (u.flowEarly k f).modFlow k f fun x => { x with done := some nsym, ready := none, off := 0 }) t) ∧
  (∀ (s : State) (k f : Nat) (nsym : Int), k < 4 ∧ f < 4096 →
    (∀ v, s.txFlow k f 0 = some v →
      s.flowDue (s.flowSt k f).done nsym (fun n => s.airAt (flw v F.FHL_FLOWf.MU) n - flw v F.FHL_FLOWf.T1 - 2000) = false) →
    ∃ t, exec (.downlinkReadyCheck k f nsym) s = .next t ∧ Same s t) ∧
  (∀ (s : State) (k f v np mx w base : Nat) (nsym : Int),
    k < 4 ∧ f < 4096 ∧ s.txFlow k f 0 = some v ∧ (s.flowSt k f).ready = some nsym →
    s.airAt (flw v F.FHL_FLOWf.MU) nsym - flw v F.FHL_FLOWf.T1 ≤ (s.now : Int) →
    np = flw v F.FHL_FLOWf.NPRB ∧ mx = flw v F.FHL_FLOWf.MAXPRB ∧ w = flw v F.FHL_FLOWf.IQW ∧
      base = 64 + ringIx (flw v F.FHL_FLOWf.NSYM) nsym * np * 48 →
    ∃ t, exec (.downlinkSend k f nsym) s = .next t ∧
          Same
           ((List.range ((np + mx - 1) / mx)).foldl (fun (u : State) i =>
              let cnt := min mx (np - i * mx)
              let u := u.flowMeet v (base + i * mx * 48) (cnt * 48)
              let d := u.flowRead v (base + i * mx * 48) (cnt * 48)
              if d.2 then u.flowPoison k f
              else u.flowSend k f v (8 + cnt * iqBytes w)
                (ecpriOf v 0 1 (flw v F.FHL_FLOWf.MU) (nsym / 14) (nsym % 14).toNat
                  [{ id := i, startPrb := i * mx, prbs := (List.range cnt).map fun j => prbOut w (slice d.1 (48 * j) 48) }] []))
              (s.modFlow k f fun x => { x with ready := none })) t) ∧
  (∀ (s : State) (k f : Nat) (nsym : Int), k < 4 ∧ f < 4096 →
    (∀ v, s.txFlow k f 0 = some v → (s.flowSt k f).ready ≠ some nsym ∨
      (s.now : Int) < s.airAt (flw v F.FHL_FLOWf.MU) nsym - flw v F.FHL_FLOWf.T1) →
    ∃ t, exec (.downlinkSend k f nsym) s = .next t ∧ Same s t) ∧
  (∀ (s u : State) (k f v : Nat) (sc : Int), k < 4 ∧ f < 4096 ∧ s.txFlow k f 1 = some v → u = s.flowMeet v 0 8 →
    s.flowDue (s.flowSt k f).done sc (fun n => s.airAt (flw v F.FHL_FLOWf.MU) (n * 14) - flw v F.FHL_FLOWf.T1 - 2000) = true →
    ∃ t, exec (.cplaneReadyCheck k f sc) s = .next t ∧
          Same (if u.flowReady v = count64 (sc * 14) then u.modFlow k f fun x => { x with done := some sc, ready := some sc }
            else (u.flowEarly k f).modFlow k f fun x => { x with done := some sc, ready := none, off := 0 }) t) ∧
  (∀ (s : State) (k f : Nat) (sc : Int), k < 4 ∧ f < 4096 →
    (∀ v, s.txFlow k f 1 = some v →
      s.flowDue (s.flowSt k f).done sc (fun n => s.airAt (flw v F.FHL_FLOWf.MU) (n * 14) - flw v F.FHL_FLOWf.T1 - 2000) = false) →
    ∃ t, exec (.cplaneReadyCheck k f sc) s = .next t ∧ Same s t) ∧
  (∀ (s x y : State) (k f v n ofs : Nat) (sc : Int), k < 4 ∧ f < 4096 ∧ s.txFlow k f 1 = some v ∧ (s.flowSt k f).ready = some sc →
    s.airAt (flw v F.FHL_FLOWf.MU) (sc * 14) - flw v F.FHL_FLOWf.T1 ≤ (s.now : Int) →
    ofs = 64 + ringIx (flw v F.FHL_FLOWf.NSYM) sc * 1024 → x = (s.modFlow k f fun w => { w with ready := none }).flowMeet v ofs 2 →
    n = natOf (x.flowRead v ofs 2).1 ∧ y = x.flowMeet v (ofs + 2) n →
    ∃ t, exec (.cplaneSend k f sc) s = .next t ∧
          Same
           (if 1022 < n then y.flowBad k f
            else if (y.flowRead v (ofs + 2) n).2 || (y.flowRead v ofs 2).2 then y.flowPoison k f
            else y.flowSend k f v n (ecpriOf v 2 (flw v F.FHL_FLOWf.DIR) (flw v F.FHL_FLOWf.MU) sc 0 [] (y.flowRead v (ofs + 2) n).1)) t) ∧
  (∀ (s : State) (k f : Nat) (sc : Int), k < 4 ∧ f < 4096 →
    (∀ v, s.txFlow k f 1 = some v → (s.flowSt k f).ready ≠ some sc ∨
      (s.now : Int) < s.airAt (flw v F.FHL_FLOWf.MU) (sc * 14) - flw v F.FHL_FLOWf.T1) →
    ∃ t, exec (.cplaneSend k f sc) s = .next t ∧ Same s t) ∧
  (∀ (s u w : State) (k f v n prod cons : Nat), k < 4 ∧ f < 4096 ∧ s.txFlow k f 2 = some v →
    u = s.gfskFill (gfskCar k f v) v ∧ n = flw v F.FHL_FLOWf.MAXPRB * 48 →
    prod = natOf (u.flowRead v 0 4).1 ∧ cons = natOf (u.flowRead v 4 4).1 → w = u.meetAll ((ringAddrs v cons n).map (·, 1)) →
    ((prod + 2 ^ 32 - cons) % 2 ^ 32 < n → ∃ t, exec (.gfskDownlinkSend k f) s = .next t ∧ Same u t) ∧
          (n ≤ (prod + 2 ^ 32 - cons) % 2 ^ 32 →
            ∃ t, exec (.gfskDownlinkSend k f) s = .next t ∧
              Same
               (let d := w.ringRead v cons n
                let x := w.fhPut k (flw v F.FHL_FLOWf.RD) (flowBuf v 4) (bytesOf 4 ((cons + n) % 2 ^ 32))
                if d.2 then x.flowPoison k f else x.flowSend k f v n (ecpriOf v 0 1 (flw v F.FHL_FLOWf.MU) 0 0 [] d.1)) t)) ∧
  (∀ (s : State) (k f : Nat), k < 4 ∧ f < 4096 ∧ s.txFlow k f 2 = none →
    ∃ t, exec (.gfskDownlinkSend k f) s = .next t ∧ Same s t) ∧
  (∀ (s : State) (p : Nat) (link fec : Bool), p < 16 →
    ∃ t, exec (.fronthaulLinkChange p link fec) s = .next t ∧
          t.flag F.FHL_Pp_STATUS.LINK p = link ∧ t.flag F.FHL_Pp_STATUS.FEC_LOCK p = fec ∧
          SameBut [(F.FHL_Pp_STATUS.LINK, p), (F.FHL_Pp_STATUS.FEC_LOCK, p)] s t)

/-- An entry neither pinned nor seen for AGE seconds is removed, another stays. While BUSY is 0 an operation of FHL_MAC_OP takes effect: a
pin of a new key adds a pinned entry, of a known one pins it to the port; a full table and a port above 4 refuse it; a delete removes
the key's entry; a read gives FOUND, PINNED and PORT; a flush makes the table busy, and at its end every unpinned entry, or those of
the port, is gone. While BUSY is 1, or on a die that takes no writes, an operation is ignored. The head of the highest queue that may
start leaves its switch port and is counted, and its shaper is charged its length and 20 bytes; one of port 4 goes to the network
queue. A write of a shaper, and one of a policer word, stores its fields, the rates and the burst in their limits; the shaper and the
policer work by what they were until the next reference period. A filled slot of the transmit ring is consumed, with the errors its
words met, and a frame of 64 to 9,216 bytes that is not poisoned enters the switch at port 4. -/
def Obligations.SwitchCommandsComplete : Prop :=
  (∀ (s : State) (k addr vid : Nat), k < 4 ∧ addr < 2 ^ 48 ∧ vid < 4096 →
    (∀ m, s.macEnt k addr vid = some m ∧ m.pinned = false ∧ m.seen + clamp 10 4095 (s.fld F.FHL_SW_CTRL.AGE k) * oneSecond ≤ s.tmb.clk →
      ∃ t, exec (.macAgeRemoval k addr vid) s = .next t ∧ Same (s.setMac k ((s.edge k).mac.filter (· != m))) t) ∧
          ((∀ m, s.macEnt k addr vid = some m →
              m.pinned = true ∨ s.tmb.clk < m.seen + clamp 10 4095 (s.fld F.FHL_SW_CTRL.AGE k) * oneSecond) →
            ∃ t, exec (.macAgeRemoval k addr vid) s = .next t ∧ Same s t)) ∧
  (∀ (s : State) (k a v p : Nat), k < 4 ∧ s.flag F.FHL_MAC_OP.BUSY k = false ∧ s.takesWrite .FHL_MAC_OP k = true →
    a = s.fld F.FHL_MAC_KEY.ADDR k ∧ v = s.fld F.FHL_MAC_KEY.VID k ∧ p = s.fld F.FHL_MAC_KEY.PORT k →
    (p ≤ 4 ∧ s.flag F.FHL_SW_STATUS.FULL k = false ∧ s.macEnt k a v = none →
      ∃ t, exec (.macPin k) s = .next t ∧
        Same ((s.setFld F.FHL_MAC_OP.OP k 0).macAdd k { addr := a, vid := v, port := p, pinned := true, seen := s.tmb.clk, moved := s.tmb.clk }) t) ∧
          (∀ m, p ≤ 4 ∧ s.flag F.FHL_SW_STATUS.FULL k = false ∧ s.macEnt k a v = some m →
            ∃ t, exec (.macPin k) s = .next t ∧
              Same ((s.setFld F.FHL_MAC_OP.OP k 0).setMac k ((s.edge k).mac.map fun x => if x = m then { m with port := p, pinned := true } else x)) t) ∧
          (4 < p ∨ s.flag F.FHL_SW_STATUS.FULL k = true →
            ∃ t, exec (.macPin k) s = .next t ∧ t.fld F.FHL_MAC_OP.OP k = 0 ∧ t.fld F.FHL_MAC_OP.ERR k = 1 ∧
              SameBut [(F.FHL_MAC_OP.OP, k), (F.FHL_MAC_OP.ERR, k)] s t) ∧
          (∃ t, exec (.macDelete k) s = .next t ∧
            Same ((s.setFld F.FHL_MAC_OP.OP k 1).setMac k ((s.edge k).mac.filter fun m => !(m.addr == a && m.vid == v))) t) ∧
          (∀ m, s.macEnt k a v = some m → ∃ t, exec (.macRead k) s = .next t ∧
            t.fld F.FHL_MAC_OP.OP k = 2 ∧ t.flag F.FHL_MAC_OP.FOUND k = true ∧ t.flag F.FHL_MAC_OP.PINNED k = m.pinned ∧
            t.fld F.FHL_MAC_KEY.PORT k = m.port % 8 ∧
            SameBut [(F.FHL_MAC_OP.OP, k), (F.FHL_MAC_OP.FOUND, k), (F.FHL_MAC_OP.PINNED, k), (F.FHL_MAC_KEY.PORT, k)] s t) ∧
          (s.macEnt k a v = none → ∃ t, exec (.macRead k) s = .next t ∧
            t.fld F.FHL_MAC_OP.OP k = 2 ∧ t.flag F.FHL_MAC_OP.FOUND k = false ∧ t.flag F.FHL_MAC_OP.PINNED k = false ∧
            SameBut [(F.FHL_MAC_OP.OP, k), (F.FHL_MAC_OP.FOUND, k), (F.FHL_MAC_OP.PINNED, k)] s t) ∧
          (∃ t, exec (.macFlushAll k) s = .next t ∧ t.fld F.FHL_MAC_OP.OP k = 3 ∧ t.flag F.FHL_MAC_OP.BUSY k = true ∧
            SameBut [(F.FHL_MAC_OP.OP, k), (F.FHL_MAC_OP.BUSY, k)] (s.modEdge k fun e => { e with flush := some 5 }) t) ∧
          (p ≤ 4 → ∃ t, exec (.macFlushPort k) s = .next t ∧ t.fld F.FHL_MAC_OP.OP k = 4 ∧ t.flag F.FHL_MAC_OP.BUSY k = true ∧
            SameBut [(F.FHL_MAC_OP.OP, k), (F.FHL_MAC_OP.BUSY, k)] (s.modEdge k fun e => { e with flush := some p }) t) ∧
          (4 < p → ∃ t, exec (.macFlushPort k) s = .next t ∧ t.fld F.FHL_MAC_OP.OP k = 4 ∧ t.fld F.FHL_MAC_OP.ERR k = 1 ∧
            SameBut [(F.FHL_MAC_OP.OP, k), (F.FHL_MAC_OP.ERR, k)] s t)) ∧
  (∀ (s : State) (k : Nat), k < 4 →
    (∀ p, (s.edge k).flush = some p → ∃ t, exec (.macFlushEnd k) s = .next t ∧
      Same (((s.setMac k ((s.edge k).mac.filter fun m => m.pinned || (p != 5 && m.port != p))).setFld F.FHL_MAC_OP.BUSY k 0).modEdge k
        fun e => { e with flush := none }) t) ∧
          ((s.edge k).flush = none → ∃ t, exec (.macFlushEnd k) s = .next t ∧ Same s t)) ∧
  (∀ (s : State) (k : Nat), k < 4 ∧ (s.flag F.FHL_MAC_OP.BUSY k = true ∨ s.takesWrite .FHL_MAC_OP k = false) →
    (∃ t, exec (.macPin k) s = .next t ∧ Same s t) ∧ (∃ t, exec (.macDelete k) s = .next t ∧ Same s t) ∧
          (∃ t, exec (.macRead k) s = .next t ∧ Same s t) ∧ (∃ t, exec (.macFlushAll k) s = .next t ∧ Same s t) ∧
          (∃ t, exec (.macFlushPort k) s = .next t ∧ Same s t)) ∧
  (∀ (s : State) (k p q : Nat) (fr : Frame) (l : List Frame),
    k < 4 ∧ p < 4 ∧ s.portUp (4 * k + p) = true ∧ s.fhSends = true ∧ s.dieOut (28 + k) = false →
    (List.range 8).reverse.find? (fun q => s.mayStart k p q) = some q →
    SMap.get [] (s.edge k).out (8 * p + q) = fr :: l →
    ∃ t, exec (.egressTransmit k p) s = .next t ∧
          Same
           (let u := if q ≠ 7 ∧ (s.shapeCfg k p q).1 ≠ 0 then s.setShape k p q (s.shapeLack k p q + (fr.len + 20) * 1250) else s
            let u := (u.modEdge k fun e => { e with out := SMap.set [] e.out (8 * p + q) l }).incFld F.FHL_Pp_CNT.WORD ((4 * k + p) * 11 + 1)
            u.emit (.frame (4 * k + p) fr)) t) ∧
  (∀ (s : State) (k q : Nat) (fr : Frame) (l : List Frame), k < 4 ∧ s.dieOut (28 + k) = false →
    (List.range 8).reverse.find? (fun q => s.mayStart k 4 q) = some q →
    SMap.get [] (s.edge k).out (32 + q) = fr :: l →
    ∃ t, exec (.egressTransmit k 4) s = .next t ∧
          Same ((s.modEdge k fun e => { e with out := SMap.set [] e.out (32 + q) l }).netDeliver k fr) t) ∧
  (∀ (s : State) (k p : Nat), k < 4 ∧ p < 5 →
    (p < 4 ∧ (s.portUp (4 * k + p) = false ∨ s.fhSends = false)) ∨ s.dieOut (28 + k) = true ∨ (∀ q < 8, s.mayStart k p q = false) →
    ∃ t, exec (.egressTransmit k p) s = .next t ∧ Same s t) ∧
  (∀ (s : State) (k p q x : Nat) (v : Word), k < 4 ∧ p < 4 ∧ q < 7 ∧ x = (4 * k + p) * 7 + q →
    (s.takesWrite .FHL_Pp_SHq x = true → ∃ t, exec (.shaperWrite k p q v) s = .next t ∧
          t.fld F.FHL_Pp_SHq.RATE x = clamp 1 400000 (bits v.toNat 18 0) ∧ t.fld F.FHL_Pp_SHq.EN x = bits v.toNat 19 19 ∧
          t.fld F.FHL_Pp_SHq.BURST x = clamp 9236 16777215 (bits v.toNat 43 20) ∧ t.shapeCfg k p q = s.shapeCfg k p q ∧
          SameBut [(F.FHL_Pp_SHq.RATE, x), (F.FHL_Pp_SHq.EN, x), (F.FHL_Pp_SHq.BURST, x)]
            (s.modEdge k fun e => { e with shapeOld := SMap.set none e.shapeOld (8 * p + q) (some (s.shapeCfg k p q)) }) t) ∧
          (s.takesWrite .FHL_Pp_SHq x = false → ∃ t, exec (.shaperWrite k p q v) s = .next t ∧ Same s t)) ∧
  (∀ (s u : State) (k i x : Nat) (v : Word), k < 4 ∧ i < 64 ∧ x = 64 * k + i →
    u = (s.modEdge k fun e => { e with polOld := SMap.set none e.polOld i (some (s.polCfg x)) }) →
    (s.takesWrite .FHL_POLi x = true →
      (∃ t, exec (.policerWrite k i 0 v) s = .next t ∧ t.polCfg x = s.polCfg x ∧
        (∀ f ∈ [F.FHL_POLi.EN, F.FHL_POLi.MODE, F.FHL_POLi.AWARE, F.FHL_POLi.YDROP], t.fld f x = bits v.toNat f.hi f.lo) ∧
        t.fld F.FHL_POLi.CIR x = min (bits v.toNat F.FHL_POLi.CIR.hi F.FHL_POLi.CIR.lo) 400000 ∧
        SameBut [(F.FHL_POLi.EN, x), (F.FHL_POLi.MODE, x), (F.FHL_POLi.AWARE, x), (F.FHL_POLi.YDROP, x), (F.FHL_POLi.CIR, x)] u t) ∧
      (∃ t, exec (.policerWrite k i 1 v) s = .next t ∧ t.polCfg x = s.polCfg x ∧
        t.fld F.FHL_POLi.PIR x = min (bits v.toNat 18 0) 400000 ∧ t.fld F.FHL_POLi.CBS x = bits v.toNat 55 32 ∧
        SameBut [(F.FHL_POLi.PIR, x), (F.FHL_POLi.CBS, x)] u t) ∧
      (∃ t, exec (.policerWrite k i 2 v) s = .next t ∧ t.polCfg x = s.polCfg x ∧
        t.fld F.FHL_POLi.EPBS x = bits v.toNat (F.FHL_POLi.EPBS.hi - 128) (F.FHL_POLi.EPBS.lo - 128) ∧ SameBut [(F.FHL_POLi.EPBS, x)] u t) ∧
      ∃ t, exec (.policerWrite k i 3 v) s = .next t ∧ Same u t) ∧
          (s.takesWrite .FHL_POLi x = false → ∀ w < 4, ∃ t, exec (.policerWrite k i w v) s = .next t ∧ Same s t)) ∧
  (∀ (s u w : State) (k base log2 cons n : Nat), k < 4 ∧ s.flag F.PKG_NETQ_TX.EN k = true ∧ s.dieOut (28 + k) = false →
    base = s.fld F.PKG_NETQ_TX.BASE k * 64 ∧ log2 = clamp 4 10 (s.fld F.PKG_NETQ_TX.LOG2 k) ∧ s.netRam k base log2 = true →
    cons = s.ringCons base ∧ cons ≠ s.ringProd base →
    u = (s.meet (netSlot base log2 cons) 9216).meet (netSlot base log2 cons + 9216) 2 → n = u.readNat (netSlot base log2 cons + 9216) 2 →
    w = u.put 0 (base + 4) (bytesOf 4 ((cons + 1) % 2 ^ 32)) →
    (64 ≤ n ∧ n ≤ 9216 ∧ w.rangePoison (netSlot base log2 cons) n = false →
      ∃ t, exec (.netqTransmit k) s = .next t ∧ Same (w.switchIn k 4 (frameOf (u.read (netSlot base log2 cons) n))) t) ∧
          (n < 64 ∨ 9216 < n ∨ w.rangePoison (netSlot base log2 cons) n = true →
            ∃ t, exec (.netqTransmit k) s = .next t ∧ Same w t)) ∧
  (∀ (s : State) (k base : Nat), k < 4 ∧ base = s.fld F.PKG_NETQ_TX.BASE k * 64 →
    s.flag F.PKG_NETQ_TX.EN k = false ∨ s.dieOut (28 + k) = true ∨ s.netRam k base (clamp 4 10 (s.fld F.PKG_NETQ_TX.LOG2 k)) = false ∨
      s.ringCons base = s.ringProd base →
    ∃ t, exec (.netqTransmit k) s = .next t ∧ Same s t)

/-- A request on a link that is not ACTIVE, from an expelled device or of a type the device does not accept has no effect; one of a reserved
TYPE is discarded and counted in MISROUTE; one for another device is forwarded. A line read and a byte read the checks pass are answered
with the data and their poison, the words with their errors met; a write is recorded, writes its bytes, poisoned where the packet is,
and is answered OK; an atomic on an aligned address is recorded and returns the old value; a refused request is answered with its
status and nothing else happens (in the layouts of log entry 40 for atomics). Whether a service took longer than TSV is open. A
segment of a message that the queue may take is kept; at the last one the whole message is delivered once and answered; a duplicate is
answered without delivery, and a refused one is answered with its status and counted in BUSYCNT where the queue is full. A reply goes
to the request's source with its tag and generation. -/
def Obligations.FabricRequestsServed : Prop :=
  (∀ (s : State) (i : Instr) (l ty : Nat) (p : Packet) (e : Ecc), IsRequest i l p e ty ∧ s.mmio = [] →
    (s.linkUp l = false ∨ s.expelled p.src = true ∨ s.fabOn p.ty = false → ∃ t, exec i s = .next t ∧ Same s t) ∧
          (s.linkUp l = true ∧ s.expelled p.src = false ∧ s.fabOn p.ty = true →
            (p.ty = 0 ∨ 10 < p.ty → ∃ t, exec i s = .next t ∧ Same (s.incFld F.FAB_CNT.MISROUTE) t) ∧
            (1 ≤ p.ty ∧ p.ty ≤ 10 ∧ p.ty ≠ ty → ∃ t, exec i s = .next t ∧ Same s t) ∧
            (p.ty = ty ∧ p.dst ≠ s.sysid → ∃ t, exec i s = .next t ∧ Same (s.forward p) t))) ∧
  (∀ (s : State) (i : Instr) (l a n k : Nat) (p : Packet),
    (i = .fabricRdl l p ∧ Comes s p 1 ∧ a = p.addr / 64 * 64 ∧ n = 64) ∨ (i = .fabricRds l p ∧ Comes s p 2 ∧ a = p.addr ∧ n = p.mlen % 8 + 1) →
    l < 64 ∧ s.linkUp l = true ∧ s.refused l p a n = some k →
    ∃ t, exec i s = .next t ∧ Same (s.reply p k) t) ∧
  (∀ (s u : State) (i : Instr) (l a n : Nat) (p : Packet),
    (i = .fabricRdl l p ∧ Comes s p 1 ∧ a = p.addr / 64 * 64 ∧ n = 64) ∨ (i = .fabricRds l p ∧ Comes s p 2 ∧ a = p.addr ∧ n = p.mlen % 8 + 1) →
    l < 64 ∧ s.linkUp l = true ∧ s.refused l p a n = none →
    u = (if Config.freeValue s.free % 2 = 1 then { s with free := s.free + 1 }.incFld F.FAB_CNT.LATE_REPLY else { s with free := s.free + 1 }) →
    (∀ o, place (faOfs a) = .regs o → ∃ t, exec i s = .next t ∧
        Same ((u.regBytes .caldera o n).2.reply p 0 (u.regBytes .caldera o n).1) t) ∧
          ((∀ o, place (faOfs a) ≠ .regs o) → ∀ v, v = u.meet (faOfs a) n → ∃ t, exec i s = .next t ∧
            Same (v.reply p 0 (v.view (faOfs a) n) (v.rangePoison (faOfs a) n)) t)) ∧
  (∀ (s : State) (l : Nat) (p : Packet) (e : Ecc) (d : List Byte) (pois : Bool), l < 64 ∧ s.linkUp l = true ∧ Comes s p 3 →
    d = p.payload.take 8 ∧ pois = (p.poison || p.payPoison.any id) →
    (∀ k, s.refused l p p.addr (max 1 d.length) = some k → ∃ t, exec (.fabricWr l p e) s = .next t ∧ Same ((s.reply p k).applyMmio .caldera) t) ∧
          (s.refused l p p.addr (max 1 d.length) = none →
            ∃ t, exec (.fabricWr l p e) s = .next t ∧
              Same
               (let u := s.obs 7 p.src (3 + d.length * 16) p.addr d pois
                (((u.strikeWrite (faOfs p.addr) d.length e).put 0 (faOfs p.addr) d pois).reply p 0).applyMmio .caldera) t)) ∧
  (∀ (s : State) (l : Nat) (p : Packet) (e : Ecc), l < 64 ∧ s.linkUp l = true ∧ Comes s p 4 →
    (faClass p.addr = 3 ∨ p.addr % 8 ≠ 0 → ∃ t, exec (.fabricAtom l p e) s = .next t ∧ Same (s.reply p 6) t) ∧
          (∀ k, faClass p.addr ≠ 3 ∧ p.addr % 8 = 0 ∧ s.refused l p p.addr 8 = some k →
            ∃ t, exec (.fabricAtom l p e) s = .next t ∧ Same (s.reply p k) t) ∧
          (∀ (op new fn : Nat) (sgn pois : Bool) (u : State) (r : Nat × Bool × State),
            faClass p.addr ≠ 3 ∧ p.addr % 8 = 0 ∧ s.refused l p p.addr 8 = none →
            op = natOf (slice p.payload 0 8) ∧ new = natOf (slice p.payload 8 8) ∧ fn = bits (natOf (slice p.payload 16 1)) 1 0 ∧
              sgn = bit (natOf (slice p.payload 16 1)) 2 ∧ pois = (p.poison || p.payPoison.any id) →
            u = (s.obs 7 p.src (4 + 8 * 16 + (fn + 4 * b2n sgn) * 256) p.addr (p.payload.take 16) pois).service.strike e →
            r = u.atomic 0 (faOfs p.addr) fn sgn op new pois →
            ∃ t, exec (.fabricAtom l p e) s = .next t ∧ Same (r.2.2.reply p 0 (bytesOf 8 r.1) r.2.1) t)) ∧
  (∀ (s u : State) (l q n : Nat) (last : Bool) (p : Packet), l < 64 ∧ s.linkUp l = true ∧ Comes s p 5 →
    q = p.addr % 4096 ∧ n = p.mlen + 1 ∧ last = (p.seg + 1 == (n + 4095) / 4096) →
    ((s.mq q).seen.contains (p.src, p.tag) = true →
      ∃ t, exec (.fabricMsg l p) s = .next t ∧ Same (if last then s.reply p 0 else s) t) ∧
          (∀ (deny : Option Nat), (s.mq q).seen.contains (p.src, p.tag) = false →
            deny = (if s.replaying = true ∧ s.inSet p.src = false then some 2
              else if s.fld F.FAB_Ll_STATUS.LVL l < 3 ∧ 65536 < n then some 5 else s.msgRefused q p.ftid n) →
            (∀ k, deny = some k → u = s.setMq q ((s.mq q).purge p.src p.tag) →
              ∃ t, exec (.fabricMsg l p) s = .next t ∧
                Same (if last then (if k = 3 then u.incFld F.FAB_MQn.BUSYCNT q else u).reply p k else u) t) ∧
            (deny = none →
              u = s.setMq q { s.mq q with parts := ((s.mq q).parts.filter fun (a, b, c, _, _) => !(a == p.src && b == p.tag && c == p.seg)) ++
                [(p.src, p.tag, p.seg, p.payload,
                  (List.range ((p.payload.length + 63) / 64)).map fun i => p.poison || p.payPoison.getD i false)] } →
              (last = false ∨ (u.mq q).whole p.src p.tag n = none → ∃ t, exec (.fabricMsg l p) s = .next t ∧ Same u t) ∧
              (∀ (d : List Byte) (pois : List Bool) (st : Nat) (v : State),
                last = true ∧ (u.mq q).whole p.src p.tag n = some (d, pois) ∧ u.accept q p.src p.ftid d pois = (st, v) →
                ∃ t, exec (.fabricMsg l p) s = .next t ∧
                  Same
                   (let m := (v.mq q).purge p.src p.tag
                    (v.setMq q (if st = 0 then { m with seen := ((p.src, p.tag) :: m.seen).take 4096 } else m)).reply p st) t)))) ∧
  (∀ (s : State) (p : Packet) (k ty : Nat) (d : List Byte) (pois : Bool),
    (p.ty = 1 ∨ p.ty = 2 ∨ p.ty = 4) ∧ ty = 8 ∨ (p.ty = 3 ∨ 5 ≤ p.ty ∧ p.ty ≤ 7) ∧ ty = 9 →
    s.reply p k d pois = s.send
      { ty := ty, status := k, dst := p.src, src := s.sysid, tag := p.tag, gen := p.gen, ftid := p.ftid, job := p.job, addr := p.addr
        payload := d, plen := d.length, poison := pois, payPoison := List.replicate ((d.length + 63) / 64) pois } (hashOf p))

/-- A packet of an expelled device or of a type not accepted has no effect, one of a reserved TYPE is counted, one for another device is
forwarded. A barrier arrival at the master is recorded and answered; a release of a barrier's epoch is scheduled for its cycle or,
late, applied at once and counted, and one of another epoch is counted in STALE; in a replay a device outside the set gets UNREACH. A
scheduled release is applied when its cycle has come and the epoch still fits; a barrier without a release in BAR_TMO raises an event. A
DATA reply completes the load it answers, or writes an atomic's old value; an OK ACK completes a committed operation and another status
fails it; UNREACH and DEAD declare a request unanswered; a message told BUSY is sent again up to 3 times; a reply to a killed command
is discarded; one of an old generation, and one of an orphaned request of a basin, is counted for the basin, one without a request in
STALE, and one after the round trip in LATE_REPLY. A request without a reply in TMO, or whose target is DEAD, is declared unanswered; a
message without one in MC_RTO is sent again up to 3 times, then failed. Tearing a job down marks it TORN, ends its commands and orphans
its requests; removing it frees its entry; each sets ERR where it cannot. A write of a route entry stores it and looks at the requests
again; FAB_FTIDb is written only while its basin is BUILDING and not with 0. -/
def Obligations.FabricRepliesComplete : Prop :=
  (∀ (s : State) (i : Instr) (ty : Nat) (p : Packet), IsPacket i p ty ∧ s.mmio = [] →
    (s.expelled p.src = true ∨ s.fabOn p.ty = false → ∃ t, exec i s = .next t ∧ Same s t) ∧
          (s.expelled p.src = false ∧ s.fabOn p.ty = true →
            (p.ty = 0 ∨ 10 < p.ty → ∃ t, exec i s = .next t ∧ Same (s.incFld F.FAB_CNT.MISROUTE) t) ∧
            (1 ≤ p.ty ∧ p.ty ≤ 10 ∧ p.ty ≠ ty → ∃ t, exec i s = .next t ∧ Same s t) ∧
            (p.ty = ty ∧ p.dst ≠ s.sysid → ∃ t, exec i s = .next t ∧ Same (s.forward p) t))) ∧
  (∀ (s : State) (p : Packet), Comes s p 6 →
    ∃ t, exec (.fabricBarr p) s = .next t ∧
      Same ((if s.replaying = true ∧ s.inSet p.src = false then s.reply p 2
        else (s.arriveDev (p.addr % 4096) (p.src % 512) (bits p.addr 31 16)).reply p 0).applyMmio .caldera) t) ∧
  (∀ (s : State) (p : Packet), Comes s p 7 →
    ∃ t, exec (.fabricBrel p) s = .next t ∧
          Same
           (let b := p.addr % 4096
            let e := bits p.addr 31 16
            let used := s.oneWay (p.hops + 1) + p.res
            let u := s.reply p 0
            if s.replaying = true ∧ s.inSet p.src = false then s.reply p 2
            else if u.barEn b = false ∨ u.barEpoch b ≠ e then u.incFld F.FAB_CNT.STALE
            else if u.fld F.FAB_HOPC.BUDGET < used then
              ((u.incFld F.FAB_CNT.BAR_LATE).raise srcBarrier { basin := u.barOwner b, gen := u.gen (u.barOwner b), data := b }).releaseBar b
            else u.setBar b { u.bar b with release := some (e, u.gey.arr + (u.fld F.FAB_HOPC.BUDGET - used) * 625) }) t) ∧
  (∀ (s : State) (b : Nat), b < 4096 →
    (∀ e c, (s.bar b).release = some (e, c) ∧ c ≤ s.gey.arr →
      ∃ t, exec (.barrierReleaseApply b) s = .next t ∧
          Same (if s.barEpoch b = e then s.releaseBar b else s.setBar b { s.bar b with release := none }) t) ∧
          ((∀ e c, (s.bar b).release = some (e, c) → s.gey.arr < c) → ∃ t, exec (.barrierReleaseApply b) s = .next t ∧ Same s t) ∧
          (∀ k, (s.bar b).sent = some k ∧ s.elapsed k (s.fld F.FAB_CTRL.BAR_TMO * 1000) = true →
            ∃ t, exec (.barrierTimeout b) s = .next t ∧
              Same ((s.setBar b { s.bar b with sent := none }).raise srcBarrier { basin := s.barOwner b, gen := s.gen (s.barOwner b), data := b }) t) ∧
          ((∀ k, (s.bar b).sent = some k → s.elapsed k (s.fld F.FAB_CTRL.BAR_TMO * 1000) = false) →
            ∃ t, exec (.barrierTimeout b) s = .next t ∧ Same s t)) ∧
  (∀ (s u : State) (i : Instr) (p : Packet) (k : Txn), IsReply i p → Comes s p p.ty →
    (s.fab.txns.find? fun t => t.tag == p.tag && (t.pkt.dst == p.src || p.status == 2)) = some k →
    u = (if (s.tmb.clk - k.clk) * 4200 > s.roundTrip (s.rtClass k.pkt.dst + 1) * 625 then s.incFld F.FAB_CNT.LATE_REPLY else s) →
    (p.gen ≠ u.gen k.basin →
      ∃ t, exec i s = .next t ∧ Same (((u.opDone k false).incFld F.BSN_STALEb.FABRIC k.basin).applyMmio .caldera) t) ∧
          (p.gen = u.gen k.basin ∧ (k.pkt.ty = 1 ∨ k.pkt.ty = 2) →
            (u.stillWaits k = false → ∃ t, exec i s = .next t ∧ Same ((u.forget k.tag).applyMmio .caldera) t) ∧
            (u.stillWaits k = true ∧ p.status = 0 → ∃ t, exec i s = .next t ∧
              Same
               (let v := u.forget k.tag
                let d := slice p.payload 0 64
                (if v.stillWaits k = false then v
                  else if k.pkt.ty = 1 then (v.rrcFill (k.g / 2) k.basin k.pkt.addr d (pktDirty p)).floadDone k
                    (loadValue k.fn (d.drop (k.pkt.addr % 64))) (pktDirty p)
                  else v.floadDone k (loadValue k.fn p.payload) (pktDirty p)).applyMmio .caldera) t) ∧
            (u.stillWaits k = true ∧ (p.status = 1 ∨ p.status = 6) → ∃ t, exec i s = .next t ∧
              Same (((u.killEnd k.g k.c 2).forget k.tag).applyMmio .caldera) t) ∧
            (u.stillWaits k = true ∧ p.status ≠ 0 ∧ p.status ≠ 1 ∧ p.status ≠ 6 → ∃ t, exec i s = .next t ∧
              Same ((u.unanswered k).applyMmio .caldera) t)) ∧
          (p.gen = u.gen k.basin ∧ k.pkt.ty ≠ 1 ∧ k.pkt.ty ≠ 2 →
            (p.status = 2 ∨ p.status = 4 → ∃ t, exec i s = .next t ∧ Same ((u.unanswered k).applyMmio .caldera) t) ∧
            (p.status = 0 → ∃ t, exec i s = .next t ∧
              Same (((if k.pkt.ty = 4 then u.put k.basin k.ret (slice p.payload 0 8) (pktDirty p) else u).opDone k false).applyMmio .caldera) t) ∧
            (p.status = 3 ∧ k.pkt.ty = 5 ∧ k.tries < 3 → ∃ t, exec i s = .next t ∧ Same ((u.retry k).applyMmio .caldera) t) ∧
            (p.status ≠ 0 ∧ p.status ≠ 2 ∧ p.status ≠ 4 ∧ (p.status ≠ 3 ∨ k.pkt.ty ≠ 5 ∨ 3 ≤ k.tries) → ∃ t, exec i s = .next t ∧
              Same ((u.opDone k true).applyMmio .caldera) t))) ∧
  (∀ (s : State) (i : Instr) (p : Packet), IsReply i p → Comes s p p.ty → s.mmio = [] →
    (s.fab.txns.find? fun t => t.tag == p.tag && (t.pkt.dst == p.src || p.status == 2)) = none →
    ((s.fab.orphans.find? fun o => o.1 == p.tag) = none → ∃ t, exec i s = .next t ∧ Same (s.incFld F.FAB_CNT.STALE) t) ∧
          (∀ tag b, (s.fab.orphans.find? fun o => o.1 == p.tag) = some (tag, b) → ∃ t, exec i s = .next t ∧
            Same
             (let v := s.modFab fun f => { f with orphans := f.orphans.filter fun o => o.1 != p.tag }
              match b with
              | some b => v.incFld F.BSN_STALEb.FABRIC b
              | none => v) t)) ∧
  (∀ (s : State) (tag : Nat),
    (∀ k, (s.fab.txns.find? fun t => t.tag == tag) = some k ∧
        (s.rtDead k.pkt.dst = true ∨ (k.link ≠ none ∧ k.link ≠ some 64 ∧ s.elapsed k.clk (s.fld F.FAB_CTRL.TMO) = true)) →
      ∃ t, exec (.requestUnanswered tag) s = .next t ∧ Same ((s.unanswered k).applyMmio .caldera) t) ∧
          (s.mmio = [] ∧ (∀ k, (s.fab.txns.find? fun t => t.tag == tag) = some k → s.rtDead k.pkt.dst = false ∧
              (k.link = none ∨ k.link = some 64 ∨ s.elapsed k.clk (s.fld F.FAB_CTRL.TMO) = false)) →
            ∃ t, exec (.requestUnanswered tag) s = .next t ∧ Same s t) ∧
          (∀ k, (s.fab.txns.find? fun t => t.tag == tag) = some k ∧ k.pkt.ty = 5 ∧ k.link ≠ none ∧
              s.elapsed k.clk (s.fld F.FAB_CTRL.MC_RTO) = true →
            ∃ t, exec (.messageRetry tag) s = .next t ∧
              Same
               (let m := { k with tries := k.tries + 1, clk := s.tmb.clk }
                if 3 ≤ k.tries then (s.forget k.tag).drainDone k true
                else if k.link = some 64 then (s.deliverOwn m).relaunch
                else (s.setTxn { m with link := s.firstHop k.pkt.dst k.hash }).send k.pkt k.hash) t) ∧
          ((∀ k, (s.fab.txns.find? fun t => t.tag == tag) = some k →
              k.pkt.ty ≠ 5 ∨ k.link = none ∨ s.elapsed k.clk (s.fld F.FAB_CTRL.MC_RTO) = false) →
            ∃ t, exec (.messageRetry tag) s = .next t ∧ Same s t)) ∧
  (∀ (s x w : State) (v : Word) (j : Nat), j = bits v.toNat 31 0 ∧ s.takesWrite .FAB_TEARDOWN 0 = true →
    x = (s.setFld F.FAB_TEARDOWN.JOB 0 j).setFld F.FAB_TEARDOWN.OP 0 0 ∧ w = (if bit v.toNat 35 then x.setFld F.FAB_TEARDOWN.ERR 0 0 else x) →
    ((s.fab.jobs.any fun e => e.1 == j) = true ∨ s.fab.jobs.length < 64 →
      ∃ t, exec (.jobTeardown v) s = .next t ∧
        Same (((w.setJobs ((s.fab.jobs.filter fun e => e.1 != j) ++ [(j, true)])).endJob j).orphan
          (fun t => decide (t.g < 24) && t.job == j) none) t) ∧
          ((s.fab.jobs.any fun e => e.1 == j) = false ∧ 64 ≤ s.fab.jobs.length →
            ∃ t, exec (.jobTeardown v) s = .next t ∧ Same (w.setFld F.FAB_TEARDOWN.ERR 0 1) t)) ∧
  (∀ (s x w : State) (v : Word) (j : Nat), j = bits v.toNat 31 0 ∧ s.takesWrite .FAB_TEARDOWN 0 = true →
    x = (s.setFld F.FAB_TEARDOWN.JOB 0 j).setFld F.FAB_TEARDOWN.OP 0 1 ∧ w = (if bit v.toNat 35 then x.setFld F.FAB_TEARDOWN.ERR 0 0 else x) →
    ((s.fab.jobs.any fun e => e.1 == j) = true →
      ∃ t, exec (.jobTableRemove v) s = .next t ∧ Same (w.setJobs (s.fab.jobs.filter fun e => e.1 != j)) t) ∧
          ((s.fab.jobs.any fun e => e.1 == j) = false →
            ∃ t, exec (.jobTableRemove v) s = .next t ∧ Same (w.setFld F.FAB_TEARDOWN.ERR 0 1) t)) ∧
  (∀ (s : State) (v : Word), s.takesWrite .FAB_TEARDOWN 0 = false →
    (∃ t, exec (.jobTeardown v) s = .next t ∧ Same s t) ∧ ∃ t, exec (.jobTableRemove v) s = .next t ∧ Same s t) ∧
  (∀ (s : State) (pod : Bool) (i : Nat) (v : Word), i < (if pod then 16 else 512) →
    (s.takesWrite (if pod then .FAB_PODRTp else .FAB_ROUTEi) i = true →
      ∃ t, exec (.routeWrite pod i v) s = .next t ∧
          Same ((((s.setReg (if pod then .FAB_PODRTp else .FAB_ROUTEi) i v.toNat).sweepDead).relaunch).applyMmio .caldera) t) ∧
          (s.takesWrite (if pod then .FAB_PODRTp else .FAB_ROUTEi) i = false ∧ s.mmio = [] →
            ∃ t, exec (.routeWrite pod i v) s = .next t ∧ Same s t)) ∧
  (∀ (s : State) (b : Nat) (v : BitVec 32), b < 256 →
    (s.takesWrite .FAB_FTIDb b = true ∧ 0 < b ∧ s.fld F.BSN_STATEb.STATE b = 1 ∧ bits v.toNat 15 0 ≠ 0 →
      ∃ t, exec (.ftidWrite b v) s = .next t ∧ t.fld F.FAB_FTIDb.FTID b = bits v.toNat 15 0 ∧ t.fld F.FAB_FTIDb.EN b = bits v.toNat 16 16 ∧
        SameBut [(F.FAB_FTIDb.FTID, b), (F.FAB_FTIDb.EN, b)] s t) ∧
          (s.takesWrite .FAB_FTIDb b = false ∨ b = 0 ∨ s.fld F.BSN_STATEb.STATE b ≠ 1 ∨ bits v.toNat 15 0 = 0 →
            ∃ t, exec (.ftidWrite b v) s = .next t ∧ Same s t))

/-- EN written 1 starts training on a link of a unit in service that is down or refused, RETRAIN takes the link down first, and returning
light starts training too; a write to a fenced link only stores EN, and a die that takes no writes ignores it. Training ends with the
link ACTIVE at the common level, with a fresh sequence, where the partner is accepted, and REFUSED with an event otherwise; packets it
still held are dropped. A flit with a wrong CRC is counted and a replay requested; the expected flit advances the sequence, another asks
for a replay, and each frees what it acknowledges and lets packets go that waited. A replay request sends the retained packets again
from the requested flit. A link goes down after 8 replays of one flit, without a flit for 1 microsecond, at loss of light or fenced; it
is counted and reported, and holds its packets; LINKSEQ has the later ones resent, and without it they are dropped after 10 microseconds.
A link change of another device is learned once and flooded on; its view is learned; the own view is flooded every 100 microseconds
and SETTLED is set after 2 ms without change. A vote of a manager is flooded and counted; GO of a device that may not vote sets ERR. On
an inactive link, for a device expelled, or where nothing is due, nothing changes. -/
def Obligations.LinksAndViewComplete : Prop :=
  (∀ (s u : State) (l : Nat) (v : BitVec 32), l < 64 ∧ s.takesWrite .FAB_Ll_CTRL l = true → u = s.setFld F.FAB_Ll_CTRL.EN l 1 →
    (s.fld F.FAB_Ll_STATUS.STATE l = 7 →
      (∃ t, exec (.linkEnable l v) s = .next t ∧ Same (u.applyMmio .caldera) t) ∧
        ∃ t, exec (.linkRetrain l v) s = .next t ∧ Same ((s.setFld F.FAB_Ll_CTRL.EN l (bits v.toNat 0 0)).applyMmio .caldera) t) ∧
          (s.fld F.FAB_Ll_STATUS.STATE l ≠ 7 →
            (bit v.toNat 1 = true → ∃ t, exec (.linkEnable l v) s = .next t ∧ Same (((u.downLink l 0).startTraining l).applyMmio .caldera) t) ∧
            (bit v.toNat 1 = false ∧ s.flag F.FAB_Ll_CTRL.EN l = true →
              ∃ t, exec (.linkEnable l v) s = .next t ∧ Same (u.applyMmio .caldera) t) ∧
            (bit v.toNat 1 = false ∧ s.flag F.FAB_Ll_CTRL.EN l = false →
              ∃ t, exec (.linkEnable l v) s = .next t ∧
                Same ((if s.unitOut (linkUnit l) = false ∧ (s.fld F.FAB_Ll_STATUS.STATE l = 0 ∨ s.fld F.FAB_Ll_STATUS.STATE l = 6)
                  then u.setFld F.FAB_Ll_STATUS.STATE l 1 else u).applyMmio .caldera) t) ∧
            (bit v.toNat 0 = true → ∃ t, exec (.linkRetrain l v) s = .next t ∧ Same (((u.downLink l 0).startTraining l).applyMmio .caldera) t) ∧
            (bit v.toNat 0 = false → ∃ t, exec (.linkRetrain l v) s = .next t ∧
              Same (((s.setFld F.FAB_Ll_CTRL.EN l 0).downLink l 0).applyMmio .caldera) t))) ∧
  (∀ (s : State) (l : Nat) (v : BitVec 32), l < 64 ∧ s.takesWrite .FAB_Ll_CTRL l = false ∧ s.mmio = [] →
    (∃ t, exec (.linkEnable l v) s = .next t ∧ Same s t) ∧ ∃ t, exec (.linkRetrain l v) s = .next t ∧ Same s t) ∧
  (∀ (s : State) (l : Nat), l < 64 →
    ∃ t, exec (.lightReturn l) s = .next t ∧
          t.fld F.FAB_Ll_STATUS.STATE l = (if s.flag F.FAB_Ll_CTRL.EN l = true ∧ s.unitOut (linkUnit l) = false ∧
            (s.fld F.FAB_Ll_STATUS.STATE l = 0 ∨ s.fld F.FAB_Ll_STATUS.STATE l = 6) then 1 else s.fld F.FAB_Ll_STATUS.STATE l) ∧
          SameBut [(F.FAB_Ll_STATUS.STATE, l)] s t) ∧
  (∀ (s x u : State) (l : Nat) (p : Partner),
    l < 64 ∧ 1 ≤ s.fld F.FAB_Ll_STATUS.STATE l ∧ s.fld F.FAB_Ll_STATUS.STATE l < 5 →
    x = (if (s.link l).heldAt = none then s else s.dropHeld l) →
    u = ((x.setFld F.FAB_Ll_STATUS.PARTNER l p.sysid).setFld F.FAB_Ll_STATUS.PLINK l p.plink).setFld F.FAB_Ll_STATUS.LM l p.lm →
    (∀ v, u.expelled p.sysid = false ∧ p.sysid / 512 = u.sysid / 512 ∧ p.lm ≤ u.fld F.FAB_HOPC.LC ∧
        commonLevel (u.fld F.FAB_CTRL.NATIVE) p.native = some v →
      ∃ t, exec (.linkTrainingEnd l p) s = .next t ∧
          Same
           (let w := (u.setFld F.FAB_Ll_STATUS.STATE l 5).setFld F.FAB_Ll_STATUS.LVL l v
            let w := (w.setLink l { lastFlit := w.tmb.clk }).linkChanged l
            ((if v = 2 then w.failLevel l else w).relaunch).applyMmio .caldera) t) ∧
          (u.expelled p.sysid = true ∨ p.sysid / 512 ≠ u.sysid / 512 ∨ u.fld F.FAB_HOPC.LC < p.lm ∨
              commonLevel (u.fld F.FAB_CTRL.NATIVE) p.native = none →
            ∃ t, exec (.linkTrainingEnd l p) s = .next t ∧
              Same (((u.setFld F.FAB_Ll_STATUS.STATE l 6).raise srcMember { level := 3, data := l }).applyMmio .caldera) t)) ∧
  (∀ (s : State) (l : Nat) (p : Partner), l < 64 ∧ s.mmio = [] → s.fld F.FAB_Ll_STATUS.STATE l = 0 ∨ 5 ≤ s.fld F.FAB_Ll_STATUS.STATE l →
    ∃ t, exec (.linkTrainingEnd l p) s = .next t ∧ Same s t) ∧
  (∀ (s : State) (l seq ack : Nat) (k : Link) (b : List OnLink), l < 64 ∧ s.linkUp l = true ∧ s.link l = k →
    b = k.buf.filter (fun e => decide (ack < e.last)) →
    (∃ t, exec (.flitReceive l seq ack false) s = .next t ∧
        Same ((((s.incFld F.FAB_Ll_CNT.CRCERR l).incFld F.FAB_Ll_CNT.REPLAY l).obsTiming (unitSrc (linkUnit l)) 8).emit (.replay l k.rxSeq)) t) ∧
          (∀ (m : Link) (u : State), m = { k with buf := b, replays := if b.length < k.buf.length then 0 else k.replays, lastFlit := s.tmb.clk } →
            u = (if seq = k.rxSeq then s.setLink l { m with rxSeq := k.rxSeq + 1 }
              else (((s.setLink l m).incFld F.FAB_Ll_CNT.REPLAY l).obsTiming (unitSrc (linkUnit l)) 8).emit (.replay l k.rxSeq)) →
            ∃ t, exec (.flitReceive l seq ack true) s = .next t ∧ Same (State.pumpLink (k.queue.length + 1) l u) t)) ∧
  (∀ (s : State) (l seq : Nat) (k : Link), l < 64 ∧ s.linkUp l = true ∧ s.link l = k →
    ∃ t, exec (.replayRequest l seq) s = .next t ∧
          Same
           (let u := (((s.incFld F.FAB_Ll_CNT.REPLAY l).countAction (28 + l / 16) 0).obsTiming (unitSrc (linkUnit l)) 8).setLink l
              { k with replayAt := seq, replays := if k.replayAt = seq then k.replays + 1 else 1 }
            (k.buf.filter fun e => decide (seq ≤ e.last)).foldl (fun (u : State) (e : OnLink) => u.wire l (u.delayed l e.t e.pkt)) u) t) ∧
  (∀ (s : State) (l seq ack cause : Nat) (ok : Bool), l < 64 ∧ s.linkUp l = false ∧ s.mmio = [] →
    (∃ t, exec (.flitReceive l seq ack ok) s = .next t ∧ Same s t) ∧ (∃ t, exec (.replayRequest l seq) s = .next t ∧ Same s t) ∧
          (cause < 4 → ∃ t, exec (.linkDown l cause) s = .next t ∧ Same s t)) ∧
  (∀ (s : State) (l cause : Nat), l < 64 ∧ s.linkUp l = true →
    ((cause = 0 ∧ 8 ≤ (s.link l).replays) ∨ (cause = 1 ∧ s.elapsed (s.link l).lastFlit 1 = true) ∨ cause = 2 →
      ∃ t, exec (.linkDown l cause) s = .next t ∧
        Same ((((s.incFld F.FAB_Ll_CNT.DOWNS l).downLink l 0).detect (28 + l / 16) 8 1 (unitSrc (linkUnit l)) 0).applyMmio .caldera) t) ∧
          ((cause = 0 ∧ (s.link l).replays < 8) ∨ (cause = 1 ∧ s.elapsed (s.link l).lastFlit 1 = false) →
            s.mmio = [] → ∃ t, exec (.linkDown l cause) s = .next t ∧ Same s t) ∧
          (∀ u, u = (if s.fencedUnit (linkUnit l) then s else s.addFence ⟨linkUnit l, 1, false, false⟩) →
            ∃ t, exec (.linkDown l 3) s = .next t ∧
              Same (((((u.incFld F.FAB_Ll_CNT.DOWNS l).downLink l 7).detect (28 + l / 16) 8 1 (unitSrc (linkUnit l)) 0).tileFenced
                (28 + l / 16) (l % 16 / 4) fun s => s.fenceLinks (l / 4) 8).applyMmio .caldera) t)) ∧
  (∀ (s : State) (l seq : Nat) (k : Link), l < 64 ∧ s.link l = k →
    (s.linkUp l = false ∧ k.heldAt ≠ none → ∃ t, exec (.linkseq l seq) s = .next t ∧
        Same (((k.held.filter fun e => decide (seq < e.last)).foldl State.resend
          (s.setLink l { k with buf := [], queue := [], heldAt := none })).applyMmio .caldera) t) ∧
          ((s.linkUp l = true ∨ k.heldAt = none) ∧ s.mmio = [] → ∃ t, exec (.linkseq l seq) s = .next t ∧ Same s t) ∧
          (∀ c, k.heldAt = some c ∧ s.elapsed c 10 = true →
            ∃ t, exec (.linkseqTimeout l) s = .next t ∧ Same ((s.dropHeld l).applyMmio .caldera) t) ∧
          ((∀ c, k.heldAt = some c → s.elapsed c 10 = false) ∧ s.mmio = [] → ∃ t, exec (.linkseqTimeout l) s = .next t ∧ Same s t)) ∧
  (∀ (s : State) (dev l c sq : Nat), dev < 512 ∧ l < 64 ∧ c < 8 →
    (s.fabOn 10 = true ∧ s.expelled (s.sysid / 512 * 512 + dev) = false ∧ dev ≠ s.pidx ∧ SMap.get 0 s.fab.seqs dev < sq →
      ∃ t, exec (.lstate dev l c sq) s = .next t ∧
          Same
           (let u := s.modFab fun f => { f with seqs := SMap.set 0 f.seqs dev sq }
            let u := if SMap.get 0 s.fab.view (dev * 64 + l) = c then u else u.learn dev l c
            u.flood 0 (bytesOf 1 l ++ bytesOf 2 0 ++ bytesOf 1 c ++ bytesOf 4 sq)) t) ∧
          (s.fabOn 10 = false ∨ s.expelled (s.sysid / 512 * 512 + dev) = true ∨ dev = s.pidx ∨ sq ≤ SMap.get 0 s.fab.seqs dev →
            ∃ t, exec (.lstate dev l c sq) s = .next t ∧ Same s t)) ∧
  (∀ (s : State) (dev : Nat) (states : List Nat), dev < 512 →
    (s.fabOn 10 = true ∧ s.expelled (s.sysid / 512 * 512 + dev) = false ∧ dev ≠ s.pidx →
      ∃ t, exec (.lview dev states) s = .next t ∧
          Same (((states.take 64).zipIdx).foldl (fun u x =>
            if SMap.get 0 (State.fab u).view (dev * 64 + x.2) = x.1 then u else State.learn u dev x.2 x.1) s) t) ∧
          (s.fabOn 10 = false ∨ s.expelled (s.sysid / 512 * 512 + dev) = true ∨ dev = s.pidx →
            ∃ t, exec (.lview dev states) s = .next t ∧ Same s t)) ∧
  (∀ (s : State),
    (s.elapsed s.fab.lviewClk 100 = true → ∃ t, exec .lviewSend s = .next t ∧
          Same
           (let u := (s.modFab fun f => { f with lviewClk := s.tmb.clk }).flood 1
              ((List.range 64).map fun l => BitVec.ofNat 8 (s.fld F.FAB_Ll_STATUS.STATE l))
            if u.elapsed u.fab.viewClk 2000 then u.setFld F.FAB_MEMB.SETTLED 0 1 else u) t) ∧
          (s.elapsed s.fab.lviewClk 100 = false → ∃ t, exec .lviewSend s = .next t ∧ Same s t)) ∧
  (∀ (s x u : State) (v : BitVec 32), s.takesWrite .FAB_VOTE 0 = true →
    x = (s.setFld F.FAB_VOTE.TARGET 0 (bits v.toNat 8 0)).setFld F.FAB_VOTE.NUM 0 (bits v.toNat 24 9) →
    u = (if bit v.toNat 26 then x.setFld F.FAB_VOTE.ERR 0 0 else x) →
    (∀ k, (s.managers.findIdx? fun m => m == s.pidx) = some k →
        bits v.toNat 24 9 = (s.fld F.FAB_MEMB.ESEQ + 1) % 2 ^ 16 ∧ s.flag F.FAB_ID.PVALID = true →
      ∃ t, exec (.voteCast v) s = .next t ∧
          Same (((u.flood 3
            (voteBytes k (bits v.toNat 8 0) (bits v.toNat 24 9))).countVote k (bits v.toNat 8 0) (bits v.toNat 24 9)).applyMmio .caldera) t) ∧
          ((s.managers.findIdx? fun m => m == s.pidx) = none ∨ bits v.toNat 24 9 ≠ (s.fld F.FAB_MEMB.ESEQ + 1) % 2 ^ 16 ∨
              s.flag F.FAB_ID.PVALID = false → s.mmio = [] →
            ∃ t, exec (.voteCast v) s = .next t ∧ t.fld F.FAB_VOTE.TARGET 0 = bits v.toNat 8 0 ∧ t.fld F.FAB_VOTE.NUM 0 = bits v.toNat 24 9 ∧
              t.flag F.FAB_VOTE.ERR = true ∧ SameBut [(F.FAB_VOTE.TARGET, 0), (F.FAB_VOTE.NUM, 0), (F.FAB_VOTE.ERR, 0)] s t)) ∧
  (∀ (s : State) (v : BitVec 32), s.takesWrite .FAB_VOTE 0 = false ∧ s.mmio = [] → ∃ t, exec (.voteCast v) s = .next t ∧ Same s t) ∧
  (∀ (s : State) (slot target num : Nat), slot < 5 ∧ target < 512 →
    (s.fabOn 10 = true ∧ s.managers ≠ [] →
      ∃ t, exec (.vote slot target num) s = .next t ∧
          Same (((if num = (s.fld F.FAB_MEMB.ESEQ + 1) % 2 ^ 16 ∧ s.fab.votes.contains (slot, target, num) = false then
            s.flood 3 (voteBytes slot target num) else s).countVote slot target num).applyMmio .caldera) t) ∧
          ((s.fabOn 10 = false ∨ s.managers = []) ∧ s.mmio = [] → ∃ t, exec (.vote slot target num) s = .next t ∧ Same s t))

/-- EN 1 of PWR_DET_CTRL makes the mode enter, and at a tick it is on with every matrix die at 1,050 MHz and no throttle step, every gated
unit awake and VDD_MX set anew; EN 0 turns it off, at the next tick where it is on; a trigger while it is on or entering makes it lost,
with its cause and an event. EN 1 of PKG_OBS_CTRL enables Obsidian where its ring lies in store of basin 0 and sets ERR otherwise; EN 0
stops it at once; FREEZE and a freeze trigger start the count of POST ticks and at its end FROZEN is set; a write of PKG_OBS_MARK writes
a MARK record. GEY_TICK_SET is taken only with the tick generator stopped in replay. The next record of a replay, and of a shadow's
stream, is applied when it is due (Safety.Applies): a replay passes it, or stops at it where it diverges. CLR zeroes a digest slot.
Where nothing is due or the device is not in the state asked for, nothing changes. -/
def Obligations.DeterministicAndRecordComplete : Prop :=
  (∀ (s : State) (v : BitVec 32) (hz : Nat), hz = clamp 1000 2800 (bits v.toNat 16 5) →
    (s.flag F.PWR_DET_CTRL.EN = false ∧ s.fld F.PWR_DET_CTRL.STATE = 0 →
      ∃ t, exec (.detModeEnable v) s = .next t ∧
          t.fld F.PWR_DET_CTRL.HC_MHZ = hz ∧ t.fld F.PWR_DET_CTRL.EN = 1 ∧
          t.fld F.PWR_DET_CTRL.STATE = 1 ∧ t.fld F.PWR_DET_CTRL.CAUSE = 0 ∧
          SameBut [(F.PWR_DET_CTRL.HC_MHZ, 0), (F.PWR_DET_CTRL.EN, 0), (F.PWR_DET_CTRL.STATE, 0), (F.PWR_DET_CTRL.CAUSE, 0)]
            { s with det := { leaving := false } } t) ∧
          (s.flag F.PWR_DET_CTRL.EN = false ∧ s.fld F.PWR_DET_CTRL.STATE ≠ 0 →
            ∃ t, exec (.detModeEnable v) s = .next t ∧ t.fld F.PWR_DET_CTRL.HC_MHZ = hz ∧ t.fld F.PWR_DET_CTRL.EN = 1 ∧
              SameBut [(F.PWR_DET_CTRL.HC_MHZ, 0), (F.PWR_DET_CTRL.EN, 0)] { s with det := { leaving := false } } t) ∧
          (s.flag F.PWR_DET_CTRL.EN = true →
            ∃ t, exec (.detModeEnable v) s = .next t ∧ t.fld F.PWR_DET_CTRL.HC_MHZ = hz ∧ SameBut [(F.PWR_DET_CTRL.HC_MHZ, 0)] s t) ∧
          (∃ t, exec (.detModeDisable v) s = .next t ∧
            t.fld F.PWR_DET_CTRL.HC_MHZ = hz ∧ t.fld F.PWR_DET_CTRL.EN = 0 ∧
            t.fld F.PWR_DET_CTRL.STATE = (if s.fld F.PWR_DET_CTRL.STATE = 2 then 2 else 0) ∧
            t.fld F.PWR_DET_CTRL.CAUSE = (if s.fld F.PWR_DET_CTRL.STATE = 2 then s.fld F.PWR_DET_CTRL.CAUSE else 0) ∧
            SameBut [(F.PWR_DET_CTRL.HC_MHZ, 0), (F.PWR_DET_CTRL.EN, 0), (F.PWR_DET_CTRL.STATE, 0), (F.PWR_DET_CTRL.CAUSE, 0)]
              (if s.fld F.PWR_DET_CTRL.STATE = 2 then { s with det := { leaving := true } } else s) t)) ∧
  (∀ (s : State),
    (s.fld F.PWR_DET_CTRL.STATE = 1 ∧ s.flag F.GEY_CTRL.TICKING = true ∧ s.frameCyc = 0 →
      ∃ t, exec .detModeEntry s = .next t ∧
          Same
           (let u := (List.range 12).foldl (fun u n => (State.setFld u F.PWR_DIEd.CLK_MHZ n 1050).setFld F.PWR_DIEd.STEP n 0)
              (s.setFld F.PWR_DET_CTRL.STATE 0 2)
            (u.mxSet.setFld F.PWR_STATUS.THR_MASK 0 (u.fld F.PWR_STATUS.THR_MASK / 2 ^ 12 * 2 ^ 12)).wakeUnits fun _ => true) t) ∧
          (s.fld F.PWR_DET_CTRL.STATE ≠ 1 ∨ s.flag F.GEY_CTRL.TICKING = false ∨ s.frameCyc ≠ 0 →
            ∃ t, exec .detModeEntry s = .next t ∧ Same s t)) ∧
  (∀ (s : State) (cause : Nat), 1 ≤ cause ∧ cause < 4 →
    (s.fld F.PWR_DET_CTRL.STATE = 1 ∨ s.fld F.PWR_DET_CTRL.STATE = 2 →
      ∃ t, exec (.detModeLoss cause) s = .next t ∧
          Same
           (let u := (s.setFld F.PWR_DET_CTRL.STATE 0 3).setFld F.PWR_DET_CTRL.CAUSE 0 cause
            (({ u with det := { leaving := false } }.obsFault 0x009 0 (0x009 + cause * 2 ^ 48)).raise 0x009
              { data := cause }).diverge 6) t) ∧
          (s.fld F.PWR_DET_CTRL.STATE ≠ 1 ∧ s.fld F.PWR_DET_CTRL.STATE ≠ 2 → ∃ t, exec (.detModeLoss cause) s = .next t ∧ Same s t)) ∧
  (∀ (s : State) (v : Word), bit v.toNat 7 = false →
    (s.flag F.PKG_OBS_CTRL.EN = false → ∃ t, exec (.obsidianEnable v) s = .next t ∧
          t.fld F.PKG_OBS_CTRL.OP = bits v.toNat 2 1 ∧ t.fld F.PKG_OBS_CTRL.FLIGHT = bits v.toNat 3 3 ∧
          t.fld F.PKG_OBS_CTRL.FABDATA = bits v.toNat 4 4 ∧ t.fld F.PKG_OBS_CTRL.HC_INJECT = bits v.toNat 5 5 ∧
          t.fld F.PKG_OBS_CTRL.TRIG_FLT = bits v.toNat 6 6 ∧ t.fld F.PKG_OBS_CTRL.POST = bits v.toNat 15 8 ∧
          t.fld F.PKG_OBS_CTRL.CLASS = bits v.toNat 31 16 ||| 0x1001 ∧
          t.flag F.PKG_OBS_CTRL.EN = s.obsRingOk ∧ t.fld F.PKG_OBS_STATUS.ERR = (if s.obsRingOk then s.fld F.PKG_OBS_STATUS.ERR else 1) ∧
          (s.obsRingOk = true → t.fld F.PKG_OBS_STATUS.DONE = 0 ∧ t.fld F.PKG_OBS_STATUS.DIVERGE = 0) ∧
          (s.obsRingOk = false → t.fld F.PKG_OBS_STATUS.DONE = s.fld F.PKG_OBS_STATUS.DONE ∧
            t.fld F.PKG_OBS_STATUS.DIVERGE = s.fld F.PKG_OBS_STATUS.DIVERGE) ∧
          SameBut [(F.PKG_OBS_CTRL.OP, 0), (F.PKG_OBS_CTRL.FLIGHT, 0), (F.PKG_OBS_CTRL.FABDATA, 0), (F.PKG_OBS_CTRL.HC_INJECT, 0),
            (F.PKG_OBS_CTRL.TRIG_FLT, 0), (F.PKG_OBS_CTRL.POST, 0), (F.PKG_OBS_CTRL.CLASS, 0), (F.PKG_OBS_CTRL.EN, 0),
            (F.PKG_OBS_STATUS.DONE, 0), (F.PKG_OBS_STATUS.DIVERGE, 0), (F.PKG_OBS_STATUS.ERR, 0)] s t) ∧
          (s.flag F.PKG_OBS_CTRL.EN = true → ∃ t, exec (.obsidianEnable v) s = .next t ∧
          t.fld F.PKG_OBS_CTRL.OP = bits v.toNat 2 1 ∧ t.fld F.PKG_OBS_CTRL.FLIGHT = bits v.toNat 3 3 ∧
          t.fld F.PKG_OBS_CTRL.FABDATA = bits v.toNat 4 4 ∧ t.fld F.PKG_OBS_CTRL.HC_INJECT = bits v.toNat 5 5 ∧
          t.fld F.PKG_OBS_CTRL.TRIG_FLT = bits v.toNat 6 6 ∧ t.fld F.PKG_OBS_CTRL.POST = bits v.toNat 15 8 ∧
          t.fld F.PKG_OBS_CTRL.CLASS = bits v.toNat 31 16 ||| 0x1001 ∧ t.flag F.PKG_OBS_CTRL.EN = true ∧ SameBut [(F.PKG_OBS_CTRL.OP, 0), (F.PKG_OBS_CTRL.FLIGHT, 0), (F.PKG_OBS_CTRL.FABDATA, 0), (F.PKG_OBS_CTRL.HC_INJECT, 0),
            (F.PKG_OBS_CTRL.TRIG_FLT, 0), (F.PKG_OBS_CTRL.POST, 0), (F.PKG_OBS_CTRL.CLASS, 0), (F.PKG_OBS_CTRL.EN, 0)] s t) ∧
          (∃ t, exec (.obsidianDisable v) s = .next t ∧
          t.fld F.PKG_OBS_CTRL.OP = bits v.toNat 2 1 ∧ t.fld F.PKG_OBS_CTRL.FLIGHT = bits v.toNat 3 3 ∧
          t.fld F.PKG_OBS_CTRL.FABDATA = bits v.toNat 4 4 ∧ t.fld F.PKG_OBS_CTRL.HC_INJECT = bits v.toNat 5 5 ∧
          t.fld F.PKG_OBS_CTRL.TRIG_FLT = bits v.toNat 6 6 ∧ t.fld F.PKG_OBS_CTRL.POST = bits v.toNat 15 8 ∧
          t.fld F.PKG_OBS_CTRL.CLASS = bits v.toNat 31 16 ||| 0x1001 ∧ t.flag F.PKG_OBS_CTRL.EN = false ∧ t.flag F.PKG_OBS_STATUS.FROZEN = false ∧
          SameBut [(F.PKG_OBS_CTRL.OP, 0), (F.PKG_OBS_CTRL.FLIGHT, 0), (F.PKG_OBS_CTRL.FABDATA, 0), (F.PKG_OBS_CTRL.HC_INJECT, 0),
            (F.PKG_OBS_CTRL.TRIG_FLT, 0), (F.PKG_OBS_CTRL.POST, 0), (F.PKG_OBS_CTRL.CLASS, 0), (F.PKG_OBS_CTRL.EN, 0),
            (F.PKG_OBS_STATUS.FROZEN, 0)] { s with obsd := { s.obsd with on := false, post := none, stopped := false } } t)) ∧
  (∀ (s : State) (v w : Word), bit v.toNat 7 = true ∧ w.toNat = putBit v.toNat 7 false →
    (∃ u t, exec (.obsidianEnable w) s = .next u ∧ exec (.obsidianEnable v) s = .next t ∧ Same u.obsFreeze t) ∧
          ∃ u t, exec (.obsidianDisable w) s = .next u ∧ exec (.obsidianDisable v) s = .next t ∧ Same u.obsFreeze t) ∧
  (∀ (s : State) (e : Bool),
    (s.obsOn = true ∧ s.obsd.post = none ∧ (e = true → s.flag F.PKG_OBS_CTRL.TRIG_FLT = true) →
      ∃ t, exec (.obsidianFreeze e) s = .next t ∧ Same { s with obsd := { s.obsd with post := some (s.fld F.PKG_OBS_CTRL.POST) } } t) ∧
          (s.obsOn = false ∨ s.obsd.post ≠ none ∨ (e = true ∧ s.flag F.PKG_OBS_CTRL.TRIG_FLT = false) →
            ∃ t, exec (.obsidianFreeze e) s = .next t ∧ Same s t)) ∧
  (∀ (s : State),
    (s.obsOn = true ∧ s.obsd.post = some 0 →
      ∃ t, exec .obsidianFrozen s = .next t ∧ t.flag F.PKG_OBS_STATUS.FROZEN = true ∧
          SameBut [(F.PKG_OBS_STATUS.FROZEN, 0)] { s with obsd := { s.obsd with post := none } } t) ∧
          (s.obsOn = false ∨ s.obsd.post ≠ some 0 → ∃ t, exec .obsidianFrozen s = .next t ∧ Same s t)) ∧
  (∀ (s : State) (v : Word),
    ∃ t, exec (.obsidianMark v) s = .next t ∧ Same (s.obs 11 0 0 v.toNat) t) ∧
  (∀ (s : State) (v : Word) (n : Nat), n = (v.toNat + 2 ^ 64 - 1) % 2 ^ 64 →
    (s.flag F.GEY_CTRL.RUN = false ∧ s.flag F.GEY_CTRL.TICKING = false ∧ s.fld F.PKG_OBS_CTRL.OP = 1 →
      ∃ t, exec (.tickSet v) s = .next t ∧ t.fld F.GEY_TICK.TICK = n ∧
          SameBut [(F.GEY_TICK.TICK, 0)] { s with
            gey := { s.gey with tickSet := true, fresh := true }
            tmb := { s.tmb with replica := { s.tmb.replica with tick := n } } } t) ∧
          (s.flag F.GEY_CTRL.RUN = true ∨ s.flag F.GEY_CTRL.TICKING = true ∨ s.fld F.PKG_OBS_CTRL.OP ≠ 1 →
            ∃ t, exec (.tickSet v) s = .next t ∧ Same s t)) ∧
  (∀ (s x : State) (o : Nat) (r : ObsRec) (agrees : Bool),
    s.replaying = true ∧ o = s.fld F.PKG_OBS_OLD.OLD % s.obsSize ∧ s.obsAt o = r →
    s.flag F.PKG_OBS_STATUS.DONE = false ∧ s.recDue r 0 = true → Applies s agrees r x →
    ∃ t, exec (.replayRecordApply agrees) s = .next t ∧ Same ((if x.obsd.stopped then x else x.nextRec o r).applyMmio .caldera) t) ∧
  (∀ (s x : State) (d : List Byte) (l : List (List Byte)) (agrees : Bool),
    s.replaying = false ∧ s.shadowing = true ∧ s.lock.inputs = d :: l ∧ s.recDue (obsParse d) (s.fld F.PKG_LOCK_CTRL.LAG) = true →
    Applies { s with lock := { s.lock with inputs := l } } agrees (obsParse d) x →
    ∃ t, exec (.replayRecordApply agrees) s = .next t ∧ Same (x.applyMmio .caldera) t) ∧
  (∀ (s : State) (agrees : Bool), s.mmio = [] →
    (s.replaying = true ∧ (s.flag F.PKG_OBS_STATUS.DONE = true ∨ s.recDue (s.obsAt (s.fld F.PKG_OBS_OLD.OLD % s.obsSize)) 0 = false)) ∨
      (s.replaying = false ∧ (s.shadowing = false ∨ s.lock.inputs = [] ∨
        ∃ d l, s.lock.inputs = d :: l ∧ s.recDue (obsParse d) (s.fld F.PKG_LOCK_CTRL.LAG) = false)) →
    ∃ t, exec (.replayRecordApply agrees) s = .next t ∧ Same s t) ∧
  (∀ (s : State) (g k x : Nat), g < 24 ∧ k < 16 ∧ x = 16 * g + k →
    (s.takesWrite .MXC_DIGk x = true → ∃ t, exec (.digestClear g k) s = .next t ∧ t.fld F.MXC_DIGk.SUM x = 0 ∧ t.fld F.MXC_DIGk.COUNT x = 0 ∧
          t.fld F.MXC_DIGk.POISON x = 0 ∧ SameBut [(F.MXC_DIGk.SUM, x), (F.MXC_DIGk.COUNT, x), (F.MXC_DIGk.POISON, x)] s t) ∧
          (s.takesWrite .MXC_DIGk x = false → ∃ t, exec (.digestClear g k) s = .next t ∧ Same s t))

/-- A write of PKG_LOCK_CTRL stores its fields within their limits and clears the error bits written 1; EN 1 starts lock-step where R349 holds
and it is off; EN 0 ends it: with no mismatch and no lost signature the held writes go out, else they are discarded and counted. A
packet of a reserved kind is counted; a shadow keeps the input records of its partner in order. An interval that ends sends the
primary's signature; the shadow compares its own with the primary's that has come, or keeps it. A signature that comes to a shadow is
compared with its own of that interval or kept; an answer of a match releases the primary's held writes up to the interval, and another
answer is a failure. A signature not met 4,200 cycles after the interval end is lost. A packet of another device, and one to a device
not in lock-step, changes nothing. -/
def Obligations.LockstepCommandsComplete : Prop :=
  (∀ (s : State) (v : Word),
    (bit v.toNat 0 = true ∧ s.flag F.PKG_LOCK_CTRL.EN = false ∧ s.lockOk = true →
      ∃ t, exec (.lockstepEnable v) s = .next t ∧
          t.fld F.PKG_LOCK_CTRL.ROLE = bits v.toNat 1 1 ∧ t.fld F.PKG_LOCK_CTRL.GATE = bits v.toNat 2 2 ∧
          t.fld F.PKG_LOCK_CTRL.LAG = max 1 (bits v.toNat 6 3) ∧ t.fld F.PKG_LOCK_CTRL.SIGINT = min 6 (bits v.toNat 9 7) ∧
          t.fld F.PKG_LOCK_CTRL.PARTNER = bits v.toNat 22 10 ∧
          t.fld F.PKG_LOCK_CTRL.MISMATCH = (if bit v.toNat 23 then 0 else s.fld F.PKG_LOCK_CTRL.MISMATCH) ∧
          t.fld F.PKG_LOCK_CTRL.LOSTSIG = (if bit v.toNat 24 then 0 else s.fld F.PKG_LOCK_CTRL.LOSTSIG) ∧ t.fld F.PKG_LOCK_CTRL.EN = 1 ∧
          SameBut [(F.PKG_LOCK_CTRL.ROLE, 0), (F.PKG_LOCK_CTRL.GATE, 0), (F.PKG_LOCK_CTRL.LAG, 0), (F.PKG_LOCK_CTRL.SIGINT, 0),
            (F.PKG_LOCK_CTRL.PARTNER, 0), (F.PKG_LOCK_CTRL.EN, 0), (F.PKG_LOCK_CTRL.MISMATCH, 0), (F.PKG_LOCK_CTRL.LOSTSIG, 0)]
            { s with lock := { idx := s.frameCyc / 2 ^ (min 6 (bits v.toNat 9 7) + 10) } } t) ∧
          (bit v.toNat 0 = true ∧ (s.flag F.PKG_LOCK_CTRL.EN = true ∨ s.lockOk = false) →
            ∃ t, exec (.lockstepEnable v) s = .next t ∧
          t.fld F.PKG_LOCK_CTRL.ROLE = bits v.toNat 1 1 ∧ t.fld F.PKG_LOCK_CTRL.GATE = bits v.toNat 2 2 ∧
          t.fld F.PKG_LOCK_CTRL.LAG = max 1 (bits v.toNat 6 3) ∧ t.fld F.PKG_LOCK_CTRL.SIGINT = min 6 (bits v.toNat 9 7) ∧
          t.fld F.PKG_LOCK_CTRL.PARTNER = bits v.toNat 22 10 ∧
          t.fld F.PKG_LOCK_CTRL.MISMATCH = (if bit v.toNat 23 then 0 else s.fld F.PKG_LOCK_CTRL.MISMATCH) ∧
          t.fld F.PKG_LOCK_CTRL.LOSTSIG = (if bit v.toNat 24 then 0 else s.fld F.PKG_LOCK_CTRL.LOSTSIG) ∧ t.fld F.PKG_LOCK_CTRL.EN = s.fld F.PKG_LOCK_CTRL.EN ∧
          SameBut [(F.PKG_LOCK_CTRL.ROLE, 0), (F.PKG_LOCK_CTRL.GATE, 0), (F.PKG_LOCK_CTRL.LAG, 0), (F.PKG_LOCK_CTRL.SIGINT, 0),
            (F.PKG_LOCK_CTRL.PARTNER, 0), (F.PKG_LOCK_CTRL.EN, 0), (F.PKG_LOCK_CTRL.MISMATCH, 0), (F.PKG_LOCK_CTRL.LOSTSIG, 0)] s t) ∧
          (bit v.toNat 0 = false ∧ s.flag F.PKG_LOCK_CTRL.MISMATCH = false ∧ s.flag F.PKG_LOCK_CTRL.LOSTSIG = false →
            ∃ t, exec (.lockstepEnable v) s = .next t ∧
          t.fld F.PKG_LOCK_CTRL.ROLE = bits v.toNat 1 1 ∧ t.fld F.PKG_LOCK_CTRL.GATE = bits v.toNat 2 2 ∧
          t.fld F.PKG_LOCK_CTRL.LAG = max 1 (bits v.toNat 6 3) ∧ t.fld F.PKG_LOCK_CTRL.SIGINT = min 6 (bits v.toNat 9 7) ∧
          t.fld F.PKG_LOCK_CTRL.PARTNER = bits v.toNat 22 10 ∧
          t.fld F.PKG_LOCK_CTRL.MISMATCH = (if bit v.toNat 23 then 0 else s.fld F.PKG_LOCK_CTRL.MISMATCH) ∧
          t.fld F.PKG_LOCK_CTRL.LOSTSIG = (if bit v.toNat 24 then 0 else s.fld F.PKG_LOCK_CTRL.LOSTSIG) ∧ t.fld F.PKG_LOCK_CTRL.EN = 0 ∧
          SameBut [(F.PKG_LOCK_CTRL.ROLE, 0), (F.PKG_LOCK_CTRL.GATE, 0), (F.PKG_LOCK_CTRL.LAG, 0), (F.PKG_LOCK_CTRL.SIGINT, 0),
            (F.PKG_LOCK_CTRL.PARTNER, 0), (F.PKG_LOCK_CTRL.EN, 0), (F.PKG_LOCK_CTRL.MISMATCH, 0), (F.PKG_LOCK_CTRL.LOSTSIG, 0)] { s with lock := {}, out := s.out ++ s.lock.gated.map fun x => x.2.2 } t) ∧
          (bit v.toNat 0 = false ∧ (s.flag F.PKG_LOCK_CTRL.MISMATCH = true ∨ s.flag F.PKG_LOCK_CTRL.LOSTSIG = true) →
            ∃ t, exec (.lockstepEnable v) s = .next t ∧
          t.fld F.PKG_LOCK_CTRL.ROLE = bits v.toNat 1 1 ∧ t.fld F.PKG_LOCK_CTRL.GATE = bits v.toNat 2 2 ∧
          t.fld F.PKG_LOCK_CTRL.LAG = max 1 (bits v.toNat 6 3) ∧ t.fld F.PKG_LOCK_CTRL.SIGINT = min 6 (bits v.toNat 9 7) ∧
          t.fld F.PKG_LOCK_CTRL.PARTNER = bits v.toNat 22 10 ∧
          t.fld F.PKG_LOCK_CTRL.MISMATCH = (if bit v.toNat 23 then 0 else s.fld F.PKG_LOCK_CTRL.MISMATCH) ∧
          t.fld F.PKG_LOCK_CTRL.LOSTSIG = (if bit v.toNat 24 then 0 else s.fld F.PKG_LOCK_CTRL.LOSTSIG) ∧ t.fld F.PKG_LOCK_CTRL.EN = 0 ∧
          t.fld F.PKG_LOCK_CNT.SUPPRESSED = (s.incFld F.PKG_LOCK_CNT.SUPPRESSED 0 s.lock.gated.length).fld F.PKG_LOCK_CNT.SUPPRESSED ∧
          SameBut [(F.PKG_LOCK_CTRL.ROLE, 0), (F.PKG_LOCK_CTRL.GATE, 0), (F.PKG_LOCK_CTRL.LAG, 0), (F.PKG_LOCK_CTRL.SIGINT, 0),
            (F.PKG_LOCK_CTRL.PARTNER, 0), (F.PKG_LOCK_CTRL.EN, 0), (F.PKG_LOCK_CTRL.MISMATCH, 0), (F.PKG_LOCK_CTRL.LOSTSIG, 0),
            (F.PKG_LOCK_CNT.SUPPRESSED, 0)] { s with lock := {} } t)) ∧
  (∀ (s : State) (i : Instr) (k : Nat) (p : Packet), (i = .lockrec p ∧ k = 4) ∨ (i = .locksig p ∧ k = 5) →
    (s.expelled p.src = true ∨ s.fabOn p.ty = false → ∃ t, exec i s = .next t ∧ Same s t) ∧
          (s.expelled p.src = false ∧ s.fabOn p.ty = true →
            (p.ty = 0 ∨ 10 < p.ty ∨ (p.ty = 10 ∧ p.dst = s.sysid ∧ 6 ≤ p.addr % 256) → ∃ t, exec i s = .next t ∧ Same (s.incFld F.FAB_CNT.MISROUTE) t) ∧
            (1 ≤ p.ty ∧ p.ty < 10 ∨ (p.ty = 10 ∧ p.dst = s.sysid ∧ p.addr % 256 < 6 ∧ p.addr % 256 ≠ k) →
              ∃ t, exec i s = .next t ∧ Same s t) ∧
            (p.ty = 10 ∧ p.dst ≠ s.sysid → ∃ t, exec i s = .next t ∧ Same (s.forward p) t))) ∧
  (∀ (s : State) (p : Packet), Comes s p 10 ∧ p.addr % 256 = 4 →
    (s.shadowing = true ∧ p.src = s.fld F.PKG_LOCK_CTRL.PARTNER →
      ∃ t, exec (.lockrec p) s = .next t ∧ Same { s with lock := { s.lock with inputs := s.lock.inputs ++ [p.payload] } } t) ∧
          (s.shadowing = false ∨ p.src ≠ s.fld F.PKG_LOCK_CTRL.PARTNER → ∃ t, exec (.lockrec p) s = .next t ∧ Same s t)) ∧
  (∀ (s : State) (p : Packet) (tick idx sig flag : Nat), Comes s p 10 ∧ p.addr % 256 = 5 →
    tick = natOf (slice p.payload 0 8) ∧ idx = natOf (slice p.payload 8 2) ∧ sig = natOf (slice p.payload 10 8) ∧ flag = natOf (slice p.payload 18 1) →
    (s.flag F.PKG_LOCK_CTRL.EN = false ∨ p.src ≠ s.fld F.PKG_LOCK_CTRL.PARTNER ∨ (s.flag F.PKG_LOCK_CTRL.ROLE = true ∧ s.lock.stopped = true) →
      ∃ t, exec (.locksig p) s = .next t ∧ Same s t) ∧
          (s.flag F.PKG_LOCK_CTRL.EN = true ∧ p.src = s.fld F.PKG_LOCK_CTRL.PARTNER ∧ s.flag F.PKG_LOCK_CTRL.ROLE = true ∧ s.lock.stopped = false →
            ∃ t, exec (.locksig p) s = .next t ∧
              Same
               (match s.lock.own.find? fun (t, i, _, _) => t == tick && i == idx with
                | some (_, _, mine, _) => s.lockCompare tick idx mine sig
                | none => { s with lock := { s.lock with theirs := s.lock.theirs ++ [(tick, idx, sig)] } }) t) ∧
          (s.flag F.PKG_LOCK_CTRL.EN = true ∧ p.src = s.fld F.PKG_LOCK_CTRL.PARTNER ∧ s.flag F.PKG_LOCK_CTRL.ROLE = false →
            ∃ t, exec (.locksig p) s = .next t ∧
              Same (if flag = 1 then { s with
                  out := s.out ++ (s.lock.gated.filter fun (t, i, _) => decide (t < tick) || (t == tick && decide (i ≤ idx))).map fun x => x.2.2
                  lock := { s.lock with
                    matched := some (tick, idx)
                    gated := s.lock.gated.filter fun (t, i, _) => !(decide (t < tick) || (t == tick && decide (i ≤ idx))) } }
                else s.lockFail (flag == 3) tick idx) t)) ∧
  (∀ (s : State),
    (s.flag F.PKG_LOCK_CTRL.EN = true ∧ (s.lock.idx + 1) * 2 ^ (s.fld F.PKG_LOCK_CTRL.SIGINT + 10) ≤ s.frameCyc →
      ∃ t, exec .signatureIntervalEnd s = .next t ∧
          Same
           (let u : State := { s with lock := { s.lock with sig := 0, idx := s.lock.idx + 1 } }
            let tick := s.tickNo - s.fld F.PKG_LOCK_CTRL.LAG
            if s.lock.stopped then u
            else if s.flag F.PKG_LOCK_CTRL.ROLE = false then u.lockSig s.tickNo s.lock.idx s.lock.sig 0
            else match s.lock.theirs.find? fun (t, i, _) => t == tick && i == s.lock.idx with
              | some (_, _, other) => u.lockCompare tick s.lock.idx s.lock.sig other
              | none => { u with lock := { u.lock with own := s.lock.own ++ [(tick, s.lock.idx, s.lock.sig, s.gey.arr)] } }) t) ∧
          (s.flag F.PKG_LOCK_CTRL.EN = false ∨ s.frameCyc < (s.lock.idx + 1) * 2 ^ (s.fld F.PKG_LOCK_CTRL.SIGINT + 10) →
            ∃ t, exec .signatureIntervalEnd s = .next t ∧ Same s t)) ∧
  (∀ (s : State),
    (∀ tick idx mine c l, s.lock.own = (tick, idx, mine, c) :: l ∧ c + 4200 * 625 ≤ s.gey.arr →
      ∃ t, exec .lostsig s = .next t ∧ Same (({ s with lock := { s.lock with own := l } }.lockSig tick idx mine 3).lockFail true tick idx) t) ∧
          (s.lock.own = [] ∨ (∃ tick idx mine c l, s.lock.own = (tick, idx, mine, c) :: l ∧ s.gey.arr < c + 4200 * 625) →
            ∃ t, exec .lostsig s = .next t ∧ Same s t)) ∧
  (∀ (s : State) (tick idx mine theirs : Nat),
    s.lockCompare tick idx mine theirs =
      (let u := s.incFld F.PKG_LOCK_CNT.COMPARED
       let u : State := { u with lock := { u.lock with
         own := u.lock.own.filter (fun (t, i, _, _) => !(t == tick && i == idx))
         theirs := u.lock.theirs.filter fun (t, i, _) => !(t == tick && i == idx) } }
       if mine = theirs then u.lockSig tick idx theirs 1 else (u.lockSig tick idx mine 2).lockFail false tick idx))

/-- A conventional reset of a port resets the PCIe state of its functions, drops its invalidations and resets its PF; an FLR of a PF resets
the PF and its PKG_BAR2_BASE. An ATS invalidation is held until its accesses have completed and the oldest of the port is then answered.
RUN written 1 stores ENTRY and starts a core that does not run, RUN written 0 halts it, both cores of a pair. A running core sets
HS_TIMECMP, which clears TIMER; a timer that is reached asserts once; a core acknowledges sources, a stray one being counted, takes the
lowest waiting event source (a tenant core is trapped), reads a random value (the free value of log entry 5, recorded, or in a replay
a recorded one) and raises a device-to-host flag, whose word goes to the host and interrupts it where EN is 1 and the address lies in its
window. A halted core does none of these. EN of a pair is accepted while both cores are halted and owned by basin 0, EN 0 ends it; a
mismatch halts both cores, is reported, a second within a second escalates, and the standby takes over. A doorbell stores its bits and
asserts. -/
def Obligations.HostCoresComplete : Prop :=
  (∀ (s : State) (port : Nat), port < 2 →
    (∃ t, exec (.pcieConventionalReset port) s = .next t ∧
          Same
           (let u := ((List.range 255).map (· + 1)).foldl (fun (u : State) b => u.vfPcieReset port b) s
            { u with
              regs := u.regs.filter fun e => !((keyKind e.1 == some RegKind.CFG_ATS) && keyIx e.1 / 256 == port)
              ats := u.ats.filter fun e => e.1 != port }.pfReset port) t) ∧
        (∃ t, exec (.pfFlr port) s = .next t ∧ Same (((s.resetReg .CFG_ATS (256 * port)).resetReg .PKG_BAR2_BASE port).pfReset port) t)) ∧
  (∀ (s : State) (port fn page count : Nat), port < 2 ∧ fn < 256 ∧ page < 2 ^ 35 →
    ∃ t, exec (.atsInvalidation port fn page count) s = .next t ∧ Same { s with ats := s.ats ++ [(port, fn, page, count)] } t) ∧
  (∀ (s : State) (port : Nat), port < 2 →
    (∀ p fn page n, (s.ats.find? fun e => e.1 == port) = some (p, fn, page, n) →
      ∃ t, exec (.atsInvalidationDone port) s = .next t ∧ Same ({ s with ats := s.ats.erase (p, fn, page, n) }.emit (.atsDone p fn page)) t) ∧
          ((s.ats.find? fun e => e.1 == port) = none → ∃ t, exec (.atsInvalidationDone port) s = .next t ∧ Same s t)) ∧
  (∀ (s : State) (h : Nat) (v : Word), h < 64 →
    ((s.flag F.PKG_HC_CTRLh.RUN h = false ∨ s.flag F.PKG_HC_CTRLh.HALTED h = true) →
      ∃ t, exec (.hostCoreStart h v) s = .next t ∧ Same ((s.setFld F.PKG_HC_CTRLh.ENTRY h (bits v.toNat 63 32)).hcSet h true) t) ∧
          (s.flag F.PKG_HC_CTRLh.RUN h = true ∧ s.flag F.PKG_HC_CTRLh.HALTED h = false →
            ∃ t, exec (.hostCoreStart h v) s = .next t ∧ t.fld F.PKG_HC_CTRLh.ENTRY h = bits v.toNat 63 32 ∧
              SameBut [(F.PKG_HC_CTRLh.ENTRY, h)] s t) ∧
          (∃ t, exec (.hostCoreHalt h v) s = .next t ∧ Same ((s.setFld F.PKG_HC_CTRLh.ENTRY h (bits v.toNat 63 32)).hcSet h false) t)) ∧
  (∀ (s : State) (h : Nat) (on : Bool), h < 64 →
    (s.flag F.PKG_HC_PAIRp.EN (h / 2) = false →
      (s.hcSet h on).fld F.PKG_HC_CTRLh.RUN h = b2n on ∧
        (s.hcSet h on).fld F.PKG_HC_CTRLh.HALTED h = b2n (!on || s.flag F.BSN_HC_OWNERh.SCRUB h || s.dieOut (28 + h / 16)) ∧
        SameBut [(F.PKG_HC_CTRLh.RUN, h), (F.PKG_HC_CTRLh.HALTED, h)] s (s.hcSet h on)) ∧
          (s.flag F.PKG_HC_PAIRp.EN (h / 2) = true →
            (∀ k, k / 2 = h / 2 → (s.hcSet h on).fld F.PKG_HC_CTRLh.RUN k = b2n on ∧
              (s.hcSet h on).fld F.PKG_HC_CTRLh.HALTED k = b2n (!on || s.flag F.BSN_HC_OWNERh.SCRUB k || s.dieOut (28 + k / 16))) ∧
            (s.hcSet h on).fld F.PKG_HC_PAIRp.STATE (h / 2) = (if on then 1 else 3) ∧
            SameBut [(F.PKG_HC_CTRLh.RUN, h / 2 * 2), (F.PKG_HC_CTRLh.RUN, h / 2 * 2 + 1), (F.PKG_HC_CTRLh.HALTED, h / 2 * 2),
              (F.PKG_HC_CTRLh.HALTED, h / 2 * 2 + 1), (F.PKG_HC_PAIRp.STATE, h / 2)] s (s.hcSet h on))) ∧
  (∀ (s : State) (h : Nat), h < 64 →
    ((s.hc h).timerOn = true ∧ s.fld F.HS_TIMECMP.VALUE h ≤ s.now →
      ∃ t, exec (.hcTimerExpire h) s = .next t ∧ Same ((s.modHc h fun c => { c with timerOn := false }).hcAssert h 4) t) ∧
          ((s.hc h).timerOn = false ∨ s.now < s.fld F.HS_TIMECMP.VALUE h → ∃ t, exec (.hcTimerExpire h) s = .next t ∧ Same s t)) ∧
  (∀ (s : State) (h : Nat) (v : Word), h < 64 ∧ s.hcRuns h = true →
    (∃ t, exec (.hcTimecmpWrite h v) s = .next t ∧
          Same (((s.setFld F.HS_TIMECMP.VALUE h v.toNat).hcClear h 4).modHc h fun c => { c with timerOn := true }) t) ∧
      ∃ t, exec (.hcInterruptAck h v) s = .next t ∧
          Same (((List.range 6).filter (bit v.toNat)).foldl (fun u k =>
            if bit (State.fld u F.HS_IP.VALUE h) k = false then u.incFld F.PKG_HC_CTRLh.STRAY h
            else if u.hcHolds h k then u else u.hcClear h k) s) t) ∧
  (∀ (s : State) (h v : Nat), h < 64 ∧ s.hcRuns h = true →
    (s.noHostRead = false ∨ (s.obsd.hrand.find? fun e => e.1 == h) = none → v = Config.random64 s.free % 2 ^ 64 →
      ∃ t, exec (.hsRandRead h) s = .next t ∧
          Same (({ s with free := s.free + 1 }.obs 9 h 0 v).answer (bytesOf 8 v)) t) ∧
          (∀ k, s.noHostRead = true ∧ (s.obsd.hrand.find? fun e => e.1 == h) = some (k, v) →
            ∃ t, exec (.hsRandRead h) s = .next t ∧
              Same ({ s with obsd := { s.obsd with hrand := s.obsd.hrand.erase (k, v) } }.answer (bytesOf 8 v)) t)) ∧
  (∀ (s : State) (h : Nat), h < 64 ∧ s.hcRuns h = true →
    (∀ a l n, s.hcBasin h = 0 ∧ s.fld F.EVC_CTRL.SRVHC = h ∧ s.awaiting = a :: l ∧ n = l.foldl min a →
      ∃ t, exec (.eventServiceTake h) s = .next t ∧
          Same
           (let u := ((s.setFld F.EVC_SRCn.INSVC n 1).setFld F.HS_EVSRV.VALID h 1).setFld F.HS_EVSRV.SOURCE h n
            (u.setFld F.HS_EVDATA.VALUE h (u.evWord n (u.fld F.EVC_SRCn.RUNG n) 0)).answer (bytesOf 8 (n + 2 ^ 31))) t) ∧
          (s.hcBasin h = 0 ∧ (s.fld F.EVC_CTRL.SRVHC ≠ h ∨ s.awaiting = []) →
            ∃ t, exec (.eventServiceTake h) s = .next t ∧
              Same (((s.setFld F.HS_EVSRV.VALID h 0).setFld F.HS_EVSRV.SOURCE h 0).answer (bytesOf 8 0)) t) ∧
          (s.hcBasin h ≠ 0 → ∃ t, exec (.eventServiceTake h) s = .next t ∧ t.fld F.HS_TVAL.VALUE h = 0xC0C ∧
            SameBut [(F.HS_TVAL.VALUE, h)] (s.modHc h fun c => { c with trap := some 0x33, traps := c.traps + 1 }) t)) ∧
  (∀ (s u : State) (h k b a f w : Nat), h < 64 ∧ k < 8 ∧ s.hcRuns h = true → b = s.hcBasin h ∧ a = s.fld F.PKG_D2H_ADDRb.ADDR b * 8 →
    f = s.fld F.PKG_D2H_WORDb.FLAGS b ∧ w = f - bits f (8 * k + 7) (8 * k) * 2 ^ (8 * k) + (bits f (8 * k + 7) (8 * k) + 1) % 256 * 2 ^ (8 * k) →
    u = s.setFld F.PKG_D2H_WORDb.FLAGS b w →
    (s.flag F.PKG_D2H_ADDRb.EN b = false ∨ (∀ o, place a ≠ .host o) ∨ (b ≠ 0 ∧ s.inWindow b a = false) →
      ∃ t, exec (.d2hFlagRaise h k) s = .next t ∧ Same u t) ∧
          (s.flag F.PKG_D2H_ADDRb.EN b = true ∧ (∃ o, place a = .host o) ∧ (b = 0 ∨ s.inWindow b a = true) →
            ∃ t, exec (.d2hFlagRaise h k) s = .next t ∧
              Same (if b = 0 then (u.put b a (bytesOf 8 w)).msixPf ((u.put b a (bytesOf 8 w)).portOf 0) 1 else (u.put b a (bytesOf 8 w)).msixVf b 3) t)) ∧
  (∀ (s : State) (h k : Nat) (v : Word), h < 64 ∧ k < 8 ∧ s.hcRuns h = false →
    (∃ t, exec (.hcTimecmpWrite h v) s = .next t ∧ Same s t) ∧ (∃ t, exec (.hcInterruptAck h v) s = .next t ∧ Same s t) ∧
          (∃ t, exec (.hsRandRead h) s = .next t ∧ Same s t) ∧ (∃ t, exec (.eventServiceTake h) s = .next t ∧ Same s t) ∧
          ∃ t, exec (.d2hFlagRaise h k) s = .next t ∧ Same s t) ∧
  (∀ (s : State) (p : Nat) (v : BitVec 32) (ok : Bool), p < 32 →
    ok = (s.flag F.PKG_HC_CTRLh.HALTED (2 * p) && s.flag F.PKG_HC_CTRLh.HALTED (2 * p + 1) && s.hcBasin (2 * p) == 0 && s.hcBasin (2 * p + 1) == 0) →
    ∃ t, exec (.pairEnable p v) s = .next t ∧
          t.fld F.PKG_HC_PAIRp.STANDBY p = bits v.toNat 5 1 ∧ t.fld F.PKG_HC_PAIRp.SBY_EN p = bits v.toNat 6 6 ∧
          (bit v.toNat 0 = false → t.flag F.PKG_HC_PAIRp.EN p = false ∧ t.fld F.PKG_HC_PAIRp.STATE p = 0) ∧
          (bit v.toNat 0 = true ∧ s.flag F.PKG_HC_PAIRp.EN p = false ∧ ok = true →
            t.flag F.PKG_HC_PAIRp.EN p = true ∧ t.fld F.PKG_HC_PAIRp.STATE p = 3) ∧
          (bit v.toNat 0 = true ∧ (s.flag F.PKG_HC_PAIRp.EN p = true ∨ ok = false) →
            t.flag F.PKG_HC_PAIRp.EN p = s.flag F.PKG_HC_PAIRp.EN p ∧ t.fld F.PKG_HC_PAIRp.STATE p = s.fld F.PKG_HC_PAIRp.STATE p) ∧
          SameBut [(F.PKG_HC_PAIRp.STANDBY, p), (F.PKG_HC_PAIRp.SBY_EN, p), (F.PKG_HC_PAIRp.EN, p), (F.PKG_HC_PAIRp.STATE, p)] s t) ∧
  (∀ (s : State) (p d : Nat) (again : Bool), p < 32 ∧ d = 28 + p / 8 →
    again = (s.flt.misses.any fun m => m.mech == 11 && decide (s.tmb.clk < m.clk + oneSecond) &&
      (m.src == p || (s.flag F.PKG_HC_PAIRp.SBY_EN m.src && s.fld F.PKG_HC_PAIRp.STANDBY m.src == p))) →
    (s.flag F.PKG_HC_PAIRp.EN p = true ∧ s.hcRuns (2 * p) = true →
      ∃ t, exec (.pairMismatch p) s = .next t ∧
        Same
         (let u := ((s.setFld F.PKG_HC_CTRLh.HALTED (2 * p) 1).setFld F.PKG_HC_CTRLh.HALTED (2 * p + 1) 1).setFld F.PKG_HC_PAIRp.STATE p 2
          let u := (u.note 11 p).detect d 11 2 (unitSrc (.region d)) 0
          (if again then u.escalate d (unitSrc (.region d)) 11 else u).standby p) t) ∧
          (s.flag F.PKG_HC_PAIRp.EN p = false ∨ s.hcRuns (2 * p) = false → ∃ t, exec (.pairMismatch p) s = .next t ∧ Same s t)) ∧
  (∀ (s : State) (h : Nat) (v : BitVec 32), h < 64 →
    ∃ t, exec (.hcDoorbell h v) s = .next t ∧
          Same ((s.setFld F.PKG_HC_DBELLh.BITS h (s.fld F.PKG_HC_DBELLh.BITS h ||| v.toNat)).hcAssert h 2) t)

/-- A completion of a source that is not asserted, or not taken by its server, counts in STRAY; while EN is 0 the source stays in service;
one whose queue is full or has a write error counts in QFULL_CNT and the source stays; one of an older generation is dropped and
counted; one whose ring refuses the record sets that queue's write error; else its records are appended to every queue the source is
routed to, the source is released, and FLT_STATUS.RUNG is raised to the larger of the completion's rung and the source's. A write of
HEAD within the queue moves it and tells the queue's host of what remains, one past TAIL sets HEAD_ERR. EN and the two cores of EVC_CTRL
take effect whole, EN 0 clears the write errors, and a new server is told what waits. -/
def Obligations.EventControllerComplete : Prop :=
  (∀ (s : State) (k n : Nat) (v : BitVec 32) (hr mine : Bool), k < 2 ∧ n = bits v.toNat 11 0 →
    mine = (if k = 0 then srvCaldera n else !srvCaldera n && s.flag F.EVC_SRCn.INSVC n) →
    (s.flag F.EVC_SRCn.ACTIVE n = false ∨ mine = false → ∃ t, exec (.eventCompletion k v hr) s = .next t ∧ Same (s.incFld F.EVC_STRAY_CNT.STRAY) t) ∧
          (s.flag F.EVC_SRCn.ACTIVE n = true ∧ mine = true ∧ s.flag F.EVC_CTRL.EN = false →
            ∃ t, exec (.eventCompletion k v hr) s = .next t ∧ t.fld F.EVC_SRCn.INSVC n = 1 ∧ SameBut [(F.EVC_SRCn.INSVC, n)] s t) ∧
          (∀ (need rung time : Nat) (full : Bool) (werr : Nat → Field) (kept : State) (bad : List Nat),
            s.flag F.EVC_SRCn.ACTIVE n = true ∧ mine = true ∧ s.flag F.EVC_CTRL.EN = true →
            need = 1 + b2n ((s.evCap n).ext || decide (1 < s.fld F.EVC_SRCn.COUNT n)) ∧
              (werr = fun q => if q = 0 then F.EVC_STATUS.WERR0 else F.EVC_STATUS.WERR1) →
            full = (s.evRoutes n).any (fun q => s.flag (werr q) || decide (s.evSize q < s.evCount q + need)) →
            kept = (s.setFld F.EVC_SRCn.INSVC n 1).incFld F.EVC_STATUS.QFULL_CNT →
            bad = (s.evRoutes n).filter (fun q => !s.evRingOk q || (hr && decide (0x800000000000 ≤ s.evAddr q 0))) →
            rung = max (bits v.toNat 14 12) (s.fld F.EVC_SRCn.RUNG n) ∧ time = (s.evCap n).time.getD (SMap.get 0 s.cplTime k) →
            (full = true → ∃ t, exec (.eventCompletion k v hr) s = .next t ∧ Same kept t) ∧
            (full = false ∧ (s.evCap n).gen ≠ s.gen (s.evCap n).basin →
              ∃ t, exec (.eventCompletion k v hr) s = .next t ∧ Same ((s.release n).incFld F.BSN_STALEb.EVENT (s.evCap n).basin) t) ∧
            (full = false ∧ (s.evCap n).gen = s.gen (s.evCap n).basin ∧ bad ≠ [] →
              ∃ t, exec (.eventCompletion k v hr) s = .next t ∧
                Same (bad.foldl (fun u q => if q = 0 then (State.setFld u (werr q) 0 1).msixPf (State.fld (u.setFld (werr q) 0 1) F.EVC_CTRL.PORT) 0
                  else u.setFld (werr q) 0 1) kept) t) ∧
            (full = false ∧ (s.evCap n).gen = s.gen (s.evCap n).basin ∧ bad = [] →
              ∃ t, exec (.eventCompletion k v hr) s = .next t ∧
                Same
                 (let u := (s.evRoutes n).foldl (fun u q => State.evAppend u n rung time q) s
                  (u.release n).setFld F.FLT_STATUS.RUNG 0 (max (u.fld F.FLT_STATUS.RUNG) rung)) t))) ∧
  (∀ (s : State) (n rung time q x : Nat) (ext : Bool) (c : EvCap), x = s.fld F.EVC_Qq_TAIL.TAIL q ∧ c = s.evCap n →
    ext = (c.ext || decide (1 < s.fld F.EVC_SRCn.COUNT n)) →
    s.evAppend n rung time q =
      (let u := s.put 0 (s.evAddr q x) (bytesOf 8 (s.evWord n rung (x / s.evSize q % 2)) ++ bytesOf 8 time)
       let u := if ext then u.put 0 (s.evAddr q (x + 1)) (bytesOf 8 (min (s.fld F.EVC_SRCn.COUNT n) 65535 + c.xdata1 % 2 ^ 31 * 2 ^ 16 +
         (x + 1) / s.evSize q % 2 * 2 ^ 47) ++ bytesOf 8 c.xdata) else u
       let u := u.setFld F.EVC_Qq_TAIL.TAIL q ((x + 1 + b2n ext) % 2 ^ 32)
       if q = 0 then (if s.evCount q = 0 then u.msixPf (u.fld F.EVC_CTRL.PORT) 0 else u) else u.hcAssert (u.fld F.EVC_CTRL.Q1HC) 1)) ∧
  (∀ (s : State) (q d w : Nat) (v : BitVec 32), q < 2 ∧ d = diff32 (s.fld F.EVC_Qq_TAIL.TAIL q) (s.fld F.EVC_Qq_HEAD.HEAD q) ∧
      w = diff32 v.toNat (s.fld F.EVC_Qq_HEAD.HEAD q) →
    (d < w → ∃ t, exec (.eventQueueHeadWrite q v) s = .next t ∧ t.fld F.EVC_STATUS.HEAD_ERR = 1 ∧ SameBut [(F.EVC_STATUS.HEAD_ERR, 0)] s t) ∧
          (w ≤ d → ∃ t, exec (.eventQueueHeadWrite q v) s = .next t ∧
            Same
             (let u := s.setFld F.EVC_Qq_HEAD.HEAD q v.toNat
              if diff32 (s.fld F.EVC_Qq_TAIL.TAIL q) v.toNat ≠ 0 then
                (if q = 0 then u.msixPf (u.fld F.EVC_CTRL.PORT) 0 else u.hcAssert (u.fld F.EVC_CTRL.Q1HC) 1)
              else if q = 1 then u.hcClear (u.fld F.EVC_CTRL.Q1HC) 1 else u) t)) ∧
  (∀ (s u : State) (v : BitVec 32) (en : Bool) (i : Instr), (i = .evcEnable v ∧ en = true) ∨ (i = .evcDisable v ∧ en = false) →
    u = (((s.setFld F.EVC_CTRL.EN 0 (b2n en)).setFld F.EVC_CTRL.PORT 0 (bits v.toNat 1 1)).setFld F.EVC_CTRL.SRVHC 0 (bits v.toNat 7 2)).setFld
      F.EVC_CTRL.Q1HC 0 (bits v.toNat 13 8) →
    ∃ t, exec i s = .next t ∧
          Same
           (let u := if en then u else (u.setFld F.EVC_STATUS.WERR0 0 0).setFld F.EVC_STATUS.WERR1 0 0
            let u := if u.awaiting = [] then u else u.hcAssert (bits v.toNat 7 2) 0
            let u := if s.fld F.EVC_CTRL.Q1HC = bits v.toNat 13 8 then u else u.hcClear (s.fld F.EVC_CTRL.Q1HC) 1
            if u.evCount 1 = 0 then u else u.hcAssert (bits v.toNat 13 8) 1) t) ∧
  (∀ (s u : State) (v : BitVec 32), s.awaiting = [] ∧ s.evCount 1 = 0 →
    u = (if s.fld F.EVC_CTRL.Q1HC = bits v.toNat 13 8 then s else s.hcClear (s.fld F.EVC_CTRL.Q1HC) 1) →
    (∃ t, exec (.evcEnable v) s = .next t ∧ t.fld F.EVC_CTRL.EN = 1 ∧ t.fld F.EVC_CTRL.PORT = bits v.toNat 1 1 ∧
            t.fld F.EVC_CTRL.SRVHC = bits v.toNat 7 2 ∧ t.fld F.EVC_CTRL.Q1HC = bits v.toNat 13 8 ∧
            SameBut [(F.EVC_CTRL.EN, 0), (F.EVC_CTRL.PORT, 0), (F.EVC_CTRL.SRVHC, 0), (F.EVC_CTRL.Q1HC, 0)] u t) ∧
        (∃ t, exec (.evcDisable v) s = .next t ∧ t.fld F.EVC_CTRL.EN = 0 ∧ t.fld F.EVC_CTRL.PORT = bits v.toNat 1 1 ∧
            t.fld F.EVC_CTRL.SRVHC = bits v.toNat 7 2 ∧ t.fld F.EVC_CTRL.Q1HC = bits v.toNat 13 8 ∧
            t.flag F.EVC_STATUS.WERR0 = false ∧ t.flag F.EVC_STATUS.WERR1 = false ∧
            SameBut [(F.EVC_CTRL.EN, 0), (F.EVC_CTRL.PORT, 0), (F.EVC_CTRL.SRVHC, 0), (F.EVC_CTRL.Q1HC, 0), (F.EVC_STATUS.WERR0, 0),
                (F.EVC_STATUS.WERR1, 0)] u t))

/-- Stage 2 ends with key slot 0 generated where it is empty: after a warm reset pair 0 starts from the slot, a staged one if there is one,
else the device waits for firmware. GO of PKG_FW_CMD starts a load at stage 3 and a staging at stage 6, else sets ERR 5, and does nothing
while BUSY; an image that fails sets its ERR, one that passes is copied, pair 0 starting after a load; READY at stage 5 ends start-up, and
without it 60 ms after entry ERR is set and RUNG raised. A USER value is stored within its range with its saturated sum, the two bounds
setting CLAMP; a reserved item keeps nothing. A CCC assigns the I3C address, resets it, answers the provisional ID, the status bytes (free
values) or sets the interrupt enable and reset action; a private write sets the index and clears alarms and PCYC_REQ, a private read answers
the map's bytes; nothing of this without VDD_AON. A power window of 1 ms stores PKG_W and LIMITING; at a tick a matrix die with a trigger
takes one step down, and after 10 ms without one a step up; an idle array or tenant core is clock-gated while budgets are lent; a sensor
sample stores the larger corrected temperature; the operating limit and the critical limit are acted on and reported. Where a condition
does not hold nothing changes. -/
def Obligations.StartUpAndPowerComplete : Prop :=
  (∀ (s u : State), s.fld F.PKG_BOOT.STAGE = 2 →
    u = (s.storeDies.filter fun n => !s.keyFull n 0).foldl (fun x n => State.drawKey x n 0) s →
    (u.pwr.warm = false → ∃ t, exec .meminitEnd s = .next t ∧
          Same ((u.setFld F.PKG_BOOT.STAGE 0 3).modFlt fun h => { h with presenting := true }) t) ∧
        (u.pwr.warm = true ∧ u.flag F.PKG_FW_CMD.STAGED = true → ∃ t, exec .meminitEnd s = .next t ∧
          Same ((u.setFld F.PKG_BOOT.SLOT 0 (1 - u.fld F.PKG_BOOT.SLOT)).setFld F.PKG_FW_CMD.STAGED 0 0).fwStart t) ∧
        (u.pwr.warm = true ∧ u.flag F.PKG_FW_CMD.STAGED = false → ∃ t, exec .meminitEnd s = .next t ∧ Same u.fwStart t)) ∧
  (∀ (s : State), (s.fld F.PKG_BOOT.STAGE ≠ 2 → ∃ t, exec .meminitEnd s = .next t ∧ Same s t) ∧
    (s.fld F.PKG_BOOT.STAGE ≠ 5 → ∃ t, exec .fwReady s = .next t ∧ Same s t)) ∧
  (∀ (s : State) (e : Nat), e = (granBase 0 (32 * s.fld F.PKG_BOOT.SLOT) + SMap.get 0 s.pwr.entry (s.fld F.PKG_BOOT.SLOT)) / 4096 →
    s.fwStart =
      ((((s.setFld F.PKG_HC_CTRLh.ENTRY 0 e).setFld F.PKG_HC_CTRLh.ENTRY 1 e).hcSet 0 true).setFld F.PKG_BOOT.STAGE 0 5).modPwr fun p =>
        { p with entryClk := some s.tmb.clk }) ∧
  (∀ (s : State) (v : Word), s.flag F.PKG_FW_CMD.BUSY = false →
    (∃ t, exec (.fwLoad v) s = .next t ∧ t.fld F.PKG_FW_CMD.LEN = v.toNat % 2 ^ 26 ∧ t.fld F.PKG_FW_CMD.OP = 0 ∧
          t.fld F.PKG_FW_CMD.ERR = (if s.fld F.PKG_BOOT.STAGE = 3 then 0 else 5) ∧
          t.flag F.PKG_FW_CMD.BUSY = (s.fld F.PKG_BOOT.STAGE == 3) ∧
          t.fld F.PKG_BOOT.STAGE = (if s.fld F.PKG_BOOT.STAGE = 3 then 4 else s.fld F.PKG_BOOT.STAGE) ∧
          SameBut [(F.PKG_FW_CMD.LEN, 0), (F.PKG_FW_CMD.OP, 0), (F.PKG_FW_CMD.ERR, 0), (F.PKG_FW_CMD.BUSY, 0), (F.PKG_BOOT.STAGE, 0)] s t) ∧
      ∃ t, exec (.fwStage v) s = .next t ∧ t.fld F.PKG_FW_CMD.LEN = v.toNat % 2 ^ 26 ∧ t.fld F.PKG_FW_CMD.OP = 1 ∧
          t.fld F.PKG_FW_CMD.ERR = (if s.fld F.PKG_BOOT.STAGE = 6 then 0 else 5) ∧
          t.flag F.PKG_FW_CMD.BUSY = (s.fld F.PKG_BOOT.STAGE == 6) ∧
          SameBut [(F.PKG_FW_CMD.LEN, 0), (F.PKG_FW_CMD.OP, 0), (F.PKG_FW_CMD.ERR, 0), (F.PKG_FW_CMD.BUSY, 0)] s t) ∧
  (∀ (s : State) (v : Word), s.flag F.PKG_FW_CMD.BUSY = true →
    (∃ t, exec (.fwLoad v) s = .next t ∧ t.fld F.PKG_FW_CMD.LEN = v.toNat % 2 ^ 26 ∧ t.fld F.PKG_FW_CMD.OP = 0 ∧
          SameBut [(F.PKG_FW_CMD.LEN, 0), (F.PKG_FW_CMD.OP, 0)] s t) ∧
      ∃ t, exec (.fwStage v) s = .next t ∧ t.fld F.PKG_FW_CMD.LEN = v.toNat % 2 ^ 26 ∧ t.fld F.PKG_FW_CMD.OP = 1 ∧
          SameBut [(F.PKG_FW_CMD.LEN, 0), (F.PKG_FW_CMD.OP, 0)] s t) ∧
  (∀ (s : State) (image : List Byte) (ok : Bool),
    s.flag F.PKG_FW_CMD.BUSY = true ∧ (ok = true → fwErr image (s.fld F.PKG_FW_CMD.LEN) ≠ 0) →
    ∃ t, exec (.fwVerifyEnd image ok) s = .next t ∧ t.flag F.PKG_FW_CMD.BUSY = false ∧
          t.fld F.PKG_FW_CMD.ERR = (if ok then fwErr image (s.fld F.PKG_FW_CMD.LEN) else 4) ∧
          t.fld F.PKG_BOOT.STAGE = (if s.fld F.PKG_BOOT.STAGE = 4 then 3 else s.fld F.PKG_BOOT.STAGE) ∧
          SameBut [(F.PKG_FW_CMD.BUSY, 0), (F.PKG_FW_CMD.ERR, 0), (F.PKG_BOOT.STAGE, 0)] s t) ∧
  (∀ (s u : State) (image : List Byte) (slot : Nat),
    s.flag F.PKG_FW_CMD.BUSY = true →
    slot = (if s.fld F.PKG_BOOT.STAGE = 4 then s.fld F.PKG_BOOT.SLOT else 1 - s.fld F.PKG_BOOT.SLOT) ∧
      u = (((s.setFld F.PKG_FW_CMD.BUSY 0 0).putRam 0 (granBase 0 (32 * slot)) image).modPwr fun p =>
        { p with entry := SMap.set 0 p.entry slot (natOf (slice image 12 4)) }) →
    ∃ t, exec (.fwVerifyEnd image true) s = .next t ∧ (fwErr image (s.fld F.PKG_FW_CMD.LEN) = 0 →
      Same (if s.fld F.PKG_BOOT.STAGE = 4 then u.fwStart else u.setFld F.PKG_FW_CMD.STAGED 0 1) t)) ∧
  (∀ (s : State) (image : List Byte) (ok : Bool), s.flag F.PKG_FW_CMD.BUSY = false →
    ∃ t, exec (.fwVerifyEnd image ok) s = .next t ∧ Same s t) ∧
  (∀ (s : State), s.fld F.PKG_BOOT.STAGE = 5 →
    ∃ t, exec .fwReady s = .next t ∧ Same ((s.setFld F.PKG_BOOT.STAGE 0 6).modPwr fun p => { p with warm := false, entryClk := none }) t) ∧
  (∀ (s : State),
    ((∃ k, s.pwr.entryClk = some k ∧ k + 9375000 ≤ s.tmb.clk) ∧ s.fld F.PKG_BOOT.STAGE = 5 ∧ s.flag F.PKG_BOOT.ERR = false →
      ∃ t, exec .fwReadyTimeout s = .next t ∧ t.fld F.PKG_BOOT.ERR = 1 ∧ t.fld F.FLT_STATUS.RUNG = max (s.fld F.FLT_STATUS.RUNG) 3 ∧
          SameBut [(F.PKG_BOOT.ERR, 0), (F.FLT_STATUS.RUNG, 0)] s t) ∧
        ((∀ k, s.pwr.entryClk = some k → s.tmb.clk < k + 9375000) ∨ s.fld F.PKG_BOOT.STAGE ≠ 5 ∨ s.flag F.PKG_BOOT.ERR = true →
          ∃ t, exec .fwReadyTimeout s = .next t ∧ Same s t)) ∧
  (∀ (s : State) (i : Nat) (v : Word) (r lo hi x sum : Int), i < 256 ∧ calRange i = some (r, lo, hi) →
    x = sext 16 (bits v.toNat 31 16) ∧ sum = sext 16 (s.fld F.CAL_ITEMi.FACTORY i) + clampInt (-r) r x →
    ∃ t, exec (.calUserWrite i v) s = .next t ∧
          t.fld F.CAL_ITEMi.USER i = wrap 16 (clampInt (-r) r x) ∧ t.fld F.CAL_ITEMi.EFFECTIVE i = wrap 16 (clampInt lo hi sum) ∧
          t.fld F.CAL_ITEMi.CLAMP i =
            (if x ≠ clampInt (-r) r x ∨ sum ≠ clampInt lo hi sum then 1 else if bit v.toNat 48 then 0 else s.fld F.CAL_ITEMi.CLAMP i) ∧
          SameBut [(F.CAL_ITEMi.USER, i), (F.CAL_ITEMi.EFFECTIVE, i), (F.CAL_ITEMi.CLAMP, i)] s t) ∧
  (∀ (s : State) (i : Nat) (v : Word), i < 256 ∧ calRange i = none →
    ∃ t, exec (.calUserWrite i v) s = .next t ∧ Same (if bit v.toNat 48 then s.setFld F.CAL_ITEMi.CLAMP i 0 else s) t) ∧
  (∀ (s : State) (a : Nat), s.pwr.aon = true →
    (∃ t, exec (.i3cCcc (.entdaa a)) s = .next t ∧
          Same (s.modPwr fun p => { p with i3cAddr := if p.i3cAddr = 0 then a % 128 else p.i3cAddr }) t) ∧
        (∃ t, exec (.i3cCcc (.setdasa a)) s = .next t ∧ Same (s.modPwr fun p => { p with i3cAddr := a % 128 }) t) ∧
        (∃ t, exec (.i3cCcc .rstdaa) s = .next t ∧ Same (s.modPwr fun p => { p with i3cAddr := 0 }) t) ∧
        (∃ t, exec (.i3cCcc .getpid) s = .next t ∧
          Same (s.answer ((bytesOf 6 (s.fld F.PKG_SERIAL.SERIAL % 2 ^ 33 + 0x1F5D * 2 ^ 33)).reverse)) t) ∧
        (∃ t, exec (.i3cCcc (.enec a)) s = .next t ∧ Same (if bit a 0 then s.modPwr fun p => { p with i3cIbi := true } else s) t) ∧
        (∃ t, exec (.i3cCcc (.disec a)) s = .next t ∧ Same (if bit a 0 then s.modPwr fun p => { p with i3cIbi := false } else s) t) ∧
        (∃ t, exec (.i3cCcc (.rstact a)) s = .next t ∧ Same (s.modPwr fun p => { p with i3cRst := a }) t) ∧
        ∃ t, exec (.i3cCcc (.other a)) s = .next t ∧ Same s t) ∧
  (∀ (s u : State) (n : Nat) (c : Ccc) (d : List Byte), s.pwr.aon = true ∧ s.freshBytes n = (d, u) →
    (c = .getbcr ∧ n = 1) ∨ (c = .getdcr ∧ n = 1) ∨ (c = .getstatus ∧ n = 2) →
    ∃ t, exec (.i3cCcc c) s = .next t ∧ d.length = n ∧ Same (u.answer d) t) ∧
  (∀ (s : State) (i : Byte) (l : List Byte), s.pwr.aon = true →
    ∃ t, exec (.i3cPrivateWrite (i :: l)) s = .next t ∧
          Same (l.zipIdx.foldl (fun (u : State) e =>
            if i.toNat + e.2 = 0x10 then alertClear (e.1.setWidth 32) u
            else if i.toNat + e.2 = 0x13 ∧ bit e.1.toNat 0 then u.setFld F.PKG_RESET.PCYC_REQ 0 0 else u)
            (s.modPwr fun p => { p with i3cIdx := i.toNat })) t) ∧
  (∀ (s : State) (n : Nat), s.pwr.aon = true →
    ∃ t, exec (.i3cPrivateRead n) s = .next t ∧ Same (s.answer ((List.range n).map fun j => s.i3cByte (s.pwr.i3cIdx + j))) t) ∧
  (∀ (s : State) (c : Ccc) (b : List Byte) (n : Nat), s.pwr.aon = false →
    (∃ t, exec (.i3cCcc c) s = .next t ∧ Same s t) ∧ (∃ t, exec (.i3cPrivateWrite b) s = .next t ∧ Same s t) ∧
      ∃ t, exec (.i3cPrivateRead n) s = .next t ∧ Same s t) ∧
  (∀ (s : State), ∃ t, exec (.i3cPrivateWrite []) s = .next t ∧ Same s t) ∧
  (∀ (s u : State) (w : Nat),
    (s.pwr.windowClk + 156250 ≤ s.tmb.clk →
      u = ((s.modPwr fun p => { p with windowClk := s.tmb.clk }).setFld F.PWR_STATUS.PKG_W 0 (min w 4095)).setFld F.PWR_STATUS.LIMITING 0
        (if s.fld F.PWR_PKG_LIMIT.LIMIT < w then 1 else 0) →
      ∃ t, exec (.pkgPowerWindow w) s = .next t ∧ Same (if s.fld F.PWR_PKG_LIMIT.LIMIT < w then u.detLoss 3 else u) t) ∧
        (s.tmb.clk < s.pwr.windowClk + 156250 → ∃ t, exec (.pkgPowerWindow w) s = .next t ∧ Same s t)) ∧
  (∀ (s u x : State) (n w cause : Nat) (mx : Bool),
    n < 12 ∧ s.atTick = true ∧ SMap.get 0 s.pwr.stepTick n ≠ s.tickNo + 1 ∧ s.dieOut n = false →
    u = (s.modPwr fun p => { p with dieW := SMap.set 0 p.dieW n w, stepTick := SMap.set 0 p.stepTick n (s.tickNo + 1) }) →
    ((u.hot n = true ∨ mx = true ∨ u.overDie n = true ∨ (u.flag F.PWR_STATUS.LIMITING = true ∧ u.tenantDie n = true)) →
      cause = (if u.hot n then 1 else if mx then 2 else 3) ∧ x = u.detLoss cause →
      ∃ t, exec (.throttleStep n w mx) s = .next t ∧
          Same ((x.setStep n (min (x.fld F.PWR_DIEd.STEP n + 1) 4)).modPwr fun p => { p with trigClk := SMap.set 0 p.trigClk n s.tmb.clk }) t) ∧
        (u.hot n = false ∧ mx = false ∧ u.overDie n = false ∧ (u.flag F.PWR_STATUS.LIMITING = false ∨ u.tenantDie n = false) →
          ∃ t, exec (.throttleStep n w mx) s = .next t ∧ Same u t)) ∧
  (∀ (s : State) (n w : Nat) (mx : Bool),
    n < 12 ∧ (s.atTick = false ∨ SMap.get 0 s.pwr.stepTick n = s.tickNo + 1 ∨ s.dieOut n = true) →
    ∃ t, exec (.throttleStep n w mx) s = .next t ∧ Same s t) ∧
  (∀ (s : State) (n : Nat), n < 12 →
    (s.atTick = true ∧ s.fld F.PWR_DIEd.STEP n ≠ 0 ∧ s.flag F.PWR_DIEd.TFAULT n = false ∧ s.tj n ≤ (tjLimits n).1 - 48 ∧
        SMap.get 0 s.pwr.trigClk n + 1562500 ≤ s.tmb.clk →
      ∃ t, exec (.throttleStepUp n) s = .next t ∧
          Same ((s.setStep n (s.fld F.PWR_DIEd.STEP n - 1)).modPwr fun p => { p with trigClk := SMap.set 0 p.trigClk n s.tmb.clk }) t) ∧
        (s.atTick = false ∨ s.fld F.PWR_DIEd.STEP n = 0 ∨ s.flag F.PWR_DIEd.TFAULT n = true ∨ (tjLimits n).1 - 48 < s.tj n ∨
            s.tmb.clk < SMap.get 0 s.pwr.trigClk n + 1562500 →
          ∃ t, exec (.throttleStepUp n) s = .next t ∧ Same s t)) ∧
  (∀ (s u : State) (n step : Nat), n < 12 ∧ step ≤ 4 →
    u = (s.setFld F.PWR_DIEd.STEP n step).setFld F.PWR_DIEd.CLK_MHZ n (if s.radioDie n then 1050 else 1050 - 105 * step) →
    s.setStep n step = (u.setFld F.PWR_STATUS.THR_MASK 0 (putBit (s.fld F.PWR_STATUS.THR_MASK) n (step != 0))).mxSet) ∧
  (∀ (s : State) (g a : Nat), g < 24 ∧ a < 4 →
    (s.lending = true ∧ s.arrayOut g a = false ∧ SMap.get [] (s.core g).passes a = [] ∧
        SMap.get 0 (s.core g).idleT a + s.fld F.PWR_LEND.THRESH * 625 ≤ s.gey.arr →
      ∃ t, exec (.arrayClockGate g a) s = .next t ∧
          Same (s.modPwr fun p => { p with gated := p.gated.filter (· != 4 * g + a) ++ [4 * g + a] }) t) ∧
        (s.lending = false ∨ s.arrayOut g a = true ∨ SMap.get [] (s.core g).passes a ≠ [] ∨
            s.gey.arr < SMap.get 0 (s.core g).idleT a + s.fld F.PWR_LEND.THRESH * 625 →
          ∃ t, exec (.arrayClockGate g a) s = .next t ∧ Same s t)) ∧
  (∀ (s : State) (d : Nat), d < 256 →
    (s.lending = true ∧ s.dspRuns d = true ∧ (s.dsp d).task = none ∧ s.flag F.RDP_CORE_STATUS.LANE d = false ∧
        s.fld F.PWR_LEND.THRESH ≤ dspCycles (s.dsp d).freeClk s.tmb.clk →
      ∃ t, exec (.dspCoreClockGate d) s = .next t ∧
          Same (s.modPwr fun p => { p with gated := p.gated.filter (· != 1024 + d) ++ [1024 + d] }) t) ∧
        (s.lending = false ∨ s.dspRuns d = false ∨ (s.dsp d).task ≠ none ∨ s.flag F.RDP_CORE_STATUS.LANE d = true ∨
            dspCycles (s.dsp d).freeClk s.tmb.clk < s.fld F.PWR_LEND.THRESH →
          ∃ t, exec (.dspCoreClockGate d) s = .next t ∧ Same s t)) ∧
  (∀ (s u : State) (d : Nat) (raw0 raw1 j : Int), d < 32 ∧ s.dieEn d = true →
    j = clampInt (-32768) 32767 (max (raw0 + sext 16 (s.fld F.CAL_ITEMi.EFFECTIVE (2 * d))) (raw1 + sext 16 (s.fld F.CAL_ITEMi.EFFECTIVE (2 * d + 1)))) →
    (12 ≤ d ∧ u = (if j < (tjLimits d).2.1 then (s.setFld F.PWR_DIEd.TJ d (wrap 16 j)).setFld F.PWR_DIEd.TFAULT d 0
        else s.setFld F.PWR_DIEd.TJ d (wrap 16 j)) →
      ∃ t, exec (.thermalSensorSample d raw0 raw1) s = .next t ∧ Same (u.thrMask d) t) ∧
        (∀ x, d < 12 ∧ x = (if j < (tjLimits d).2.1 then ((s.setFld F.PWR_DIEd.TJ d (wrap 16 j)).mxSet).setFld F.PWR_DIEd.TFAULT d 0
              else (s.setFld F.PWR_DIEd.TJ d (wrap 16 j)).mxSet) ∧
            u = (if (tjLimits d).1 - 48 < j then x.modPwr fun p => { p with trigClk := SMap.set 0 p.trigClk d x.tmb.clk } else x) →
          ∃ t, exec (.thermalSensorSample d raw0 raw1) s = .next t ∧ Same (if u.hot d then u.detLoss 1 else u) t)) ∧
  (∀ (s : State) (d : Nat) (raw0 raw1 : Int), d < 32 ∧ s.dieEn d = false →
    (∃ t, exec (.thermalSensorSample d raw0 raw1) s = .next t ∧ Same s t) ∧ (∃ t, exec (.thermalFault d) s = .next t ∧ Same s t) ∧
      ∃ t, exec (.criticalTemperature d) s = .next t ∧ Same (s.applyMmio .caldera) t) ∧
  (∀ (s u x : State) (d : Nat), d < 32 ∧ s.dieEn d = true →
    (s.flag F.PWR_DIEd.TFAULT d = false ∧ (tjLimits d).2.1 ≤ s.tj d →
      u = (if d < 12 then (s.setFld F.PWR_DIEd.TFAULT d 1).setStep d 4 else s.setFld F.PWR_DIEd.TFAULT d 1) ∧
        x = (u.journal 19 3 (unitSrc (.region d)) d).raise 0x007 { mech := 19, level := 3, data := d } 4 →
      ∃ t, exec (.thermalFault d) s = .next t ∧ Same (if d = 28 ∨ d = 29 then x.backupAlarm 2 else x) t) ∧
        (s.flag F.PWR_DIEd.TFAULT d = true ∨ s.tj d < (tjLimits d).2.1 → ∃ t, exec (.thermalFault d) s = .next t ∧ Same s t)) ∧
  (∀ (s u x y : State) (d : Nat) (top : Bool) (fences : List Fence),
    d < 32 ∧ s.dieEn d = true ∧ s.dieOff d = false ∧ s.flag F.PWR_DIEd.CRIT d = false ∧ (tjLimits d).2.2 ≤ s.tj d →
    u = ((((s.setFld F.PWR_DIEd.CRIT d 1).setFld F.FLT_STATUS.ALERT 0 1).journal 19 3 (unitSrc (.region d)) d).raise 0x007
        { mech := 19, level := 3, data := d } 4) ∧
      top = decide (topDie d = d) ∧ x = (if top then u.dropInFlight d [] else u) ∧
      fences = (if top then [⟨.region d, 3, false, false⟩, ⟨.router d, 3, false, false⟩] else [⟨.region d, 3, false, false⟩]) ∧
      ((x.flt.caldera ≠ none ∧ y = x.modFlt fun h => { h with waiting := h.waiting ++ fences }) ∨
        (x.flt.caldera = none ∧ y = (x.modFlt fun h => { h with fences := h.fences ++ fences, routeChg := h.routeChg || top }).setFen d)) →
    ∃ t, exec (.criticalTemperature d) s = .next t ∧ Same ((y.loseDie d true).applyMmio .caldera) t) ∧
  (∀ (s : State) (d : Nat), d < 32 ∧ (s.dieOff d = true ∨ s.flag F.PWR_DIEd.CRIT d = true ∨ s.tj d < (tjLimits d).2.2) →
    ∃ t, exec (.criticalTemperature d) s = .next t ∧ Same (s.applyMmio .caldera) t)

/-- For every state whose queue begins with c, step is exec of c on that state with the rest of the queue. The queue of
waiting commands is the model's own (log entry 1). -/
def Obligations.StepRunsTheFrontCommand : Prop :=
  (∀ (s : State) (c : Instr) (rest : List Instr), s.pending = c :: rest →
    step s = exec c { s with pending := rest })

/-- For every state with an empty queue a step answers the state one reference period later: without VDD_AON nothing changes; with
it the clock and the array time advance by one period, a waiting step is gone, waiting records count their stall cycles,
and a snapshot that waits is taken, BUSY going to 0. That time passes there is the model's choice of log entry 1. -/
def Obligations.EmptyQueuePassesAPeriod : Prop :=
  (∀ (s : State), s.pending = [] → step s = .next (refPeriod s)) ∧
  (∀ (s : State), s.pwr.aon = false → refPeriod s = s) ∧
  (∀ (s : State), s.pwr.aon = true →
    (refPeriod s).tmb.clk = s.tmb.clk + 1 ∧ (refPeriod s).gey.arr = s.gey.arr + 4200 ∧ (refPeriod s).tmb.stepPend = none ∧
      (refPeriod s).pending = s.pending ∧ (refPeriod s).mem = s.mem ∧ (refPeriod s).cores = s.cores ∧ (refPeriod s).dsps = s.dsps ∧
      (refPeriod s).snap = none ∧
      (refPeriod s).fld F.PKG_ACCT_SNAP.BUSY 0 = (if s.snap = none then s.fld F.PKG_ACCT_SNAP.BUSY 0 else 0) ∧
      (∀ b, s.snap = some b →
        (∀ k < 7, (refPeriod s).fld F.PKG_ACCT_DATA.WORD k = SMap.get 0 s.acct (b * 8 + k) % 2 ^ 64) ∧
          (refPeriod s).fld F.PKG_ACCT_DATA.WORD 8 = s.tickNo % 2 ^ 64))

/-- For every command and every state: a well-formed command answers a next state whose queue of waiting commands is that
of the state it ran on, and a command that names a unit the device does not have is refused as ill-formed. No command
faults and none is refused for want of a meaning. The refusal is the model's form for a command no sender can make. -/
def Obligations.EveryCommandAnswers : Prop :=
  (∀ (c : Instr) (s : State), c.wf = true →
    ∃ t, exec c s = .next t ∧ t.pending = s.pending) ∧
  (∀ (c : Instr) (s : State), c.wf = false →
    exec c s = .refused .illFormed)

/-- At reset no command waits, memory, poison and mailboxes stand in canonical form, no context, pass, task or request
exists, the counter is 0 with TMB_INCR 0x06_6666_6666, the tick generator is stopped, no die is fenced, no alarm or
rung stands, every host core is halted, and every field reads the reset value of its table. That an unlisted byte
reads 0 is log entry 6. -/
def Obligations.ResetState : Prop :=
  (State.reset.pending = [] ∧ Canonical State.reset ∧ State.reset.cores = [] ∧ State.reset.dsps = [] ∧ State.reset.fab.txns = [] ∧
        State.reset.now = 0 ∧ State.reset.fld F.TMB_NOW_FRAC.FRAC = 0 ∧ State.reset.fld F.TMB_INCR.INCR = 0x666666666 ∧
        State.reset.flag F.GEY_CTRL.RUN = false ∧ State.reset.flag F.GEY_CTRL.TICKING = false ∧
        (∀ d < 32, State.reset.dieFen d = false) ∧ State.reset.fld F.FLT_ALERT.ALARM = 0 ∧ State.reset.fld F.FLT_STATUS.RUNG = 0 ∧
        (∀ h < 64, State.reset.flag F.PKG_HC_CTRLh.HALTED h = true) ∧ (∀ f i, State.reset.fld f i = f.resetAt i) ∧
        (∀ a, State.reset.rd a = 0#8))

/-- For every state in which memory, the poison of its lines and the mailboxes stand in canonical form (addresses strictly
rising, no entry equal to what an unlisted address reads as) and no register write made through memory waits, the
state after a step, whatever command stands at the front of the queue and on an empty queue too, stands in that form
again. The form is the model's representation of memory (log entry 6). -/
def Obligations.StepKeepsCanonicalForm : Prop :=
  (∀ (s t : State), Canonical s ∧ step s = .next t →
    Canonical t)

/-- While the package has power and no step waits, a reference period adds the one value of TMB_INCR to the counter of
TMB_NOW and TMB_NOW_FRAC, modulo 2^96, as one number, so that a carry out of the fraction increments TMB_NOW. A write
of TMB_INCR leaves the counter as it is, and the next reference period adds the value it has stored, the one that a
read of TMB_INCR would return. -/
def Obligations.CounterAddsItsIncrement : Prop :=
  (∀ (s : State), s.pwr.aon = true ∧ s.tmb.stepPend = none →
    (refPeriod s).now * 2 ^ 32 + (refPeriod s).fld F.TMB_NOW_FRAC.FRAC =
          (s.now * 2 ^ 32 + s.fld F.TMB_NOW_FRAC.FRAC + s.fld F.TMB_INCR.INCR) % 2 ^ 96) ∧
  (∀ (s : State) (v : Word), s.pwr.aon = true ∧ s.tmb.stepPend = none →
    ∃ t, exec (.tmbIncrWrite v) s = .next t ∧ t.now = s.now ∧ t.fld F.TMB_NOW_FRAC.FRAC = s.fld F.TMB_NOW_FRAC.FRAC ∧
          (refPeriod t).now * 2 ^ 32 + (refPeriod t).fld F.TMB_NOW_FRAC.FRAC =
            (s.now * 2 ^ 32 + s.fld F.TMB_NOW_FRAC.FRAC + t.fld F.TMB_INCR.INCR) % 2 ^ 96 ∧
          (s.flag F.GEY_CTRL.RUN = false → s.flag F.GEY_CTRL.TICKING = false →
            t.fld F.TMB_INCR.INCR = clamp 0x600000000 0x6FFFFFFFF (bits v.toNat 39 0)))

/-- With RUN and TICKING 0 and no step waiting, the reference period after a write of TMB_STEP adds the written value to
TMB_NOW modulo 2^64, beside the increment, and no later period adds it; STEP_REFUSED keeps its value. With RUN or
TICKING 1 the write only sets STEP_REFUSED, and the next period adds the increment alone. -/
def Obligations.StepMovesTheCounterOnce : Prop :=
  (∀ (s : State) (v : Word),
    s.pwr.aon = true ∧ s.tmb.stepPend = none ∧ s.flag F.GEY_CTRL.RUN = false ∧ s.flag F.GEY_CTRL.TICKING = false →
    ∃ t, exec (.tmbStepWrite v) s = .next t ∧ t.now = s.now ∧
          (refPeriod t).now * 2 ^ 32 + (refPeriod t).fld F.TMB_NOW_FRAC.FRAC =
            ((s.now + v.toNat) % 2 ^ 64 * 2 ^ 32 + s.fld F.TMB_NOW_FRAC.FRAC + s.fld F.TMB_INCR.INCR) % 2 ^ 96 ∧
          (refPeriod t).tmb.stepPend = none ∧ (refPeriod t).fld F.TMB_STATUS.STEP_REFUSED = s.fld F.TMB_STATUS.STEP_REFUSED) ∧
  (∀ (s : State) (v : Word),
    s.pwr.aon = true ∧ s.tmb.stepPend = none ∧ (s.flag F.GEY_CTRL.RUN = true ∨ s.flag F.GEY_CTRL.TICKING = true) →
    ∃ t, exec (.tmbStepWrite v) s = .next t ∧ t.now = s.now ∧ t.fld F.TMB_STATUS.STEP_REFUSED = 1 ∧
          (refPeriod t).now * 2 ^ 32 + (refPeriod t).fld F.TMB_NOW_FRAC.FRAC =
            (s.now * 2 ^ 32 + s.fld F.TMB_NOW_FRAC.FRAC + s.fld F.TMB_INCR.INCR) % 2 ^ 96)

/-- For store addresses below the populated limit of 288 GiB: two addresses with the same die and die-local address are
the same; the die is one of the four of the address's third; two different pages of one aligned group of four lie on
different dies; and the spec's example maps as it says. -/
def Obligations.StoreMapIsOneToOne : Prop :=
  ((∀ a b, a < 0x4800000000 → b < 0x4800000000 → storeMap a = storeMap b → a = b) ∧
        (∀ a, a < 0x4800000000 → (storeMap a).1 / 4 = a / 0x1800000000 ∧ (storeMap a).2 < 12288 * 2 ^ 21) ∧
        (∀ a b, a < 0x4800000000 → b < 0x4800000000 → a / 2 ^ 23 = b / 2 ^ 23 → a / 2 ^ 21 ≠ b / 2 ^ 21 →
          (storeMap a).1 ≠ (storeMap b).1) ∧
        storeMap 0x1923456780 = (6, 0x48C56780) ∧ storeCh 0x48C56780 = 8 ∧ storeBg 0x48C56780 = 6)

/-- For every register, word and value, the write of a word by the access types alone stores the value's bits in each RW
field that lies in the word, clears in each RW1C field the bits written 1 and keeps the others, keeps every RO, RC and
WO field, and changes no field of another word. A counter field that a device event increments saturates at its
largest value. -/
def Obligations.AccessTypesOfRegisters : Prop :=
  (∀ (s : State) (k : RegKind) (ix j v : Nat) (i : FieldInfo), i ∈ k.fields ∧ 64 * j ≤ i.lo ∧ i.hi ≤ 64 * j + 63 →
    (s.plain k ix j v).fld ⟨k, i.hi, i.lo⟩ ix =
          (if i.acc = .rw then bits v (i.hi - 64 * j) (i.lo - 64 * j)
           else if i.acc = .rw1c then
             (s.fld ⟨k, i.hi, i.lo⟩ ix - (s.fld ⟨k, i.hi, i.lo⟩ ix &&& bits v (i.hi - 64 * j) (i.lo - 64 * j))) % 2 ^ (i.hi + 1 - i.lo)
           else s.fld ⟨k, i.hi, i.lo⟩ ix)) ∧
  (∀ (s : State) (k : RegKind) (ix j v : Nat) (f : Field) (n : Nat),
    f.lo < 256 ∧ (f.kind ≠ k ∨ n ≠ ix ∨ (∀ i ∈ k.fields, i.lo = f.lo → i.hi < 64 * j ∨ 64 * j + 63 < i.lo)) →
    (s.plain k ix j v).fld f n = s.fld f n) ∧
  (∀ (s : State) (f : Field) (n k : Nat), s.fld f n < 2 ^ f.w →
    (s.incFld f n k).fld f n = min (s.fld f n + k) (2 ^ f.w - 1))

/-- For a write by a host core of a tenant basin, or by a matrix core or an ETV-D core whose command or task is a tenant's, where no error
that its code does not detect stands in the written words: a byte of memory that reads differently afterwards lies in the written
range and at an address at which that requester may write: an own store page, an own SRAM granule, or an address in its host window.
No such byte lies in the journal, in radio SRAM or in an ETV-D memory. -/
def Obligations.TenantWritesStayInside : Prop :=
  (∀ (s : State) (m : Master) (a : Nat) (d : List Byte) (pois : Bool) (b : Nat),
    Canonical s ∧ a < 2 ^ 48 ∧ m.wf = true ∧ (s.who m).pf = false ∧ (s.who m).basin ≠ 0 →
    (∀ x p y, (EccLoc.mem x, p) ∈ s.flips → eccClass (isStore x) p ≠ .silent y) →
    ∃ t, exec (.memoryWrite m a d pois .clean) s = .next t ∧
          (t.rd b ≠ s.rd b → a ≤ b ∧ b < a + d.length ∧ s.okAddr (s.who m) true b = true ∧
            (match place b with
              | .journal _ => False
              | .rsram _ _ => False
              | .dsp _ _ _ => False
              | .regs _ => False
              | .none => False
              | _ => True)))

/-- In every exact mode and in CI16, a column's accumulator after two passes of the same operand formats is the same in
either order: INEXACT, RANGE, NAN, POISON and EMPTY, and SUM where NAN is not set (R79 leaves SUM open where it is); outside MINPLUS
and MAXPLUS its residue is the same too. Any list of products of one mode and exponent gives the same in any order. FP32 accumulation is
outside R78. -/
def Obligations.ProductsInAnyOrder : Prop :=
  (∀ (pm : PassMode) (x1 x2 : List Byte) (w1 w2 : Plane) (c : Nat) (a u v : Accum),
    u = colExact pm x2 w2 c (colExact pm x1 w1 c a) ∧ v = colExact pm x1 w1 c (colExact pm x2 w2 c a) →
    { u with sum := 0, res := 0 } = { v with sum := 0, res := 0 } ∧ (u.nan = false → u.sum = v.sum) ∧
      (pm.mode ≠ 3 → pm.mode ≠ 4 → u.res = v.res)) ∧
  (∀ (mode : Nat) (b : Int) (a u v : Accum) (l r : List (Val × Nat)), l.Perm r →
    u = l.foldl (fun a p => a.take mode b p.1 p.2) a ∧ v = r.foldl (fun a p => a.take mode b p.1 p.2) a →
    { u with sum := 0, res := 0 } = { v with sum := 0, res := 0 } ∧ (u.nan = false → u.sum = v.sum) ∧
      (mode ≠ 3 → mode ≠ 4 → u.res = v.res))

/-- For every key and byte sequence the digest is the sum, modulo 2^64, of mix(mix(KEY, i), w) over the little-endian
8-byte words w numbered from 0, a trailing part of a word zero-extended; the digest that a FLOW record holds is the
same function with KEY taken from PKG_OBS_KEY; and mix is that of R86. -/
def Obligations.DigestOfAByteSequence : Prop :=
  (∀ (key : Nat) (d : List Byte),
    digest key d = ((List.range ((d.length + 7) / 8)).map fun i => mix (mix key i) (natOf (slice d (8 * i) 8))).sum % 2 ^ 64 ∧
        obsDigest key d = digest key d) ∧
  (∀ (s : State) (k f : Nat) (d : List Byte),
    s.flowRecord k f d =
          (let x := s.flowSt k f
           (s.obs 5 (k * 4096 + f) (min x.zeros 65535 + min x.off 65535 * 2 ^ 16) (digest (s.fld F.PKG_OBS_KEY.KEY) d)).modFlow k f
             fun x => { x with zeros := 0, off := 0, app := [] })) ∧
  (∀ (x i : Nat),
    mix x i =
          (let z := (x + (i + 1) * 0x9E3779B97F4A7C15) % 2 ^ 64
           let z := (z ^^^ (z >>> 30)) * 0xBF58476D1CE4E5B9 % 2 ^ 64
           let z := (z ^^^ (z >>> 27)) * 0x94D049BB133111EB % 2 ^ 64
           z ^^^ (z >>> 31)))

/-- On a core that runs, when issue passes to a context whose next word has an opcode outside Table 4-4, or whose PC
stands past the last instruction, each instruction row on that context ends the command with STATUS 3 and has no other
effect than that issue went to the context; so does the row of the word's own opcode where the word is no legal instruction (R116). A
row of another opcode, a row on a context that issue does not pass to, and a row on a core that does not run change nothing. -/
def Obligations.UnknownOpcodeKills : Prop :=
  (∀ (s : State) (i : Instr) (g c op : Nat) (x : Ctx), mRow i = some (g, c, op) →
    s.mmio = [] ∧ g < 24 ∧ c < 4 ∧ s.coreRuns g = true ∧ s.selected g = some c ∧ s.ctx g c = some x →
    ((∀ w, x.word = some w → knownOp (iOp w) = false) → ∃ t, exec i s = .next t ∧ Same ((issued s g c).killEnd g c 3) t) ∧
      (∀ w, x.word = some w ∧ iOp w = op ∧ legal w = false → ∃ t, exec i s = .next t ∧ Same ((issued s g c).killEnd g c 3) t) ∧
      (∀ w, x.word = some w ∧ knownOp (iOp w) = true ∧ iOp w ≠ op → ∃ t, exec i s = .next t ∧ Same s t)) ∧
  (∀ (s : State) (i : Instr) (g c op : Nat), mRow i = some (g, c, op) →
    s.mmio = [] ∧ g < 24 ∧ c < 4 ∧ (s.coreRuns g = false ∨ s.selected g ≠ some c) → ∃ t, exec i s = .next t ∧ Same s t)
end

