-- ==== Sys2Proof/Laws/Map.lean ====
section
/-! SUPPORT. What the sparse maps of the model do: reads after writes, and their canonical form. -/

namespace Sys2Proof.SMap

variable {ν : Type}

@[simp] theorem get_nil (d : ν) (k : Nat) : get d [] k = d := rfl

theorem get_insert (d : ν) (k : Nat) (v : ν) (m : SMap ν) (hk : ∀ p ∈ m, p.1 ≠ k) (j : Nat) :
    get d (insert k v m) j = if k = j then v else get d m j := by
  induction m with
  | nil => simp [insert, get]
  | cons p m ih =>
    obtain ⟨a, b⟩ := p
    have h := hk (a, b) (by simp)
    have ih := ih (fun q hq => hk q (by simp [hq]))
    unfold insert
    split
    · simp only [get]
    · simp only [get, ih]
      split
      · next e => subst e; rw [if_neg (fun e => h e.symm)]
      · rfl

theorem get_erase (d : ν) (m : SMap ν) (k j : Nat) : get d (erase m k) j = if k = j then d else get d m j := by
  induction m with
  | nil => simp [erase, get]
  | cons p m ih =>
    obtain ⟨a, b⟩ := p
    simp only [erase, List.filter_cons] at ih ⊢
    by_cases h : a = k
    · simp only [h, bne_self_eq_false, Bool.false_eq_true, if_false, ih, get]
      split <;> rfl
    · simp only [bne_iff_ne, ne_eq, h, not_false_eq_true, if_true, get, ih]
      by_cases hj : k = j
      · subst hj; simp [h]
      · simp [hj]

theorem mem_erase {m : SMap ν} {k : Nat} {p : Nat × ν} : p ∈ erase m k ↔ p ∈ m ∧ p.1 ≠ k := by
  simp [erase]

variable [DecidableEq ν]

/-- A read after a write: the value written at its key, the old value elsewhere. -/
theorem get_set (d : ν) (m : SMap ν) (k : Nat) (v : ν) (j : Nat) :
    get d (set d m k v) j = if k = j then v else get d m j := by
  unfold set
  split
  · next h => subst h; rw [get_erase]
  · rw [get_insert _ _ _ _ (fun p hp => (mem_erase.mp hp).2), get_erase]
    split <;> rfl

@[simp] theorem get_set_same (d : ν) (m : SMap ν) (k : Nat) (v : ν) : get d (set d m k v) k = v := by simp [get_set]

/-- At another key a read gives the old value, whatever defaults the write and the read have. -/
theorem get_set_ne (d e : ν) (m : SMap ν) {k j : Nat} (v : ν) (h : k ≠ j) : get e (set d m k v) j = get e m j := by
  unfold set
  split
  · rw [get_erase, if_neg h]
  · rw [get_insert _ _ _ _ (fun p hp => (mem_erase.mp hp).2), get_erase, if_neg h, if_neg h]

/-- The canonical form reads the same at every key. -/
@[simp] theorem get_canon (d : ν) (m : SMap ν) (j : Nat) : get d (canon d m) j = get d m j := by
  induction m with
  | nil => rfl
  | cons p m ih =>
    have h : canon d (p :: m) = set d (canon d m) p.1 p.2 := rfl
    rw [h, get_set, ih]
    rfl

omit [DecidableEq ν] in
theorem mem_insert {k : Nat} {v : ν} {m : SMap ν} {p : Nat × ν} : p ∈ insert k v m ↔ p = (k, v) ∨ p ∈ m := by
  induction m with
  | nil => simp [insert]
  | cons q m ih =>
    obtain ⟨a, b⟩ := q
    unfold insert
    split
    · simp
    · simp only [List.mem_cons, ih]; exact or_left_comm

omit [DecidableEq ν] in
theorem pairwise_insert (k : Nat) (v : ν) (m : SMap ν) (h : (m.map Prod.fst).Pairwise (· < ·))
    (hk : ∀ p ∈ m, p.1 ≠ k) : ((insert k v m).map Prod.fst).Pairwise (· < ·) := by
  induction m with
  | nil => simp [insert]
  | cons q m ih =>
    obtain ⟨a, b⟩ := q
    have hq := hk (a, b) (by simp)
    simp only [List.map_cons, List.pairwise_cons, List.mem_map, forall_exists_index, and_imp,
      forall_apply_eq_imp_iff₂] at h
    unfold insert
    split
    · next hlt =>
      simp only [List.map_cons, List.pairwise_cons, List.mem_cons, List.mem_map, forall_eq_or_imp,
        forall_exists_index, and_imp, forall_apply_eq_imp_iff₂]
      exact ⟨⟨hlt, fun p hp => Nat.lt_trans hlt (h.1 p hp)⟩, h.1, h.2⟩
    · next hge =>
      have hlt : a < k := by simp only at hq; omega
      simp only [List.map_cons, List.pairwise_cons, List.mem_map, forall_exists_index, and_imp,
        forall_apply_eq_imp_iff₂]
      refine ⟨fun p hp => ?_, ih h.2 (fun p hp => hk p (by simp [hp]))⟩
      rcases mem_insert.mp hp with rfl | hp
      · exact hlt
      · exact h.1 p hp

/-- Writing keeps the canonical form. -/
theorem wf_set (d : ν) (m : SMap ν) (k : Nat) (v : ν) (h : wf d m = true) : wf d (set d m k v) = true := by
  simp only [wf, Bool.and_eq_true, decide_eq_true_eq, List.all_eq_true, bne_iff_ne] at h ⊢
  have he : ((erase m k).map Prod.fst).Pairwise (· < ·) := h.1.sublist (List.filter_sublist.map _)
  unfold set
  split
  · exact ⟨he, fun p hp => h.2 p (mem_erase.mp hp).1⟩
  · next hv =>
    refine ⟨pairwise_insert k v _ he (fun p hp => (mem_erase.mp hp).2), fun p hp => ?_⟩
    rcases mem_insert.mp hp with rfl | hp
    · exact hv
    · exact h.2 p (mem_erase.mp hp).1

/-- The canonical form is canonical. -/
@[simp] theorem wf_canon (d : ν) (m : SMap ν) : wf d (canon d m) = true := by
  induction m with
  | nil => rfl
  | cons p m ih => exact wf_set d _ _ _ ih

/-- Leaving entries out keeps the canonical form. -/
theorem wf_filter (d : ν) (m : SMap ν) (p : Nat × ν → Bool) (h : wf d m = true) : wf d (m.filter p) = true := by
  simp only [wf, Bool.and_eq_true, decide_eq_true_eq, List.all_eq_true, bne_iff_ne] at h ⊢
  exact ⟨h.1.sublist (List.filter_sublist.map _), fun q hq => h.2 q (List.mem_filter.mp hq).1⟩

end Sys2Proof.SMap
end

