-- ==== Sys2Proof/Laws/State.lean ====
section
/-! SUPPORT. What each update of the state leaves as it was, one lemma for each field and each update, and what a settled
state holds. -/

namespace Sys2Proof.Machine

variable (s : State)

@[simp] theorem pending_setFld (f : Field) (ix v : Nat) : (s.setFld f ix v).pending = s.pending := rfl
@[simp] theorem mem_setFld (f : Field) (ix v : Nat) : (s.setFld f ix v).mem = s.mem := rfl
@[simp] theorem poison_setFld (f : Field) (ix v : Nat) : (s.setFld f ix v).poison = s.poison := rfl
@[simp] theorem flips_setFld (f : Field) (ix v : Nat) : (s.setFld f ix v).flips = s.flips := rfl
@[simp] theorem resp_setFld (f : Field) (ix v : Nat) : (s.setFld f ix v).resp = s.resp := rfl
@[simp] theorem respPoison_setFld (f : Field) (ix v : Nat) : (s.setFld f ix v).respPoison = s.respPoison := rfl
@[simp] theorem mmio_setFld (f : Field) (ix v : Nat) : (s.setFld f ix v).mmio = s.mmio := rfl
@[simp] theorem latches_setFld (f : Field) (ix v : Nat) : (s.setFld f ix v).latches = s.latches := rfl
@[simp] theorem held_setFld (f : Field) (ix v : Nat) : (s.setFld f ix v).held = s.held := rfl
@[simp] theorem free_setFld (f : Field) (ix v : Nat) : (s.setFld f ix v).free = s.free := rfl
@[simp] theorem out_setFld (f : Field) (ix v : Nat) : (s.setFld f ix v).out = s.out := rfl
@[simp] theorem tmb_setFld (f : Field) (ix v : Nat) : (s.setFld f ix v).tmb = s.tmb := rfl
@[simp] theorem trigs_setFld (f : Field) (ix v : Nat) : (s.setFld f ix v).trigs = s.trigs := rfl
@[simp] theorem gey_setFld (f : Field) (ix v : Nat) : (s.setFld f ix v).gey = s.gey := rfl
@[simp] theorem evcap_setFld (f : Field) (ix v : Nat) : (s.setFld f ix v).evcap = s.evcap := rfl
@[simp] theorem cplTime_setFld (f : Field) (ix v : Nat) : (s.setFld f ix v).cplTime = s.cplTime := rfl
@[simp] theorem flt_setFld (f : Field) (ix v : Nat) : (s.setFld f ix v).flt = s.flt := rfl
@[simp] theorem pwr_setFld (f : Field) (ix v : Nat) : (s.setFld f ix v).pwr = s.pwr := rfl
@[simp] theorem cores_setFld (f : Field) (ix v : Nat) : (s.setFld f ix v).cores = s.cores := rfl
@[simp] theorem queues_setFld (f : Field) (ix v : Nat) : (s.setFld f ix v).queues = s.queues := rfl
@[simp] theorem rrc_setFld (f : Field) (ix v : Nat) : (s.setFld f ix v).rrc = s.rrc := rfl
@[simp] theorem dsps_setFld (f : Field) (ix v : Nat) : (s.setFld f ix v).dsps = s.dsps := rfl
@[simp] theorem clusters_setFld (f : Field) (ix v : Nat) : (s.setFld f ix v).clusters = s.clusters := rfl
@[simp] theorem engines_setFld (f : Field) (ix v : Nat) : (s.setFld f ix v).engines = s.engines := rfl
@[simp] theorem crcs_setFld (f : Field) (ix v : Nat) : (s.setFld f ix v).crcs = s.crcs := rfl
@[simp] theorem modems_setFld (f : Field) (ix v : Nat) : (s.setFld f ix v).modems = s.modems := rfl
@[simp] theorem eqNow_setFld (f : Field) (ix v : Nat) : (s.setFld f ix v).eqNow = s.eqNow := rfl
@[simp] theorem rdflt_setFld (f : Field) (ix v : Nat) : (s.setFld f ix v).rdflt = s.rdflt := rfl
@[simp] theorem edges_setFld (f : Field) (ix v : Nat) : (s.setFld f ix v).edges = s.edges := rfl
@[simp] theorem stores_setFld (f : Field) (ix v : Nat) : (s.setFld f ix v).stores = s.stores := rfl
@[simp] theorem acct_setFld (f : Field) (ix v : Nat) : (s.setFld f ix v).acct = s.acct := rfl
@[simp] theorem snap_setFld (f : Field) (ix v : Nat) : (s.setFld f ix v).snap = s.snap := rfl
@[simp] theorem basins_setFld (f : Field) (ix v : Nat) : (s.setFld f ix v).basins = s.basins := rfl
@[simp] theorem mbx_setFld (f : Field) (ix v : Nat) : (s.setFld f ix v).mbx = s.mbx := rfl
@[simp] theorem hcs_setFld (f : Field) (ix v : Nat) : (s.setFld f ix v).hcs = s.hcs := rfl
@[simp] theorem ats_setFld (f : Field) (ix v : Nat) : (s.setFld f ix v).ats = s.ats := rfl
@[simp] theorem obsd_setFld (f : Field) (ix v : Nat) : (s.setFld f ix v).obsd = s.obsd := rfl
@[simp] theorem lock_setFld (f : Field) (ix v : Nat) : (s.setFld f ix v).lock = s.lock := rfl
@[simp] theorem det_setFld (f : Field) (ix v : Nat) : (s.setFld f ix v).det = s.det := rfl
@[simp] theorem fab_setFld (f : Field) (ix v : Nat) : (s.setFld f ix v).fab = s.fab := rfl
@[simp] theorem rd_setFld (f : Field) (ix v : Nat) (i : Nat) : (s.setFld f ix v).rd i = s.rd i := rfl

@[simp] theorem pending_incFld (f : Field) (ix n : Nat) : (s.incFld f ix n).pending = s.pending := rfl
@[simp] theorem mem_incFld (f : Field) (ix n : Nat) : (s.incFld f ix n).mem = s.mem := rfl
@[simp] theorem poison_incFld (f : Field) (ix n : Nat) : (s.incFld f ix n).poison = s.poison := rfl
@[simp] theorem flips_incFld (f : Field) (ix n : Nat) : (s.incFld f ix n).flips = s.flips := rfl
@[simp] theorem resp_incFld (f : Field) (ix n : Nat) : (s.incFld f ix n).resp = s.resp := rfl
@[simp] theorem respPoison_incFld (f : Field) (ix n : Nat) : (s.incFld f ix n).respPoison = s.respPoison := rfl
@[simp] theorem mmio_incFld (f : Field) (ix n : Nat) : (s.incFld f ix n).mmio = s.mmio := rfl
@[simp] theorem latches_incFld (f : Field) (ix n : Nat) : (s.incFld f ix n).latches = s.latches := rfl
@[simp] theorem held_incFld (f : Field) (ix n : Nat) : (s.incFld f ix n).held = s.held := rfl
@[simp] theorem free_incFld (f : Field) (ix n : Nat) : (s.incFld f ix n).free = s.free := rfl
@[simp] theorem out_incFld (f : Field) (ix n : Nat) : (s.incFld f ix n).out = s.out := rfl
@[simp] theorem tmb_incFld (f : Field) (ix n : Nat) : (s.incFld f ix n).tmb = s.tmb := rfl
@[simp] theorem trigs_incFld (f : Field) (ix n : Nat) : (s.incFld f ix n).trigs = s.trigs := rfl
@[simp] theorem gey_incFld (f : Field) (ix n : Nat) : (s.incFld f ix n).gey = s.gey := rfl
@[simp] theorem evcap_incFld (f : Field) (ix n : Nat) : (s.incFld f ix n).evcap = s.evcap := rfl
@[simp] theorem cplTime_incFld (f : Field) (ix n : Nat) : (s.incFld f ix n).cplTime = s.cplTime := rfl
@[simp] theorem flt_incFld (f : Field) (ix n : Nat) : (s.incFld f ix n).flt = s.flt := rfl
@[simp] theorem pwr_incFld (f : Field) (ix n : Nat) : (s.incFld f ix n).pwr = s.pwr := rfl
@[simp] theorem cores_incFld (f : Field) (ix n : Nat) : (s.incFld f ix n).cores = s.cores := rfl
@[simp] theorem queues_incFld (f : Field) (ix n : Nat) : (s.incFld f ix n).queues = s.queues := rfl
@[simp] theorem rrc_incFld (f : Field) (ix n : Nat) : (s.incFld f ix n).rrc = s.rrc := rfl
@[simp] theorem dsps_incFld (f : Field) (ix n : Nat) : (s.incFld f ix n).dsps = s.dsps := rfl
@[simp] theorem clusters_incFld (f : Field) (ix n : Nat) : (s.incFld f ix n).clusters = s.clusters := rfl
@[simp] theorem engines_incFld (f : Field) (ix n : Nat) : (s.incFld f ix n).engines = s.engines := rfl
@[simp] theorem crcs_incFld (f : Field) (ix n : Nat) : (s.incFld f ix n).crcs = s.crcs := rfl
@[simp] theorem modems_incFld (f : Field) (ix n : Nat) : (s.incFld f ix n).modems = s.modems := rfl
@[simp] theorem eqNow_incFld (f : Field) (ix n : Nat) : (s.incFld f ix n).eqNow = s.eqNow := rfl
@[simp] theorem rdflt_incFld (f : Field) (ix n : Nat) : (s.incFld f ix n).rdflt = s.rdflt := rfl
@[simp] theorem edges_incFld (f : Field) (ix n : Nat) : (s.incFld f ix n).edges = s.edges := rfl
@[simp] theorem stores_incFld (f : Field) (ix n : Nat) : (s.incFld f ix n).stores = s.stores := rfl
@[simp] theorem acct_incFld (f : Field) (ix n : Nat) : (s.incFld f ix n).acct = s.acct := rfl
@[simp] theorem snap_incFld (f : Field) (ix n : Nat) : (s.incFld f ix n).snap = s.snap := rfl
@[simp] theorem basins_incFld (f : Field) (ix n : Nat) : (s.incFld f ix n).basins = s.basins := rfl
@[simp] theorem mbx_incFld (f : Field) (ix n : Nat) : (s.incFld f ix n).mbx = s.mbx := rfl
@[simp] theorem hcs_incFld (f : Field) (ix n : Nat) : (s.incFld f ix n).hcs = s.hcs := rfl
@[simp] theorem ats_incFld (f : Field) (ix n : Nat) : (s.incFld f ix n).ats = s.ats := rfl
@[simp] theorem obsd_incFld (f : Field) (ix n : Nat) : (s.incFld f ix n).obsd = s.obsd := rfl
@[simp] theorem lock_incFld (f : Field) (ix n : Nat) : (s.incFld f ix n).lock = s.lock := rfl
@[simp] theorem det_incFld (f : Field) (ix n : Nat) : (s.incFld f ix n).det = s.det := rfl
@[simp] theorem fab_incFld (f : Field) (ix n : Nat) : (s.incFld f ix n).fab = s.fab := rfl
@[simp] theorem rd_incFld (f : Field) (ix n : Nat) (i : Nat) : (s.incFld f ix n).rd i = s.rd i := rfl

@[simp] theorem pending_answer (d : List Byte) (p : Bool) : (s.answer d p).pending = s.pending := rfl
@[simp] theorem regs_answer (d : List Byte) (p : Bool) : (s.answer d p).regs = s.regs := rfl
@[simp] theorem mem_answer (d : List Byte) (p : Bool) : (s.answer d p).mem = s.mem := rfl
@[simp] theorem poison_answer (d : List Byte) (p : Bool) : (s.answer d p).poison = s.poison := rfl
@[simp] theorem flips_answer (d : List Byte) (p : Bool) : (s.answer d p).flips = s.flips := rfl
@[simp] theorem mmio_answer (d : List Byte) (p : Bool) : (s.answer d p).mmio = s.mmio := rfl
@[simp] theorem latches_answer (d : List Byte) (p : Bool) : (s.answer d p).latches = s.latches := rfl
@[simp] theorem held_answer (d : List Byte) (p : Bool) : (s.answer d p).held = s.held := rfl
@[simp] theorem free_answer (d : List Byte) (p : Bool) : (s.answer d p).free = s.free := rfl
@[simp] theorem out_answer (d : List Byte) (p : Bool) : (s.answer d p).out = s.out := rfl
@[simp] theorem tmb_answer (d : List Byte) (p : Bool) : (s.answer d p).tmb = s.tmb := rfl
@[simp] theorem trigs_answer (d : List Byte) (p : Bool) : (s.answer d p).trigs = s.trigs := rfl
@[simp] theorem gey_answer (d : List Byte) (p : Bool) : (s.answer d p).gey = s.gey := rfl
@[simp] theorem evcap_answer (d : List Byte) (p : Bool) : (s.answer d p).evcap = s.evcap := rfl
@[simp] theorem cplTime_answer (d : List Byte) (p : Bool) : (s.answer d p).cplTime = s.cplTime := rfl
@[simp] theorem flt_answer (d : List Byte) (p : Bool) : (s.answer d p).flt = s.flt := rfl
@[simp] theorem pwr_answer (d : List Byte) (p : Bool) : (s.answer d p).pwr = s.pwr := rfl
@[simp] theorem cores_answer (d : List Byte) (p : Bool) : (s.answer d p).cores = s.cores := rfl
@[simp] theorem queues_answer (d : List Byte) (p : Bool) : (s.answer d p).queues = s.queues := rfl
@[simp] theorem rrc_answer (d : List Byte) (p : Bool) : (s.answer d p).rrc = s.rrc := rfl
@[simp] theorem dsps_answer (d : List Byte) (p : Bool) : (s.answer d p).dsps = s.dsps := rfl
@[simp] theorem clusters_answer (d : List Byte) (p : Bool) : (s.answer d p).clusters = s.clusters := rfl
@[simp] theorem engines_answer (d : List Byte) (p : Bool) : (s.answer d p).engines = s.engines := rfl
@[simp] theorem crcs_answer (d : List Byte) (p : Bool) : (s.answer d p).crcs = s.crcs := rfl
@[simp] theorem modems_answer (d : List Byte) (p : Bool) : (s.answer d p).modems = s.modems := rfl
@[simp] theorem eqNow_answer (d : List Byte) (p : Bool) : (s.answer d p).eqNow = s.eqNow := rfl
@[simp] theorem rdflt_answer (d : List Byte) (p : Bool) : (s.answer d p).rdflt = s.rdflt := rfl
@[simp] theorem edges_answer (d : List Byte) (p : Bool) : (s.answer d p).edges = s.edges := rfl
@[simp] theorem stores_answer (d : List Byte) (p : Bool) : (s.answer d p).stores = s.stores := rfl
@[simp] theorem acct_answer (d : List Byte) (p : Bool) : (s.answer d p).acct = s.acct := rfl
@[simp] theorem snap_answer (d : List Byte) (p : Bool) : (s.answer d p).snap = s.snap := rfl
@[simp] theorem basins_answer (d : List Byte) (p : Bool) : (s.answer d p).basins = s.basins := rfl
@[simp] theorem mbx_answer (d : List Byte) (p : Bool) : (s.answer d p).mbx = s.mbx := rfl
@[simp] theorem hcs_answer (d : List Byte) (p : Bool) : (s.answer d p).hcs = s.hcs := rfl
@[simp] theorem ats_answer (d : List Byte) (p : Bool) : (s.answer d p).ats = s.ats := rfl
@[simp] theorem obsd_answer (d : List Byte) (p : Bool) : (s.answer d p).obsd = s.obsd := rfl
@[simp] theorem lock_answer (d : List Byte) (p : Bool) : (s.answer d p).lock = s.lock := rfl
@[simp] theorem det_answer (d : List Byte) (p : Bool) : (s.answer d p).det = s.det := rfl
@[simp] theorem fab_answer (d : List Byte) (p : Bool) : (s.answer d p).fab = s.fab := rfl
@[simp] theorem fld_answer (d : List Byte) (p : Bool) (fd : Field) (i : Nat) : (s.answer d p).fld fd i = s.fld fd i := rfl
@[simp] theorem flag_answer (d : List Byte) (p : Bool) (fd : Field) (i : Nat) : (s.answer d p).flag fd i = s.flag fd i := rfl
@[simp] theorem rd_answer (d : List Byte) (p : Bool) (i : Nat) : (s.answer d p).rd i = s.rd i := rfl

@[simp] theorem pending_setCore (g : Nat) (c : MCore) : (s.setCore g c).pending = s.pending := rfl
@[simp] theorem regs_setCore (g : Nat) (c : MCore) : (s.setCore g c).regs = s.regs := rfl
@[simp] theorem mem_setCore (g : Nat) (c : MCore) : (s.setCore g c).mem = s.mem := rfl
@[simp] theorem poison_setCore (g : Nat) (c : MCore) : (s.setCore g c).poison = s.poison := rfl
@[simp] theorem flips_setCore (g : Nat) (c : MCore) : (s.setCore g c).flips = s.flips := rfl
@[simp] theorem resp_setCore (g : Nat) (c : MCore) : (s.setCore g c).resp = s.resp := rfl
@[simp] theorem respPoison_setCore (g : Nat) (c : MCore) : (s.setCore g c).respPoison = s.respPoison := rfl
@[simp] theorem mmio_setCore (g : Nat) (c : MCore) : (s.setCore g c).mmio = s.mmio := rfl
@[simp] theorem latches_setCore (g : Nat) (c : MCore) : (s.setCore g c).latches = s.latches := rfl
@[simp] theorem held_setCore (g : Nat) (c : MCore) : (s.setCore g c).held = s.held := rfl
@[simp] theorem free_setCore (g : Nat) (c : MCore) : (s.setCore g c).free = s.free := rfl
@[simp] theorem out_setCore (g : Nat) (c : MCore) : (s.setCore g c).out = s.out := rfl
@[simp] theorem tmb_setCore (g : Nat) (c : MCore) : (s.setCore g c).tmb = s.tmb := rfl
@[simp] theorem trigs_setCore (g : Nat) (c : MCore) : (s.setCore g c).trigs = s.trigs := rfl
@[simp] theorem gey_setCore (g : Nat) (c : MCore) : (s.setCore g c).gey = s.gey := rfl
@[simp] theorem evcap_setCore (g : Nat) (c : MCore) : (s.setCore g c).evcap = s.evcap := rfl
@[simp] theorem cplTime_setCore (g : Nat) (c : MCore) : (s.setCore g c).cplTime = s.cplTime := rfl
@[simp] theorem flt_setCore (g : Nat) (c : MCore) : (s.setCore g c).flt = s.flt := rfl
@[simp] theorem pwr_setCore (g : Nat) (c : MCore) : (s.setCore g c).pwr = s.pwr := rfl
@[simp] theorem queues_setCore (g : Nat) (c : MCore) : (s.setCore g c).queues = s.queues := rfl
@[simp] theorem rrc_setCore (g : Nat) (c : MCore) : (s.setCore g c).rrc = s.rrc := rfl
@[simp] theorem dsps_setCore (g : Nat) (c : MCore) : (s.setCore g c).dsps = s.dsps := rfl
@[simp] theorem clusters_setCore (g : Nat) (c : MCore) : (s.setCore g c).clusters = s.clusters := rfl
@[simp] theorem engines_setCore (g : Nat) (c : MCore) : (s.setCore g c).engines = s.engines := rfl
@[simp] theorem crcs_setCore (g : Nat) (c : MCore) : (s.setCore g c).crcs = s.crcs := rfl
@[simp] theorem modems_setCore (g : Nat) (c : MCore) : (s.setCore g c).modems = s.modems := rfl
@[simp] theorem eqNow_setCore (g : Nat) (c : MCore) : (s.setCore g c).eqNow = s.eqNow := rfl
@[simp] theorem rdflt_setCore (g : Nat) (c : MCore) : (s.setCore g c).rdflt = s.rdflt := rfl
@[simp] theorem edges_setCore (g : Nat) (c : MCore) : (s.setCore g c).edges = s.edges := rfl
@[simp] theorem stores_setCore (g : Nat) (c : MCore) : (s.setCore g c).stores = s.stores := rfl
@[simp] theorem acct_setCore (g : Nat) (c : MCore) : (s.setCore g c).acct = s.acct := rfl
@[simp] theorem snap_setCore (g : Nat) (c : MCore) : (s.setCore g c).snap = s.snap := rfl
@[simp] theorem basins_setCore (g : Nat) (c : MCore) : (s.setCore g c).basins = s.basins := rfl
@[simp] theorem mbx_setCore (g : Nat) (c : MCore) : (s.setCore g c).mbx = s.mbx := rfl
@[simp] theorem hcs_setCore (g : Nat) (c : MCore) : (s.setCore g c).hcs = s.hcs := rfl
@[simp] theorem ats_setCore (g : Nat) (c : MCore) : (s.setCore g c).ats = s.ats := rfl
@[simp] theorem obsd_setCore (g : Nat) (c : MCore) : (s.setCore g c).obsd = s.obsd := rfl
@[simp] theorem lock_setCore (g : Nat) (c : MCore) : (s.setCore g c).lock = s.lock := rfl
@[simp] theorem det_setCore (g : Nat) (c : MCore) : (s.setCore g c).det = s.det := rfl
@[simp] theorem fab_setCore (g : Nat) (c : MCore) : (s.setCore g c).fab = s.fab := rfl
@[simp] theorem fld_setCore (g : Nat) (c : MCore) (fd : Field) (i : Nat) : (s.setCore g c).fld fd i = s.fld fd i := rfl
@[simp] theorem flag_setCore (g : Nat) (c : MCore) (fd : Field) (i : Nat) : (s.setCore g c).flag fd i = s.flag fd i := rfl
@[simp] theorem rd_setCore (g : Nat) (c : MCore) (i : Nat) : (s.setCore g c).rd i = s.rd i := rfl

@[simp] theorem pending_setQueue (q : Nat) (c : QSt) : (s.setQueue q c).pending = s.pending := rfl
@[simp] theorem regs_setQueue (q : Nat) (c : QSt) : (s.setQueue q c).regs = s.regs := rfl
@[simp] theorem mem_setQueue (q : Nat) (c : QSt) : (s.setQueue q c).mem = s.mem := rfl
@[simp] theorem poison_setQueue (q : Nat) (c : QSt) : (s.setQueue q c).poison = s.poison := rfl
@[simp] theorem flips_setQueue (q : Nat) (c : QSt) : (s.setQueue q c).flips = s.flips := rfl
@[simp] theorem resp_setQueue (q : Nat) (c : QSt) : (s.setQueue q c).resp = s.resp := rfl
@[simp] theorem respPoison_setQueue (q : Nat) (c : QSt) : (s.setQueue q c).respPoison = s.respPoison := rfl
@[simp] theorem mmio_setQueue (q : Nat) (c : QSt) : (s.setQueue q c).mmio = s.mmio := rfl
@[simp] theorem latches_setQueue (q : Nat) (c : QSt) : (s.setQueue q c).latches = s.latches := rfl
@[simp] theorem held_setQueue (q : Nat) (c : QSt) : (s.setQueue q c).held = s.held := rfl
@[simp] theorem free_setQueue (q : Nat) (c : QSt) : (s.setQueue q c).free = s.free := rfl
@[simp] theorem out_setQueue (q : Nat) (c : QSt) : (s.setQueue q c).out = s.out := rfl
@[simp] theorem tmb_setQueue (q : Nat) (c : QSt) : (s.setQueue q c).tmb = s.tmb := rfl
@[simp] theorem trigs_setQueue (q : Nat) (c : QSt) : (s.setQueue q c).trigs = s.trigs := rfl
@[simp] theorem gey_setQueue (q : Nat) (c : QSt) : (s.setQueue q c).gey = s.gey := rfl
@[simp] theorem evcap_setQueue (q : Nat) (c : QSt) : (s.setQueue q c).evcap = s.evcap := rfl
@[simp] theorem cplTime_setQueue (q : Nat) (c : QSt) : (s.setQueue q c).cplTime = s.cplTime := rfl
@[simp] theorem flt_setQueue (q : Nat) (c : QSt) : (s.setQueue q c).flt = s.flt := rfl
@[simp] theorem pwr_setQueue (q : Nat) (c : QSt) : (s.setQueue q c).pwr = s.pwr := rfl
@[simp] theorem cores_setQueue (q : Nat) (c : QSt) : (s.setQueue q c).cores = s.cores := rfl
@[simp] theorem rrc_setQueue (q : Nat) (c : QSt) : (s.setQueue q c).rrc = s.rrc := rfl
@[simp] theorem dsps_setQueue (q : Nat) (c : QSt) : (s.setQueue q c).dsps = s.dsps := rfl
@[simp] theorem clusters_setQueue (q : Nat) (c : QSt) : (s.setQueue q c).clusters = s.clusters := rfl
@[simp] theorem engines_setQueue (q : Nat) (c : QSt) : (s.setQueue q c).engines = s.engines := rfl
@[simp] theorem crcs_setQueue (q : Nat) (c : QSt) : (s.setQueue q c).crcs = s.crcs := rfl
@[simp] theorem modems_setQueue (q : Nat) (c : QSt) : (s.setQueue q c).modems = s.modems := rfl
@[simp] theorem eqNow_setQueue (q : Nat) (c : QSt) : (s.setQueue q c).eqNow = s.eqNow := rfl
@[simp] theorem rdflt_setQueue (q : Nat) (c : QSt) : (s.setQueue q c).rdflt = s.rdflt := rfl
@[simp] theorem edges_setQueue (q : Nat) (c : QSt) : (s.setQueue q c).edges = s.edges := rfl
@[simp] theorem stores_setQueue (q : Nat) (c : QSt) : (s.setQueue q c).stores = s.stores := rfl
@[simp] theorem acct_setQueue (q : Nat) (c : QSt) : (s.setQueue q c).acct = s.acct := rfl
@[simp] theorem snap_setQueue (q : Nat) (c : QSt) : (s.setQueue q c).snap = s.snap := rfl
@[simp] theorem basins_setQueue (q : Nat) (c : QSt) : (s.setQueue q c).basins = s.basins := rfl
@[simp] theorem mbx_setQueue (q : Nat) (c : QSt) : (s.setQueue q c).mbx = s.mbx := rfl
@[simp] theorem hcs_setQueue (q : Nat) (c : QSt) : (s.setQueue q c).hcs = s.hcs := rfl
@[simp] theorem ats_setQueue (q : Nat) (c : QSt) : (s.setQueue q c).ats = s.ats := rfl
@[simp] theorem obsd_setQueue (q : Nat) (c : QSt) : (s.setQueue q c).obsd = s.obsd := rfl
@[simp] theorem lock_setQueue (q : Nat) (c : QSt) : (s.setQueue q c).lock = s.lock := rfl
@[simp] theorem det_setQueue (q : Nat) (c : QSt) : (s.setQueue q c).det = s.det := rfl
@[simp] theorem fab_setQueue (q : Nat) (c : QSt) : (s.setQueue q c).fab = s.fab := rfl
@[simp] theorem fld_setQueue (q : Nat) (c : QSt) (fd : Field) (i : Nat) : (s.setQueue q c).fld fd i = s.fld fd i := rfl
@[simp] theorem flag_setQueue (q : Nat) (c : QSt) (fd : Field) (i : Nat) : (s.setQueue q c).flag fd i = s.flag fd i := rfl
@[simp] theorem rd_setQueue (q : Nat) (c : QSt) (i : Nat) : (s.setQueue q c).rd i = s.rd i := rfl

@[simp] theorem pending_setStore (n : Nat) (c : Store) : (s.setStore n c).pending = s.pending := rfl
@[simp] theorem regs_setStore (n : Nat) (c : Store) : (s.setStore n c).regs = s.regs := rfl
@[simp] theorem mem_setStore (n : Nat) (c : Store) : (s.setStore n c).mem = s.mem := rfl
@[simp] theorem poison_setStore (n : Nat) (c : Store) : (s.setStore n c).poison = s.poison := rfl
@[simp] theorem flips_setStore (n : Nat) (c : Store) : (s.setStore n c).flips = s.flips := rfl
@[simp] theorem resp_setStore (n : Nat) (c : Store) : (s.setStore n c).resp = s.resp := rfl
@[simp] theorem respPoison_setStore (n : Nat) (c : Store) : (s.setStore n c).respPoison = s.respPoison := rfl
@[simp] theorem mmio_setStore (n : Nat) (c : Store) : (s.setStore n c).mmio = s.mmio := rfl
@[simp] theorem latches_setStore (n : Nat) (c : Store) : (s.setStore n c).latches = s.latches := rfl
@[simp] theorem held_setStore (n : Nat) (c : Store) : (s.setStore n c).held = s.held := rfl
@[simp] theorem free_setStore (n : Nat) (c : Store) : (s.setStore n c).free = s.free := rfl
@[simp] theorem out_setStore (n : Nat) (c : Store) : (s.setStore n c).out = s.out := rfl
@[simp] theorem tmb_setStore (n : Nat) (c : Store) : (s.setStore n c).tmb = s.tmb := rfl
@[simp] theorem trigs_setStore (n : Nat) (c : Store) : (s.setStore n c).trigs = s.trigs := rfl
@[simp] theorem gey_setStore (n : Nat) (c : Store) : (s.setStore n c).gey = s.gey := rfl
@[simp] theorem evcap_setStore (n : Nat) (c : Store) : (s.setStore n c).evcap = s.evcap := rfl
@[simp] theorem cplTime_setStore (n : Nat) (c : Store) : (s.setStore n c).cplTime = s.cplTime := rfl
@[simp] theorem flt_setStore (n : Nat) (c : Store) : (s.setStore n c).flt = s.flt := rfl
@[simp] theorem pwr_setStore (n : Nat) (c : Store) : (s.setStore n c).pwr = s.pwr := rfl
@[simp] theorem cores_setStore (n : Nat) (c : Store) : (s.setStore n c).cores = s.cores := rfl
@[simp] theorem queues_setStore (n : Nat) (c : Store) : (s.setStore n c).queues = s.queues := rfl
@[simp] theorem rrc_setStore (n : Nat) (c : Store) : (s.setStore n c).rrc = s.rrc := rfl
@[simp] theorem dsps_setStore (n : Nat) (c : Store) : (s.setStore n c).dsps = s.dsps := rfl
@[simp] theorem clusters_setStore (n : Nat) (c : Store) : (s.setStore n c).clusters = s.clusters := rfl
@[simp] theorem engines_setStore (n : Nat) (c : Store) : (s.setStore n c).engines = s.engines := rfl
@[simp] theorem crcs_setStore (n : Nat) (c : Store) : (s.setStore n c).crcs = s.crcs := rfl
@[simp] theorem modems_setStore (n : Nat) (c : Store) : (s.setStore n c).modems = s.modems := rfl
@[simp] theorem eqNow_setStore (n : Nat) (c : Store) : (s.setStore n c).eqNow = s.eqNow := rfl
@[simp] theorem rdflt_setStore (n : Nat) (c : Store) : (s.setStore n c).rdflt = s.rdflt := rfl
@[simp] theorem edges_setStore (n : Nat) (c : Store) : (s.setStore n c).edges = s.edges := rfl
@[simp] theorem acct_setStore (n : Nat) (c : Store) : (s.setStore n c).acct = s.acct := rfl
@[simp] theorem snap_setStore (n : Nat) (c : Store) : (s.setStore n c).snap = s.snap := rfl
@[simp] theorem basins_setStore (n : Nat) (c : Store) : (s.setStore n c).basins = s.basins := rfl
@[simp] theorem mbx_setStore (n : Nat) (c : Store) : (s.setStore n c).mbx = s.mbx := rfl
@[simp] theorem hcs_setStore (n : Nat) (c : Store) : (s.setStore n c).hcs = s.hcs := rfl
@[simp] theorem ats_setStore (n : Nat) (c : Store) : (s.setStore n c).ats = s.ats := rfl
@[simp] theorem obsd_setStore (n : Nat) (c : Store) : (s.setStore n c).obsd = s.obsd := rfl
@[simp] theorem lock_setStore (n : Nat) (c : Store) : (s.setStore n c).lock = s.lock := rfl
@[simp] theorem det_setStore (n : Nat) (c : Store) : (s.setStore n c).det = s.det := rfl
@[simp] theorem fab_setStore (n : Nat) (c : Store) : (s.setStore n c).fab = s.fab := rfl
@[simp] theorem fld_setStore (n : Nat) (c : Store) (fd : Field) (i : Nat) : (s.setStore n c).fld fd i = s.fld fd i := rfl
@[simp] theorem flag_setStore (n : Nat) (c : Store) (fd : Field) (i : Nat) : (s.setStore n c).flag fd i = s.flag fd i := rfl
@[simp] theorem rd_setStore (n : Nat) (c : Store) (i : Nat) : (s.setStore n c).rd i = s.rd i := rfl

@[simp] theorem pending_setBasin (b : Nat) (c : Basin) : (s.setBasin b c).pending = s.pending := rfl
@[simp] theorem regs_setBasin (b : Nat) (c : Basin) : (s.setBasin b c).regs = s.regs := rfl
@[simp] theorem mem_setBasin (b : Nat) (c : Basin) : (s.setBasin b c).mem = s.mem := rfl
@[simp] theorem poison_setBasin (b : Nat) (c : Basin) : (s.setBasin b c).poison = s.poison := rfl
@[simp] theorem flips_setBasin (b : Nat) (c : Basin) : (s.setBasin b c).flips = s.flips := rfl
@[simp] theorem resp_setBasin (b : Nat) (c : Basin) : (s.setBasin b c).resp = s.resp := rfl
@[simp] theorem respPoison_setBasin (b : Nat) (c : Basin) : (s.setBasin b c).respPoison = s.respPoison := rfl
@[simp] theorem mmio_setBasin (b : Nat) (c : Basin) : (s.setBasin b c).mmio = s.mmio := rfl
@[simp] theorem latches_setBasin (b : Nat) (c : Basin) : (s.setBasin b c).latches = s.latches := rfl
@[simp] theorem held_setBasin (b : Nat) (c : Basin) : (s.setBasin b c).held = s.held := rfl
@[simp] theorem free_setBasin (b : Nat) (c : Basin) : (s.setBasin b c).free = s.free := rfl
@[simp] theorem out_setBasin (b : Nat) (c : Basin) : (s.setBasin b c).out = s.out := rfl
@[simp] theorem tmb_setBasin (b : Nat) (c : Basin) : (s.setBasin b c).tmb = s.tmb := rfl
@[simp] theorem trigs_setBasin (b : Nat) (c : Basin) : (s.setBasin b c).trigs = s.trigs := rfl
@[simp] theorem gey_setBasin (b : Nat) (c : Basin) : (s.setBasin b c).gey = s.gey := rfl
@[simp] theorem evcap_setBasin (b : Nat) (c : Basin) : (s.setBasin b c).evcap = s.evcap := rfl
@[simp] theorem cplTime_setBasin (b : Nat) (c : Basin) : (s.setBasin b c).cplTime = s.cplTime := rfl
@[simp] theorem flt_setBasin (b : Nat) (c : Basin) : (s.setBasin b c).flt = s.flt := rfl
@[simp] theorem pwr_setBasin (b : Nat) (c : Basin) : (s.setBasin b c).pwr = s.pwr := rfl
@[simp] theorem cores_setBasin (b : Nat) (c : Basin) : (s.setBasin b c).cores = s.cores := rfl
@[simp] theorem queues_setBasin (b : Nat) (c : Basin) : (s.setBasin b c).queues = s.queues := rfl
@[simp] theorem rrc_setBasin (b : Nat) (c : Basin) : (s.setBasin b c).rrc = s.rrc := rfl
@[simp] theorem dsps_setBasin (b : Nat) (c : Basin) : (s.setBasin b c).dsps = s.dsps := rfl
@[simp] theorem clusters_setBasin (b : Nat) (c : Basin) : (s.setBasin b c).clusters = s.clusters := rfl
@[simp] theorem engines_setBasin (b : Nat) (c : Basin) : (s.setBasin b c).engines = s.engines := rfl
@[simp] theorem crcs_setBasin (b : Nat) (c : Basin) : (s.setBasin b c).crcs = s.crcs := rfl
@[simp] theorem modems_setBasin (b : Nat) (c : Basin) : (s.setBasin b c).modems = s.modems := rfl
@[simp] theorem eqNow_setBasin (b : Nat) (c : Basin) : (s.setBasin b c).eqNow = s.eqNow := rfl
@[simp] theorem rdflt_setBasin (b : Nat) (c : Basin) : (s.setBasin b c).rdflt = s.rdflt := rfl
@[simp] theorem edges_setBasin (b : Nat) (c : Basin) : (s.setBasin b c).edges = s.edges := rfl
@[simp] theorem stores_setBasin (b : Nat) (c : Basin) : (s.setBasin b c).stores = s.stores := rfl
@[simp] theorem acct_setBasin (b : Nat) (c : Basin) : (s.setBasin b c).acct = s.acct := rfl
@[simp] theorem snap_setBasin (b : Nat) (c : Basin) : (s.setBasin b c).snap = s.snap := rfl
@[simp] theorem mbx_setBasin (b : Nat) (c : Basin) : (s.setBasin b c).mbx = s.mbx := rfl
@[simp] theorem hcs_setBasin (b : Nat) (c : Basin) : (s.setBasin b c).hcs = s.hcs := rfl
@[simp] theorem ats_setBasin (b : Nat) (c : Basin) : (s.setBasin b c).ats = s.ats := rfl
@[simp] theorem obsd_setBasin (b : Nat) (c : Basin) : (s.setBasin b c).obsd = s.obsd := rfl
@[simp] theorem lock_setBasin (b : Nat) (c : Basin) : (s.setBasin b c).lock = s.lock := rfl
@[simp] theorem det_setBasin (b : Nat) (c : Basin) : (s.setBasin b c).det = s.det := rfl
@[simp] theorem fab_setBasin (b : Nat) (c : Basin) : (s.setBasin b c).fab = s.fab := rfl
@[simp] theorem fld_setBasin (b : Nat) (c : Basin) (fd : Field) (i : Nat) : (s.setBasin b c).fld fd i = s.fld fd i := rfl
@[simp] theorem flag_setBasin (b : Nat) (c : Basin) (fd : Field) (i : Nat) : (s.setBasin b c).flag fd i = s.flag fd i := rfl
@[simp] theorem rd_setBasin (b : Nat) (c : Basin) (i : Nat) : (s.setBasin b c).rd i = s.rd i := rfl

@[simp] theorem pending_setHc (h : Nat) (c : HCore) : (s.setHc h c).pending = s.pending := rfl
@[simp] theorem regs_setHc (h : Nat) (c : HCore) : (s.setHc h c).regs = s.regs := rfl
@[simp] theorem mem_setHc (h : Nat) (c : HCore) : (s.setHc h c).mem = s.mem := rfl
@[simp] theorem poison_setHc (h : Nat) (c : HCore) : (s.setHc h c).poison = s.poison := rfl
@[simp] theorem flips_setHc (h : Nat) (c : HCore) : (s.setHc h c).flips = s.flips := rfl
@[simp] theorem resp_setHc (h : Nat) (c : HCore) : (s.setHc h c).resp = s.resp := rfl
@[simp] theorem respPoison_setHc (h : Nat) (c : HCore) : (s.setHc h c).respPoison = s.respPoison := rfl
@[simp] theorem mmio_setHc (h : Nat) (c : HCore) : (s.setHc h c).mmio = s.mmio := rfl
@[simp] theorem latches_setHc (h : Nat) (c : HCore) : (s.setHc h c).latches = s.latches := rfl
@[simp] theorem held_setHc (h : Nat) (c : HCore) : (s.setHc h c).held = s.held := rfl
@[simp] theorem free_setHc (h : Nat) (c : HCore) : (s.setHc h c).free = s.free := rfl
@[simp] theorem out_setHc (h : Nat) (c : HCore) : (s.setHc h c).out = s.out := rfl
@[simp] theorem tmb_setHc (h : Nat) (c : HCore) : (s.setHc h c).tmb = s.tmb := rfl
@[simp] theorem trigs_setHc (h : Nat) (c : HCore) : (s.setHc h c).trigs = s.trigs := rfl
@[simp] theorem gey_setHc (h : Nat) (c : HCore) : (s.setHc h c).gey = s.gey := rfl
@[simp] theorem evcap_setHc (h : Nat) (c : HCore) : (s.setHc h c).evcap = s.evcap := rfl
@[simp] theorem cplTime_setHc (h : Nat) (c : HCore) : (s.setHc h c).cplTime = s.cplTime := rfl
@[simp] theorem flt_setHc (h : Nat) (c : HCore) : (s.setHc h c).flt = s.flt := rfl
@[simp] theorem pwr_setHc (h : Nat) (c : HCore) : (s.setHc h c).pwr = s.pwr := rfl
@[simp] theorem cores_setHc (h : Nat) (c : HCore) : (s.setHc h c).cores = s.cores := rfl
@[simp] theorem queues_setHc (h : Nat) (c : HCore) : (s.setHc h c).queues = s.queues := rfl
@[simp] theorem rrc_setHc (h : Nat) (c : HCore) : (s.setHc h c).rrc = s.rrc := rfl
@[simp] theorem dsps_setHc (h : Nat) (c : HCore) : (s.setHc h c).dsps = s.dsps := rfl
@[simp] theorem clusters_setHc (h : Nat) (c : HCore) : (s.setHc h c).clusters = s.clusters := rfl
@[simp] theorem engines_setHc (h : Nat) (c : HCore) : (s.setHc h c).engines = s.engines := rfl
@[simp] theorem crcs_setHc (h : Nat) (c : HCore) : (s.setHc h c).crcs = s.crcs := rfl
@[simp] theorem modems_setHc (h : Nat) (c : HCore) : (s.setHc h c).modems = s.modems := rfl
@[simp] theorem eqNow_setHc (h : Nat) (c : HCore) : (s.setHc h c).eqNow = s.eqNow := rfl
@[simp] theorem rdflt_setHc (h : Nat) (c : HCore) : (s.setHc h c).rdflt = s.rdflt := rfl
@[simp] theorem edges_setHc (h : Nat) (c : HCore) : (s.setHc h c).edges = s.edges := rfl
@[simp] theorem stores_setHc (h : Nat) (c : HCore) : (s.setHc h c).stores = s.stores := rfl
@[simp] theorem acct_setHc (h : Nat) (c : HCore) : (s.setHc h c).acct = s.acct := rfl
@[simp] theorem snap_setHc (h : Nat) (c : HCore) : (s.setHc h c).snap = s.snap := rfl
@[simp] theorem basins_setHc (h : Nat) (c : HCore) : (s.setHc h c).basins = s.basins := rfl
@[simp] theorem mbx_setHc (h : Nat) (c : HCore) : (s.setHc h c).mbx = s.mbx := rfl
@[simp] theorem ats_setHc (h : Nat) (c : HCore) : (s.setHc h c).ats = s.ats := rfl
@[simp] theorem obsd_setHc (h : Nat) (c : HCore) : (s.setHc h c).obsd = s.obsd := rfl
@[simp] theorem lock_setHc (h : Nat) (c : HCore) : (s.setHc h c).lock = s.lock := rfl
@[simp] theorem det_setHc (h : Nat) (c : HCore) : (s.setHc h c).det = s.det := rfl
@[simp] theorem fab_setHc (h : Nat) (c : HCore) : (s.setHc h c).fab = s.fab := rfl
@[simp] theorem fld_setHc (h : Nat) (c : HCore) (fd : Field) (i : Nat) : (s.setHc h c).fld fd i = s.fld fd i := rfl
@[simp] theorem flag_setHc (h : Nat) (c : HCore) (fd : Field) (i : Nat) : (s.setHc h c).flag fd i = s.flag fd i := rfl
@[simp] theorem rd_setHc (h : Nat) (c : HCore) (i : Nat) : (s.setHc h c).rd i = s.rd i := rfl

@[simp] theorem pending_setTrig (n : Nat) (c : Trig) : (s.setTrig n c).pending = s.pending := rfl
@[simp] theorem regs_setTrig (n : Nat) (c : Trig) : (s.setTrig n c).regs = s.regs := rfl
@[simp] theorem mem_setTrig (n : Nat) (c : Trig) : (s.setTrig n c).mem = s.mem := rfl
@[simp] theorem poison_setTrig (n : Nat) (c : Trig) : (s.setTrig n c).poison = s.poison := rfl
@[simp] theorem flips_setTrig (n : Nat) (c : Trig) : (s.setTrig n c).flips = s.flips := rfl
@[simp] theorem resp_setTrig (n : Nat) (c : Trig) : (s.setTrig n c).resp = s.resp := rfl
@[simp] theorem respPoison_setTrig (n : Nat) (c : Trig) : (s.setTrig n c).respPoison = s.respPoison := rfl
@[simp] theorem mmio_setTrig (n : Nat) (c : Trig) : (s.setTrig n c).mmio = s.mmio := rfl
@[simp] theorem latches_setTrig (n : Nat) (c : Trig) : (s.setTrig n c).latches = s.latches := rfl
@[simp] theorem held_setTrig (n : Nat) (c : Trig) : (s.setTrig n c).held = s.held := rfl
@[simp] theorem free_setTrig (n : Nat) (c : Trig) : (s.setTrig n c).free = s.free := rfl
@[simp] theorem out_setTrig (n : Nat) (c : Trig) : (s.setTrig n c).out = s.out := rfl
@[simp] theorem tmb_setTrig (n : Nat) (c : Trig) : (s.setTrig n c).tmb = s.tmb := rfl
@[simp] theorem gey_setTrig (n : Nat) (c : Trig) : (s.setTrig n c).gey = s.gey := rfl
@[simp] theorem evcap_setTrig (n : Nat) (c : Trig) : (s.setTrig n c).evcap = s.evcap := rfl
@[simp] theorem cplTime_setTrig (n : Nat) (c : Trig) : (s.setTrig n c).cplTime = s.cplTime := rfl
@[simp] theorem flt_setTrig (n : Nat) (c : Trig) : (s.setTrig n c).flt = s.flt := rfl
@[simp] theorem pwr_setTrig (n : Nat) (c : Trig) : (s.setTrig n c).pwr = s.pwr := rfl
@[simp] theorem cores_setTrig (n : Nat) (c : Trig) : (s.setTrig n c).cores = s.cores := rfl
@[simp] theorem queues_setTrig (n : Nat) (c : Trig) : (s.setTrig n c).queues = s.queues := rfl
@[simp] theorem rrc_setTrig (n : Nat) (c : Trig) : (s.setTrig n c).rrc = s.rrc := rfl
@[simp] theorem dsps_setTrig (n : Nat) (c : Trig) : (s.setTrig n c).dsps = s.dsps := rfl
@[simp] theorem clusters_setTrig (n : Nat) (c : Trig) : (s.setTrig n c).clusters = s.clusters := rfl
@[simp] theorem engines_setTrig (n : Nat) (c : Trig) : (s.setTrig n c).engines = s.engines := rfl
@[simp] theorem crcs_setTrig (n : Nat) (c : Trig) : (s.setTrig n c).crcs = s.crcs := rfl
@[simp] theorem modems_setTrig (n : Nat) (c : Trig) : (s.setTrig n c).modems = s.modems := rfl
@[simp] theorem eqNow_setTrig (n : Nat) (c : Trig) : (s.setTrig n c).eqNow = s.eqNow := rfl
@[simp] theorem rdflt_setTrig (n : Nat) (c : Trig) : (s.setTrig n c).rdflt = s.rdflt := rfl
@[simp] theorem edges_setTrig (n : Nat) (c : Trig) : (s.setTrig n c).edges = s.edges := rfl
@[simp] theorem stores_setTrig (n : Nat) (c : Trig) : (s.setTrig n c).stores = s.stores := rfl
@[simp] theorem acct_setTrig (n : Nat) (c : Trig) : (s.setTrig n c).acct = s.acct := rfl
@[simp] theorem snap_setTrig (n : Nat) (c : Trig) : (s.setTrig n c).snap = s.snap := rfl
@[simp] theorem basins_setTrig (n : Nat) (c : Trig) : (s.setTrig n c).basins = s.basins := rfl
@[simp] theorem mbx_setTrig (n : Nat) (c : Trig) : (s.setTrig n c).mbx = s.mbx := rfl
@[simp] theorem hcs_setTrig (n : Nat) (c : Trig) : (s.setTrig n c).hcs = s.hcs := rfl
@[simp] theorem ats_setTrig (n : Nat) (c : Trig) : (s.setTrig n c).ats = s.ats := rfl
@[simp] theorem obsd_setTrig (n : Nat) (c : Trig) : (s.setTrig n c).obsd = s.obsd := rfl
@[simp] theorem lock_setTrig (n : Nat) (c : Trig) : (s.setTrig n c).lock = s.lock := rfl
@[simp] theorem det_setTrig (n : Nat) (c : Trig) : (s.setTrig n c).det = s.det := rfl
@[simp] theorem fab_setTrig (n : Nat) (c : Trig) : (s.setTrig n c).fab = s.fab := rfl
@[simp] theorem fld_setTrig (n : Nat) (c : Trig) (fd : Field) (i : Nat) : (s.setTrig n c).fld fd i = s.fld fd i := rfl
@[simp] theorem flag_setTrig (n : Nat) (c : Trig) (fd : Field) (i : Nat) : (s.setTrig n c).flag fd i = s.flag fd i := rfl
@[simp] theorem rd_setTrig (n : Nat) (c : Trig) (i : Nat) : (s.setTrig n c).rd i = s.rd i := rfl

@[simp] theorem pending_setEvCap (n : Nat) (c : EvCap) : (s.setEvCap n c).pending = s.pending := rfl
@[simp] theorem regs_setEvCap (n : Nat) (c : EvCap) : (s.setEvCap n c).regs = s.regs := rfl
@[simp] theorem mem_setEvCap (n : Nat) (c : EvCap) : (s.setEvCap n c).mem = s.mem := rfl
@[simp] theorem poison_setEvCap (n : Nat) (c : EvCap) : (s.setEvCap n c).poison = s.poison := rfl
@[simp] theorem flips_setEvCap (n : Nat) (c : EvCap) : (s.setEvCap n c).flips = s.flips := rfl
@[simp] theorem resp_setEvCap (n : Nat) (c : EvCap) : (s.setEvCap n c).resp = s.resp := rfl
@[simp] theorem respPoison_setEvCap (n : Nat) (c : EvCap) : (s.setEvCap n c).respPoison = s.respPoison := rfl
@[simp] theorem mmio_setEvCap (n : Nat) (c : EvCap) : (s.setEvCap n c).mmio = s.mmio := rfl
@[simp] theorem latches_setEvCap (n : Nat) (c : EvCap) : (s.setEvCap n c).latches = s.latches := rfl
@[simp] theorem held_setEvCap (n : Nat) (c : EvCap) : (s.setEvCap n c).held = s.held := rfl
@[simp] theorem free_setEvCap (n : Nat) (c : EvCap) : (s.setEvCap n c).free = s.free := rfl
@[simp] theorem out_setEvCap (n : Nat) (c : EvCap) : (s.setEvCap n c).out = s.out := rfl
@[simp] theorem tmb_setEvCap (n : Nat) (c : EvCap) : (s.setEvCap n c).tmb = s.tmb := rfl
@[simp] theorem trigs_setEvCap (n : Nat) (c : EvCap) : (s.setEvCap n c).trigs = s.trigs := rfl
@[simp] theorem gey_setEvCap (n : Nat) (c : EvCap) : (s.setEvCap n c).gey = s.gey := rfl
@[simp] theorem cplTime_setEvCap (n : Nat) (c : EvCap) : (s.setEvCap n c).cplTime = s.cplTime := rfl
@[simp] theorem flt_setEvCap (n : Nat) (c : EvCap) : (s.setEvCap n c).flt = s.flt := rfl
@[simp] theorem pwr_setEvCap (n : Nat) (c : EvCap) : (s.setEvCap n c).pwr = s.pwr := rfl
@[simp] theorem cores_setEvCap (n : Nat) (c : EvCap) : (s.setEvCap n c).cores = s.cores := rfl
@[simp] theorem queues_setEvCap (n : Nat) (c : EvCap) : (s.setEvCap n c).queues = s.queues := rfl
@[simp] theorem rrc_setEvCap (n : Nat) (c : EvCap) : (s.setEvCap n c).rrc = s.rrc := rfl
@[simp] theorem dsps_setEvCap (n : Nat) (c : EvCap) : (s.setEvCap n c).dsps = s.dsps := rfl
@[simp] theorem clusters_setEvCap (n : Nat) (c : EvCap) : (s.setEvCap n c).clusters = s.clusters := rfl
@[simp] theorem engines_setEvCap (n : Nat) (c : EvCap) : (s.setEvCap n c).engines = s.engines := rfl
@[simp] theorem crcs_setEvCap (n : Nat) (c : EvCap) : (s.setEvCap n c).crcs = s.crcs := rfl
@[simp] theorem modems_setEvCap (n : Nat) (c : EvCap) : (s.setEvCap n c).modems = s.modems := rfl
@[simp] theorem eqNow_setEvCap (n : Nat) (c : EvCap) : (s.setEvCap n c).eqNow = s.eqNow := rfl
@[simp] theorem rdflt_setEvCap (n : Nat) (c : EvCap) : (s.setEvCap n c).rdflt = s.rdflt := rfl
@[simp] theorem edges_setEvCap (n : Nat) (c : EvCap) : (s.setEvCap n c).edges = s.edges := rfl
@[simp] theorem stores_setEvCap (n : Nat) (c : EvCap) : (s.setEvCap n c).stores = s.stores := rfl
@[simp] theorem acct_setEvCap (n : Nat) (c : EvCap) : (s.setEvCap n c).acct = s.acct := rfl
@[simp] theorem snap_setEvCap (n : Nat) (c : EvCap) : (s.setEvCap n c).snap = s.snap := rfl
@[simp] theorem basins_setEvCap (n : Nat) (c : EvCap) : (s.setEvCap n c).basins = s.basins := rfl
@[simp] theorem mbx_setEvCap (n : Nat) (c : EvCap) : (s.setEvCap n c).mbx = s.mbx := rfl
@[simp] theorem hcs_setEvCap (n : Nat) (c : EvCap) : (s.setEvCap n c).hcs = s.hcs := rfl
@[simp] theorem ats_setEvCap (n : Nat) (c : EvCap) : (s.setEvCap n c).ats = s.ats := rfl
@[simp] theorem obsd_setEvCap (n : Nat) (c : EvCap) : (s.setEvCap n c).obsd = s.obsd := rfl
@[simp] theorem lock_setEvCap (n : Nat) (c : EvCap) : (s.setEvCap n c).lock = s.lock := rfl
@[simp] theorem det_setEvCap (n : Nat) (c : EvCap) : (s.setEvCap n c).det = s.det := rfl
@[simp] theorem fab_setEvCap (n : Nat) (c : EvCap) : (s.setEvCap n c).fab = s.fab := rfl
@[simp] theorem fld_setEvCap (n : Nat) (c : EvCap) (fd : Field) (i : Nat) : (s.setEvCap n c).fld fd i = s.fld fd i := rfl
@[simp] theorem flag_setEvCap (n : Nat) (c : EvCap) (fd : Field) (i : Nat) : (s.setEvCap n c).flag fd i = s.flag fd i := rfl
@[simp] theorem rd_setEvCap (n : Nat) (c : EvCap) (i : Nat) : (s.setEvCap n c).rd i = s.rd i := rfl

@[simp] theorem pending_setDsp (d : Nat) (c : DCore) : (s.setDsp d c).pending = s.pending := rfl
@[simp] theorem regs_setDsp (d : Nat) (c : DCore) : (s.setDsp d c).regs = s.regs := rfl
@[simp] theorem mem_setDsp (d : Nat) (c : DCore) : (s.setDsp d c).mem = s.mem := rfl
@[simp] theorem poison_setDsp (d : Nat) (c : DCore) : (s.setDsp d c).poison = s.poison := rfl
@[simp] theorem flips_setDsp (d : Nat) (c : DCore) : (s.setDsp d c).flips = s.flips := rfl
@[simp] theorem resp_setDsp (d : Nat) (c : DCore) : (s.setDsp d c).resp = s.resp := rfl
@[simp] theorem respPoison_setDsp (d : Nat) (c : DCore) : (s.setDsp d c).respPoison = s.respPoison := rfl
@[simp] theorem mmio_setDsp (d : Nat) (c : DCore) : (s.setDsp d c).mmio = s.mmio := rfl
@[simp] theorem latches_setDsp (d : Nat) (c : DCore) : (s.setDsp d c).latches = s.latches := rfl
@[simp] theorem held_setDsp (d : Nat) (c : DCore) : (s.setDsp d c).held = s.held := rfl
@[simp] theorem free_setDsp (d : Nat) (c : DCore) : (s.setDsp d c).free = s.free := rfl
@[simp] theorem out_setDsp (d : Nat) (c : DCore) : (s.setDsp d c).out = s.out := rfl
@[simp] theorem tmb_setDsp (d : Nat) (c : DCore) : (s.setDsp d c).tmb = s.tmb := rfl
@[simp] theorem trigs_setDsp (d : Nat) (c : DCore) : (s.setDsp d c).trigs = s.trigs := rfl
@[simp] theorem gey_setDsp (d : Nat) (c : DCore) : (s.setDsp d c).gey = s.gey := rfl
@[simp] theorem evcap_setDsp (d : Nat) (c : DCore) : (s.setDsp d c).evcap = s.evcap := rfl
@[simp] theorem cplTime_setDsp (d : Nat) (c : DCore) : (s.setDsp d c).cplTime = s.cplTime := rfl
@[simp] theorem flt_setDsp (d : Nat) (c : DCore) : (s.setDsp d c).flt = s.flt := rfl
@[simp] theorem pwr_setDsp (d : Nat) (c : DCore) : (s.setDsp d c).pwr = s.pwr := rfl
@[simp] theorem cores_setDsp (d : Nat) (c : DCore) : (s.setDsp d c).cores = s.cores := rfl
@[simp] theorem queues_setDsp (d : Nat) (c : DCore) : (s.setDsp d c).queues = s.queues := rfl
@[simp] theorem rrc_setDsp (d : Nat) (c : DCore) : (s.setDsp d c).rrc = s.rrc := rfl
@[simp] theorem clusters_setDsp (d : Nat) (c : DCore) : (s.setDsp d c).clusters = s.clusters := rfl
@[simp] theorem engines_setDsp (d : Nat) (c : DCore) : (s.setDsp d c).engines = s.engines := rfl
@[simp] theorem crcs_setDsp (d : Nat) (c : DCore) : (s.setDsp d c).crcs = s.crcs := rfl
@[simp] theorem modems_setDsp (d : Nat) (c : DCore) : (s.setDsp d c).modems = s.modems := rfl
@[simp] theorem eqNow_setDsp (d : Nat) (c : DCore) : (s.setDsp d c).eqNow = s.eqNow := rfl
@[simp] theorem rdflt_setDsp (d : Nat) (c : DCore) : (s.setDsp d c).rdflt = s.rdflt := rfl
@[simp] theorem edges_setDsp (d : Nat) (c : DCore) : (s.setDsp d c).edges = s.edges := rfl
@[simp] theorem stores_setDsp (d : Nat) (c : DCore) : (s.setDsp d c).stores = s.stores := rfl
@[simp] theorem acct_setDsp (d : Nat) (c : DCore) : (s.setDsp d c).acct = s.acct := rfl
@[simp] theorem snap_setDsp (d : Nat) (c : DCore) : (s.setDsp d c).snap = s.snap := rfl
@[simp] theorem basins_setDsp (d : Nat) (c : DCore) : (s.setDsp d c).basins = s.basins := rfl
@[simp] theorem mbx_setDsp (d : Nat) (c : DCore) : (s.setDsp d c).mbx = s.mbx := rfl
@[simp] theorem hcs_setDsp (d : Nat) (c : DCore) : (s.setDsp d c).hcs = s.hcs := rfl
@[simp] theorem ats_setDsp (d : Nat) (c : DCore) : (s.setDsp d c).ats = s.ats := rfl
@[simp] theorem obsd_setDsp (d : Nat) (c : DCore) : (s.setDsp d c).obsd = s.obsd := rfl
@[simp] theorem lock_setDsp (d : Nat) (c : DCore) : (s.setDsp d c).lock = s.lock := rfl
@[simp] theorem det_setDsp (d : Nat) (c : DCore) : (s.setDsp d c).det = s.det := rfl
@[simp] theorem fab_setDsp (d : Nat) (c : DCore) : (s.setDsp d c).fab = s.fab := rfl
@[simp] theorem fld_setDsp (d : Nat) (c : DCore) (fd : Field) (i : Nat) : (s.setDsp d c).fld fd i = s.fld fd i := rfl
@[simp] theorem flag_setDsp (d : Nat) (c : DCore) (fd : Field) (i : Nat) : (s.setDsp d c).flag fd i = s.flag fd i := rfl
@[simp] theorem rd_setDsp (d : Nat) (c : DCore) (i : Nat) : (s.setDsp d c).rd i = s.rd i := rfl

@[simp] theorem pending_setCluster (k : Nat) (c : Cluster) : (s.setCluster k c).pending = s.pending := rfl
@[simp] theorem regs_setCluster (k : Nat) (c : Cluster) : (s.setCluster k c).regs = s.regs := rfl
@[simp] theorem mem_setCluster (k : Nat) (c : Cluster) : (s.setCluster k c).mem = s.mem := rfl
@[simp] theorem poison_setCluster (k : Nat) (c : Cluster) : (s.setCluster k c).poison = s.poison := rfl
@[simp] theorem flips_setCluster (k : Nat) (c : Cluster) : (s.setCluster k c).flips = s.flips := rfl
@[simp] theorem resp_setCluster (k : Nat) (c : Cluster) : (s.setCluster k c).resp = s.resp := rfl
@[simp] theorem respPoison_setCluster (k : Nat) (c : Cluster) : (s.setCluster k c).respPoison = s.respPoison := rfl
@[simp] theorem mmio_setCluster (k : Nat) (c : Cluster) : (s.setCluster k c).mmio = s.mmio := rfl
@[simp] theorem latches_setCluster (k : Nat) (c : Cluster) : (s.setCluster k c).latches = s.latches := rfl
@[simp] theorem held_setCluster (k : Nat) (c : Cluster) : (s.setCluster k c).held = s.held := rfl
@[simp] theorem free_setCluster (k : Nat) (c : Cluster) : (s.setCluster k c).free = s.free := rfl
@[simp] theorem out_setCluster (k : Nat) (c : Cluster) : (s.setCluster k c).out = s.out := rfl
@[simp] theorem tmb_setCluster (k : Nat) (c : Cluster) : (s.setCluster k c).tmb = s.tmb := rfl
@[simp] theorem trigs_setCluster (k : Nat) (c : Cluster) : (s.setCluster k c).trigs = s.trigs := rfl
@[simp] theorem gey_setCluster (k : Nat) (c : Cluster) : (s.setCluster k c).gey = s.gey := rfl
@[simp] theorem evcap_setCluster (k : Nat) (c : Cluster) : (s.setCluster k c).evcap = s.evcap := rfl
@[simp] theorem cplTime_setCluster (k : Nat) (c : Cluster) : (s.setCluster k c).cplTime = s.cplTime := rfl
@[simp] theorem flt_setCluster (k : Nat) (c : Cluster) : (s.setCluster k c).flt = s.flt := rfl
@[simp] theorem pwr_setCluster (k : Nat) (c : Cluster) : (s.setCluster k c).pwr = s.pwr := rfl
@[simp] theorem cores_setCluster (k : Nat) (c : Cluster) : (s.setCluster k c).cores = s.cores := rfl
@[simp] theorem queues_setCluster (k : Nat) (c : Cluster) : (s.setCluster k c).queues = s.queues := rfl
@[simp] theorem rrc_setCluster (k : Nat) (c : Cluster) : (s.setCluster k c).rrc = s.rrc := rfl
@[simp] theorem dsps_setCluster (k : Nat) (c : Cluster) : (s.setCluster k c).dsps = s.dsps := rfl
@[simp] theorem engines_setCluster (k : Nat) (c : Cluster) : (s.setCluster k c).engines = s.engines := rfl
@[simp] theorem crcs_setCluster (k : Nat) (c : Cluster) : (s.setCluster k c).crcs = s.crcs := rfl
@[simp] theorem modems_setCluster (k : Nat) (c : Cluster) : (s.setCluster k c).modems = s.modems := rfl
@[simp] theorem eqNow_setCluster (k : Nat) (c : Cluster) : (s.setCluster k c).eqNow = s.eqNow := rfl
@[simp] theorem rdflt_setCluster (k : Nat) (c : Cluster) : (s.setCluster k c).rdflt = s.rdflt := rfl
@[simp] theorem edges_setCluster (k : Nat) (c : Cluster) : (s.setCluster k c).edges = s.edges := rfl
@[simp] theorem stores_setCluster (k : Nat) (c : Cluster) : (s.setCluster k c).stores = s.stores := rfl
@[simp] theorem acct_setCluster (k : Nat) (c : Cluster) : (s.setCluster k c).acct = s.acct := rfl
@[simp] theorem snap_setCluster (k : Nat) (c : Cluster) : (s.setCluster k c).snap = s.snap := rfl
@[simp] theorem basins_setCluster (k : Nat) (c : Cluster) : (s.setCluster k c).basins = s.basins := rfl
@[simp] theorem mbx_setCluster (k : Nat) (c : Cluster) : (s.setCluster k c).mbx = s.mbx := rfl
@[simp] theorem hcs_setCluster (k : Nat) (c : Cluster) : (s.setCluster k c).hcs = s.hcs := rfl
@[simp] theorem ats_setCluster (k : Nat) (c : Cluster) : (s.setCluster k c).ats = s.ats := rfl
@[simp] theorem obsd_setCluster (k : Nat) (c : Cluster) : (s.setCluster k c).obsd = s.obsd := rfl
@[simp] theorem lock_setCluster (k : Nat) (c : Cluster) : (s.setCluster k c).lock = s.lock := rfl
@[simp] theorem det_setCluster (k : Nat) (c : Cluster) : (s.setCluster k c).det = s.det := rfl
@[simp] theorem fab_setCluster (k : Nat) (c : Cluster) : (s.setCluster k c).fab = s.fab := rfl
@[simp] theorem fld_setCluster (k : Nat) (c : Cluster) (fd : Field) (i : Nat) : (s.setCluster k c).fld fd i = s.fld fd i := rfl
@[simp] theorem flag_setCluster (k : Nat) (c : Cluster) (fd : Field) (i : Nat) : (s.setCluster k c).flag fd i = s.flag fd i := rfl
@[simp] theorem rd_setCluster (k : Nat) (c : Cluster) (i : Nat) : (s.setCluster k c).rd i = s.rd i := rfl

@[simp] theorem pending_setEngine (e : Nat) (l : List EngJob) : (s.setEngine e l).pending = s.pending := rfl
@[simp] theorem regs_setEngine (e : Nat) (l : List EngJob) : (s.setEngine e l).regs = s.regs := rfl
@[simp] theorem mem_setEngine (e : Nat) (l : List EngJob) : (s.setEngine e l).mem = s.mem := rfl
@[simp] theorem poison_setEngine (e : Nat) (l : List EngJob) : (s.setEngine e l).poison = s.poison := rfl
@[simp] theorem flips_setEngine (e : Nat) (l : List EngJob) : (s.setEngine e l).flips = s.flips := rfl
@[simp] theorem resp_setEngine (e : Nat) (l : List EngJob) : (s.setEngine e l).resp = s.resp := rfl
@[simp] theorem respPoison_setEngine (e : Nat) (l : List EngJob) : (s.setEngine e l).respPoison = s.respPoison := rfl
@[simp] theorem mmio_setEngine (e : Nat) (l : List EngJob) : (s.setEngine e l).mmio = s.mmio := rfl
@[simp] theorem latches_setEngine (e : Nat) (l : List EngJob) : (s.setEngine e l).latches = s.latches := rfl
@[simp] theorem held_setEngine (e : Nat) (l : List EngJob) : (s.setEngine e l).held = s.held := rfl
@[simp] theorem free_setEngine (e : Nat) (l : List EngJob) : (s.setEngine e l).free = s.free := rfl
@[simp] theorem out_setEngine (e : Nat) (l : List EngJob) : (s.setEngine e l).out = s.out := rfl
@[simp] theorem tmb_setEngine (e : Nat) (l : List EngJob) : (s.setEngine e l).tmb = s.tmb := rfl
@[simp] theorem trigs_setEngine (e : Nat) (l : List EngJob) : (s.setEngine e l).trigs = s.trigs := rfl
@[simp] theorem gey_setEngine (e : Nat) (l : List EngJob) : (s.setEngine e l).gey = s.gey := rfl
@[simp] theorem evcap_setEngine (e : Nat) (l : List EngJob) : (s.setEngine e l).evcap = s.evcap := rfl
@[simp] theorem cplTime_setEngine (e : Nat) (l : List EngJob) : (s.setEngine e l).cplTime = s.cplTime := rfl
@[simp] theorem flt_setEngine (e : Nat) (l : List EngJob) : (s.setEngine e l).flt = s.flt := rfl
@[simp] theorem pwr_setEngine (e : Nat) (l : List EngJob) : (s.setEngine e l).pwr = s.pwr := rfl
@[simp] theorem cores_setEngine (e : Nat) (l : List EngJob) : (s.setEngine e l).cores = s.cores := rfl
@[simp] theorem queues_setEngine (e : Nat) (l : List EngJob) : (s.setEngine e l).queues = s.queues := rfl
@[simp] theorem rrc_setEngine (e : Nat) (l : List EngJob) : (s.setEngine e l).rrc = s.rrc := rfl
@[simp] theorem dsps_setEngine (e : Nat) (l : List EngJob) : (s.setEngine e l).dsps = s.dsps := rfl
@[simp] theorem clusters_setEngine (e : Nat) (l : List EngJob) : (s.setEngine e l).clusters = s.clusters := rfl
@[simp] theorem crcs_setEngine (e : Nat) (l : List EngJob) : (s.setEngine e l).crcs = s.crcs := rfl
@[simp] theorem modems_setEngine (e : Nat) (l : List EngJob) : (s.setEngine e l).modems = s.modems := rfl
@[simp] theorem eqNow_setEngine (e : Nat) (l : List EngJob) : (s.setEngine e l).eqNow = s.eqNow := rfl
@[simp] theorem rdflt_setEngine (e : Nat) (l : List EngJob) : (s.setEngine e l).rdflt = s.rdflt := rfl
@[simp] theorem edges_setEngine (e : Nat) (l : List EngJob) : (s.setEngine e l).edges = s.edges := rfl
@[simp] theorem stores_setEngine (e : Nat) (l : List EngJob) : (s.setEngine e l).stores = s.stores := rfl
@[simp] theorem acct_setEngine (e : Nat) (l : List EngJob) : (s.setEngine e l).acct = s.acct := rfl
@[simp] theorem snap_setEngine (e : Nat) (l : List EngJob) : (s.setEngine e l).snap = s.snap := rfl
@[simp] theorem basins_setEngine (e : Nat) (l : List EngJob) : (s.setEngine e l).basins = s.basins := rfl
@[simp] theorem mbx_setEngine (e : Nat) (l : List EngJob) : (s.setEngine e l).mbx = s.mbx := rfl
@[simp] theorem hcs_setEngine (e : Nat) (l : List EngJob) : (s.setEngine e l).hcs = s.hcs := rfl
@[simp] theorem ats_setEngine (e : Nat) (l : List EngJob) : (s.setEngine e l).ats = s.ats := rfl
@[simp] theorem obsd_setEngine (e : Nat) (l : List EngJob) : (s.setEngine e l).obsd = s.obsd := rfl
@[simp] theorem lock_setEngine (e : Nat) (l : List EngJob) : (s.setEngine e l).lock = s.lock := rfl
@[simp] theorem det_setEngine (e : Nat) (l : List EngJob) : (s.setEngine e l).det = s.det := rfl
@[simp] theorem fab_setEngine (e : Nat) (l : List EngJob) : (s.setEngine e l).fab = s.fab := rfl
@[simp] theorem fld_setEngine (e : Nat) (l : List EngJob) (fd : Field) (i : Nat) : (s.setEngine e l).fld fd i = s.fld fd i := rfl
@[simp] theorem flag_setEngine (e : Nat) (l : List EngJob) (fd : Field) (i : Nat) : (s.setEngine e l).flag fd i = s.flag fd i := rfl
@[simp] theorem rd_setEngine (e : Nat) (l : List EngJob) (i : Nat) : (s.setEngine e l).rd i = s.rd i := rfl

@[simp] theorem pending_setCrcU (u : Nat) (c : CrcU) : (s.setCrcU u c).pending = s.pending := rfl
@[simp] theorem regs_setCrcU (u : Nat) (c : CrcU) : (s.setCrcU u c).regs = s.regs := rfl
@[simp] theorem mem_setCrcU (u : Nat) (c : CrcU) : (s.setCrcU u c).mem = s.mem := rfl
@[simp] theorem poison_setCrcU (u : Nat) (c : CrcU) : (s.setCrcU u c).poison = s.poison := rfl
@[simp] theorem flips_setCrcU (u : Nat) (c : CrcU) : (s.setCrcU u c).flips = s.flips := rfl
@[simp] theorem resp_setCrcU (u : Nat) (c : CrcU) : (s.setCrcU u c).resp = s.resp := rfl
@[simp] theorem respPoison_setCrcU (u : Nat) (c : CrcU) : (s.setCrcU u c).respPoison = s.respPoison := rfl
@[simp] theorem mmio_setCrcU (u : Nat) (c : CrcU) : (s.setCrcU u c).mmio = s.mmio := rfl
@[simp] theorem latches_setCrcU (u : Nat) (c : CrcU) : (s.setCrcU u c).latches = s.latches := rfl
@[simp] theorem held_setCrcU (u : Nat) (c : CrcU) : (s.setCrcU u c).held = s.held := rfl
@[simp] theorem free_setCrcU (u : Nat) (c : CrcU) : (s.setCrcU u c).free = s.free := rfl
@[simp] theorem out_setCrcU (u : Nat) (c : CrcU) : (s.setCrcU u c).out = s.out := rfl
@[simp] theorem tmb_setCrcU (u : Nat) (c : CrcU) : (s.setCrcU u c).tmb = s.tmb := rfl
@[simp] theorem trigs_setCrcU (u : Nat) (c : CrcU) : (s.setCrcU u c).trigs = s.trigs := rfl
@[simp] theorem gey_setCrcU (u : Nat) (c : CrcU) : (s.setCrcU u c).gey = s.gey := rfl
@[simp] theorem evcap_setCrcU (u : Nat) (c : CrcU) : (s.setCrcU u c).evcap = s.evcap := rfl
@[simp] theorem cplTime_setCrcU (u : Nat) (c : CrcU) : (s.setCrcU u c).cplTime = s.cplTime := rfl
@[simp] theorem flt_setCrcU (u : Nat) (c : CrcU) : (s.setCrcU u c).flt = s.flt := rfl
@[simp] theorem pwr_setCrcU (u : Nat) (c : CrcU) : (s.setCrcU u c).pwr = s.pwr := rfl
@[simp] theorem cores_setCrcU (u : Nat) (c : CrcU) : (s.setCrcU u c).cores = s.cores := rfl
@[simp] theorem queues_setCrcU (u : Nat) (c : CrcU) : (s.setCrcU u c).queues = s.queues := rfl
@[simp] theorem rrc_setCrcU (u : Nat) (c : CrcU) : (s.setCrcU u c).rrc = s.rrc := rfl
@[simp] theorem dsps_setCrcU (u : Nat) (c : CrcU) : (s.setCrcU u c).dsps = s.dsps := rfl
@[simp] theorem clusters_setCrcU (u : Nat) (c : CrcU) : (s.setCrcU u c).clusters = s.clusters := rfl
@[simp] theorem engines_setCrcU (u : Nat) (c : CrcU) : (s.setCrcU u c).engines = s.engines := rfl
@[simp] theorem modems_setCrcU (u : Nat) (c : CrcU) : (s.setCrcU u c).modems = s.modems := rfl
@[simp] theorem eqNow_setCrcU (u : Nat) (c : CrcU) : (s.setCrcU u c).eqNow = s.eqNow := rfl
@[simp] theorem rdflt_setCrcU (u : Nat) (c : CrcU) : (s.setCrcU u c).rdflt = s.rdflt := rfl
@[simp] theorem edges_setCrcU (u : Nat) (c : CrcU) : (s.setCrcU u c).edges = s.edges := rfl
@[simp] theorem stores_setCrcU (u : Nat) (c : CrcU) : (s.setCrcU u c).stores = s.stores := rfl
@[simp] theorem acct_setCrcU (u : Nat) (c : CrcU) : (s.setCrcU u c).acct = s.acct := rfl
@[simp] theorem snap_setCrcU (u : Nat) (c : CrcU) : (s.setCrcU u c).snap = s.snap := rfl
@[simp] theorem basins_setCrcU (u : Nat) (c : CrcU) : (s.setCrcU u c).basins = s.basins := rfl
@[simp] theorem mbx_setCrcU (u : Nat) (c : CrcU) : (s.setCrcU u c).mbx = s.mbx := rfl
@[simp] theorem hcs_setCrcU (u : Nat) (c : CrcU) : (s.setCrcU u c).hcs = s.hcs := rfl
@[simp] theorem ats_setCrcU (u : Nat) (c : CrcU) : (s.setCrcU u c).ats = s.ats := rfl
@[simp] theorem obsd_setCrcU (u : Nat) (c : CrcU) : (s.setCrcU u c).obsd = s.obsd := rfl
@[simp] theorem lock_setCrcU (u : Nat) (c : CrcU) : (s.setCrcU u c).lock = s.lock := rfl
@[simp] theorem det_setCrcU (u : Nat) (c : CrcU) : (s.setCrcU u c).det = s.det := rfl
@[simp] theorem fab_setCrcU (u : Nat) (c : CrcU) : (s.setCrcU u c).fab = s.fab := rfl
@[simp] theorem fld_setCrcU (u : Nat) (c : CrcU) (fd : Field) (i : Nat) : (s.setCrcU u c).fld fd i = s.fld fd i := rfl
@[simp] theorem flag_setCrcU (u : Nat) (c : CrcU) (fd : Field) (i : Nat) : (s.setCrcU u c).flag fd i = s.flag fd i := rfl
@[simp] theorem rd_setCrcU (u : Nat) (c : CrcU) (i : Nat) : (s.setCrcU u c).rd i = s.rd i := rfl

@[simp] theorem pending_setRdFault (n : Nat) (c : RdFault) : (s.setRdFault n c).pending = s.pending := rfl
@[simp] theorem regs_setRdFault (n : Nat) (c : RdFault) : (s.setRdFault n c).regs = s.regs := rfl
@[simp] theorem mem_setRdFault (n : Nat) (c : RdFault) : (s.setRdFault n c).mem = s.mem := rfl
@[simp] theorem poison_setRdFault (n : Nat) (c : RdFault) : (s.setRdFault n c).poison = s.poison := rfl
@[simp] theorem flips_setRdFault (n : Nat) (c : RdFault) : (s.setRdFault n c).flips = s.flips := rfl
@[simp] theorem resp_setRdFault (n : Nat) (c : RdFault) : (s.setRdFault n c).resp = s.resp := rfl
@[simp] theorem respPoison_setRdFault (n : Nat) (c : RdFault) : (s.setRdFault n c).respPoison = s.respPoison := rfl
@[simp] theorem mmio_setRdFault (n : Nat) (c : RdFault) : (s.setRdFault n c).mmio = s.mmio := rfl
@[simp] theorem latches_setRdFault (n : Nat) (c : RdFault) : (s.setRdFault n c).latches = s.latches := rfl
@[simp] theorem held_setRdFault (n : Nat) (c : RdFault) : (s.setRdFault n c).held = s.held := rfl
@[simp] theorem free_setRdFault (n : Nat) (c : RdFault) : (s.setRdFault n c).free = s.free := rfl
@[simp] theorem out_setRdFault (n : Nat) (c : RdFault) : (s.setRdFault n c).out = s.out := rfl
@[simp] theorem tmb_setRdFault (n : Nat) (c : RdFault) : (s.setRdFault n c).tmb = s.tmb := rfl
@[simp] theorem trigs_setRdFault (n : Nat) (c : RdFault) : (s.setRdFault n c).trigs = s.trigs := rfl
@[simp] theorem gey_setRdFault (n : Nat) (c : RdFault) : (s.setRdFault n c).gey = s.gey := rfl
@[simp] theorem evcap_setRdFault (n : Nat) (c : RdFault) : (s.setRdFault n c).evcap = s.evcap := rfl
@[simp] theorem cplTime_setRdFault (n : Nat) (c : RdFault) : (s.setRdFault n c).cplTime = s.cplTime := rfl
@[simp] theorem flt_setRdFault (n : Nat) (c : RdFault) : (s.setRdFault n c).flt = s.flt := rfl
@[simp] theorem pwr_setRdFault (n : Nat) (c : RdFault) : (s.setRdFault n c).pwr = s.pwr := rfl
@[simp] theorem cores_setRdFault (n : Nat) (c : RdFault) : (s.setRdFault n c).cores = s.cores := rfl
@[simp] theorem queues_setRdFault (n : Nat) (c : RdFault) : (s.setRdFault n c).queues = s.queues := rfl
@[simp] theorem rrc_setRdFault (n : Nat) (c : RdFault) : (s.setRdFault n c).rrc = s.rrc := rfl
@[simp] theorem dsps_setRdFault (n : Nat) (c : RdFault) : (s.setRdFault n c).dsps = s.dsps := rfl
@[simp] theorem clusters_setRdFault (n : Nat) (c : RdFault) : (s.setRdFault n c).clusters = s.clusters := rfl
@[simp] theorem engines_setRdFault (n : Nat) (c : RdFault) : (s.setRdFault n c).engines = s.engines := rfl
@[simp] theorem crcs_setRdFault (n : Nat) (c : RdFault) : (s.setRdFault n c).crcs = s.crcs := rfl
@[simp] theorem modems_setRdFault (n : Nat) (c : RdFault) : (s.setRdFault n c).modems = s.modems := rfl
@[simp] theorem eqNow_setRdFault (n : Nat) (c : RdFault) : (s.setRdFault n c).eqNow = s.eqNow := rfl
@[simp] theorem edges_setRdFault (n : Nat) (c : RdFault) : (s.setRdFault n c).edges = s.edges := rfl
@[simp] theorem stores_setRdFault (n : Nat) (c : RdFault) : (s.setRdFault n c).stores = s.stores := rfl
@[simp] theorem acct_setRdFault (n : Nat) (c : RdFault) : (s.setRdFault n c).acct = s.acct := rfl
@[simp] theorem snap_setRdFault (n : Nat) (c : RdFault) : (s.setRdFault n c).snap = s.snap := rfl
@[simp] theorem basins_setRdFault (n : Nat) (c : RdFault) : (s.setRdFault n c).basins = s.basins := rfl
@[simp] theorem mbx_setRdFault (n : Nat) (c : RdFault) : (s.setRdFault n c).mbx = s.mbx := rfl
@[simp] theorem hcs_setRdFault (n : Nat) (c : RdFault) : (s.setRdFault n c).hcs = s.hcs := rfl
@[simp] theorem ats_setRdFault (n : Nat) (c : RdFault) : (s.setRdFault n c).ats = s.ats := rfl
@[simp] theorem obsd_setRdFault (n : Nat) (c : RdFault) : (s.setRdFault n c).obsd = s.obsd := rfl
@[simp] theorem lock_setRdFault (n : Nat) (c : RdFault) : (s.setRdFault n c).lock = s.lock := rfl
@[simp] theorem det_setRdFault (n : Nat) (c : RdFault) : (s.setRdFault n c).det = s.det := rfl
@[simp] theorem fab_setRdFault (n : Nat) (c : RdFault) : (s.setRdFault n c).fab = s.fab := rfl
@[simp] theorem fld_setRdFault (n : Nat) (c : RdFault) (fd : Field) (i : Nat) : (s.setRdFault n c).fld fd i = s.fld fd i := rfl
@[simp] theorem flag_setRdFault (n : Nat) (c : RdFault) (fd : Field) (i : Nat) : (s.setRdFault n c).flag fd i = s.flag fd i := rfl
@[simp] theorem rd_setRdFault (n : Nat) (c : RdFault) (i : Nat) : (s.setRdFault n c).rd i = s.rd i := rfl

@[simp] theorem pending_setEdge (k : Nat) (c : Edge) : (s.setEdge k c).pending = s.pending := rfl
@[simp] theorem regs_setEdge (k : Nat) (c : Edge) : (s.setEdge k c).regs = s.regs := rfl
@[simp] theorem mem_setEdge (k : Nat) (c : Edge) : (s.setEdge k c).mem = s.mem := rfl
@[simp] theorem poison_setEdge (k : Nat) (c : Edge) : (s.setEdge k c).poison = s.poison := rfl
@[simp] theorem flips_setEdge (k : Nat) (c : Edge) : (s.setEdge k c).flips = s.flips := rfl
@[simp] theorem resp_setEdge (k : Nat) (c : Edge) : (s.setEdge k c).resp = s.resp := rfl
@[simp] theorem respPoison_setEdge (k : Nat) (c : Edge) : (s.setEdge k c).respPoison = s.respPoison := rfl
@[simp] theorem mmio_setEdge (k : Nat) (c : Edge) : (s.setEdge k c).mmio = s.mmio := rfl
@[simp] theorem latches_setEdge (k : Nat) (c : Edge) : (s.setEdge k c).latches = s.latches := rfl
@[simp] theorem held_setEdge (k : Nat) (c : Edge) : (s.setEdge k c).held = s.held := rfl
@[simp] theorem free_setEdge (k : Nat) (c : Edge) : (s.setEdge k c).free = s.free := rfl
@[simp] theorem out_setEdge (k : Nat) (c : Edge) : (s.setEdge k c).out = s.out := rfl
@[simp] theorem tmb_setEdge (k : Nat) (c : Edge) : (s.setEdge k c).tmb = s.tmb := rfl
@[simp] theorem trigs_setEdge (k : Nat) (c : Edge) : (s.setEdge k c).trigs = s.trigs := rfl
@[simp] theorem gey_setEdge (k : Nat) (c : Edge) : (s.setEdge k c).gey = s.gey := rfl
@[simp] theorem evcap_setEdge (k : Nat) (c : Edge) : (s.setEdge k c).evcap = s.evcap := rfl
@[simp] theorem cplTime_setEdge (k : Nat) (c : Edge) : (s.setEdge k c).cplTime = s.cplTime := rfl
@[simp] theorem flt_setEdge (k : Nat) (c : Edge) : (s.setEdge k c).flt = s.flt := rfl
@[simp] theorem pwr_setEdge (k : Nat) (c : Edge) : (s.setEdge k c).pwr = s.pwr := rfl
@[simp] theorem cores_setEdge (k : Nat) (c : Edge) : (s.setEdge k c).cores = s.cores := rfl
@[simp] theorem queues_setEdge (k : Nat) (c : Edge) : (s.setEdge k c).queues = s.queues := rfl
@[simp] theorem rrc_setEdge (k : Nat) (c : Edge) : (s.setEdge k c).rrc = s.rrc := rfl
@[simp] theorem dsps_setEdge (k : Nat) (c : Edge) : (s.setEdge k c).dsps = s.dsps := rfl
@[simp] theorem clusters_setEdge (k : Nat) (c : Edge) : (s.setEdge k c).clusters = s.clusters := rfl
@[simp] theorem engines_setEdge (k : Nat) (c : Edge) : (s.setEdge k c).engines = s.engines := rfl
@[simp] theorem crcs_setEdge (k : Nat) (c : Edge) : (s.setEdge k c).crcs = s.crcs := rfl
@[simp] theorem modems_setEdge (k : Nat) (c : Edge) : (s.setEdge k c).modems = s.modems := rfl
@[simp] theorem eqNow_setEdge (k : Nat) (c : Edge) : (s.setEdge k c).eqNow = s.eqNow := rfl
@[simp] theorem rdflt_setEdge (k : Nat) (c : Edge) : (s.setEdge k c).rdflt = s.rdflt := rfl
@[simp] theorem stores_setEdge (k : Nat) (c : Edge) : (s.setEdge k c).stores = s.stores := rfl
@[simp] theorem acct_setEdge (k : Nat) (c : Edge) : (s.setEdge k c).acct = s.acct := rfl
@[simp] theorem snap_setEdge (k : Nat) (c : Edge) : (s.setEdge k c).snap = s.snap := rfl
@[simp] theorem basins_setEdge (k : Nat) (c : Edge) : (s.setEdge k c).basins = s.basins := rfl
@[simp] theorem mbx_setEdge (k : Nat) (c : Edge) : (s.setEdge k c).mbx = s.mbx := rfl
@[simp] theorem hcs_setEdge (k : Nat) (c : Edge) : (s.setEdge k c).hcs = s.hcs := rfl
@[simp] theorem ats_setEdge (k : Nat) (c : Edge) : (s.setEdge k c).ats = s.ats := rfl
@[simp] theorem obsd_setEdge (k : Nat) (c : Edge) : (s.setEdge k c).obsd = s.obsd := rfl
@[simp] theorem lock_setEdge (k : Nat) (c : Edge) : (s.setEdge k c).lock = s.lock := rfl
@[simp] theorem det_setEdge (k : Nat) (c : Edge) : (s.setEdge k c).det = s.det := rfl
@[simp] theorem fab_setEdge (k : Nat) (c : Edge) : (s.setEdge k c).fab = s.fab := rfl
@[simp] theorem fld_setEdge (k : Nat) (c : Edge) (fd : Field) (i : Nat) : (s.setEdge k c).fld fd i = s.fld fd i := rfl
@[simp] theorem flag_setEdge (k : Nat) (c : Edge) (fd : Field) (i : Nat) : (s.setEdge k c).flag fd i = s.flag fd i := rfl
@[simp] theorem rd_setEdge (k : Nat) (c : Edge) (i : Nat) : (s.setEdge k c).rd i = s.rd i := rfl

@[simp] theorem pending_modFlt (f : Handling → Handling) : (s.modFlt f).pending = s.pending := rfl
@[simp] theorem regs_modFlt (f : Handling → Handling) : (s.modFlt f).regs = s.regs := rfl
@[simp] theorem mem_modFlt (f : Handling → Handling) : (s.modFlt f).mem = s.mem := rfl
@[simp] theorem poison_modFlt (f : Handling → Handling) : (s.modFlt f).poison = s.poison := rfl
@[simp] theorem flips_modFlt (f : Handling → Handling) : (s.modFlt f).flips = s.flips := rfl
@[simp] theorem resp_modFlt (f : Handling → Handling) : (s.modFlt f).resp = s.resp := rfl
@[simp] theorem respPoison_modFlt (f : Handling → Handling) : (s.modFlt f).respPoison = s.respPoison := rfl
@[simp] theorem mmio_modFlt (f : Handling → Handling) : (s.modFlt f).mmio = s.mmio := rfl
@[simp] theorem latches_modFlt (f : Handling → Handling) : (s.modFlt f).latches = s.latches := rfl
@[simp] theorem held_modFlt (f : Handling → Handling) : (s.modFlt f).held = s.held := rfl
@[simp] theorem free_modFlt (f : Handling → Handling) : (s.modFlt f).free = s.free := rfl
@[simp] theorem out_modFlt (f : Handling → Handling) : (s.modFlt f).out = s.out := rfl
@[simp] theorem tmb_modFlt (f : Handling → Handling) : (s.modFlt f).tmb = s.tmb := rfl
@[simp] theorem trigs_modFlt (f : Handling → Handling) : (s.modFlt f).trigs = s.trigs := rfl
@[simp] theorem gey_modFlt (f : Handling → Handling) : (s.modFlt f).gey = s.gey := rfl
@[simp] theorem evcap_modFlt (f : Handling → Handling) : (s.modFlt f).evcap = s.evcap := rfl
@[simp] theorem cplTime_modFlt (f : Handling → Handling) : (s.modFlt f).cplTime = s.cplTime := rfl
@[simp] theorem pwr_modFlt (f : Handling → Handling) : (s.modFlt f).pwr = s.pwr := rfl
@[simp] theorem cores_modFlt (f : Handling → Handling) : (s.modFlt f).cores = s.cores := rfl
@[simp] theorem queues_modFlt (f : Handling → Handling) : (s.modFlt f).queues = s.queues := rfl
@[simp] theorem rrc_modFlt (f : Handling → Handling) : (s.modFlt f).rrc = s.rrc := rfl
@[simp] theorem dsps_modFlt (f : Handling → Handling) : (s.modFlt f).dsps = s.dsps := rfl
@[simp] theorem clusters_modFlt (f : Handling → Handling) : (s.modFlt f).clusters = s.clusters := rfl
@[simp] theorem engines_modFlt (f : Handling → Handling) : (s.modFlt f).engines = s.engines := rfl
@[simp] theorem crcs_modFlt (f : Handling → Handling) : (s.modFlt f).crcs = s.crcs := rfl
@[simp] theorem modems_modFlt (f : Handling → Handling) : (s.modFlt f).modems = s.modems := rfl
@[simp] theorem eqNow_modFlt (f : Handling → Handling) : (s.modFlt f).eqNow = s.eqNow := rfl
@[simp] theorem rdflt_modFlt (f : Handling → Handling) : (s.modFlt f).rdflt = s.rdflt := rfl
@[simp] theorem edges_modFlt (f : Handling → Handling) : (s.modFlt f).edges = s.edges := rfl
@[simp] theorem stores_modFlt (f : Handling → Handling) : (s.modFlt f).stores = s.stores := rfl
@[simp] theorem acct_modFlt (f : Handling → Handling) : (s.modFlt f).acct = s.acct := rfl
@[simp] theorem snap_modFlt (f : Handling → Handling) : (s.modFlt f).snap = s.snap := rfl
@[simp] theorem basins_modFlt (f : Handling → Handling) : (s.modFlt f).basins = s.basins := rfl
@[simp] theorem mbx_modFlt (f : Handling → Handling) : (s.modFlt f).mbx = s.mbx := rfl
@[simp] theorem hcs_modFlt (f : Handling → Handling) : (s.modFlt f).hcs = s.hcs := rfl
@[simp] theorem ats_modFlt (f : Handling → Handling) : (s.modFlt f).ats = s.ats := rfl
@[simp] theorem obsd_modFlt (f : Handling → Handling) : (s.modFlt f).obsd = s.obsd := rfl
@[simp] theorem lock_modFlt (f : Handling → Handling) : (s.modFlt f).lock = s.lock := rfl
@[simp] theorem det_modFlt (f : Handling → Handling) : (s.modFlt f).det = s.det := rfl
@[simp] theorem fab_modFlt (f : Handling → Handling) : (s.modFlt f).fab = s.fab := rfl
@[simp] theorem fld_modFlt (f : Handling → Handling) (fd : Field) (i : Nat) : (s.modFlt f).fld fd i = s.fld fd i := rfl
@[simp] theorem flag_modFlt (f : Handling → Handling) (fd : Field) (i : Nat) : (s.modFlt f).flag fd i = s.flag fd i := rfl
@[simp] theorem rd_modFlt (f : Handling → Handling) (i : Nat) : (s.modFlt f).rd i = s.rd i := rfl

@[simp] theorem pending_modPwr (f : Power → Power) : (s.modPwr f).pending = s.pending := rfl
@[simp] theorem regs_modPwr (f : Power → Power) : (s.modPwr f).regs = s.regs := rfl
@[simp] theorem mem_modPwr (f : Power → Power) : (s.modPwr f).mem = s.mem := rfl
@[simp] theorem poison_modPwr (f : Power → Power) : (s.modPwr f).poison = s.poison := rfl
@[simp] theorem flips_modPwr (f : Power → Power) : (s.modPwr f).flips = s.flips := rfl
@[simp] theorem resp_modPwr (f : Power → Power) : (s.modPwr f).resp = s.resp := rfl
@[simp] theorem respPoison_modPwr (f : Power → Power) : (s.modPwr f).respPoison = s.respPoison := rfl
@[simp] theorem mmio_modPwr (f : Power → Power) : (s.modPwr f).mmio = s.mmio := rfl
@[simp] theorem latches_modPwr (f : Power → Power) : (s.modPwr f).latches = s.latches := rfl
@[simp] theorem held_modPwr (f : Power → Power) : (s.modPwr f).held = s.held := rfl
@[simp] theorem free_modPwr (f : Power → Power) : (s.modPwr f).free = s.free := rfl
@[simp] theorem out_modPwr (f : Power → Power) : (s.modPwr f).out = s.out := rfl
@[simp] theorem tmb_modPwr (f : Power → Power) : (s.modPwr f).tmb = s.tmb := rfl
@[simp] theorem trigs_modPwr (f : Power → Power) : (s.modPwr f).trigs = s.trigs := rfl
@[simp] theorem gey_modPwr (f : Power → Power) : (s.modPwr f).gey = s.gey := rfl
@[simp] theorem evcap_modPwr (f : Power → Power) : (s.modPwr f).evcap = s.evcap := rfl
@[simp] theorem cplTime_modPwr (f : Power → Power) : (s.modPwr f).cplTime = s.cplTime := rfl
@[simp] theorem flt_modPwr (f : Power → Power) : (s.modPwr f).flt = s.flt := rfl
@[simp] theorem cores_modPwr (f : Power → Power) : (s.modPwr f).cores = s.cores := rfl
@[simp] theorem queues_modPwr (f : Power → Power) : (s.modPwr f).queues = s.queues := rfl
@[simp] theorem rrc_modPwr (f : Power → Power) : (s.modPwr f).rrc = s.rrc := rfl
@[simp] theorem dsps_modPwr (f : Power → Power) : (s.modPwr f).dsps = s.dsps := rfl
@[simp] theorem clusters_modPwr (f : Power → Power) : (s.modPwr f).clusters = s.clusters := rfl
@[simp] theorem engines_modPwr (f : Power → Power) : (s.modPwr f).engines = s.engines := rfl
@[simp] theorem crcs_modPwr (f : Power → Power) : (s.modPwr f).crcs = s.crcs := rfl
@[simp] theorem modems_modPwr (f : Power → Power) : (s.modPwr f).modems = s.modems := rfl
@[simp] theorem eqNow_modPwr (f : Power → Power) : (s.modPwr f).eqNow = s.eqNow := rfl
@[simp] theorem rdflt_modPwr (f : Power → Power) : (s.modPwr f).rdflt = s.rdflt := rfl
@[simp] theorem edges_modPwr (f : Power → Power) : (s.modPwr f).edges = s.edges := rfl
@[simp] theorem stores_modPwr (f : Power → Power) : (s.modPwr f).stores = s.stores := rfl
@[simp] theorem acct_modPwr (f : Power → Power) : (s.modPwr f).acct = s.acct := rfl
@[simp] theorem snap_modPwr (f : Power → Power) : (s.modPwr f).snap = s.snap := rfl
@[simp] theorem basins_modPwr (f : Power → Power) : (s.modPwr f).basins = s.basins := rfl
@[simp] theorem mbx_modPwr (f : Power → Power) : (s.modPwr f).mbx = s.mbx := rfl
@[simp] theorem hcs_modPwr (f : Power → Power) : (s.modPwr f).hcs = s.hcs := rfl
@[simp] theorem ats_modPwr (f : Power → Power) : (s.modPwr f).ats = s.ats := rfl
@[simp] theorem obsd_modPwr (f : Power → Power) : (s.modPwr f).obsd = s.obsd := rfl
@[simp] theorem lock_modPwr (f : Power → Power) : (s.modPwr f).lock = s.lock := rfl
@[simp] theorem det_modPwr (f : Power → Power) : (s.modPwr f).det = s.det := rfl
@[simp] theorem fab_modPwr (f : Power → Power) : (s.modPwr f).fab = s.fab := rfl
@[simp] theorem fld_modPwr (f : Power → Power) (fd : Field) (i : Nat) : (s.modPwr f).fld fd i = s.fld fd i := rfl
@[simp] theorem flag_modPwr (f : Power → Power) (fd : Field) (i : Nat) : (s.modPwr f).flag fd i = s.flag fd i := rfl
@[simp] theorem rd_modPwr (f : Power → Power) (i : Nat) : (s.modPwr f).rd i = s.rd i := rfl

@[simp] theorem pending_write (a : Nat) (d : List Byte) : (s.write a d).pending = s.pending := rfl
@[simp] theorem regs_write (a : Nat) (d : List Byte) : (s.write a d).regs = s.regs := rfl
@[simp] theorem poison_write (a : Nat) (d : List Byte) : (s.write a d).poison = s.poison := rfl
@[simp] theorem flips_write (a : Nat) (d : List Byte) : (s.write a d).flips = s.flips := rfl
@[simp] theorem resp_write (a : Nat) (d : List Byte) : (s.write a d).resp = s.resp := rfl
@[simp] theorem respPoison_write (a : Nat) (d : List Byte) : (s.write a d).respPoison = s.respPoison := rfl
@[simp] theorem mmio_write (a : Nat) (d : List Byte) : (s.write a d).mmio = s.mmio := rfl
@[simp] theorem latches_write (a : Nat) (d : List Byte) : (s.write a d).latches = s.latches := rfl
@[simp] theorem held_write (a : Nat) (d : List Byte) : (s.write a d).held = s.held := rfl
@[simp] theorem free_write (a : Nat) (d : List Byte) : (s.write a d).free = s.free := rfl
@[simp] theorem out_write (a : Nat) (d : List Byte) : (s.write a d).out = s.out := rfl
@[simp] theorem tmb_write (a : Nat) (d : List Byte) : (s.write a d).tmb = s.tmb := rfl
@[simp] theorem trigs_write (a : Nat) (d : List Byte) : (s.write a d).trigs = s.trigs := rfl
@[simp] theorem gey_write (a : Nat) (d : List Byte) : (s.write a d).gey = s.gey := rfl
@[simp] theorem evcap_write (a : Nat) (d : List Byte) : (s.write a d).evcap = s.evcap := rfl
@[simp] theorem cplTime_write (a : Nat) (d : List Byte) : (s.write a d).cplTime = s.cplTime := rfl
@[simp] theorem flt_write (a : Nat) (d : List Byte) : (s.write a d).flt = s.flt := rfl
@[simp] theorem pwr_write (a : Nat) (d : List Byte) : (s.write a d).pwr = s.pwr := rfl
@[simp] theorem cores_write (a : Nat) (d : List Byte) : (s.write a d).cores = s.cores := rfl
@[simp] theorem queues_write (a : Nat) (d : List Byte) : (s.write a d).queues = s.queues := rfl
@[simp] theorem rrc_write (a : Nat) (d : List Byte) : (s.write a d).rrc = s.rrc := rfl
@[simp] theorem dsps_write (a : Nat) (d : List Byte) : (s.write a d).dsps = s.dsps := rfl
@[simp] theorem clusters_write (a : Nat) (d : List Byte) : (s.write a d).clusters = s.clusters := rfl
@[simp] theorem engines_write (a : Nat) (d : List Byte) : (s.write a d).engines = s.engines := rfl
@[simp] theorem crcs_write (a : Nat) (d : List Byte) : (s.write a d).crcs = s.crcs := rfl
@[simp] theorem modems_write (a : Nat) (d : List Byte) : (s.write a d).modems = s.modems := rfl
@[simp] theorem eqNow_write (a : Nat) (d : List Byte) : (s.write a d).eqNow = s.eqNow := rfl
@[simp] theorem rdflt_write (a : Nat) (d : List Byte) : (s.write a d).rdflt = s.rdflt := rfl
@[simp] theorem edges_write (a : Nat) (d : List Byte) : (s.write a d).edges = s.edges := rfl
@[simp] theorem stores_write (a : Nat) (d : List Byte) : (s.write a d).stores = s.stores := rfl
@[simp] theorem acct_write (a : Nat) (d : List Byte) : (s.write a d).acct = s.acct := rfl
@[simp] theorem snap_write (a : Nat) (d : List Byte) : (s.write a d).snap = s.snap := rfl
@[simp] theorem basins_write (a : Nat) (d : List Byte) : (s.write a d).basins = s.basins := rfl
@[simp] theorem mbx_write (a : Nat) (d : List Byte) : (s.write a d).mbx = s.mbx := rfl
@[simp] theorem hcs_write (a : Nat) (d : List Byte) : (s.write a d).hcs = s.hcs := rfl
@[simp] theorem ats_write (a : Nat) (d : List Byte) : (s.write a d).ats = s.ats := rfl
@[simp] theorem obsd_write (a : Nat) (d : List Byte) : (s.write a d).obsd = s.obsd := rfl
@[simp] theorem lock_write (a : Nat) (d : List Byte) : (s.write a d).lock = s.lock := rfl
@[simp] theorem det_write (a : Nat) (d : List Byte) : (s.write a d).det = s.det := rfl
@[simp] theorem fab_write (a : Nat) (d : List Byte) : (s.write a d).fab = s.fab := rfl
@[simp] theorem fld_write (a : Nat) (d : List Byte) (fd : Field) (i : Nat) : (s.write a d).fld fd i = s.fld fd i := rfl
@[simp] theorem flag_write (a : Nat) (d : List Byte) (fd : Field) (i : Nat) : (s.write a d).flag fd i = s.flag fd i := rfl

@[simp] theorem pending_setPoison (l : Nat) (b : Bool) : (s.setPoison l b).pending = s.pending := rfl
@[simp] theorem regs_setPoison (l : Nat) (b : Bool) : (s.setPoison l b).regs = s.regs := rfl
@[simp] theorem mem_setPoison (l : Nat) (b : Bool) : (s.setPoison l b).mem = s.mem := rfl
@[simp] theorem resp_setPoison (l : Nat) (b : Bool) : (s.setPoison l b).resp = s.resp := rfl
@[simp] theorem respPoison_setPoison (l : Nat) (b : Bool) : (s.setPoison l b).respPoison = s.respPoison := rfl
@[simp] theorem mmio_setPoison (l : Nat) (b : Bool) : (s.setPoison l b).mmio = s.mmio := rfl
@[simp] theorem latches_setPoison (l : Nat) (b : Bool) : (s.setPoison l b).latches = s.latches := rfl
@[simp] theorem held_setPoison (l : Nat) (b : Bool) : (s.setPoison l b).held = s.held := rfl
@[simp] theorem free_setPoison (l : Nat) (b : Bool) : (s.setPoison l b).free = s.free := rfl
@[simp] theorem out_setPoison (l : Nat) (b : Bool) : (s.setPoison l b).out = s.out := rfl
@[simp] theorem tmb_setPoison (l : Nat) (b : Bool) : (s.setPoison l b).tmb = s.tmb := rfl
@[simp] theorem trigs_setPoison (l : Nat) (b : Bool) : (s.setPoison l b).trigs = s.trigs := rfl
@[simp] theorem gey_setPoison (l : Nat) (b : Bool) : (s.setPoison l b).gey = s.gey := rfl
@[simp] theorem evcap_setPoison (l : Nat) (b : Bool) : (s.setPoison l b).evcap = s.evcap := rfl
@[simp] theorem cplTime_setPoison (l : Nat) (b : Bool) : (s.setPoison l b).cplTime = s.cplTime := rfl
@[simp] theorem flt_setPoison (l : Nat) (b : Bool) : (s.setPoison l b).flt = s.flt := rfl
@[simp] theorem pwr_setPoison (l : Nat) (b : Bool) : (s.setPoison l b).pwr = s.pwr := rfl
@[simp] theorem cores_setPoison (l : Nat) (b : Bool) : (s.setPoison l b).cores = s.cores := rfl
@[simp] theorem queues_setPoison (l : Nat) (b : Bool) : (s.setPoison l b).queues = s.queues := rfl
@[simp] theorem rrc_setPoison (l : Nat) (b : Bool) : (s.setPoison l b).rrc = s.rrc := rfl
@[simp] theorem dsps_setPoison (l : Nat) (b : Bool) : (s.setPoison l b).dsps = s.dsps := rfl
@[simp] theorem clusters_setPoison (l : Nat) (b : Bool) : (s.setPoison l b).clusters = s.clusters := rfl
@[simp] theorem engines_setPoison (l : Nat) (b : Bool) : (s.setPoison l b).engines = s.engines := rfl
@[simp] theorem crcs_setPoison (l : Nat) (b : Bool) : (s.setPoison l b).crcs = s.crcs := rfl
@[simp] theorem modems_setPoison (l : Nat) (b : Bool) : (s.setPoison l b).modems = s.modems := rfl
@[simp] theorem eqNow_setPoison (l : Nat) (b : Bool) : (s.setPoison l b).eqNow = s.eqNow := rfl
@[simp] theorem rdflt_setPoison (l : Nat) (b : Bool) : (s.setPoison l b).rdflt = s.rdflt := rfl
@[simp] theorem edges_setPoison (l : Nat) (b : Bool) : (s.setPoison l b).edges = s.edges := rfl
@[simp] theorem stores_setPoison (l : Nat) (b : Bool) : (s.setPoison l b).stores = s.stores := rfl
@[simp] theorem acct_setPoison (l : Nat) (b : Bool) : (s.setPoison l b).acct = s.acct := rfl
@[simp] theorem snap_setPoison (l : Nat) (b : Bool) : (s.setPoison l b).snap = s.snap := rfl
@[simp] theorem flips_setPoison (l : Nat) (b : Bool) : (s.setPoison l b).flips = s.flips := rfl
@[simp] theorem basins_setPoison (l : Nat) (b : Bool) : (s.setPoison l b).basins = s.basins := rfl
@[simp] theorem mbx_setPoison (l : Nat) (b : Bool) : (s.setPoison l b).mbx = s.mbx := rfl
@[simp] theorem hcs_setPoison (l : Nat) (b : Bool) : (s.setPoison l b).hcs = s.hcs := rfl
@[simp] theorem ats_setPoison (l : Nat) (b : Bool) : (s.setPoison l b).ats = s.ats := rfl
@[simp] theorem obsd_setPoison (l : Nat) (b : Bool) : (s.setPoison l b).obsd = s.obsd := rfl
@[simp] theorem lock_setPoison (l : Nat) (b : Bool) : (s.setPoison l b).lock = s.lock := rfl
@[simp] theorem det_setPoison (l : Nat) (b : Bool) : (s.setPoison l b).det = s.det := rfl
@[simp] theorem fab_setPoison (l : Nat) (b : Bool) : (s.setPoison l b).fab = s.fab := rfl
@[simp] theorem fld_setPoison (l : Nat) (b : Bool) (fd : Field) (i : Nat) : (s.setPoison l b).fld fd i = s.fld fd i := rfl
@[simp] theorem flag_setPoison (l : Nat) (b : Bool) (fd : Field) (i : Nat) : (s.setPoison l b).flag fd i = s.flag fd i := rfl
@[simp] theorem rd_setPoison (l : Nat) (b : Bool) (i : Nat) : (s.setPoison l b).rd i = s.rd i := rfl

/-! Updates of a unit in terms of the writes above -/

theorem modCore_eq (g : Nat) (f : MCore → MCore) : s.modCore g f = s.setCore g (f (s.core g)) := rfl
theorem modDsp_eq (d : Nat) (f : DCore → DCore) : s.modDsp d f = s.setDsp d (f (s.dsp d)) := rfl
theorem modCluster_eq (k : Nat) (f : Cluster → Cluster) : s.modCluster k f = s.setCluster k (f (s.cluster k)) := rfl
theorem modEdge_eq (k : Nat) (f : Edge → Edge) : s.modEdge k f = s.setEdge k (f (s.edge k)) := rfl
theorem modStore_eq (n : Nat) (f : Store → Store) : s.modStore n f = s.setStore n (f (s.store n)) := rfl
theorem modHc_eq (h : Nat) (f : HCore → HCore) : s.modHc h f = s.setHc h (f (s.hc h)) := rfl
theorem modQueue_eq (q : Nat) (f : QSt → QSt) : s.modQueue q f = s.setQueue q (f (s.queue q)) := rfl
theorem addFence_eq (f : Fence) : s.addFence f = s.modFlt fun h => { h with fences := h.fences ++ [f] } := rfl

/-! A read of a unit after a write of one -/

theorem core_setCore (i j : Nat) (c : MCore) : (s.setCore i c).core j = if i = j then c else s.core j := SMap.get_set ({} : MCore) s.cores i c j
theorem queue_setQueue (i j : Nat) (c : QSt) : (s.setQueue i c).queue j = if i = j then c else s.queue j := SMap.get_set ({} : QSt) s.queues i c j
theorem store_setStore (i j : Nat) (c : Store) : (s.setStore i c).store j = if i = j then c else s.store j := SMap.get_set ({} : Store) s.stores i c j
theorem basin_setBasin (i j : Nat) (c : Basin) : (s.setBasin i c).basin j = if i = j then c else s.basin j := SMap.get_set ({} : Basin) s.basins i c j
theorem hc_setHc (i j : Nat) (c : HCore) : (s.setHc i c).hc j = if i = j then c else s.hc j := SMap.get_set ({} : HCore) s.hcs i c j
theorem trigSt_setTrig (i j : Nat) (c : Trig) : (s.setTrig i c).trigSt j = if i = j then c else s.trigSt j := SMap.get_set ({} : Trig) s.trigs i c j
theorem evCap_setEvCap (i j : Nat) (c : EvCap) : (s.setEvCap i c).evCap j = if i = j then c else s.evCap j := SMap.get_set ({} : EvCap) s.evcap i c j
theorem dsp_setDsp (i j : Nat) (c : DCore) : (s.setDsp i c).dsp j = if i = j then c else s.dsp j := SMap.get_set ({} : DCore) s.dsps i c j
theorem cluster_setCluster (i j : Nat) (c : Cluster) : (s.setCluster i c).cluster j = if i = j then c else s.cluster j := SMap.get_set ({} : Cluster) s.clusters i c j
theorem engine_setEngine (i j : Nat) (c : List EngJob) : (s.setEngine i c).engine j = if i = j then c else s.engine j := SMap.get_set [] s.engines i c j
theorem crcU_setCrcU (i j : Nat) (c : CrcU) : (s.setCrcU i c).crcU j = if i = j then c else s.crcU j := SMap.get_set ({} : CrcU) s.crcs i c j
theorem rdFault_setRdFault (i j : Nat) (c : RdFault) : (s.setRdFault i c).rdFault j = if i = j then c else s.rdFault j := SMap.get_set ({} : RdFault) s.rdflt i c j
theorem edge_setEdge (i j : Nat) (c : Edge) : (s.setEdge i c).edge j = if i = j then c else s.edge j := SMap.get_set ({} : Edge) s.edges i c j

/-! Conditional effects -/

@[simp] theorem when_true (f : State → State) : s.when true f = f s := rfl
@[simp] theorem when_false (f : State → State) : s.when false f = s := rfl

/-! A settled state (State.lean, `settle`): every register, every byte and every unit as the effect left it -/

@[simp] theorem regs_settle (t : State) : (settle s t).regs = t.regs := rfl
@[simp] theorem flips_settle (t : State) : (settle s t).flips = t.flips := rfl
@[simp] theorem resp_settle (t : State) : (settle s t).resp = t.resp := rfl
@[simp] theorem respPoison_settle (t : State) : (settle s t).respPoison = t.respPoison := rfl
@[simp] theorem latches_settle (t : State) : (settle s t).latches = t.latches := rfl
@[simp] theorem held_settle (t : State) : (settle s t).held = t.held := rfl
@[simp] theorem free_settle (t : State) : (settle s t).free = t.free := rfl
@[simp] theorem out_settle (t : State) : (settle s t).out = t.out := rfl
@[simp] theorem tmb_settle (t : State) : (settle s t).tmb = t.tmb := rfl
@[simp] theorem trigs_settle (t : State) : (settle s t).trigs = t.trigs := rfl
@[simp] theorem gey_settle (t : State) : (settle s t).gey = t.gey := rfl
@[simp] theorem evcap_settle (t : State) : (settle s t).evcap = t.evcap := rfl
@[simp] theorem cplTime_settle (t : State) : (settle s t).cplTime = t.cplTime := rfl
@[simp] theorem flt_settle (t : State) : (settle s t).flt = t.flt := rfl
@[simp] theorem pwr_settle (t : State) : (settle s t).pwr = t.pwr := rfl
@[simp] theorem cores_settle (t : State) : (settle s t).cores = t.cores := rfl
@[simp] theorem queues_settle (t : State) : (settle s t).queues = t.queues := rfl
@[simp] theorem rrc_settle (t : State) : (settle s t).rrc = t.rrc := rfl
@[simp] theorem dsps_settle (t : State) : (settle s t).dsps = t.dsps := rfl
@[simp] theorem clusters_settle (t : State) : (settle s t).clusters = t.clusters := rfl
@[simp] theorem engines_settle (t : State) : (settle s t).engines = t.engines := rfl
@[simp] theorem crcs_settle (t : State) : (settle s t).crcs = t.crcs := rfl
@[simp] theorem modems_settle (t : State) : (settle s t).modems = t.modems := rfl
@[simp] theorem eqNow_settle (t : State) : (settle s t).eqNow = t.eqNow := rfl
@[simp] theorem rdflt_settle (t : State) : (settle s t).rdflt = t.rdflt := rfl
@[simp] theorem edges_settle (t : State) : (settle s t).edges = t.edges := rfl
@[simp] theorem stores_settle (t : State) : (settle s t).stores = t.stores := rfl
@[simp] theorem acct_settle (t : State) : (settle s t).acct = t.acct := rfl
@[simp] theorem snap_settle (t : State) : (settle s t).snap = t.snap := rfl
@[simp] theorem basins_settle (t : State) : (settle s t).basins = t.basins := rfl
@[simp] theorem hcs_settle (t : State) : (settle s t).hcs = t.hcs := rfl
@[simp] theorem ats_settle (t : State) : (settle s t).ats = t.ats := rfl
@[simp] theorem obsd_settle (t : State) : (settle s t).obsd = t.obsd := rfl
@[simp] theorem lock_settle (t : State) : (settle s t).lock = t.lock := rfl
@[simp] theorem det_settle (t : State) : (settle s t).det = t.det := rfl
@[simp] theorem fab_settle (t : State) : (settle s t).fab = t.fab := rfl
@[simp] theorem pending_settle (t : State) : (settle s t).pending = s.pending := rfl
@[simp] theorem mmio_settle (t : State) : (settle s t).mmio = [] := rfl
@[simp] theorem fld_settle (t : State) (f : Field) (i : Nat) : (settle s t).fld f i = t.fld f i := rfl
@[simp] theorem flag_settle (t : State) (f : Field) (i : Nat) : (settle s t).flag f i = t.flag f i := rfl
@[simp] theorem rd_settle (t : State) (a : Nat) : (settle s t).rd a = t.rd a := SMap.get_canon 0#8 t.mem a
theorem poison_settle (t : State) (l : Nat) : SMap.get 0 (settle s t).poison l = SMap.get 0 t.poison l := SMap.get_canon 0 t.poison l
theorem mbx_settle (t : State) (a : Nat) : SMap.get 0#8 (settle s t).mbx a = SMap.get 0#8 t.mbx a := SMap.get_canon 0#8 t.mbx a
@[simp] theorem mem_wf_settle (t : State) : Memory.wf (settle s t).mem = true := SMap.wf_canon 0#8 t.mem

end Sys2Proof.Machine
end

