-- ==== Sys2Proof/Laws/Access.lean ====
section
/-! SUPPORT. What the shared ways to memory do where nothing is wrong: no error waits in the words (R155, R156), no register write
waits at the end of a command (R32), a queue's own write reaches its place (R205), and when a flow is due (R281, R283, R284). -/

namespace Sys2Proof.Machine

variable {s : State}

/-- A read of words with no error changes nothing. -/
@[simp] theorem meet_nil (h : s.flips = []) (a n : Nat) (p : Bool) : s.meet a n p = s := by simp [State.meet, h]

theorem meetAll_nil (h : s.flips = []) (l : List (Nat × Nat)) : s.meetAll l = s := by
  unfold State.meetAll
  induction l with
  | nil => rfl
  | cons r l ih => rw [List.foldl_cons, meet_nil h]; exact ih

theorem dropFlips_nil (h : s.flips = []) (a n : Nat) : s.dropFlips a n = s := by
  cases s; simp_all [State.dropFlips]

theorem meetMerge_nil (h : s.flips = []) (a n : Nat) : s.meetMerge a n = s := by
  have hw : ∀ (b : Bool) (a n : Nat), s.when b (fun s => s.meet a n) = s := by
    intro b a n; cases b
    · rfl
    · exact meet_nil h a n false
  simp only [State.meetMerge, hw, dropFlips_nil h]

@[simp] theorem strike_clean : s.strike .clean = s := rfl

@[simp] theorem strikeWrite_clean (a n : Nat) : s.strikeWrite a n .clean = s := rfl

/-- No register write waits: the end of a command leaves the state as it is. -/
theorem applyMmio_nil (h : s.mmio = []) (r : Req) : s.applyMmio r = s := by
  cases s; simp_all [State.applyMmio]

/-- A queue writes where its owner may, and else meets an address fault. -/
theorem queuePut_of {q tag a : Nat} {d : List Byte} (h : s.badAddr (s.queueWho q tag) true a d.length = none) :
    s.queuePut q tag a d = s.putRam (s.queueBasin q) a d := by simp [State.queuePut, h]

theorem queuePut_bad {q tag a p : Nat} {d : List Byte} (h : s.badAddr (s.queueWho q tag) true a d.length = some p) :
    s.queuePut q tag a d = s.addrFault (s.queueWho q tag) p := by simp [State.queuePut, h]

/-- A flow acts on a count once, when its time has passed, in order, and a count that does not follow only until the next one's. -/
theorem flowDue_iff {last : Option Int} {n : Int} {at' : Int → Int} :
    s.flowDue last n at' = true ↔ at' n < s.now ∧ last ≠ some n ∧ (last = some (n - 1) ∨ (s.now : Int) ≤ at' (n + 1)) := by
  simp [State.flowDue, and_assoc]

end Sys2Proof.Machine
end

