-- ==== Sys2Proof/Laws/Exec.lean ====
section
/-! SUPPORT. For each command: where its operands name units of the device, exec answers the state its meaning leaves. -/

namespace Sys2Proof.Machine

variable {s : State}

theorem run_wf {i : Instr} (t : State) (h : i.wf = true) : run i s t = .next (settle s t) := by simp [run, h]

theorem run_ill {i : Instr} (t : State) (h : i.wf = false) : run i s t = .refused .illFormed := by simp [run, h]

theorem exec_registerWrite (r : Req) (a : RegAddr) (wide : Bool) (v : Word) (hw : Instr.wf (.registerWrite r a wide v) = true) :
    exec (.registerWrite r a wide v) s = .next (settle s ((registerWrite r a wide v s).applyMmio r)) := run_wf _ hw
theorem exec_registerReadClear (r : Req) (a : RegAddr) (hw : Instr.wf (.registerReadClear r a) = true) :
    exec (.registerReadClear r a) s = .next (settle s (registerReadClear r a s)) := run_wf _ hw
theorem exec_lowHalfRead (r : Req) (a : RegAddr) (hw : Instr.wf (.lowHalfRead r a) = true) :
    exec (.lowHalfRead r a) s = .next (settle s (lowHalfRead r a s)) := run_wf _ hw
theorem exec_highHalfRead (r : Req) (a : RegAddr) (hw : Instr.wf (.highHalfRead r a) = true) :
    exec (.highHalfRead r a) s = .next (settle s (highHalfRead r a s)) := run_wf _ hw
theorem exec_lowHalfWrite (r : Req) (a : RegAddr) (v : BitVec 32) (hw : Instr.wf (.lowHalfWrite r a v) = true) :
    exec (.lowHalfWrite r a v) s = .next (settle s ((lowHalfWrite r a v s).applyMmio r)) := run_wf _ hw
theorem exec_highHalfWrite (r : Req) (a : RegAddr) (v : BitVec 32) (hw : Instr.wf (.highHalfWrite r a v) = true) :
    exec (.highHalfWrite r a v) s = .next (settle s ((highHalfWrite r a v s).applyMmio r)) := run_wf _ hw
theorem exec_bar2Read (port ofs n : Nat) (e : Ecc) (hw : Instr.wf (.bar2Read port ofs n e) = true) :
    exec (.bar2Read port ofs n e) s = .next (settle s (bar2Read port ofs n e s)) := run_wf _ hw
theorem exec_bar2Write (port ofs : Nat) (d : List Byte) (pois : Bool) (e : Ecc) (hw : Instr.wf (.bar2Write port ofs d pois e) = true) :
    exec (.bar2Write port ofs d pois e) s = .next (settle s (bar2Write port ofs d pois e s)) := run_wf _ hw
theorem exec_bar2BaseWrite (port : Nat) (v : Word) (hw : Instr.wf (.bar2BaseWrite port v) = true) :
    exec (.bar2BaseWrite port v) s = .next (settle s (bar2BaseWrite port v s)) := run_wf _ hw
theorem exec_routerFence (d : Nat) (past : List (Nat × Nat)) (hw : Instr.wf (.routerFence d past) = true) :
    exec (.routerFence d past) s = .next (settle s ((routerFence d past s).applyMmio .caldera)) := run_wf _ hw
theorem exec_routeChange (hw : Instr.wf .routeChange = true) :
    exec .routeChange s = .next (settle s (routeChange s)) := run_wf _ hw
theorem exec_regionFence (d : Nat) (hw : Instr.wf (.regionFence d) = true) :
    exec (.regionFence d) s = .next (settle s ((regionFence d s).applyMmio .caldera)) := run_wf _ hw
theorem exec_blockFence (d k : Nat) (hw : Instr.wf (.blockFence d k) = true) :
    exec (.blockFence d k) s = .next (settle s ((blockFence d k s).applyMmio .caldera)) := run_wf _ hw
theorem exec_fenceRelease (u : FUnit) (lvl : Nat) (hw : Instr.wf (.fenceRelease u lvl) = true) :
    exec (.fenceRelease u lvl) s = .next (settle s (fenceRelease u lvl s)) := run_wf _ hw
theorem exec_calderaMismatch (hw : Instr.wf .calderaMismatch = true) :
    exec .calderaMismatch s = .next (settle s (calderaMismatch s)) := run_wf _ hw
theorem exec_calderaResume (hw : Instr.wf .calderaResume = true) :
    exec .calderaResume s = .next (settle s (calderaResume s)) := run_wf _ hw
theorem exec_diePowerOff (d : Nat) (hw : Instr.wf (.diePowerOff d) = true) :
    exec (.diePowerOff d) s = .next (settle s ((diePowerOff d s).applyMmio .caldera)) := run_wf _ hw
theorem exec_diePowerOn (d : Nat) (hw : Instr.wf (.diePowerOn d) = true) :
    exec (.diePowerOn d) s = .next (settle s (diePowerOn d s)) := run_wf _ hw
theorem exec_tmbIncrWrite (v : Word) (hw : Instr.wf (.tmbIncrWrite v) = true) :
    exec (.tmbIncrWrite v) s = .next (settle s (tmbIncrWrite v s)) := run_wf _ hw
theorem exec_tmbStepWrite (v : Word) (hw : Instr.wf (.tmbStepWrite v) = true) :
    exec (.tmbStepWrite v) s = .next (settle s (tmbStepWrite v s)) := run_wf _ hw
theorem exec_tmbNowRead (r : Req) (hw : Instr.wf (.tmbNowRead r) = true) :
    exec (.tmbNowRead r) s = .next (settle s (tmbNowRead r s)) := run_wf _ hw
theorem exec_tmbNowFracRead (r : Req) (hw : Instr.wf (.tmbNowFracRead r) = true) :
    exec (.tmbNowFracRead r) s = .next (settle s (tmbNowFracRead r s)) := run_wf _ hw
theorem exec_ppsEdge (e : PpsEdge) (hw : Instr.wf (.ppsEdge e) = true) :
    exec (.ppsEdge e) s = .next (settle s (ppsEdge e s)) := run_wf _ hw
theorem exec_todMessage (m : List Byte) (hw : Instr.wf (.todMessage m) = true) :
    exec (.todMessage m) s = .next (settle s (todMessage m s)) := run_wf _ hw
theorem exec_ppsMiss (hw : Instr.wf .ppsMiss = true) :
    exec .ppsMiss s = .next (settle s (ppsMiss s)) := run_wf _ hw
theorem exec_tick (hw : Instr.wf .tick = true) :
    exec .tick s = .next (settle s (tick s)) := run_wf _ hw
theorem exec_tickGeneratorStart (v : BitVec 32) (hw : Instr.wf (.tickGeneratorStart v) = true) :
    exec (.tickGeneratorStart v) s = .next (settle s (tickGeneratorStart v s)) := run_wf _ hw
theorem exec_tickGeneratorStopRequest (v : BitVec 32) (hw : Instr.wf (.tickGeneratorStopRequest v) = true) :
    exec (.tickGeneratorStopRequest v) s = .next (settle s (tickGeneratorStopRequest v s)) := run_wf _ hw
theorem exec_tickGeneratorStop (hw : Instr.wf .tickGeneratorStop = true) :
    exec .tickGeneratorStop s = .next (settle s (tickGeneratorStop s)) := run_wf _ hw
theorem exec_periodChangeRequest (v : BitVec 32) (hw : Instr.wf (.periodChangeRequest v) = true) :
    exec (.periodChangeRequest v) s = .next (settle s (periodChangeRequest v s)) := run_wf _ hw
theorem exec_periodChange (hw : Instr.wf .periodChange = true) :
    exec .periodChange s = .next (settle s (periodChange s)) := run_wf _ hw
theorem exec_frameOfsWrite (v : BitVec 32) (hw : Instr.wf (.frameOfsWrite v) = true) :
    exec (.frameOfsWrite v) s = .next (settle s (frameOfsWrite v s)) := run_wf _ hw
theorem exec_fumaroleWrite (v : BitVec 32) (hw : Instr.wf (.fumaroleWrite v) = true) :
    exec (.fumaroleWrite v) s = .next (settle s (fumaroleWrite v s)) := run_wf _ hw
theorem exec_fumaroleApply (hw : Instr.wf .fumaroleApply = true) :
    exec .fumaroleApply s = .next (settle s (fumaroleApply s)) := run_wf _ hw
theorem exec_trigArm (n : Nat) (v : BitVec 32) (hw : Instr.wf (.trigArm n v) = true) :
    exec (.trigArm n v) s = .next (settle s (trigArm n v s)) := run_wf _ hw
theorem exec_trigDisarm (n : Nat) (v : BitVec 32) (hw : Instr.wf (.trigDisarm n v) = true) :
    exec (.trigDisarm n v) s = .next (settle s (trigDisarm n v s)) := run_wf _ hw
theorem exec_trigEdge (n : Nat) (hw : Instr.wf (.trigEdge n) = true) :
    exec (.trigEdge n) s = .next (settle s (trigEdge n s)) := run_wf _ hw
theorem exec_trigPulseEnd (n : Nat) (hw : Instr.wf (.trigPulseEnd n) = true) :
    exec (.trigPulseEnd n) s = .next (settle s (trigPulseEnd n s)) := run_wf _ hw
theorem exec_timebaseTakeover (cause : Nat) (hw : Instr.wf (.timebaseTakeover cause) = true) :
    exec (.timebaseTakeover cause) s = .next (settle s (timebaseTakeover cause s)) := run_wf _ hw
theorem exec_refLoss (hw : Instr.wf .refLoss = true) :
    exec .refLoss s = .next (settle s (refLoss s)) := run_wf _ hw
theorem exec_refReturn (hw : Instr.wf .refReturn = true) :
    exec .refReturn s = .next (settle s (refReturn s)) := run_wf _ hw
theorem exec_passCommit (g a : Nat) (faults : List ColFault) (hw : Instr.wf (.passCommit g a faults) = true) :
    exec (.passCommit g a faults) s = .next (settle s (passCommit g a faults s)) := run_wf _ hw
theorem exec_weightLoadEnd (g : Nat) (hw : Instr.wf (.weightLoadEnd g) = true) :
    exec (.weightLoadEnd g) s = .next (settle s (weightLoadEnd g s)) := run_wf _ hw
theorem exec_columnMapOut (g a : Nat) (hw : Instr.wf (.columnMapOut g a) = true) :
    exec (.columnMapOut g a) s = .next (settle s (columnMapOut g a s)) := run_wf _ hw
theorem exec_missCountClear (g a col : Nat) (hw : Instr.wf (.missCountClear g a col) = true) :
    exec (.missCountClear g a col) s = .next (settle s (missCountClear g a col s)) := run_wf _ hw
theorem exec_arrInjectArm (g a : Nat) (v : BitVec 32) (hw : Instr.wf (.arrInjectArm g a v) = true) :
    exec (.arrInjectArm g a v) s = .next (settle s (s.wr .MXC_ARR_INJECT (4 * g + a) (arrInjectArm g a v))) := run_wf _ hw
theorem exec_scrubEnd (g : Nat) (hw : Instr.wf (.scrubEnd g) = true) :
    exec (.scrubEnd g) s = .next (settle s (scrubEnd g s)) := run_wf _ hw
theorem exec_nop (g c : Nat) (hw : Instr.wf (.nop g c) = true) :
    exec (.nop g c) s = .next (settle s (nop g c s)) := run_wf _ hw
theorem exec_j (g c : Nat) (hw : Instr.wf (.j g c) = true) :
    exec (.j g c) s = .next (settle s (j g c s)) := run_wf _ hw
theorem exec_jal (g c : Nat) (hw : Instr.wf (.jal g c) = true) :
    exec (.jal g c) s = .next (settle s (jal g c s)) := run_wf _ hw
theorem exec_jr (g c : Nat) (hw : Instr.wf (.jr g c) = true) :
    exec (.jr g c) s = .next (settle s (jr g c s)) := run_wf _ hw
theorem exec_beq (g c : Nat) (hw : Instr.wf (.beq g c) = true) :
    exec (.beq g c) s = .next (settle s (beq g c s)) := run_wf _ hw
theorem exec_bne (g c : Nat) (hw : Instr.wf (.bne g c) = true) :
    exec (.bne g c) s = .next (settle s (bne g c s)) := run_wf _ hw
theorem exec_blt (g c : Nat) (hw : Instr.wf (.blt g c) = true) :
    exec (.blt g c) s = .next (settle s (blt g c s)) := run_wf _ hw
theorem exec_bge (g c : Nat) (hw : Instr.wf (.bge g c) = true) :
    exec (.bge g c) s = .next (settle s (bge g c s)) := run_wf _ hw
theorem exec_dbnz (g c : Nat) (hw : Instr.wf (.dbnz g c) = true) :
    exec (.dbnz g c) s = .next (settle s (dbnz g c s)) := run_wf _ hw
theorem exec_scalarOp (g c : Nat) (hw : Instr.wf (.scalarOp g c) = true) :
    exec (.scalarOp g c) s = .next (settle s (scalarOp g c s)) := run_wf _ hw
theorem exec_mul (g c : Nat) (hw : Instr.wf (.mul g c) = true) :
    exec (.mul g c) s = .next (settle s (mul g c s)) := run_wf _ hw
theorem exec_li (g c : Nat) (hw : Instr.wf (.li g c) = true) :
    exec (.li g c) s = .next (settle s (li g c s)) := run_wf _ hw
theorem exec_ld (g c : Nat) (hw : Instr.wf (.ld g c) = true) :
    exec (.ld g c) s = .next (settle s (ld g c s)) := run_wf _ hw
theorem exec_st (g c : Nat) (hw : Instr.wf (.st g c) = true) :
    exec (.st g c) s = .next (settle s (st g c s)) := run_wf _ hw
theorem exec_rdsys (g c : Nat) (hw : Instr.wf (.rdsys g c) = true) :
    exec (.rdsys g c) s = .next (settle s (rdsys g c s)) := run_wf _ hw
theorem exec_sdld (g c : Nat) (hw : Instr.wf (.sdld g c) = true) :
    exec (.sdld g c) s = .next (settle s (sdld g c s)) := run_wf _ hw
theorem exec_sdset (g c : Nat) (hw : Instr.wf (.sdset g c) = true) :
    exec (.sdset g c) s = .next (settle s (sdset g c s)) := run_wf _ hw
theorem exec_scopy (g c : Nat) (hw : Instr.wf (.scopy g c) = true) :
    exec (.scopy g c) s = .next (settle s (scopy g c s)) := run_wf _ hw
theorem exec_swait (g c : Nat) (hw : Instr.wf (.swait g c) = true) :
    exec (.swait g c) s = .next (settle s (swait g c s)) := run_wf _ hw
theorem exec_loadReturn (g c : Nat) (ext : List Byte) (pois : Bool) (hw : Instr.wf (.loadReturn g c ext pois) = true) :
    exec (.loadReturn g c ext pois) s = .next (settle s (loadReturn g c ext pois s)) := run_wf _ hw
theorem exec_streamEnd (g c sd : Nat) (hw : Instr.wf (.streamEnd g c sd) = true) :
    exec (.streamEnd g c sd) s = .next (settle s (streamEnd g c sd s)) := run_wf _ hw
theorem exec_wload (g c : Nat) (hw : Instr.wf (.wload g c) = true) :
    exec (.wload g c) s = .next (settle s (wload g c s)) := run_wf _ hw
theorem exec_wswap (g c : Nat) (hw : Instr.wf (.wswap g c) = true) :
    exec (.wswap g c) s = .next (settle s (wswap g c s)) := run_wf _ hw
theorem exec_astream (g c : Nat) (hw : Instr.wf (.astream g c) = true) :
    exec (.astream g c) s = .next (settle s (astream g c s)) := run_wf _ hw
theorem exec_accflush (g c : Nat) (hw : Instr.wf (.accflush g c) = true) :
    exec (.accflush g c) s = .next (settle s (accflush g c s)) := run_wf _ hw
theorem exec_accinit (g c : Nat) (hw : Instr.wf (.accinit g c) = true) :
    exec (.accinit g c) s = .next (settle s (accinit g c s)) := run_wf _ hw
theorem exec_vop (g c : Nat) (miss : Bool) (hw : Instr.wf (.vop g c miss) = true) :
    exec (.vop g c miss) s = .next (settle s (vop g c miss s)) := run_wf _ hw
theorem exec_vld (g c : Nat) (hw : Instr.wf (.vld g c) = true) :
    exec (.vld g c) s = .next (settle s (vld g c s)) := run_wf _ hw
theorem exec_vst (g c : Nat) (hw : Instr.wf (.vst g c) = true) :
    exec (.vst g c) s = .next (settle s (vst g c s)) := run_wf _ hw
theorem exec_vred (g c : Nat) (miss : Bool) (hw : Instr.wf (.vred g c miss) = true) :
    exec (.vred g c miss) s = .next (settle s (vred g c miss s)) := run_wf _ hw
theorem exec_vimg (g c : Nat) (hw : Instr.wf (.vimg g c) = true) :
    exec (.vimg g c) s = .next (settle s (vimg g c s)) := run_wf _ hw
theorem exec_vtopk (g c : Nat) (miss : Bool) (hw : Instr.wf (.vtopk g c miss) = true) :
    exec (.vtopk g c miss) s = .next (settle s (vtopk g c miss s)) := run_wf _ hw
theorem exec_vdigest (g c : Nat) (hw : Instr.wf (.vdigest g c) = true) :
    exec (.vdigest g c) s = .next (settle s (vdigest g c s)) := run_wf _ hw
theorem exec_signal (g c : Nat) (hw : Instr.wf (.signal g c) = true) :
    exec (.signal g c) s = .next (settle s (signal g c s)) := run_wf _ hw
theorem exec_wait (g c : Nat) (hw : Instr.wf (.wait g c) = true) :
    exec (.wait g c) s = .next (settle s (wait g c s)) := run_wf _ hw
theorem exec_semaphoreGrant (g c : Nat) (hw : Instr.wf (.semaphoreGrant g c) = true) :
    exec (.semaphoreGrant g c) s = .next (settle s (semaphoreGrant g c s)) := run_wf _ hw
theorem exec_tickwait (g c : Nat) (hw : Instr.wf (.tickwait g c) = true) :
    exec (.tickwait g c) s = .next (settle s (tickwait g c s)) := run_wf _ hw
theorem exec_tickwaitRelease (g c : Nat) (hw : Instr.wf (.tickwaitRelease g c) = true) :
    exec (.tickwaitRelease g c) s = .next (settle s (tickwaitRelease g c s)) := run_wf _ hw
theorem exec_fbar (g c : Nat) (hw : Instr.wf (.fbar g c) = true) :
    exec (.fbar g c) s = .next (settle s (fbar g c s)) := run_wf _ hw
theorem exec_commit (g c : Nat) (hw : Instr.wf (.commit g c) = true) :
    exec (.commit g c) s = .next (settle s (commit g c s)) := run_wf _ hw
theorem exec_cabort (g c : Nat) (hw : Instr.wf (.cabort g c) = true) :
    exec (.cabort g c) s = .next (settle s (cabort g c s)) := run_wf _ hw
theorem exec_fload (g c : Nat) (hw : Instr.wf (.fload g c) = true) :
    exec (.fload g c) s = .next (settle s ((fload g c s).applyMmio .caldera)) := run_wf _ hw
theorem exec_fstore (g c : Nat) (hw : Instr.wf (.fstore g c) = true) :
    exec (.fstore g c) s = .next (settle s (fstore g c s)) := run_wf _ hw
theorem exec_fatom (g c : Nat) (hw : Instr.wf (.fatom g c) = true) :
    exec (.fatom g c) s = .next (settle s (fatom g c s)) := run_wf _ hw
theorem exec_finv (g c : Nat) (hw : Instr.wf (.finv g c) = true) :
    exec (.finv g c) s = .next (settle s (finv g c s)) := run_wf _ hw
theorem exec_fsend (g c : Nat) (hw : Instr.wf (.fsend g c) = true) :
    exec (.fsend g c) s = .next (settle s (fsend g c s)) := run_wf _ hw
theorem exec_frecv (g c : Nat) (hw : Instr.wf (.frecv g c) = true) :
    exec (.frecv g c) s = .next (settle s (frecv g c s)) := run_wf _ hw
theorem exec_frecvMessageReserve (g c : Nat) (hw : Instr.wf (.frecvMessageReserve g c) = true) :
    exec (.frecvMessageReserve g c) s = .next (settle s (frecvMessageReserve g c s)) := run_wf _ hw
theorem exec_dispatch (g q : Nat) (hw : Instr.wf (.dispatch g q) = true) :
    exec (.dispatch g q) s = .next (settle s (dispatch g q s)) := run_wf _ hw
theorem exec_commitPoint (g c : Nat) (hw : Instr.wf (.commitPoint g c) = true) :
    exec (.commitPoint g c) s = .next (settle s (commitPoint g c s)) := run_wf _ hw
theorem exec_drainEnd (g : Nat) (hw : Instr.wf (.drainEnd g) = true) :
    exec (.drainEnd g) s = .next (settle s ((drainEnd g s).applyMmio .caldera)) := run_wf _ hw
theorem exec_completionRecordWrite (g q : Nat) (hw : Instr.wf (.completionRecordWrite g q) = true) :
    exec (.completionRecordWrite g q) s = .next (settle s (completionRecordWrite g q s)) := run_wf _ hw
theorem exec_budgetExceeded (g c : Nat) (hw : Instr.wf (.budgetExceeded g c) = true) :
    exec (.budgetExceeded g c) s = .next (settle s (budgetExceeded g c s)) := run_wf _ hw
theorem exec_radioRsvWrite (g : Nat) (v : BitVec 32) (hw : Instr.wf (.radioRsvWrite g v) = true) :
    exec (.radioRsvWrite g v) s = .next (settle s (s.wr .SNT_CTRL g (radioRsvWrite g v))) := run_wf _ hw
theorem exec_radioRsvApply (g : Nat) (hw : Instr.wf (.radioRsvApply g) = true) :
    exec (.radioRsvApply g) s = .next (settle s (radioRsvApply g s)) := run_wf _ hw
theorem exec_semSignalWrite (g : Nat) (v : BitVec 32) (hw : Instr.wf (.semSignalWrite g v) = true) :
    exec (.semSignalWrite g v) s = .next (settle s (s.wr .MXC_SEM_SIGNAL g (semSignalWrite g v))) := run_wf _ hw
theorem exec_semOwnerWrite (g n : Nat) (v : BitVec 32) (hw : Instr.wf (.semOwnerWrite g n v) = true) :
    exec (.semOwnerWrite g n v) s = .next (settle s (s.wr .MXC_SEMn (4096 * g + n) (semOwnerWrite g n v))) := run_wf _ hw
theorem exec_memoryRead (m : Master) (a n : Nat) (e : Ecc) (hw : Instr.wf (.memoryRead m a n e) = true) :
    exec (.memoryRead m a n e) s = .next (settle s (s.readAs m a n e)) := run_wf _ hw
theorem exec_memoryWrite (m : Master) (a : Nat) (d : List Byte) (pois : Bool) (e : Ecc) (hw : Instr.wf (.memoryWrite m a d pois e) = true) :
    exec (.memoryWrite m a d pois e) s = .next (settle s (s.writeAs m a d pois e)) := run_wf _ hw
theorem exec_refresh (n ch bg : Nat) (hw : Instr.wf (.refresh n ch bg) = true) :
    exec (.refresh n ch bg) s = .next (settle s (refresh n ch bg s)) := run_wf _ hw
theorem exec_patrolRead (loc : EccLoc) (e : Ecc) (overtaken last : Bool) (hw : Instr.wf (.patrolRead loc e overtaken last) = true) :
    exec (.patrolRead loc e overtaken last) s = .next (settle s (patrolRead loc e overtaken last s)) := run_wf _ hw
theorem exec_bankGroupSparing (n ch bg : Nat) (hw : Instr.wf (.bankGroupSparing n ch bg) = true) :
    exec (.bankGroupSparing n ch bg) s = .next (settle s (bankGroupSparing n ch bg s)) := run_wf _ hw
theorem exec_sparingCopyEnd (n : Nat) (hw : Instr.wf (.sparingCopyEnd n) = true) :
    exec (.sparingCopyEnd n) s = .next (settle s (sparingCopyEnd n s)) := run_wf _ hw
theorem exec_pageAssign (n : Nat) (v : Word) (hw : Instr.wf (.pageAssign n v) = true) :
    exec (.pageAssign n v) s = .next (settle s (s.wr .STR_PAGE_CMD n (pageAssign n v))) := run_wf _ hw
theorem exec_pageRelease (n : Nat) (v : Word) (hw : Instr.wf (.pageRelease n v) = true) :
    exec (.pageRelease n v) s = .next (settle s (s.wr .STR_PAGE_CMD n (pageRelease n v))) := run_wf _ hw
theorem exec_pageZeroingEnd (n : Nat) (hw : Instr.wf (.pageZeroingEnd n) = true) :
    exec (.pageZeroingEnd n) s = .next (settle s (pageZeroingEnd n s)) := run_wf _ hw
theorem exec_deferredPageRelease (n p : Nat) (hw : Instr.wf (.deferredPageRelease n p) = true) :
    exec (.deferredPageRelease n p) s = .next (settle s (deferredPageRelease n p s)) := run_wf _ hw
theorem exec_sramGranuleAssign (n gr : Nat) (v : BitVec 32) (hw : Instr.wf (.sramGranuleAssign n gr v) = true) :
    exec (.sramGranuleAssign n gr v) s = .next (settle s (s.wr .STR_SRAM_OWNERg (128 * n + gr) (sramGranuleAssign n gr v))) := run_wf _ hw
theorem exec_sramGranuleRelease (n gr : Nat) (v : BitVec 32) (hw : Instr.wf (.sramGranuleRelease n gr v) = true) :
    exec (.sramGranuleRelease n gr v) s = .next (settle s (s.wr .STR_SRAM_OWNERg (128 * n + gr) (sramGranuleRelease n gr v))) := run_wf _ hw
theorem exec_sramZeroingEnd (n gr : Nat) (hw : Instr.wf (.sramZeroingEnd n gr) = true) :
    exec (.sramZeroingEnd n gr) s = .next (settle s (sramZeroingEnd n gr s)) := run_wf _ hw
theorem exec_keyGenerate (n : Nat) (v : BitVec 32) (hw : Instr.wf (.keyGenerate n v) = true) :
    exec (.keyGenerate n v) s = .next (settle s (s.wr .STR_KEY_CMD n (keyGenerate n v))) := run_wf _ hw
theorem exec_keyLoad (n : Nat) (v : BitVec 32) (hw : Instr.wf (.keyLoad n v) = true) :
    exec (.keyLoad n v) s = .next (settle s (s.wr .STR_KEY_CMD n (keyLoad n v))) := run_wf _ hw
theorem exec_keyDestroy (n : Nat) (v : BitVec 32) (hw : Instr.wf (.keyDestroy n v) = true) :
    exec (.keyDestroy n v) s = .next (settle s (s.wr .STR_KEY_CMD n (keyDestroy n v))) := run_wf _ hw
theorem exec_keyOpEnd (n : Nat) (hw : Instr.wf (.keyOpEnd n) = true) :
    exec (.keyOpEnd n) s = .next (settle s (keyOpEnd n s)) := run_wf _ hw
theorem exec_tickProgramRead (g : Nat) (hw : Instr.wf (.tickProgramRead g) = true) :
    exec (.tickProgramRead g) s = .next (settle s (tickProgramRead g s)) := run_wf _ hw
theorem exec_windowStart (g : Nat) (hw : Instr.wf (.windowStart g) = true) :
    exec (.windowStart g) s = .next (settle s (windowStart g s)) := run_wf _ hw
theorem exec_handBack (g : Nat) (hw : Instr.wf (.handBack g) = true) :
    exec (.handBack g) s = .next (settle s (handBack g s)) := run_wf _ hw
theorem exec_doorbellWrite (q : Nat) (cq : Bool) (v : BitVec 32) (hw : Instr.wf (.doorbellWrite q cq v) = true) :
    exec (.doorbellWrite q cq v) s = .next (settle s (doorbellWrite q cq v s)) := run_wf _ hw
theorem exec_queueEnable (q : Nat) (v : BitVec 32) (hw : Instr.wf (.queueEnable q v) = true) :
    exec (.queueEnable q v) s = .next (settle s (s.wr .MXC_Qq_CTRL q (queueEnable q v))) := run_wf _ hw
theorem exec_queueDisable (q : Nat) (v : BitVec 32) (hw : Instr.wf (.queueDisable q v) = true) :
    exec (.queueDisable q v) s = .next (settle s (s.wr .MXC_Qq_CTRL q (queueDisable q v))) := run_wf _ hw
theorem exec_queueBasinWrite (q : Nat) (v : BitVec 32) (hw : Instr.wf (.queueBasinWrite q v) = true) :
    exec (.queueBasinWrite q v) s = .next (settle s (s.wr .MXC_Qq_CTRL q (queueBasinWrite q v))) := run_wf _ hw
theorem exec_acctSnapshot (v : BitVec 32) (hw : Instr.wf (.acctSnapshot v) = true) :
    exec (.acctSnapshot v) s = .next (settle s (acctSnapshot v s)) := run_wf _ hw
theorem exec_storeBsAccrual (hw : Instr.wf .storeBsAccrual = true) :
    exec .storeBsAccrual s = .next (settle s (storeBsAccrual s)) := run_wf _ hw
theorem exec_basinCreate (v : BitVec 32) (hw : Instr.wf (.basinCreate v) = true) :
    exec (.basinCreate v) s = .next (settle s (basinCreate v s)) := run_wf _ hw
theorem exec_basinOpen (v : BitVec 32) (hw : Instr.wf (.basinOpen v) = true) :
    exec (.basinOpen v) s = .next (settle s (basinOpen v s)) := run_wf _ hw
theorem exec_basinReset (v : BitVec 32) (hw : Instr.wf (.basinReset v) = true) :
    exec (.basinReset v) s = .next (settle s (basinReset v s)) := run_wf _ hw
theorem exec_basinResetEnd (b : Nat) (hw : Instr.wf (.basinResetEnd b) = true) :
    exec (.basinResetEnd b) s = .next (settle s (basinResetEnd b s)) := run_wf _ hw
theorem exec_basinRemove (v : BitVec 32) (hw : Instr.wf (.basinRemove v) = true) :
    exec (.basinRemove v) s = .next (settle s (basinRemove v s)) := run_wf _ hw
theorem exec_basinRemovalEnd (b : Nat) (hw : Instr.wf (.basinRemovalEnd b) = true) :
    exec (.basinRemovalEnd b) s = .next (settle s (basinRemovalEnd b s)) := run_wf _ hw
theorem exec_vfDisable (port : Nat) (vfe : Bool) (n : Nat) (hw : Instr.wf (.vfDisable port vfe n) = true) :
    exec (.vfDisable port vfe n) s = .next (settle s (vfDisable port vfe n s)) := run_wf _ hw
theorem exec_vfFlr (port b : Nat) (hw : Instr.wf (.vfFlr port b) = true) :
    exec (.vfFlr port b) s = .next (settle s (vfFlr port b s)) := run_wf _ hw
theorem exec_mailboxWrite (r : Req) (b o : Nat) (d : List Byte) (hw : Instr.wf (.mailboxWrite r b o d) = true) :
    exec (.mailboxWrite r b o d) s = .next (settle s (mailboxWrite r b o d s)) := run_wf _ hw
theorem exec_upDoorbell (r : Req) (b slot : Nat) (ctl : Word) (hw : Instr.wf (.upDoorbell r b slot ctl) = true) :
    exec (.upDoorbell r b slot ctl) s = .next (settle s (upDoorbell r b slot ctl s)) := run_wf _ hw
theorem exec_downDoorbell (r : Req) (b slot : Nat) (ctl : Word) (fault : Bool) (hw : Instr.wf (.downDoorbell r b slot ctl fault) = true) :
    exec (.downDoorbell r b slot ctl fault) s = .next (settle s (downDoorbell r b slot ctl fault s)) := run_wf _ hw
theorem exec_ringPoll (b : Nat) (line : List Byte) (entries : List (List Byte)) (fault : Bool) (hw : Instr.wf (.ringPoll b line entries fault) = true) :
    exec (.ringPoll b line entries fault) s = .next (settle s (ringPoll b line entries fault s)) := run_wf _ hw
theorem exec_modeWrite (b : Nat) (v : BitVec 32) (hw : Instr.wf (.modeWrite b v) = true) :
    exec (.modeWrite b v) s = .next (settle s (modeWrite b v s)) := run_wf _ hw
theorem exec_modeChange (b : Nat) (hw : Instr.wf (.modeChange b) = true) :
    exec (.modeChange b) s = .next (settle s (modeChange b s)) := run_wf _ hw
theorem exec_hostCoreOwnerWrite (h : Nat) (v : BitVec 32) (hw : Instr.wf (.hostCoreOwnerWrite h v) = true) :
    exec (.hostCoreOwnerWrite h v) s = .next (settle s (hostCoreOwnerWrite h v s)) := run_wf _ hw
theorem exec_hostCoreClearEnd (h : Nat) (hw : Instr.wf (.hostCoreClearEnd h) = true) :
    exec (.hostCoreClearEnd h) s = .next (settle s (hostCoreClearEnd h s)) := run_wf _ hw
theorem exec_dspSpareMap (n pair : Nat) (hw : Instr.wf (.dspSpareMap n pair) = true) :
    exec (.dspSpareMap n pair) s = .next (settle s (dspSpareMap n pair s)) := run_wf _ hw
theorem exec_dspNop (d : Nat) (hw : Instr.wf (.dspNop d) = true) :
    exec (.dspNop d) s = .next (settle s (dspNop d s)) := run_wf _ hw
theorem exec_dspJ (d : Nat) (hw : Instr.wf (.dspJ d) = true) :
    exec (.dspJ d) s = .next (settle s (dspJ d s)) := run_wf _ hw
theorem exec_jsr (d : Nat) (hw : Instr.wf (.jsr d) = true) :
    exec (.jsr d) s = .next (settle s (jsr d s)) := run_wf _ hw
theorem exec_rts (d : Nat) (hw : Instr.wf (.rts d) = true) :
    exec (.rts d) s = .next (settle s (rts d s)) := run_wf _ hw
theorem exec_bCc (d : Nat) (hw : Instr.wf (.bCc d) = true) :
    exec (.bCc d) s = .next (settle s (bCc d s)) := run_wf _ hw
theorem exec_loop (d : Nat) (hw : Instr.wf (.loop d) = true) :
    exec (.loop d) s = .next (settle s (loop d s)) := run_wf _ hw
theorem exec_dspEnd (d : Nat) (hw : Instr.wf (.dspEnd d) = true) :
    exec (.dspEnd d) s = .next (settle s (dspEnd d s)) := run_wf _ hw
theorem exec_dspTickwait (d : Nat) (hw : Instr.wf (.dspTickwait d) = true) :
    exec (.dspTickwait d) s = .next (settle s (dspTickwait d s)) := run_wf _ hw
theorem exec_dspTickwaitRelease (d : Nat) (hw : Instr.wf (.dspTickwaitRelease d) = true) :
    exec (.dspTickwaitRelease d) s = .next (settle s (dspTickwaitRelease d s)) := run_wf _ hw
theorem exec_cmac (d : Nat) (miss : Bool) (hw : Instr.wf (.cmac d miss) = true) :
    exec (.cmac d miss) s = .next (settle s (cmac d miss s)) := run_wf _ hw
theorem exec_cmpy (d : Nat) (miss : Bool) (hw : Instr.wf (.cmpy d miss) = true) :
    exec (.cmpy d miss) s = .next (settle s (cmpy d miss s)) := run_wf _ hw
theorem exec_rmac (d : Nat) (miss : Bool) (hw : Instr.wf (.rmac d miss) = true) :
    exec (.rmac d miss) s = .next (settle s (rmac d miss s)) := run_wf _ hw
theorem exec_cpow (d : Nat) (miss : Bool) (hw : Instr.wf (.cpow d miss) = true) :
    exec (.cpow d miss) s = .next (settle s (cpow d miss s)) := run_wf _ hw
theorem exec_xop (d : Nat) (miss : Bool) (hw : Instr.wf (.xop d miss) = true) :
    exec (.xop d miss) s = .next (settle s (xop d miss s)) := run_wf _ hw
theorem exec_aop (d : Nat) (miss : Bool) (hw : Instr.wf (.aop d miss) = true) :
    exec (.aop d miss) s = .next (settle s (aop d miss s)) := run_wf _ hw
theorem exec_cmp (d : Nat) (miss : Bool) (hw : Instr.wf (.cmp d miss) = true) :
    exec (.cmp d miss) s = .next (settle s (cmp d miss s)) := run_wf _ hw
theorem exec_mvr (d : Nat) (miss : Bool) (hw : Instr.wf (.mvr d miss) = true) :
    exec (.mvr d miss) s = .next (settle s (mvr d miss s)) := run_wf _ hw
theorem exec_mva (d : Nat) (miss : Bool) (hw : Instr.wf (.mva d miss) = true) :
    exec (.mva d miss) s = .next (settle s (mva d miss s)) := run_wf _ hw
theorem exec_nrm (d : Nat) (miss : Bool) (hw : Instr.wf (.nrm d miss) = true) :
    exec (.nrm d miss) s = .next (settle s (nrm d miss s)) := run_wf _ hw
theorem exec_rcp (d : Nat) (miss : Bool) (hw : Instr.wf (.rcp d miss) = true) :
    exec (.rcp d miss) s = .next (settle s (rcp d miss s)) := run_wf _ hw
theorem exec_bcast (d : Nat) (miss : Bool) (hw : Instr.wf (.bcast d miss) = true) :
    exec (.bcast d miss) s = .next (settle s (bcast d miss s)) := run_wf _ hw
theorem exec_dspLi (d : Nat) (hw : Instr.wf (.dspLi d) = true) :
    exec (.dspLi d) s = .next (settle s (dspLi d s)) := run_wf _ hw
theorem exec_addi (d : Nat) (hw : Instr.wf (.addi d) = true) :
    exec (.addi d) s = .next (settle s (addi d s)) := run_wf _ hw
theorem exec_mvix (d : Nat) (hw : Instr.wf (.mvix d) = true) :
    exec (.mvix d) s = .next (settle s (mvix d s)) := run_wf _ hw
theorem exec_dma (d : Nat) (hw : Instr.wf (.dma d) = true) :
    exec (.dma d) s = .next (settle s (dma d s)) := run_wf _ hw
theorem exec_dmaEnd (d ch : Nat) (hw : Instr.wf (.dmaEnd d ch) = true) :
    exec (.dmaEnd d ch) s = .next (settle s (dmaEnd d ch s)) := run_wf _ hw
theorem exec_dwait (d : Nat) (hw : Instr.wf (.dwait d) = true) :
    exec (.dwait d) s = .next (settle s (dwait d s)) := run_wf _ hw
theorem exec_eng (d : Nat) (hw : Instr.wf (.eng d) = true) :
    exec (.eng d) s = .next (settle s (eng d s)) := run_wf _ hw
theorem exec_msig (d : Nat) (hw : Instr.wf (.msig d) = true) :
    exec (.msig d) s = .next (settle s (msig d s)) := run_wf _ hw
theorem exec_rti (d : Nat) (hw : Instr.wf (.rti d) = true) :
    exec (.rti d) s = .next (settle s (rti d s)) := run_wf _ hw
theorem exec_ilvl (d : Nat) (hw : Instr.wf (.ilvl d) = true) :
    exec (.ilvl d) s = .next (settle s (ilvl d s)) := run_wf _ hw
theorem exec_iclr (d : Nat) (hw : Instr.wf (.iclr d) = true) :
    exec (.iclr d) s = .next (settle s (iclr d s)) := run_wf _ hw
theorem exec_interruptEntry (d : Nat) (hw : Instr.wf (.interruptEntry d) = true) :
    exec (.interruptEntry d) s = .next (settle s (interruptEntry d s)) := run_wf _ hw
theorem exec_dspTimerExpire (d : Nat) (hw : Instr.wf (.dspTimerExpire d) = true) :
    exec (.dspTimerExpire d) s = .next (settle s (dspTimerExpire d s)) := run_wf _ hw
theorem exec_dspTimerWrite (d : Nat) (v : Word) (hw : Instr.wf (.dspTimerWrite d v) = true) :
    exec (.dspTimerWrite d v) s = .next (settle s (s.wr .RDP_CORE_TIMER d (dspTimerWrite d v))) := run_wf _ hw
theorem exec_dspDoorbellWrite (d : Nat) (v : BitVec 32) (hw : Instr.wf (.dspDoorbellWrite d v) = true) :
    exec (.dspDoorbellWrite d v) s = .next (settle s (s.wr .RDP_CORE_DBELL d (dspDoorbellWrite d v))) := run_wf _ hw
theorem exec_dspTaskDispatch (k q p : Nat) (hw : Instr.wf (.dspTaskDispatch k q p) = true) :
    exec (.dspTaskDispatch k q p) s = .next (settle s (dspTaskDispatch k q p s)) := run_wf _ hw
theorem exec_dspTaskLoadEnd (d : Nat) (hw : Instr.wf (.dspTaskLoadEnd d) = true) :
    exec (.dspTaskLoadEnd d) s = .next (settle s (dspTaskLoadEnd d s)) := run_wf _ hw
theorem exec_dspOutputCopyEnd (d : Nat) (hw : Instr.wf (.dspOutputCopyEnd d) = true) :
    exec (.dspOutputCopyEnd d) s = .next (settle s ((dspOutputCopyEnd d s).applyMmio .caldera)) := run_wf _ hw
theorem exec_dspTaskBudgetExceeded (d : Nat) (hw : Instr.wf (.dspTaskBudgetExceeded d) = true) :
    exec (.dspTaskBudgetExceeded d) s = .next (settle s (dspTaskBudgetExceeded d s)) := run_wf _ hw
theorem exec_dspTickProgramRead (k : Nat) (hw : Instr.wf (.dspTickProgramRead k) = true) :
    exec (.dspTickProgramRead k) s = .next (settle s (dspTickProgramRead k s)) := run_wf _ hw
theorem exec_ldpcDecodeJob (n e : Nat) (bad : List Nat) (hw : Instr.wf (.ldpcDecodeJob n e bad) = true) :
    exec (.ldpcDecodeJob n e bad) s = .next (settle s (ldpcDecodeJob n e bad s)) := run_wf _ hw
theorem exec_ldpcEncodeJob (n e : Nat) (bad : List Nat) (hw : Instr.wf (.ldpcEncodeJob n e bad) = true) :
    exec (.ldpcEncodeJob n e bad) s = .next (settle s (ldpcEncodeJob n e bad s)) := run_wf _ hw
theorem exec_polarJob (n e : Nat) (bad : Bool) (hw : Instr.wf (.polarJob n e bad) = true) :
    exec (.polarJob n e bad) s = .next (settle s (polarJob n e bad s)) := run_wf _ hw
theorem exec_engineJobEnd (n e : Nat) (hw : Instr.wf (.engineJobEnd n e) = true) :
    exec (.engineJobEnd n e) s = .next (settle s (engineJobEnd n e s)) := run_wf _ hw
theorem exec_crcArm (n u : Nat) (v : Word) (hw : Instr.wf (.crcArm n u v) = true) :
    exec (.crcArm n u v) s = .next (settle s (s.wr .CRC_Uu_CTRL (16 * n + u) (crcArm n u v))) := run_wf _ hw
theorem exec_crcDisarm (n u : Nat) (v : Word) (hw : Instr.wf (.crcDisarm n u v) = true) :
    exec (.crcDisarm n u v) s = .next (settle s (s.wr .CRC_Uu_CTRL (16 * n + u) (crcDisarm n u v))) := run_wf _ hw
theorem exec_crcFrameEnd (n u : Nat) (l : List Bool) (p c : Bool) (hw : Instr.wf (.crcFrameEnd n u l p c) = true) :
    exec (.crcFrameEnd n u l p c) s = .next (settle s (crcFrameEnd n u l p c s)) := run_wf _ hw
theorem exec_crcRunWrite (n u : Nat) (v : Word) (hw : Instr.wf (.crcRunWrite n u v) = true) :
    exec (.crcRunWrite n u v) s = .next (settle s (s.wr .CRC_Uu_RUN (16 * n + u) (crcRunWrite n u v))) := run_wf _ hw
theorem exec_safetyMessage (n u : Nat) (m : List Byte) (hw : Instr.wf (.safetyMessage n u m) = true) :
    exec (.safetyMessage n u m) s = .next (settle s (safetyMessage n u m s)) := run_wf _ hw
theorem exec_safetyTimeout (n u : Nat) (hw : Instr.wf (.safetyTimeout n u) = true) :
    exec (.safetyTimeout n u) s = .next (settle s (safetyTimeout n u s)) := run_wf _ hw
theorem exec_eqChange (n j : Nat) (hw : Instr.wf (.eqChange n j) = true) :
    exec (.eqChange n j) s = .next (settle s (eqChange n j s)) := run_wf _ hw
theorem exec_gfskFrameReceived (n b car : Nat) (sync : GfskSync) (frame : List Byte) (rssi fofs : Int) (hw : Instr.wf (.gfskFrameReceived n b car sync frame rssi fofs) = true) :
    exec (.gfskFrameReceived n b car sync frame rssi fofs) s = .next (settle s (gfskFrameReceived n b car sync frame rssi fofs s)) := run_wf _ hw
theorem exec_gfskTxRecord (n b : Nat) (hw : Instr.wf (.gfskTxRecord n b) = true) :
    exec (.gfskTxRecord n b) s = .next (settle s (gfskTxRecord n b s)) := run_wf _ hw
theorem exec_gfskNoiseReport (n b : Nat) (stats : List NoiseStat) (hw : Instr.wf (.gfskNoiseReport n b stats) = true) :
    exec (.gfskNoiseReport n b stats) s = .next (settle s (gfskNoiseReport n b stats s)) := run_wf _ hw
theorem exec_frameReceive (p : Nat) (fr : Frame) (hw : Instr.wf (.frameReceive p fr) = true) :
    exec (.frameReceive p fr) s = .next (settle s (frameReceive p fr s)) := run_wf _ hw
theorem exec_symbolDone (k f : Nat) (nsym : Int) (hw : Instr.wf (.symbolDone k f nsym) = true) :
    exec (.symbolDone k f nsym) s = .next (settle s (symbolDone k f nsym s)) := run_wf _ hw
theorem exec_downlinkReadyCheck (k f : Nat) (nsym : Int) (hw : Instr.wf (.downlinkReadyCheck k f nsym) = true) :
    exec (.downlinkReadyCheck k f nsym) s = .next (settle s (downlinkReadyCheck k f nsym s)) := run_wf _ hw
theorem exec_downlinkSend (k f : Nat) (nsym : Int) (hw : Instr.wf (.downlinkSend k f nsym) = true) :
    exec (.downlinkSend k f nsym) s = .next (settle s (downlinkSend k f nsym s)) := run_wf _ hw
theorem exec_cplaneReadyCheck (k f : Nat) (sc : Int) (hw : Instr.wf (.cplaneReadyCheck k f sc) = true) :
    exec (.cplaneReadyCheck k f sc) s = .next (settle s (cplaneReadyCheck k f sc s)) := run_wf _ hw
theorem exec_cplaneSend (k f : Nat) (sc : Int) (hw : Instr.wf (.cplaneSend k f sc) = true) :
    exec (.cplaneSend k f sc) s = .next (settle s (cplaneSend k f sc s)) := run_wf _ hw
theorem exec_gfskDownlinkSend (k f : Nat) (hw : Instr.wf (.gfskDownlinkSend k f) = true) :
    exec (.gfskDownlinkSend k f) s = .next (settle s (gfskDownlinkSend k f s)) := run_wf _ hw
theorem exec_macAgeRemoval (k addr vid : Nat) (hw : Instr.wf (.macAgeRemoval k addr vid) = true) :
    exec (.macAgeRemoval k addr vid) s = .next (settle s (macAgeRemoval k addr vid s)) := run_wf _ hw
theorem exec_macPin (k : Nat) (hw : Instr.wf (.macPin k) = true) :
    exec (.macPin k) s = .next (settle s (s.wr .FHL_MAC_OP k (macPin k))) := run_wf _ hw
theorem exec_macDelete (k : Nat) (hw : Instr.wf (.macDelete k) = true) :
    exec (.macDelete k) s = .next (settle s (s.wr .FHL_MAC_OP k (macDelete k))) := run_wf _ hw
theorem exec_macRead (k : Nat) (hw : Instr.wf (.macRead k) = true) :
    exec (.macRead k) s = .next (settle s (s.wr .FHL_MAC_OP k (macRead k))) := run_wf _ hw
theorem exec_macFlushAll (k : Nat) (hw : Instr.wf (.macFlushAll k) = true) :
    exec (.macFlushAll k) s = .next (settle s (s.wr .FHL_MAC_OP k (macFlushAll k))) := run_wf _ hw
theorem exec_macFlushPort (k : Nat) (hw : Instr.wf (.macFlushPort k) = true) :
    exec (.macFlushPort k) s = .next (settle s (s.wr .FHL_MAC_OP k (macFlushPort k))) := run_wf _ hw
theorem exec_macFlushEnd (k : Nat) (hw : Instr.wf (.macFlushEnd k) = true) :
    exec (.macFlushEnd k) s = .next (settle s (macFlushEnd k s)) := run_wf _ hw
theorem exec_egressTransmit (k p : Nat) (hw : Instr.wf (.egressTransmit k p) = true) :
    exec (.egressTransmit k p) s = .next (settle s (egressTransmit k p s)) := run_wf _ hw
theorem exec_shaperWrite (k p q : Nat) (v : Word) (hw : Instr.wf (.shaperWrite k p q v) = true) :
    exec (.shaperWrite k p q v) s = .next (settle s (s.wr .FHL_Pp_SHq ((4 * k + p) * 7 + q) (shaperWrite k p q v))) := run_wf _ hw
theorem exec_policerWrite (k i w : Nat) (v : Word) (hw : Instr.wf (.policerWrite k i w v) = true) :
    exec (.policerWrite k i w v) s = .next (settle s (s.wr .FHL_POLi (64 * k + i) (policerWrite k i w v))) := run_wf _ hw
theorem exec_linkEnable (l : Nat) (v : BitVec 32) (hw : Instr.wf (.linkEnable l v) = true) :
    exec (.linkEnable l v) s = .next (settle s ((s.wr .FAB_Ll_CTRL l (linkEnable l v)).applyMmio .caldera)) := run_wf _ hw
theorem exec_linkRetrain (l : Nat) (v : BitVec 32) (hw : Instr.wf (.linkRetrain l v) = true) :
    exec (.linkRetrain l v) s = .next (settle s ((s.wr .FAB_Ll_CTRL l (linkRetrain l v)).applyMmio .caldera)) := run_wf _ hw
theorem exec_linkTrainingEnd (l : Nat) (p : Partner) (hw : Instr.wf (.linkTrainingEnd l p) = true) :
    exec (.linkTrainingEnd l p) s = .next (settle s ((linkTrainingEnd l p s).applyMmio .caldera)) := run_wf _ hw
theorem exec_flitReceive (l seq ack : Nat) (crcOk : Bool) (hw : Instr.wf (.flitReceive l seq ack crcOk) = true) :
    exec (.flitReceive l seq ack crcOk) s = .next (settle s (flitReceive l seq ack crcOk s)) := run_wf _ hw
theorem exec_replayRequest (l seq : Nat) (hw : Instr.wf (.replayRequest l seq) = true) :
    exec (.replayRequest l seq) s = .next (settle s (replayRequest l seq s)) := run_wf _ hw
theorem exec_linkDown (l cause : Nat) (hw : Instr.wf (.linkDown l cause) = true) :
    exec (.linkDown l cause) s = .next (settle s ((linkDown l cause s).applyMmio .caldera)) := run_wf _ hw
theorem exec_fabricRdl (l : Nat) (p : Packet) (hw : Instr.wf (.fabricRdl l p) = true) :
    exec (.fabricRdl l p) s = .next (settle s (fabricRdl l p s)) := run_wf _ hw
theorem exec_fabricRds (l : Nat) (p : Packet) (hw : Instr.wf (.fabricRds l p) = true) :
    exec (.fabricRds l p) s = .next (settle s (fabricRds l p s)) := run_wf _ hw
theorem exec_fabricWr (l : Nat) (p : Packet) (e : Ecc) (hw : Instr.wf (.fabricWr l p e) = true) :
    exec (.fabricWr l p e) s = .next (settle s ((fabricWr l p e s).applyMmio .caldera)) := run_wf _ hw
theorem exec_fabricAtom (l : Nat) (p : Packet) (e : Ecc) (hw : Instr.wf (.fabricAtom l p e) = true) :
    exec (.fabricAtom l p e) s = .next (settle s (fabricAtom l p e s)) := run_wf _ hw
theorem exec_fabricMsg (l : Nat) (p : Packet) (hw : Instr.wf (.fabricMsg l p) = true) :
    exec (.fabricMsg l p) s = .next (settle s (fabricMsg l p s)) := run_wf _ hw
theorem exec_fabricBarr (p : Packet) (hw : Instr.wf (.fabricBarr p) = true) :
    exec (.fabricBarr p) s = .next (settle s ((fabricBarr p s).applyMmio .caldera)) := run_wf _ hw
theorem exec_fabricBrel (p : Packet) (hw : Instr.wf (.fabricBrel p) = true) :
    exec (.fabricBrel p) s = .next (settle s (fabricBrel p s)) := run_wf _ hw
theorem exec_fabricData (p : Packet) (hw : Instr.wf (.fabricData p) = true) :
    exec (.fabricData p) s = .next (settle s ((fabricData p s).applyMmio .caldera)) := run_wf _ hw
theorem exec_fabricAck (p : Packet) (hw : Instr.wf (.fabricAck p) = true) :
    exec (.fabricAck p) s = .next (settle s ((fabricAck p s).applyMmio .caldera)) := run_wf _ hw
theorem exec_requestUnanswered (tag : Nat) (hw : Instr.wf (.requestUnanswered tag) = true) :
    exec (.requestUnanswered tag) s = .next (settle s ((requestUnanswered tag s).applyMmio .caldera)) := run_wf _ hw
theorem exec_jobTeardown (v : Word) (hw : Instr.wf (.jobTeardown v) = true) :
    exec (.jobTeardown v) s = .next (settle s (s.wr .FAB_TEARDOWN 0 (jobTeardown v))) := run_wf _ hw
theorem exec_jobTableRemove (v : Word) (hw : Instr.wf (.jobTableRemove v) = true) :
    exec (.jobTableRemove v) s = .next (settle s (s.wr .FAB_TEARDOWN 0 (jobTableRemove v))) := run_wf _ hw
theorem exec_messageRetry (tag : Nat) (hw : Instr.wf (.messageRetry tag) = true) :
    exec (.messageRetry tag) s = .next (settle s (messageRetry tag s)) := run_wf _ hw
theorem exec_barrierReleaseApply (b : Nat) (hw : Instr.wf (.barrierReleaseApply b) = true) :
    exec (.barrierReleaseApply b) s = .next (settle s (barrierReleaseApply b s)) := run_wf _ hw
theorem exec_barrierTimeout (b : Nat) (hw : Instr.wf (.barrierTimeout b) = true) :
    exec (.barrierTimeout b) s = .next (settle s (barrierTimeout b s)) := run_wf _ hw
theorem exec_routeWrite (pod : Bool) (i : Nat) (v : Word) (hw : Instr.wf (.routeWrite pod i v) = true) :
    exec (.routeWrite pod i v) s = .next (settle s ((s.wr (if pod then .FAB_PODRTp else .FAB_ROUTEi) i (routeWrite pod i v)).applyMmio .caldera)) := run_wf _ hw
theorem exec_ftidWrite (b : Nat) (v : BitVec 32) (hw : Instr.wf (.ftidWrite b v) = true) :
    exec (.ftidWrite b v) s = .next (settle s (s.wr .FAB_FTIDb b (ftidWrite b v))) := run_wf _ hw
theorem exec_detModeEnable (v : BitVec 32) (hw : Instr.wf (.detModeEnable v) = true) :
    exec (.detModeEnable v) s = .next (settle s (detModeEnable v s)) := run_wf _ hw
theorem exec_detModeEntry (hw : Instr.wf .detModeEntry = true) :
    exec .detModeEntry s = .next (settle s (detModeEntry s)) := run_wf _ hw
theorem exec_detModeDisable (v : BitVec 32) (hw : Instr.wf (.detModeDisable v) = true) :
    exec (.detModeDisable v) s = .next (settle s (detModeDisable v s)) := run_wf _ hw
theorem exec_detModeLoss (cause : Nat) (hw : Instr.wf (.detModeLoss cause) = true) :
    exec (.detModeLoss cause) s = .next (settle s (detModeLoss cause s)) := run_wf _ hw
theorem exec_obsidianEnable (v : Word) (hw : Instr.wf (.obsidianEnable v) = true) :
    exec (.obsidianEnable v) s = .next (settle s (obsidianEnable v s)) := run_wf _ hw
theorem exec_obsidianDisable (v : Word) (hw : Instr.wf (.obsidianDisable v) = true) :
    exec (.obsidianDisable v) s = .next (settle s (obsidianDisable v s)) := run_wf _ hw
theorem exec_obsidianFreeze (fromEvent : Bool) (hw : Instr.wf (.obsidianFreeze fromEvent) = true) :
    exec (.obsidianFreeze fromEvent) s = .next (settle s (obsidianFreeze fromEvent s)) := run_wf _ hw
theorem exec_obsidianFrozen (hw : Instr.wf .obsidianFrozen = true) :
    exec .obsidianFrozen s = .next (settle s (obsidianFrozen s)) := run_wf _ hw
theorem exec_obsidianMark (v : Word) (hw : Instr.wf (.obsidianMark v) = true) :
    exec (.obsidianMark v) s = .next (settle s (obsidianMark v s)) := run_wf _ hw
theorem exec_replayRecordApply (agrees : Bool) (hw : Instr.wf (.replayRecordApply agrees) = true) :
    exec (.replayRecordApply agrees) s = .next (settle s (replayRecordApply agrees s)) := run_wf _ hw
theorem exec_tickSet (v : Word) (hw : Instr.wf (.tickSet v) = true) :
    exec (.tickSet v) s = .next (settle s (tickSet v s)) := run_wf _ hw
theorem exec_lockstepEnable (v : Word) (hw : Instr.wf (.lockstepEnable v) = true) :
    exec (.lockstepEnable v) s = .next (settle s (lockstepEnable v s)) := run_wf _ hw
theorem exec_lockrec (p : Packet) (hw : Instr.wf (.lockrec p) = true) :
    exec (.lockrec p) s = .next (settle s (lockrec p s)) := run_wf _ hw
theorem exec_locksig (p : Packet) (hw : Instr.wf (.locksig p) = true) :
    exec (.locksig p) s = .next (settle s (locksig p s)) := run_wf _ hw
theorem exec_signatureIntervalEnd (hw : Instr.wf .signatureIntervalEnd = true) :
    exec .signatureIntervalEnd s = .next (settle s (signatureIntervalEnd s)) := run_wf _ hw
theorem exec_lostsig (hw : Instr.wf .lostsig = true) :
    exec .lostsig s = .next (settle s (lostsig s)) := run_wf _ hw
theorem exec_digestClear (g k : Nat) (hw : Instr.wf (.digestClear g k) = true) :
    exec (.digestClear g k) s = .next (settle s (s.wr .MXC_DIGk (16 * g + k) (digestClear g k))) := run_wf _ hw
theorem exec_sequencerMismatch (g : Nat) (hw : Instr.wf (.sequencerMismatch g) = true) :
    exec (.sequencerMismatch g) s = .next (settle s (sequencerMismatch g s)) := run_wf _ hw
theorem exec_bridgeFlitResend (d : Nat) (again : Bool) (hw : Instr.wf (.bridgeFlitResend d again) = true) :
    exec (.bridgeFlitResend d again) s = .next (settle s (bridgeFlitResend d again s)) := run_wf _ hw
theorem exec_slotControlMiss (n : Nat) (hw : Instr.wf (.slotControlMiss n) = true) :
    exec (.slotControlMiss n) s = .next (settle s (slotControlMiss n s)) := run_wf _ hw
theorem exec_deadlineMarginCheck (n i : Nat) (hw : Instr.wf (.deadlineMarginCheck n i) = true) :
    exec (.deadlineMarginCheck n i) s = .next (settle s (deadlineMarginCheck n i s)) := run_wf _ hw
theorem exec_deadlineCheck (n i : Nat) (hw : Instr.wf (.deadlineCheck n i) = true) :
    exec (.deadlineCheck n i) s = .next (settle s (deadlineCheck n i s)) := run_wf _ hw
theorem exec_tickMissing (d : Nat) (hw : Instr.wf (.tickMissing d) = true) :
    exec (.tickMissing d) s = .next (settle s (tickMissing d s)) := run_wf _ hw
theorem exec_timingStop (hw : Instr.wf .timingStop = true) :
    exec .timingStop s = .next (settle s (timingStop s)) := run_wf _ hw
theorem exec_tstopClear (hw : Instr.wf .tstopClear = true) :
    exec .tstopClear s = .next (settle s (tstopClear s)) := run_wf _ hw
theorem exec_clockFault (d : Nat) (clk : ClockDev) (hw : Instr.wf (.clockFault d clk) = true) :
    exec (.clockFault d clk) s = .next (settle s (clockFault d clk s)) := run_wf _ hw
theorem exec_railFault (r : RailRun) (hw : Instr.wf (.railFault r) = true) :
    exec (.railFault r) s = .next (settle s (railFault r s)) := run_wf _ hw
theorem exec_heartbeatMiss (d : Nat) (hw : Instr.wf (.heartbeatMiss d) = true) :
    exec (.heartbeatMiss d) s = .next (settle s ((heartbeatMiss d s).applyMmio .caldera)) := run_wf _ hw
theorem exec_watchdogExpiry (hw : Instr.wf .watchdogExpiry = true) :
    exec .watchdogExpiry s = .next (settle s (watchdogExpiry s)) := run_wf _ hw
theorem exec_faultInject (d : Nat) (v : BitVec 32) (hw : Instr.wf (.faultInject d v) = true) :
    exec (.faultInject d v) s = .next (settle s (s.wr .FLT_INJECT d (faultInject d v))) := run_wf _ hw
theorem exec_journalWrite (hw : Instr.wf .journalWrite = true) :
    exec .journalWrite s = .next (settle s (journalWrite s)) := run_wf _ hw
theorem exec_mainRailsLost (hw : Instr.wf .mainRailsLost = true) :
    exec .mainRailsLost s = .next (settle s (mainRailsLost s)) := run_wf _ hw
theorem exec_aonLow (hw : Instr.wf .aonLow = true) :
    exec .aonLow s = .next (settle s (aonLow s)) := run_wf _ hw
theorem exec_alertClear (v : BitVec 32) (hw : Instr.wf (.alertClear v) = true) :
    exec (.alertClear v) s = .next (settle s (alertClear v s)) := run_wf _ hw
theorem exec_journalPresentation (hw : Instr.wf .journalPresentation = true) :
    exec .journalPresentation s = .next (settle s (journalPresentation s)) := run_wf _ hw
theorem exec_rungClear (hw : Instr.wf .rungClear = true) :
    exec .rungClear s = .next (settle s (rungClear s)) := run_wf _ hw
theorem exec_linkseq (l seq : Nat) (hw : Instr.wf (.linkseq l seq) = true) :
    exec (.linkseq l seq) s = .next (settle s ((linkseq l seq s).applyMmio .caldera)) := run_wf _ hw
theorem exec_linkseqTimeout (l : Nat) (hw : Instr.wf (.linkseqTimeout l) = true) :
    exec (.linkseqTimeout l) s = .next (settle s ((linkseqTimeout l s).applyMmio .caldera)) := run_wf _ hw
theorem exec_lstate (dev l st sq : Nat) (hw : Instr.wf (.lstate dev l st sq) = true) :
    exec (.lstate dev l st sq) s = .next (settle s (lstate dev l st sq s)) := run_wf _ hw
theorem exec_lview (dev : Nat) (states : List Nat) (hw : Instr.wf (.lview dev states) = true) :
    exec (.lview dev states) s = .next (settle s (lview dev states s)) := run_wf _ hw
theorem exec_lviewSend (hw : Instr.wf .lviewSend = true) :
    exec .lviewSend s = .next (settle s (lviewSend s)) := run_wf _ hw
theorem exec_voteCast (v : BitVec 32) (hw : Instr.wf (.voteCast v) = true) :
    exec (.voteCast v) s = .next (settle s ((s.wr .FAB_VOTE 0 (voteCast v)).applyMmio .caldera)) := run_wf _ hw
theorem exec_vote (slot target num : Nat) (hw : Instr.wf (.vote slot target num) = true) :
    exec (.vote slot target num) s = .next (settle s ((vote slot target num s).applyMmio .caldera)) := run_wf _ hw
theorem exec_testFence (v : Word) (hw : Instr.wf (.testFence v) = true) :
    exec (.testFence v) s = .next (settle s ((testFence v s).applyMmio .caldera)) := run_wf _ hw
theorem exec_testRun (v : Word) (hw : Instr.wf (.testRun v) = true) :
    exec (.testRun v) s = .next (settle s ((testRun v s).applyMmio .caldera)) := run_wf _ hw
theorem exec_testRunEnd (cycles status : Nat) (hw : Instr.wf (.testRunEnd cycles status) = true) :
    exec (.testRunEnd cycles status) s = .next (settle s (testRunEnd cycles status s)) := run_wf _ hw
theorem exec_testReturn (v : Word) (hw : Instr.wf (.testReturn v) = true) :
    exec (.testReturn v) s = .next (settle s ((testReturn v s).applyMmio .caldera)) := run_wf _ hw
theorem exec_testRelease (v : Word) (hw : Instr.wf (.testRelease v) = true) :
    exec (.testRelease v) s = .next (settle s ((testRelease v s).applyMmio .caldera)) := run_wf _ hw
theorem exec_warmReset (hw : Instr.wf .warmReset = true) :
    exec .warmReset s = .next (settle s (warmReset s)) := run_wf _ hw
theorem exec_powerCycleRequest (hw : Instr.wf .powerCycleRequest = true) :
    exec .powerCycleRequest s = .next (settle s (powerCycleRequest s)) := run_wf _ hw
theorem exec_pcieConventionalReset (port : Nat) (hw : Instr.wf (.pcieConventionalReset port) = true) :
    exec (.pcieConventionalReset port) s = .next (settle s (pcieConventionalReset port s)) := run_wf _ hw
theorem exec_pfFlr (port : Nat) (hw : Instr.wf (.pfFlr port) = true) :
    exec (.pfFlr port) s = .next (settle s (pfFlr port s)) := run_wf _ hw
theorem exec_atsInvalidation (port fn page count : Nat) (hw : Instr.wf (.atsInvalidation port fn page count) = true) :
    exec (.atsInvalidation port fn page count) s = .next (settle s (atsInvalidation port fn page count s)) := run_wf _ hw
theorem exec_atsInvalidationDone (port : Nat) (hw : Instr.wf (.atsInvalidationDone port) = true) :
    exec (.atsInvalidationDone port) s = .next (settle s (atsInvalidationDone port s)) := run_wf _ hw
theorem exec_hostCoreAccess (h a n : Nat) (store : Bool) (d : List Byte) (refused : Bool) (e : Ecc) (hw : Instr.wf (.hostCoreAccess h a n store d refused e) = true) :
    exec (.hostCoreAccess h a n store d refused e) s = .next (settle s (hostCoreAccess h a n store d refused e s)) := run_wf _ hw
theorem exec_hostCoreStart (h : Nat) (v : Word) (hw : Instr.wf (.hostCoreStart h v) = true) :
    exec (.hostCoreStart h v) s = .next (settle s (hostCoreStart h v s)) := run_wf _ hw
theorem exec_hostCoreHalt (h : Nat) (v : Word) (hw : Instr.wf (.hostCoreHalt h v) = true) :
    exec (.hostCoreHalt h v) s = .next (settle s (hostCoreHalt h v s)) := run_wf _ hw
theorem exec_hcTimecmpWrite (h : Nat) (v : Word) (hw : Instr.wf (.hcTimecmpWrite h v) = true) :
    exec (.hcTimecmpWrite h v) s = .next (settle s (hcTimecmpWrite h v s)) := run_wf _ hw
theorem exec_hcTimerExpire (h : Nat) (hw : Instr.wf (.hcTimerExpire h) = true) :
    exec (.hcTimerExpire h) s = .next (settle s (hcTimerExpire h s)) := run_wf _ hw
theorem exec_hcInterruptAck (h : Nat) (mask : Word) (hw : Instr.wf (.hcInterruptAck h mask) = true) :
    exec (.hcInterruptAck h mask) s = .next (settle s (hcInterruptAck h mask s)) := run_wf _ hw
theorem exec_hsRandRead (h : Nat) (hw : Instr.wf (.hsRandRead h) = true) :
    exec (.hsRandRead h) s = .next (settle s (hsRandRead h s)) := run_wf _ hw
theorem exec_eventServiceTake (h : Nat) (hw : Instr.wf (.eventServiceTake h) = true) :
    exec (.eventServiceTake h) s = .next (settle s (eventServiceTake h s)) := run_wf _ hw
theorem exec_d2hFlagRaise (h k : Nat) (hw : Instr.wf (.d2hFlagRaise h k) = true) :
    exec (.d2hFlagRaise h k) s = .next (settle s (d2hFlagRaise h k s)) := run_wf _ hw
theorem exec_pairEnable (p : Nat) (v : BitVec 32) (hw : Instr.wf (.pairEnable p v) = true) :
    exec (.pairEnable p v) s = .next (settle s (pairEnable p v s)) := run_wf _ hw
theorem exec_pairMismatch (p : Nat) (hw : Instr.wf (.pairMismatch p) = true) :
    exec (.pairMismatch p) s = .next (settle s (pairMismatch p s)) := run_wf _ hw
theorem exec_hcDoorbell (h : Nat) (v : BitVec 32) (hw : Instr.wf (.hcDoorbell h v) = true) :
    exec (.hcDoorbell h v) s = .next (settle s (hcDoorbell h v s)) := run_wf _ hw
theorem exec_netqTransmit (k : Nat) (hw : Instr.wf (.netqTransmit k) = true) :
    exec (.netqTransmit k) s = .next (settle s (netqTransmit k s)) := run_wf _ hw
theorem exec_eventCompletion (k : Nat) (v : BitVec 32) (hostRefuses : Bool) (hw : Instr.wf (.eventCompletion k v hostRefuses) = true) :
    exec (.eventCompletion k v hostRefuses) s = .next (settle s (eventCompletion k v hostRefuses s)) := run_wf _ hw
theorem exec_eventQueueHeadWrite (q : Nat) (v : BitVec 32) (hw : Instr.wf (.eventQueueHeadWrite q v) = true) :
    exec (.eventQueueHeadWrite q v) s = .next (settle s (eventQueueHeadWrite q v s)) := run_wf _ hw
theorem exec_evcEnable (v : BitVec 32) (hw : Instr.wf (.evcEnable v) = true) :
    exec (.evcEnable v) s = .next (settle s (evcEnable v s)) := run_wf _ hw
theorem exec_evcDisable (v : BitVec 32) (hw : Instr.wf (.evcDisable v) = true) :
    exec (.evcDisable v) s = .next (settle s (evcDisable v s)) := run_wf _ hw
theorem exec_powerUp (hw : Instr.wf .powerUp = true) :
    exec .powerUp s = .next (settle s (powerUp s)) := run_wf _ hw
theorem exec_pgInput (step : Nat) (high : Bool) (hw : Instr.wf (.pgInput step high) = true) :
    exec (.pgInput step high) s = .next (settle s (pgInput step high s)) := run_wf _ hw
theorem exec_dieRelease (grp : Nat) (hw : Instr.wf (.dieRelease grp) = true) :
    exec (.dieRelease grp) s = .next (settle s (dieRelease grp s)) := run_wf _ hw
theorem exec_meminitEnd (hw : Instr.wf .meminitEnd = true) :
    exec .meminitEnd s = .next (settle s (meminitEnd s)) := run_wf _ hw
theorem exec_fwLoad (v : Word) (hw : Instr.wf (.fwLoad v) = true) :
    exec (.fwLoad v) s = .next (settle s (fwLoad v s)) := run_wf _ hw
theorem exec_fwStage (v : Word) (hw : Instr.wf (.fwStage v) = true) :
    exec (.fwStage v) s = .next (settle s (fwStage v s)) := run_wf _ hw
theorem exec_fwVerifyEnd (image : List Byte) (readOk : Bool) (hw : Instr.wf (.fwVerifyEnd image readOk) = true) :
    exec (.fwVerifyEnd image readOk) s = .next (settle s (fwVerifyEnd image readOk s)) := run_wf _ hw
theorem exec_fwReady (hw : Instr.wf .fwReady = true) :
    exec .fwReady s = .next (settle s (fwReady s)) := run_wf _ hw
theorem exec_fwReadyTimeout (hw : Instr.wf .fwReadyTimeout = true) :
    exec .fwReadyTimeout s = .next (settle s (fwReadyTimeout s)) := run_wf _ hw
theorem exec_calUserWrite (i : Nat) (v : Word) (hw : Instr.wf (.calUserWrite i v) = true) :
    exec (.calUserWrite i v) s = .next (settle s (calUserWrite i v s)) := run_wf _ hw
theorem exec_i3cCcc (c : Ccc) (hw : Instr.wf (.i3cCcc c) = true) :
    exec (.i3cCcc c) s = .next (settle s (i3cCcc c s)) := run_wf _ hw
theorem exec_i3cPrivateWrite (bytes : List Byte) (hw : Instr.wf (.i3cPrivateWrite bytes) = true) :
    exec (.i3cPrivateWrite bytes) s = .next (settle s (i3cPrivateWrite bytes s)) := run_wf _ hw
theorem exec_i3cPrivateRead (len : Nat) (hw : Instr.wf (.i3cPrivateRead len) = true) :
    exec (.i3cPrivateRead len) s = .next (settle s (i3cPrivateRead len s)) := run_wf _ hw
theorem exec_pkgPowerWindow (watts : Nat) (hw : Instr.wf (.pkgPowerWindow watts) = true) :
    exec (.pkgPowerWindow watts) s = .next (settle s (pkgPowerWindow watts s)) := run_wf _ hw
theorem exec_throttleStep (n watts : Nat) (mxLimit : Bool) (hw : Instr.wf (.throttleStep n watts mxLimit) = true) :
    exec (.throttleStep n watts mxLimit) s = .next (settle s (throttleStep n watts mxLimit s)) := run_wf _ hw
theorem exec_throttleStepUp (n : Nat) (hw : Instr.wf (.throttleStepUp n) = true) :
    exec (.throttleStepUp n) s = .next (settle s (throttleStepUp n s)) := run_wf _ hw
theorem exec_arrayClockGate (g a : Nat) (hw : Instr.wf (.arrayClockGate g a) = true) :
    exec (.arrayClockGate g a) s = .next (settle s (arrayClockGate g a s)) := run_wf _ hw
theorem exec_thermalFault (d : Nat) (hw : Instr.wf (.thermalFault d) = true) :
    exec (.thermalFault d) s = .next (settle s (thermalFault d s)) := run_wf _ hw
theorem exec_criticalTemperature (d : Nat) (hw : Instr.wf (.criticalTemperature d) = true) :
    exec (.criticalTemperature d) s = .next (settle s ((criticalTemperature d s).applyMmio .caldera)) := run_wf _ hw
theorem exec_fronthaulLinkChange (p : Nat) (link fec : Bool) (hw : Instr.wf (.fronthaulLinkChange p link fec) = true) :
    exec (.fronthaulLinkChange p link fec) s = .next (settle s (fronthaulLinkChange p link fec s)) := run_wf _ hw
theorem exec_lightReturn (l : Nat) (hw : Instr.wf (.lightReturn l) = true) :
    exec (.lightReturn l) s = .next (settle s (lightReturn l s)) := run_wf _ hw
theorem exec_vddAonLoss (hw : Instr.wf .vddAonLoss = true) :
    exec .vddAonLoss s = .next (settle s (vddAonLoss s)) := run_wf _ hw
theorem exec_bkpActiveChange (high : Bool) (hw : Instr.wf (.bkpActiveChange high) = true) :
    exec (.bkpActiveChange high) s = .next (settle s (bkpActiveChange high s)) := run_wf _ hw
theorem exec_watchdogService (hw : Instr.wf .watchdogService = true) :
    exec .watchdogService s = .next (settle s (watchdogService s)) := run_wf _ hw
theorem exec_regionHeartbeat (d : Nat) (hw : Instr.wf (.regionHeartbeat d) = true) :
    exec (.regionHeartbeat d) s = .next (settle s (regionHeartbeat d s)) := run_wf _ hw
theorem exec_thermalSensorSample (d : Nat) (raw0 raw1 : Int) (hw : Instr.wf (.thermalSensorSample d raw0 raw1) = true) :
    exec (.thermalSensorSample d raw0 raw1) s = .next (settle s (thermalSensorSample d raw0 raw1 s)) := run_wf _ hw
theorem exec_dspCoreClockGate (d : Nat) (hw : Instr.wf (.dspCoreClockGate d) = true) :
    exec (.dspCoreClockGate d) s = .next (settle s (dspCoreClockGate d s)) := run_wf _ hw

end Sys2Proof.Machine
end

