-- ==== Sys2Proof/Laws/Fields.lean ====
section
/-! SUPPORT. What a write of a register field does to a read of one, and what the counters and memory writes do. -/

namespace Sys2Proof.Machine

/-! Field keys -/

theorem RegKind.code_lt (k : RegKind) : k.code < 512 := by cases k <;> decide

theorem RegKind.code_inj {k l : RegKind} (h : k.code = l.code) : k = l := by
  have : ∀ k : RegKind, RegKind.all[k.code]? = some k := by intro k; cases k <;> rfl
  have a := this k
  rw [h, this l] at a
  exact (Option.some.inj a).symm

/-- Two keys are equal only for one field of one instance. -/
theorem Field.key_eq_iff {f g : Field} {i j : Nat} (hf : f.lo < 256) (hg : g.lo < 256) :
    f.key i = g.key j ↔ i = j ∧ f.kind = g.kind ∧ f.lo = g.lo := by
  have a := RegKind.code_lt f.kind
  have b := RegKind.code_lt g.kind
  constructor
  · intro h
    simp only [Field.key] at h
    have : i = j ∧ f.kind.code = g.kind.code ∧ f.lo = g.lo := by omega
    exact ⟨this.1, RegKind.code_inj this.2.1, this.2.2⟩
  · rintro ⟨rfl, h, h'⟩; simp [Field.key, h, h']

/-! Reads after writes -/

variable (s : State)

/-- A field reads as the low bits of what was written to it. -/
@[simp] theorem fld_setFld_same (f : Field) (i v : Nat) : (s.setFld f i v).fld f i = v % 2 ^ f.w := by
  simp [State.fld, State.setFld]

/-- Another field reads as before. -/
theorem fld_setFld_ne {f g : Field} {i j : Nat} (v : Nat) (h : f.key i ≠ g.key j) : (s.setFld f i v).fld g j = s.fld g j := by
  exact SMap.get_set_ne _ _ _ _ h

theorem fld_setFld_kind {f g : Field} (i j v : Nat) (hf : f.lo < 256) (hg : g.lo < 256) (h : f.kind ≠ g.kind) :
    (s.setFld f i v).fld g j = s.fld g j :=
  fld_setFld_ne s v fun e => h ((Field.key_eq_iff hf hg).mp e).2.1

theorem fld_setFld_lo {f g : Field} (i j v : Nat) (hf : f.lo < 256) (hg : g.lo < 256) (h : f.lo ≠ g.lo) :
    (s.setFld f i v).fld g j = s.fld g j :=
  fld_setFld_ne s v fun e => h ((Field.key_eq_iff hf hg).mp e).2.2

theorem fld_setFld_ix {f g : Field} {i j : Nat} (v : Nat) (hf : f.lo < 256) (hg : g.lo < 256) (h : i ≠ j) :
    (s.setFld f i v).fld g j = s.fld g j :=
  fld_setFld_ne s v fun e => h ((Field.key_eq_iff hf hg).mp e).1

@[simp] theorem flag_setFld_same (f : Field) (i v : Nat) : (s.setFld f i v).flag f i = (v % 2 ^ f.w != 0) := by
  simp [State.flag]

theorem flag_setFld_ne {f g : Field} {i j : Nat} (v : Nat) (h : f.key i ≠ g.key j) : (s.setFld f i v).flag g j = s.flag g j := by
  simp [State.flag, fld_setFld_ne s v h]

/-- A counter saturates at its width (R8). -/
theorem fld_incFld_same (f : Field) (i n : Nat) : (s.incFld f i n).fld f i = min (s.fld f i + n) (2 ^ f.w - 1) := by
  have : 0 < 2 ^ f.w := Nat.two_pow_pos _
  rw [State.incFld, fld_setFld_same, Nat.mod_eq_of_lt (by omega)]

theorem fld_incFld_ne {f g : Field} {i j : Nat} (n : Nat) (h : f.key i ≠ g.key j) : (s.incFld f i n).fld g j = s.fld g j :=
  fld_setFld_ne s _ h

/-! Memory -/

/-- A byte after a write of a range: the byte written inside it, the old byte outside. -/
theorem get_putBytes (m : List Host.Cell) (a : Nat) (d : List Byte) (x : Nat) :
    SMap.get 0#8 (putBytes m a d) x = if a ≤ x ∧ x < a + d.length then d.getD (x - a) 0#8 else SMap.get 0#8 m x := by
  induction d generalizing m a with
  | nil => rw [putBytes, if_neg (by simp only [List.length_nil]; omega)]
  | cons b d ih =>
    rw [putBytes, ih, SMap.get_set]
    by_cases h : a = x
    · subst h; simp [show ¬(a + 1 ≤ a) by omega]
    · simp only [h, if_false, List.length_cons]
      by_cases h' : a + 1 ≤ x ∧ x < a + 1 + d.length
      · rw [if_pos h', if_pos (by omega), show x - a = x - (a + 1) + 1 by omega]; rfl
      · rw [if_neg h', if_neg (by omega)]

theorem rd_write (a : Nat) (d : List Byte) (x : Nat) :
    (s.write a d).rd x = if a ≤ x ∧ x < a + d.length then d.getD (x - a) 0#8 else s.rd x :=
  get_putBytes s.mem a d x

/-- A byte outside the range written reads as before. -/
theorem rd_write_ne {a : Nat} {d : List Byte} {x : Nat} (h : ¬(a ≤ x ∧ x < a + d.length)) : (s.write a d).rd x = s.rd x := by
  rw [rd_write, if_neg h]

/-- Every write of memory keeps the canonical form. -/
theorem wf_putBytes (m : List Host.Cell) (a : Nat) (d : List Byte) (h : Memory.wf m = true) : Memory.wf (putBytes m a d) = true := by
  induction d generalizing m a with
  | nil => exact h
  | cons b d ih => exact ih _ _ (SMap.wf_set 0#8 m a b h)

theorem mem_wf_write (a : Nat) (d : List Byte) (h : Memory.wf s.mem = true) : Memory.wf (s.write a d).mem = true :=
  wf_putBytes _ _ _ h

theorem mem_wf_zero (a n : Nat) (h : Memory.wf s.mem = true) : Memory.wf (s.zero a n).mem = true := SMap.wf_filter _ _ _ h

theorem mem_wf_reset : Memory.wf State.reset.mem = true := rfl

end Sys2Proof.Machine
end

