-- ==== Sys2Proof/Laws/Issue.lean ====
section
/-! SUPPORT. What an instruction row does once its word issues: one law for every row of ETV-M, and one for each shared way an
instruction ends (R108, R116, R117, R136, R148). -/

namespace Sys2Proof.Machine

open Sys2Proof.Safety

variable {s : State} {g c w op : Nat} {x : Ctx}

theorem knownOp_of_legal (h : legal w = true) : knownOp (iOp w) = true := by
  revert h
  unfold legal knownOp
  split <;> intro h <;> simp_all

/-- An instruction row whose word issues runs its body on the state in which its context issued last. -/
theorem issue_of (h : Issues op s g c w x) (f : Nat → Ctx → State → State) : s.issue g c [op] f = f w x (issued s g c) := by
  obtain ⟨-, -, h1, h2, h3, h4, rfl, h6⟩ := h
  have hb : ¬((!s.coreRuns g || s.selected g != some c) = true) := by rw [h1, h2]; simp
  have hk : ¬((!knownOp (iOp w)) = true) := by rw [knownOp_of_legal h6]; simp
  have ho : ¬((!(List.contains [iOp w] (iOp w))) = true) := by simp
  have hl : ¬((!legal w) = true) := by rw [h6]; simp
  unfold State.issue
  rw [if_neg hb, h3]
  simp only
  rw [h4]
  simp only
  rw [if_neg hk, if_neg ho, if_neg hl]
  rfl

/-- An instruction row of ETV-D whose word issues runs its body on the state that has met the errors of the word. -/
theorem dspIssue_of {u : State} {d : Nat} {k : DTask} {r : DCore} (h : DspIssues op s u d w k r)
    (f : Nat → DTask → DCore → State → State) : s.dspIssue d op f = f w k r u := by
  obtain ⟨⟨-, h1, h2, h3, h4, h5, h6, rfl⟩, rfl, h7, rfl, h9⟩ := h
  have hb : ¬((!s.dspRuns d || r.phase != 2 || r.blk != DBlk.none) = true) := by rw [h3, h4, h5]; simp
  unfold State.dspIssue
  rw [h1]
  simp only
  rw [h2]
  simp only
  rw [if_neg hb, if_neg (Nat.not_le.mpr h6), if_neg (by rw [h7]; simp), if_neg (by rw [h9]; simp), if_neg (by simp)]

/-- Nothing that steers is poisoned: the instruction goes on. -/
theorem steer_of {regs : List Nat} (h : regs.any x.poisoned = false) (f : State → State) : s.steer g c x regs f = f s := by
  simp [State.steer, h]

/-- Something that steers is poisoned: the command ends with POISON. -/
theorem steer_poison {regs : List Nat} (h : regs.any x.poisoned = true) (f : State → State) :
    s.steer g c x regs f = s.killEnd g c 6 := by
  simp [State.steer, h]

theorem goto_of {t : Int} (h0 : 0 ≤ t) (h1 : t < x.prog.length) : s.goto g c x t = s.put1 g c { x with pc := t.toNat } := by
  simp [State.goto, h0, h1]

/-- Staged effects within the quota stay with the context. -/
theorem stage_of {l : List Staged} (h : quotaLines (x.staged ++ l) ≤ x.cmd.sntq * 64) :
    s.stage g c x l = s.put1 g c { x with staged := x.staged ++ l } := by
  unfold State.stage State.put1
  exact if_neg (Nat.not_lt.mpr h)

/-- A register command does its work where its window takes writes, and else nothing (R2, R29). -/
theorem wr_of {k : RegKind} {ix : Nat} (f : State → State) (h : s.takesWrite k ix = true) : s.wr k ix f = f s := by
  simp [State.wr, State.when, h]

theorem wr_ignored {k : RegKind} {ix : Nat} (f : State → State) (h : s.takesWrite k ix = false) : s.wr k ix f = s := by
  simp [State.wr, State.when, h]

end Sys2Proof.Machine
end

