-- ==== Sys2Proof/Laws/Same.lean ====
section
/-! SUPPORT. How `SameBut` follows the steps of an effect: nothing, a field written, a condition, the end of a command. -/

namespace Sys2Proof.Safety

open Sys2Proof.Machine

variable {fs gs : List (Field × Nat)} {s u t : State}

theorem SameBut.refl (fs : List (Field × Nat)) (u : State) : SameBut fs u u :=
  ⟨fun _ _ _ => rfl, fun _ => rfl, fun _ => rfl, fun _ => rfl, rfl⟩

/-- Fewer fields kept is a weaker statement. -/
theorem SameBut.mono (h : SameBut fs u t) (hs : ∀ p ∈ fs, p ∈ gs) : SameBut gs u t :=
  ⟨fun f i hf => h.1 f i fun p hp => hf p (hs p hp), h.2⟩

/-- A listed field written. -/
theorem SameBut.setFld (h : SameBut fs u t) {f : Field} {i : Nat} (v : Nat) (hm : (f, i) ∈ fs) :
    SameBut fs u (t.setFld f i v) := by
  obtain ⟨h1, h2, h3, h4, h5⟩ := h
  refine ⟨fun g j hg => ?_, h2, h3, h4, ?_⟩
  · rw [fld_setFld_ne t v (hg _ hm), h1 g j hg]
  · rw [← h5]; rfl

theorem SameBut.incFld (h : SameBut fs u t) {f : Field} {i : Nat} (n : Nat) (hm : (f, i) ∈ fs) :
    SameBut fs u (t.incFld f i n) := h.setFld _ hm

/-- A conditional effect. -/
theorem SameBut.when (h : SameBut fs u t) {f : State → State} (b : Bool) (h' : SameBut fs u (f t)) :
    SameBut fs u (t.when b f) := by
  cases b
  · exact h
  · exact h'

/-- The end of a command. -/
theorem SameBut.settle (h : SameBut fs u t) (hp : u.pending = s.pending) : SameBut fs u (settle s t) := by
  obtain ⟨h1, h2, h3, h4, h5⟩ := h
  refine ⟨fun f i hf => h1 f i hf, fun a => ?_, fun l => ?_, fun a => ?_, ?_⟩
  · rw [rd_settle, h2]
  · rw [poison_settle, h3]
  · rw [mbx_settle, h4]
  · rw [← h5]; simp only [Machine.settle]; rw [hp]

theorem SameBut.trans (h : SameBut fs s u) (h' : SameBut fs u t) : SameBut fs s t := by
  obtain ⟨h1, h2, h3, h4, h5⟩ := h
  obtain ⟨k1, k2, k3, k4, k5⟩ := h'
  refine ⟨fun f i hf => (k1 f i hf).trans (h1 f i hf), fun a => (k2 a).trans (h2 a), fun l => (k3 l).trans (h3 l),
    fun a => (k4 a).trans (h4 a), ?_⟩
  rw [← k5, ← h5]

end Sys2Proof.Safety
end

