-- ==== Sys2Proof/Tests/Slice0.lean ====
section
/-! SUPPORT. Tests: ill-formed commands, values of the spec's worked examples, single steps, and for each statement states
and operands that meet its hypotheses. -/

open Sys2Proof Sys2Proof.Machine Sys2Proof.Safety

namespace Sys2Proof.Tests

set_option maxRecDepth 20000
set_option linter.unusedVariables false

/-- The state after reset with fields written. -/
def st (l : List (Field × Nat × Nat)) : State := l.foldl (fun s x => s.setFld x.1 x.2.1 x.2.2) State.reset

/-- The state after reset with a command in a context. -/
def cx (g c : Nat) (x : Ctx) : State := State.reset.setCtx g c (some x)

/-- An instruction word of format R. -/
def ins (op rd ra rb fn imm : Nat) : Nat := op * 2 ^ 56 + rd * 2 ^ 50 + ra * 2 ^ 44 + rb * 2 ^ 38 + fn * 2 ^ 32 + imm

/-- A command whose next instruction is a word. -/
def run1 (w : Nat) : Ctx := { prog := [w] }

/-- A descriptor of one run: base, KIND, length. -/
def sd1 (base kind len : Nat) : Nat := base + kind * 2 ^ 53 + len * 2 ^ 64 + 2 ^ 84 + 2 ^ 104

/-- An astream of one FP8 pass on array 0, and a flush of one output of it. -/
def asW : Nat := 0x62 * 2 ^ 56 + 2 ^ 49
def asX : Ctx := { prog := [asW], sd := [(0, sd1 0x8100000000 0 512)] }
def as0 : State := (cx 0 1 asX).setFld F.MXC_ARR_STATUS.ACT_VALID 0 1
def flW : Nat := 0x63 * 2 ^ 56 + 2 ^ 49
def flX : Ctx := { prog := [flW], sd := [(0, sd1 0x8100000000 1 4 + 2 ^ 203)], cmd := { sntq := 1 } }
def fl0 : State := cx 0 1 flX

/-- A matrix core whose weight load runs. -/
def ld0 : State := (cx 5 2 { seq := 7, streams := [⟨1, 0x60⟩] }).modCore 5 fun m => { m with loading := some (2, 7) }

/-- The shadow planes of core 0 are valid. -/
def shd0 (x : Ctx) : State := (List.range 4).foldl (fun s a => s.setFld F.MXC_ARR_STATUS.SHD_VALID a 1) (cx 0 1 x)

/-- Core 0 with one entry in queue 1 (tag 5, one instruction). -/
def dp0 : State :=
  ((((State.reset.setFld F.MXC_Qq_CTRL.EN 1 1).setFld F.MXC_Qq_RING.BASE 1 0x8100000000).setFld F.MXC_Qq_DBL.LINE 1
    0x8100002000).setQueue 1 { tail := 1 }).write 0x8100000000
      (bytesOf 8 (5 + 2 ^ 48) ++ bytesOf 8 0x8100001000 ++ bytesOf 8 (100 + 2 ^ 20))
def dpC : Cmd := { tag := 5, ninstr := 1, prog := 0x8100001000, budget := 100, sntq := 1, args := [0, 0, 0, 0, 0], q := 1 }

/-- A completion record of queue 1 waits on core 0. -/
def rc0 : Rec := { q := 1, data := [7#8], basin := 0, gen := 0, tag := 3, status := 0, cycles := 9, arrays := 4, evreq := true }

/-- A route to device 3 over link 0, the fabric on, its devices 0 to 511 of pod 0. -/
def fb0 (x : Ctx) : State :=
  ((((cx 0 1 x).setFld F.FAB_ROUTEi.VALID 3 1).setFld F.FAB_CTRL.EN 0 1).setFld F.FAB_ID.PVALID 0 1).setFld F.FAB_Ll_STATUS.STATE 0 5

/-- A message of 2 bytes stands in queue 0, whose control line is at 0x8100000000. -/
def ms0 (x : Ctx) : State :=
  (((cx 0 1 x).setFld F.FAB_MQn.BASE 0 0x8100000000).write 0x8100000000 [1#8]).write 0x8100000044 [2#8]
def msX : Ctx := { blk := .frecv 0 48, sd := [(0, sd1 0x8100001000 1 64)], cmd := { sntq := 1 } }

/-- One pass stands in array 3 of core 23. -/
def ps0 : Pass := { seq := 1, ctx := 0, pm := {}, plane := 0, entry := 1023, data := [], poison := [], init := true, masked := false }
def pa0 : State := State.reset.modCore 23 fun m => { m with passes := [(3, [ps0])] }

/-- Boot stage 6. -/
def up6 (l : List (Field × Nat × Nat)) : State := st ((F.PKG_BOOT.STAGE, 0, 6) :: l)

/-- Core 255 runs a task whose next word is `w`. -/
def dk : DTask := { plen := 8 }
def dc : DCore := { task := some dk, phase := 2 }
def ds (c : DCore) (w : Nat) : State := (State.reset.setDsp 255 c).write (dspBase 255 + 0x40000) (bytesOf 8 w)

/-- Words of formats P and C. -/
def pw (op d a b fn imm : Nat) : Nat := op * 2 ^ 56 + d * 2 ^ 52 + a * 2 ^ 48 + b * 2 ^ 44 + fn * 2 ^ 40 + imm * 2 ^ 32
def cw (op ra rb i16 i32 : Nat) : Nat := op * 2 ^ 56 + ra * 2 ^ 52 + rb * 2 ^ 48 + i16 * 2 ^ 32 + i32

/-- Core 255 with a descriptor of a CI24 transfer in of 64 bytes from radio SRAM in word 0 of Y. -/
def dma0 : State := (ds dc (cw 0xA0 1 2 7 0)).write (dspWord 255 1 0) (bytesOf 32 (sd1 0x8100000000 0 64 + 12 * 2 ^ 48))

/-- Cluster 15 with queue 1 enabled, and with one entry in it. -/
def tq0 : State := st [(F.MXC_Qq_CTRL.EN, 313, 1), (F.MXC_Qq_RING.BASE, 313, 0x8106000000), (F.RDP_CORE_STATUS.LANE, 254, 0), (F.RDP_CORE_STATUS.LANE, 240, 0)]
def tq1 : State := tq0.setQueue 313 { tail := 1 }

/-- Length byte, payload and CRC of a GFSK frame. -/
def gfskBody (pay : List Byte) : List Byte := (gfskFrame 0 0 pay).drop 4

/-- Port 0 of ED0 is enabled and linked, and its flow 0 has the entry `v`. -/
def fh0 (v : Nat) : State :=
  (st [(F.FHL_Pp_CTRL.EN, 0, 1), (F.FHL_Pp_STATUS.LINK, 0, 1)]).modEdge 0 fun e => { e with flows := [(0, v)] }

/-- The same late after symbol 5, with the entry of a flow of a kind and direction, one PRB and one frame. -/
def fhN (v : Nat) : State := (fh0 v).setFld F.TMB_NOW.NS 0 (t0Gps + 10000000)
def fhV (kind dir : Nat) : Nat := 5 + 2 ^ 16 + dir * 2 ^ 17 + kind * 2 ^ 18 + 4 * 2 ^ 28 + 2 ^ 32 + 2 ^ 192 + 2 ^ 201

/-- A frame waits in queue 6 of port 0 behind a shaper. -/
def fhOut : State :=
  ((fh0 0).setFld F.FHL_Pp_SHq.EN 6 1).modEdge 0 fun e =>
    { e with out := [(6, [{ dst := 1, src := 2, tag := none, etype := 0, len := 64, fcsOk := true, ecpri := none }])] }

/-- A frame of 64 bytes stands in the transmit ring of ED3. -/
def nqTx : State :=
  ((st [(F.PKG_NETQ_TX.EN, 3, 1), (F.PKG_NETQ_TX.BASE, 3, 0x200000000), (F.PKG_NETQ_TX.LOG2, 3, 4), (F.STR_SRAM_OWNERg.STATE, 0, 1)]).write 0x8000000000 [1#8]).write
    (0x8000000040 + 9216) [64#8]

/-- The fabric is on with both planes, link 0 ACTIVE, and device 3 reached over it. -/
def fi0 : State :=
  st [(F.FAB_CTRL.EN, 0, 1), (F.FAB_ID.PVALID, 0, 1), (F.FAB_ID.SVALID, 0, 1), (F.FAB_Ll_STATUS.STATE, 0, 5), (F.FAB_ROUTEi.VALID, 3, 1)]

/-- A request of a type to device 3 with tag 9, and the state in which it is outstanding. -/
def tx9 (ty : Nat) : Txn :=
  { tag := 9, g := 0, c := 0, seq := 1, basin := 0, job := 7, fmode := false, cmdTag := 5, rd := 4, fn := 3, ret := 0x8100000000
    pkt := { ty, dst := 3, tag := 9 }, hash := 0, clk := 0, link := some 0 }
def fiT (ty : Nat) : State := { fi0 with fab := { fi0.fab with txns := [tx9 ty] } }

/-- A replay whose ring begins with a record of a kind. -/
def rp0 (kind : Nat) : State :=
  { (st [(F.PKG_OBS_CTRL.OP, 0, 1)]).write 0 (obsHeader kind false false 0 0 0 5 0 7) with obsd := { on := true } }

/-- Source 0x440 is asserted, in service and routed to queue 0, whose ring lies in radio SRAM. -/
def ev0 : State :=
  st [(F.EVC_CTRL.EN, 0, 1), (F.EVC_SRCn.ACTIVE, 0x440, 1), (F.EVC_SRCn.INSVC, 0x440, 1), (F.EVC_SRCn.ROUTE, 0x440, 1),
    (F.EVC_Qq_BASE.LOG2, 0, 8), (F.EVC_Qq_BASE.BASE, 0, 0x810000000)]
/-- Every die powered off; no die in the package. -/
def allOff : State := (List.range 32).foldl (fun s d => s.setDieBit true d true) State.reset

/-- No die in the package. -/
def noDie : State := st [(F.PKG_DIE_EN.MD_EN, 0, 0), (F.PKG_DIE_EN.SD_EN, 0, 0), (F.PKG_DIE_EN.RD_EN, 0, 0), (F.PKG_DIE_EN.ED_EN, 0, 0)]

/-- A tick generator whose first tick has come. -/
def tk : State := { st [(F.GEY_CTRL.TICKING, 0, 1)] with gey := { next := some 0 } }

/-- The deadline monitor of RD3 is on, with the record `v` in entry 255 of its table, at 5 ns. -/
def dl5 (v : Nat) : State := ((State.reset.setRdFault 3 { dlm := 0x8106000001 }).setFld F.TMB_NOW.NS 0 5).write (0x8106000000 + 32 * 255) (bytesOf 32 v)

/-- Core 23 context 3 with one instruction and a poisoned register. -/
def rpX (k : Nat) (w : Nat) : State := cx 23 3 { prog := [w], rp := [(k, true)] }

/-- Queue 1 of core 0 with another entry. -/
def dp1 (w0 w1 w2 : Nat) : State := dp0.write 0x8100000000 (bytesOf 8 w0 ++ bytesOf 8 w1 ++ bytesOf 8 w2)

/-- A re-run waits on core 0. -/
def dpH : State := dp0.modCore 0 fun m => { m with rerun := [dpC] }

/-- A record of queue 7 waits on core 23, its basin of generation `c`. -/
def rcS (c : Nat) : State := (State.reset.setFld F.MXC_Qq_CRING.BASE 191 0x8100000000).modCore 23 fun m => { m with recs := [{ rc0 with q := 191, gen := c }] }

/-- Core 23 without the record. -/
def drop23 (r : Rec) (s : State) : State := s.modCore 23 fun m => { m with recs := m.recs.erase r }

/-- Core 23 with the record marked as waiting. -/
def hold23 (r : Rec) (s : State) : State := s.modCore 23 fun m => { m with recs := m.recs.map fun e => if e = r then { e with wait := true } else e }

/-- Core 0 context 1 with the fabric and a remote register. -/
def fx (w : Nat) (r : SMap Nat) : State := fb0 { prog := [w], r := r }

/-- A flush to v registers. -/
def fvX : Ctx := { prog := [0x63 * 2 ^ 56 + 2 ^ 49 + 32 * 2 ^ 32] }

/-- A context that waits for a load. -/
def ldX : Ctx := { blk := .load 0x8100000000 8 5 7 }

/-- A context that waits for a vector load. -/
def vlX : Ctx := { blk := .vload 15 0, sd := [(0, sd1 0x8100000000 0 64)] }

/-- Die MD0 has no power. -/
def off0 : State := State.reset.setDieBit true 0 true

/-- A replay runs. -/
def rep0 : State := { st [(F.PKG_OBS_CTRL.OP, 0, 1)] with obsd := { on := true } }

/-- Host core 5 runs for basin `b`. -/
def hc5 (b : Nat) : State := st [(F.PKG_HC_CTRLh.HALTED, 5, 0), (F.BSN_HC_OWNERh.BASIN, 5, b)]

/-- A line drains to `a` from core 23. -/
def drn (s : State) (a : Nat) : State := s.modCore 23 fun m => { m with drains := [{ seq := 1, cmd := {}, basin := 0, gen := 0, staged := [.store a [1#8] false] }] }

/-- The last page of SD0 is owned by basin 0. -/
def pgS : State := st [(F.STR_PAGE_OWNERp.STATE, 12287, 1)]

/-- A page operation runs on SD11. -/
def pgO (l k : Nat) (b : Option Nat) : State := State.reset.setStore 11 { pageOp := some (l, k, b) }

/-- A pass with the weight format FP4 and others. -/
def psB : Pass := { ps0 with pm := { fw := 7 } }

/-- A masked pass. -/
def psM : Pass := { ps0 with masked := true }

/-- A pass that ran twice. -/
def ps1 : Pass := { psB with retried := true }

/-- The pass alone in array 3 of core 23, due. -/
def paS (s : State) (p : Pass) : State := { s.modCore 23 (fun m => { m with passes := [(3, [p])] }) with gey := { s.gey with arr := 1026 * 625 } }

/-- Basin 255 is RUNNING on port 1. -/
def b255 (l : List (Field × Nat × Nat)) : State := st ([(F.BSN_STATEb.STATE, 255, 2), (F.BSN_STATEb.PORT, 255, 1)] ++ l)

/-- Slot of a mailbox owned by the consumer. -/
def own (b slot : Nat) : State := State.reset.mbxPut b (slot * 64 + 56) (bytesOf 8 (2 ^ 63))

/-- Basin 255 polls its ring on port 0. -/
def rg255 (l : List (Field × Nat × Nat)) : State := { b255 ([(F.BSN_STATEb.MODE, 255, 1), (F.BSN_STATEb.PORT, 255, 0)] ++ l) with tmb := { clk := 10 ^ 9 } }

/-- The first word of the task on core 255 is poisoned. -/
def dsP : State := { ds dc 0 with poison := [((dspBase 255 + 0x40000) / 64, 7)] }

/-- What the entry of an interrupt pushes. -/
def push5 (l : Nat) : Push := ⟨5, (true, false, true, false, true), l⟩

/-- Core 255 with a descriptor in word 0 of Y. -/
def dma1 (v : Nat) : State := (ds dc (cw 0xA0 1 2 7 0)).write (dspWord 255 1 0) (bytesOf 32 v)

/-- Doorbell pending on core 255. -/
def bell (l : Nat) (s : State) : State := (s.setFld F.RDP_CORE_STATUS.PEND 255 128).setFld ⟨.RDP_CORE_IRQ, 23, 21⟩ 255 l

/-- A transfer runs on channel 3 of core 255. -/
def dmS (kind : Nat) : State := State.reset.setDsp 255 { dc with dma := [(3, some ⟨sd1 0x8100000000 0 64 + 12 * 2 ^ 48 + kind * 2 ^ 53, 4094, true⟩)] }

/-- A job stands in an engine. -/
def eng18 (q e desc : Nat) : State := (st [(F.MXC_Qq_CTRL.EN, q, 1)]).setEngine e [⟨desc, 64, 0, none, none⟩]

/-- Unit 63 is armed as a safety unit. -/
def sf63 (last : Nat) : State := (st [(F.CRC_Uu_CTRL.ARM, 63, 1), (F.CRC_Uu_CTRL.MODE, 63, 3), (F.CRC_Uu_CTRL.TAP, 63, 21), (F.CRC_Uu_SAFE.LAST, 63, last), (F.CRC_Uu_SAFE.MAXGAP, 63, 1)]).setCrcU 63 { primed := true }

/-- Carrier 127 of bank 15 receives. -/
def gfR (l : List (Field × Nat × Nat)) : State := st ([(F.GFK_Bb_CARc_CFG.EN_RX, 2047, 1), (F.GFK_Bb_RXRING.BASE, 15, 0x204000000), (F.TMB_NOW.NS, 0, 5)] ++ l)

/-- An eCPRI header. -/
def ec0 : Ecpri := { rev := 1, concat := false, msgType := 0, eaxc := 5, seqId := 0, ebit := true, dataDirection := 0, payloadVersion := 1, extension := false, frameId := 0, subframeId := 0, slotId := 0, symbolId := 0, sections := [], raw := [] }

/-- A frame with it. -/
def frE : Frame := { dst := 0, src := 0, tag := none, etype := 0xAEFE, len := 64, fcsOk := true, ecpri := some ec0 }

/-- A request of a type to this device. -/
def rq (ty a : Nat) : Packet := { ty, src := 3, addr := 2 * 2 ^ 52 + a }

/-- A packet of a type to a device. -/
def pk (t d : Nat) : Packet := { ty := t, src := 3, dst := d }

/-- The request `tx9 2` is outstanding, and context 0 of core 0 waits for it. -/
def fiL : State := { (fiT 2).setCtx 0 0 (some { seq := 1, blk := .fload 9 4 3 }) with fab := (fiT 2).fab }

/-- A reply with data. -/
def dt (status : Nat) : Packet := { ty := 8, src := 3, tag := 9, status, payload := [5#8] }

/-- An acknowledgement. -/
def ak (status : Nat) : Packet := { ty := 9, src := 3, tag := 9, status }

/-- A packet on a link. -/
def ol (last : Nat) : OnLink := { last, pkt := { ty := 1, dst := 3 } }

/-- Link 63 in a state. -/
def lk63 (st : Nat) (k : Link) (clk : Nat) : State := { ((fi0.setFld F.FAB_Ll_STATUS.STATE 63 st).setLink 63 k) with tmb := { clk } }

/-- The device is a shadow of device 3. -/
def shd (k : LockStep) : State := { ((fi0.setFld F.PKG_LOCK_CTRL.EN 0 1).setFld F.PKG_LOCK_CTRL.ROLE 0 1).setFld F.PKG_LOCK_CTRL.PARTNER 0 3 with lock := k }

/-- A packet of lock-step. -/
def lkp (a : Nat) : Packet := { ty := 10, src := 3, addr := a, payload := bytesOf 8 5 ++ bytesOf 2 6 ++ bytesOf 8 7 ++ bytesOf 1 0 }

/-! Values that the spec's own worked examples and tables give. -/

/-- The example of R151: 0x19_2345_6780 is byte 0x48C5_6780 of SD6, channel 8, bank group 6. -/
theorem test_storeAddress : storeMap 0x1923456780 = (6, 0x48C56780) := by decide
theorem test_storeChannel : (storeCh 0x48C56780, storeBg 0x48C56780) = (8, 6) := by decide

/-- The example of R27: BAR0 offset 0x0150_0040 is region control of MD5. -/
theorem test_windowOfDie : windowDie 0x1500040 = some 5 := by decide

/-- The example of R31: 0x80_2C00_0100 is byte 0x400_0100 of MD5's scratch. -/
theorem test_scratchAddress : place 0x802C000100 = .sram 5 0x4000100 := by decide
theorem test_hole : place 0x4800000000 = .none := by decide

/-- The example of R104: MXC_ARR_STATUS of array 2 of MC1 on MD3 is at 0x136_0200. -/
theorem test_arrayStatusOffset : locate 0x1360200 = some (.MXC_ARR_STATUS, 30, 0) := by decide

/-- The example of R46: SFN 12, 3,456,789 ns into the frame. -/
theorem test_frameNumber : State.reset.sfnAt 2015964819123456789 = 12 := by decide
theorem test_framePosition : State.reset.framePos 2015964819123456789 = 3456789 := by decide

/-- The example of R229: a circular buffer of 24 words, step 3, read at 279, goes on at 258. -/
theorem test_circularBuffer : agu 279 (24 * 65536 + 3) 1 = 258 := by decide

/-- The example of R267: mean power 4,295 reads 0xFF28 (−216). -/
theorem test_noiseFloor : noiseFloor 4295 1 = -216 := by decide

/-- The example of R275: parts 1,000, −2,500 and −7 at width 9 take exponent 4. -/
theorem test_blockExponent : bfpExp 1 [1000, -2500, -7] = 4 := by decide

/-- The example of R279: symbol 19 of numerology 1 begins 678,906 ns into its subframe. -/
theorem test_symbolOffset : symNs 1 19 = 678906 := by decide

/-- The example of R331: LC 480 gives O_1, O_2, H_1, H_2 of 608, 1,184, 1,856 and 3,008 cycles. -/
theorem test_fabricBounds : let s := st [(F.FAB_HOPC.LC, 0, 480)]
    (s.oneWay 1, s.oneWay 2, s.roundTrip 1, s.roundTrip 2) = (608, 1184, 1856, 3008) := by decide

/-- The example of R92: INT8 parts (3, −5, 7) and (4, 2, −6) sum to −40. -/
def int8 : PassMode := { fa := 5, fw := 5, kv := 3 }
theorem test_int8Products : ((colExact int8 [3#8, -5#8, 7#8] { fmt := 5, data := 4#8 :: List.replicate 511 0 ++ 2#8 :: List.replicate 511 0 ++ [-6#8] } 0 {}).sum) = -40 := by decide

/-- FIPS 197 gives S-box entry 0x53 as 0xED (R165 names AES-256). -/
theorem test_aesSBox : aesSub 0x53 = 0xED ∧ aesSubInv 0xED = 0x53 := by decide

/-! One step of a command -/

/-- `add` of format R wraps at 64 bits (opcode 0x20, FN 0). -/
theorem test_addWraps : (((scalarOp 0 1 (cx 0 1 { prog := [ins 0x20 2 1 1 0 0], r := [(1, 2 ^ 63)] })).ctx 0 1).map
    fun x => (x.val 2, x.pc)) = some (0, 1) := by decide

/-- FN[5] takes the immediate, sign-extended: 5 + (−1), its destination its source. -/
theorem test_addImmediate : (((scalarOp 0 1 (cx 0 1 { prog := [ins 0x20 1 1 0 32 0xFFFFFFFF], r := [(1, 5)] })).ctx 0 1).map
    fun x => x.val 1) = some 4 := by decide

/-- FN 1 of opcode 0x21 is the signed high half: −1 × −1 has high half 0. -/
theorem test_mulhSigned : (((mul 3 0 (cx 3 0 { prog := [ins 0x21 2 1 1 1 0], r := [(1, 2 ^ 64 - 1)] })).ctx 3 0).map
    fun x => x.val 2) = some 0 := by decide

/-- li sign-extends its 48 bits. -/
theorem test_liSignExtends : (((li 0 1 (cx 0 1 { prog := [0x22 * 2 ^ 56 + 4 * 2 ^ 50 + (2 ^ 48 - 2)] })).ctx 0 1).map
    fun x => x.val 4) = some (2 ^ 64 - 2) := by decide

/-- dbnz falls through where its counter reaches 0, and blt compares signed. -/
theorem test_dbnzFallsThrough : (((dbnz 0 1 (cx 0 1 { prog := [ins 8 0 1 0 0 5, 0], r := [(1, 1)] })).ctx 0 1).map
    fun x => (x.val 1, x.pc)) = some (0, 1) := by decide
theorem test_bltSigned : (((blt 0 1 (cx 0 1 { prog := [ins 6 0 1 2 0 3, 0, 0, 0], r := [(1, 2 ^ 64 - 1), (2, 1)] })).ctx 0 1).map
    fun x => x.pc) = some 3 := by decide

/-- A write of a register leaves RO fields and clears RW1C bits written 1 (R8). -/
theorem test_readOnlyStays : (registerWrite (.pf 0) (.bar0 0x108010) true 77 State.reset).fld F.GEY_TICK.TICK = 0 := by decide

/-- A lower half is held; the upper half applies both (R461). -/
theorem test_lowerHalfIsHeld : (lowHalfWrite (.pf 0) (.bar0 0x100108) 3 State.reset).fld F.TMB_TRIGn_START.START 0 = 0 := by decide
theorem test_halvesApplyTogether : (highHalfWrite (.pf 0) (.bar0 0x100108) 2 (lowHalfWrite (.pf 0) (.bar0 0x100108) 3 State.reset)).fld
    F.TMB_TRIGn_START.START 0 = 0x200000003 := by decide

/-- A command that names a context that does not exist is refused. -/
theorem test_refusal : exec (.nop 0 4) State.reset = .refused .illFormed := by rfl

/-! Ill-formed commands, one term for each check. -/

/-- A packet, a frame and a link partner. -/
def pk0 : Packet := { ty := 4 }
def fr0 : Frame := { dst := 1, src := 2, tag := none, etype := 0, len := 64, fcsOk := true, ecpri := none }
def pt0 : Partner := { sysid := 1, plink := 0, native := 0, lm := 0 }

/-- Commands `registerWrite` to `bar2Write` naming a unit outside its range. -/
theorem test_illFormed_registerWrite : ([
    .registerWrite (.pf 2) (.bar0 0) false 0, .registerWrite (.vf 2 1) (.bar0 0) false 0, .registerWrite (.vf 0 0) (.bar0 0) false 0,
    .registerWrite (.vf 0 256) (.bar0 0) false 0, .registerWrite (.hc 64) (.bar0 0) false 0, .registerWrite (.pf 0) (.bar0 0x4000000) false 0,
    .registerWrite (.pf 0) (.bar0 2) false 0, .registerWrite (.pf 0) (.sys 64 0xC00) false 0, .registerWrite (.pf 0) (.sys 0 0xBFF) false 0,
    .registerWrite (.pf 0) (.sys 0 0xC0E) false 0, .registerWrite (.pf 0) (.sriov 2) false 0, .registerWrite (.pf 0) (.ats 2 0) false 0,
    .registerWrite (.pf 0) (.ats 0 256) false 0, .registerWrite (.pf 0) (.vfBar2 0 0) false 0, .registerWrite (.pf 0) (.vfBar2 256 0) false 0,
    .registerWrite (.pf 0) (.vfBar2 1 0x2000) false 0, .registerWrite (.pf 0) (.vfBar2 1 2) false 0, .registerReadClear (.pf 2) (.bar0 0),
    .registerReadClear (.pf 0) (.bar0 0x4000000), .lowHalfRead (.pf 2) (.bar0 0), .lowHalfRead (.pf 0) (.bar0 0x4000000),
    .highHalfRead (.pf 2) (.bar0 0), .highHalfRead (.pf 0) (.bar0 0x4000000), .lowHalfWrite (.pf 2) (.bar0 0) 0,
    .lowHalfWrite (.pf 0) (.bar0 0x4000000) 0, .highHalfWrite (.pf 2) (.bar0 0) 0, .highHalfWrite (.pf 0) (.bar0 0x4000000) 0,
    .bar2Read 2 0 0 .clean, .bar2Read 0 0x1000000000 0 .clean, .bar2Write 2 0 [] false .clean] : List Instr).all (fun i => !i.wf) = true := by decide

/-- Commands `bar2Write` to `passCommit` naming a unit outside its range. -/
theorem test_illFormed_bar2Write : ([
    .bar2Write 0 0x1000000000 [] false .clean, .bar2BaseWrite 2 0, .routerFence 12 [],
    .routerFence 23 [], .routerFence 32 [], .regionFence 32,
    .blockFence 32 0, .blockFence 0 16, .fenceRelease (.region 0) 4,
    .fenceRelease (.region 32) 0, .fenceRelease (.router 12) 0, .fenceRelease (.router 23) 0,
    .fenceRelease (.router 32) 0, .fenceRelease (.block 32 0) 0, .fenceRelease (.block 0 16) 0,
    .fenceRelease (.tile 32 0 0) 0, .fenceRelease (.tile 0 16 0) 0, .fenceRelease (.tile 0 0 128) 0,
    .diePowerOff 32, .diePowerOn 32, .tmbNowRead (.pf 2),
    .tmbNowFracRead (.pf 2), .ppsEdge ⟨8, true⟩, .trigArm 4 0,
    .trigDisarm 4 0, .trigEdge 4, .trigPulseEnd 4,
    .timebaseTakeover 3, .passCommit 24 0 [], .passCommit 0 4 []] : List Instr).all (fun i => !i.wf) = true := by decide

/-- Commands `weightLoadEnd` to `mul` naming a unit outside its range. -/
theorem test_illFormed_weightLoadEnd : ([
    .weightLoadEnd 24, .columnMapOut 24 0, .columnMapOut 0 4,
    .missCountClear 24 0 0, .missCountClear 0 4 0, .missCountClear 0 0 520,
    .arrInjectArm 24 0 0, .arrInjectArm 0 4 0, .scrubEnd 24,
    .nop 24 0, .nop 0 4, .j 24 0,
    .j 0 4, .jal 24 0, .jal 0 4,
    .jr 24 0, .jr 0 4, .beq 24 0,
    .beq 0 4, .bne 24 0, .bne 0 4,
    .blt 24 0, .blt 0 4, .bge 24 0,
    .bge 0 4, .dbnz 24 0, .dbnz 0 4,
    .scalarOp 24 0, .scalarOp 0 4, .mul 24 0] : List Instr).all (fun i => !i.wf) = true := by decide

/-- Commands `mul` to `accflush` naming a unit outside its range. -/
theorem test_illFormed_mul : ([
    .mul 0 4, .li 24 0, .li 0 4,
    .ld 24 0, .ld 0 4, .st 24 0,
    .st 0 4, .rdsys 24 0, .rdsys 0 4,
    .sdld 24 0, .sdld 0 4, .sdset 24 0,
    .sdset 0 4, .scopy 24 0, .scopy 0 4,
    .swait 24 0, .swait 0 4, .loadReturn 24 0 [] false,
    .loadReturn 0 4 [] false, .streamEnd 24 0 0, .streamEnd 0 4 0,
    .streamEnd 0 0 8, .wload 24 0, .wload 0 4,
    .wswap 24 0, .wswap 0 4, .astream 24 0,
    .astream 0 4, .accflush 24 0, .accflush 0 4] : List Instr).all (fun i => !i.wf) = true := by decide

/-- Commands `accinit` to `commit` naming a unit outside its range. -/
theorem test_illFormed_accinit : ([
    .accinit 24 0, .accinit 0 4, .vop 24 0 false,
    .vop 0 4 false, .vld 24 0, .vld 0 4,
    .vst 24 0, .vst 0 4, .vred 24 0 false,
    .vred 0 4 false, .vimg 24 0, .vimg 0 4,
    .vtopk 24 0 false, .vtopk 0 4 false, .vdigest 24 0,
    .vdigest 0 4, .signal 24 0, .signal 0 4,
    .wait 24 0, .wait 0 4, .semaphoreGrant 24 0,
    .semaphoreGrant 0 4, .tickwait 24 0, .tickwait 0 4,
    .tickwaitRelease 24 0, .tickwaitRelease 0 4, .fbar 24 0,
    .fbar 0 4, .commit 24 0, .commit 0 4] : List Instr).all (fun i => !i.wf) = true := by decide

/-- Commands `cabort` to `semOwnerWrite` naming a unit outside its range. -/
theorem test_illFormed_cabort : ([
    .cabort 24 0, .cabort 0 4, .fload 24 0,
    .fload 0 4, .fstore 24 0, .fstore 0 4,
    .fatom 24 0, .fatom 0 4, .finv 24 0,
    .finv 0 4, .fsend 24 0, .fsend 0 4,
    .frecv 24 0, .frecv 0 4, .frecvMessageReserve 24 0,
    .frecvMessageReserve 0 4, .dispatch 24 0, .dispatch 0 8,
    .commitPoint 24 0, .commitPoint 0 4, .drainEnd 24,
    .completionRecordWrite 40 0, .completionRecordWrite 0 8, .budgetExceeded 24 0,
    .budgetExceeded 0 4, .radioRsvWrite 24 0, .radioRsvApply 24,
    .semSignalWrite 24 0, .semOwnerWrite 24 0 0, .semOwnerWrite 0 4096 0] : List Instr).all (fun i => !i.wf) = true := by decide

/-- Commands `memoryRead` to `keyOpEnd` naming a unit outside its range. -/
theorem test_illFormed_memoryRead : ([
    .memoryRead (.core 0 0) 0x1000000000000 0 .clean, .memoryRead (.pf 2) 0 0 .clean, .memoryRead (.hc 64) 0 0 .clean,
    .memoryRead (.core 24 0) 0 0 .clean, .memoryRead (.dsp 256) 0 0 .clean, .memoryWrite (.core 0 0) 0x1000000000000 [] false .clean,
    .memoryWrite (.pf 2) 0 [] false .clean, .refresh 12 0 0, .refresh 0 16 0,
    .refresh 0 0 8, .patrolRead (.mem 0x1000000000000) .clean false false, .bankGroupSparing 12 0 0,
    .bankGroupSparing 0 16 0, .bankGroupSparing 0 0 8, .sparingCopyEnd 12,
    .pageAssign 12 0, .pageRelease 12 0, .pageZeroingEnd 12,
    .deferredPageRelease 12 0, .deferredPageRelease 0 12416, .sramGranuleAssign 12 0 0,
    .sramGranuleAssign 0 128 0, .sramGranuleRelease 12 0 0, .sramGranuleRelease 0 128 0,
    .sramZeroingEnd 12 0, .sramZeroingEnd 0 128, .keyGenerate 12 0,
    .keyLoad 12 0, .keyDestroy 12 0, .keyOpEnd 12] : List Instr).all (fun i => !i.wf) = true := by decide

/-- Commands `tickProgramRead` to `dspNop` naming a unit outside its range. -/
theorem test_illFormed_tickProgramRead : ([
    .tickProgramRead 24, .windowStart 24, .handBack 24,
    .doorbellWrite 392 false 0, .queueEnable 392 0, .queueDisable 392 0,
    .queueBasinWrite 392 0, .basinResetEnd 256, .basinRemovalEnd 256,
    .vfDisable 2 false 0, .vfFlr 2 1, .vfFlr 0 256,
    .vfFlr 0 0, .mailboxWrite (.pf 0) 256 0 [], .mailboxWrite (.pf 0) 0 4096 [],
    .mailboxWrite (.pf 2) 0 0 [], .upDoorbell (.pf 0) 256 0 0, .upDoorbell (.pf 0) 0 32 0,
    .upDoorbell (.pf 2) 0 0 0, .downDoorbell (.pf 0) 256 0 0 false, .downDoorbell (.pf 0) 0 32 0 false,
    .downDoorbell (.pf 2) 0 0 0 false, .ringPoll 256 [] [] false, .modeWrite 256 0,
    .modeChange 256, .hostCoreOwnerWrite 64 0, .hostCoreClearEnd 64,
    .dspSpareMap 4 0, .dspSpareMap 0 2, .dspNop 256] : List Instr).all (fun i => !i.wf) = true := by decide

/-- Commands `dspJ` to `rti` naming a unit outside its range. -/
theorem test_illFormed_dspJ : ([
    .dspJ 256, .jsr 256, .rts 256,
    .bCc 256, .loop 256, .dspEnd 256,
    .dspTickwait 256, .dspTickwaitRelease 256, .cmac 256 false,
    .cmpy 256 false, .rmac 256 false, .cpow 256 false,
    .xop 256 false, .aop 256 false, .cmp 256 false,
    .mvr 256 false, .mva 256 false, .nrm 256 false,
    .rcp 256 false, .bcast 256 false, .dspLi 256,
    .addi 256, .mvix 256, .dma 256,
    .dmaEnd 256 0, .dmaEnd 0 4, .dwait 256,
    .eng 256, .msig 256, .rti 256] : List Instr).all (fun i => !i.wf) = true := by decide

/-- Commands `ilvl` to `safetyMessage` naming a unit outside its range. -/
theorem test_illFormed_ilvl : ([
    .ilvl 256, .iclr 256, .interruptEntry 256,
    .dspTimerExpire 256, .dspTimerWrite 256 0, .dspDoorbellWrite 256 0,
    .dspTaskDispatch 16 0 0, .dspTaskDispatch 0 8 0, .dspTaskDispatch 0 0 16,
    .dspTaskLoadEnd 256, .dspOutputCopyEnd 256, .dspTaskBudgetExceeded 256,
    .dspTickProgramRead 16, .ldpcDecodeJob 4 0 [], .ldpcDecodeJob 0 18 [],
    .ldpcEncodeJob 4 0 [], .ldpcEncodeJob 0 18 [], .polarJob 4 0 false,
    .polarJob 0 18 false, .engineJobEnd 4 0, .engineJobEnd 0 18,
    .crcArm 4 0 0, .crcArm 0 16 0, .crcDisarm 4 0 0,
    .crcDisarm 0 16 0, .crcFrameEnd 4 0 [] false false, .crcFrameEnd 0 16 [] false false,
    .crcRunWrite 4 0 0, .crcRunWrite 0 16 0, .safetyMessage 4 0 []] : List Instr).all (fun i => !i.wf) = true := by decide

/-- Commands `safetyMessage` to `macDelete` naming a unit outside its range. -/
theorem test_illFormed_safetyMessage : ([
    .safetyMessage 0 16 [], .safetyTimeout 4 0, .safetyTimeout 0 16,
    .eqChange 4 0, .eqChange 0 96, .gfskFrameReceived 4 0 0 ⟨0, 0⟩ [] 0 0,
    .gfskFrameReceived 0 4 0 ⟨0, 0⟩ [] 0 0, .gfskFrameReceived 0 0 128 ⟨0, 0⟩ [] 0 0, .gfskTxRecord 4 0,
    .gfskTxRecord 0 4, .gfskNoiseReport 4 0 [], .gfskNoiseReport 0 4 [],
    .frameReceive 16 fr0, .symbolDone 4 0 0, .symbolDone 0 4096 0,
    .downlinkReadyCheck 4 0 0, .downlinkReadyCheck 0 4096 0, .downlinkSend 4 0 0,
    .downlinkSend 0 4096 0, .cplaneReadyCheck 4 0 0, .cplaneReadyCheck 0 4096 0,
    .cplaneSend 4 0 0, .cplaneSend 0 4096 0, .gfskDownlinkSend 4 0,
    .gfskDownlinkSend 0 4096, .macAgeRemoval 4 0 0, .macAgeRemoval 0 0x1000000000000 0,
    .macAgeRemoval 0 0 4096, .macPin 4, .macDelete 4] : List Instr).all (fun i => !i.wf) = true := by decide

/-- Commands `macRead` to `detModeLoss` naming a unit outside its range. -/
theorem test_illFormed_macRead : ([
    .macRead 4, .macFlushAll 4, .macFlushPort 4,
    .macFlushEnd 4, .egressTransmit 4 0, .egressTransmit 0 5,
    .shaperWrite 4 0 0 0, .shaperWrite 0 4 0 0, .shaperWrite 0 0 7 0,
    .policerWrite 4 0 0 0, .policerWrite 0 64 0 0, .policerWrite 0 0 4 0,
    .linkEnable 64 0, .linkRetrain 64 0, .linkTrainingEnd 64 pt0,
    .flitReceive 64 0 0 false, .replayRequest 64 0, .linkDown 64 0,
    .linkDown 0 4, .fabricRdl 64 pk0, .fabricRds 64 pk0,
    .fabricWr 64 pk0 .clean, .fabricAtom 64 pk0 .clean, .fabricMsg 64 pk0,
    .barrierReleaseApply 4096, .barrierTimeout 4096, .routeWrite true 16 0,
    .routeWrite false 512 0, .ftidWrite 256 0, .detModeLoss 4] : List Instr).all (fun i => !i.wf) = true := by decide

/-- Commands `detModeLoss` to `atsInvalidation` naming a unit outside its range. -/
theorem test_illFormed_detModeLoss : ([
    .detModeLoss 0, .digestClear 24 0, .digestClear 0 16,
    .sequencerMismatch 24, .bridgeFlitResend 12 false, .bridgeFlitResend 23 false,
    .bridgeFlitResend 32 false, .slotControlMiss 4, .deadlineMarginCheck 4 0,
    .deadlineMarginCheck 0 256, .deadlineCheck 4 0, .deadlineCheck 0 256,
    .tickMissing 32, .clockFault 32 ⟨0, 0⟩, .clockFault 0 ⟨3, 0⟩,
    .railFault ⟨9, []⟩, .heartbeatMiss 32, .faultInject 32 0,
    .linkseq 64 0, .linkseqTimeout 64, .lstate 512 0 0 0,
    .lstate 0 64 0 0, .lstate 0 0 8 0, .lview 512 [],
    .vote 5 0 0, .vote 0 512 0, .testRunEnd 0 4,
    .pcieConventionalReset 2, .pfFlr 2, .atsInvalidation 2 0 0 0] : List Instr).all (fun i => !i.wf) = true := by decide

/-- Commands `atsInvalidation` to `thermalFault` naming a unit outside its range. -/
theorem test_illFormed_atsInvalidation : ([
    .atsInvalidation 0 256 0 0, .atsInvalidation 0 0 0x800000000 0, .atsInvalidationDone 2,
    .hostCoreAccess 64 0 0 false [] false .clean, .hostCoreAccess 0 0x1000000000000 0 false [] false .clean, .hostCoreStart 64 0,
    .hostCoreHalt 64 0, .hcTimecmpWrite 64 0, .hcTimerExpire 64,
    .hcInterruptAck 64 0, .hsRandRead 64, .eventServiceTake 64,
    .d2hFlagRaise 64 0, .d2hFlagRaise 0 8, .pairEnable 32 0,
    .pairMismatch 32, .hcDoorbell 64 0, .netqTransmit 4,
    .eventCompletion 2 0 false, .eventQueueHeadWrite 2 0, .pgInput 9 false,
    .pgInput 0 false, .dieRelease 6, .dieRelease 0,
    .calUserWrite 256 0, .throttleStep 12 0 false, .throttleStepUp 12,
    .arrayClockGate 24 0, .arrayClockGate 0 4, .thermalFault 32] : List Instr).all (fun i => !i.wf) = true := by decide

/-- Commands `criticalTemperature` to `dspCoreClockGate` naming a unit outside its range. -/
theorem test_illFormed_criticalTemperature : ([
    .patrolRead (.cache 12 0 0) .clean false false, .patrolRead (.cache 0 0 8) .clean false false, .memoryRead (.core 0 4) 0 0 .clean,
    .criticalTemperature 32, .fronthaulLinkChange 16 false false, .lightReturn 64,
    .regionHeartbeat 32, .thermalSensorSample 32 0 0, .dspCoreClockGate 256] : List Instr).all (fun i => !i.wf) = true := by decide

/-! States and operands that meet the hypotheses of each statement. -/

/-- The hypotheses of `Obligations.CounterCommandsComplete`, clause by clause. -/
theorem meets_counterCommandsComplete :
    (∃ (s : State) (v : Word), s.flag F.GEY_CTRL.RUN = false ∧ s.flag F.GEY_CTRL.TICKING = false) ∧
    (∃ (s : State) (v : Word), (s.flag F.GEY_CTRL.RUN = true ∨ s.flag F.GEY_CTRL.TICKING = true)) ∧
    (∃ (s : State) (v : Word), s.flag F.GEY_CTRL.RUN = false ∧ s.flag F.GEY_CTRL.TICKING = false) ∧
    (∃ (s : State) (v : Word), (s.flag F.GEY_CTRL.RUN = true ∨ s.flag F.GEY_CTRL.TICKING = true)) ∧
    (∃ (s : State) (r : Req), r.wf = true) ∧
    (∃ (s : State) (r : Req) (v : Nat), r.wf = true ∧ s.latched r fracKey = some v) ∧
    (∃ (s : State) (r : Req), r.wf = true ∧ s.latched r fracKey = none) :=
  ⟨⟨State.reset, 0, by decide⟩,
    ⟨(State.reset).setFld F.GEY_CTRL.RUN 0 1, 0, by decide⟩,
    ⟨State.reset, 0, by decide⟩,
    ⟨(State.reset).setFld F.GEY_CTRL.RUN 0 1, 0, by decide⟩,
    ⟨State.reset, .hc 63, by decide⟩,
    ⟨tmbNowRead (.vf 1 255) State.reset, .vf 1 255, 0, by decide⟩,
    ⟨State.reset, .hc 63, by decide⟩⟩

/-- The hypotheses of `Obligations.TimeDisciplineComplete`, clause by clause. -/
theorem meets_timeDisciplineComplete :
    (∃ (s : State) (e : PpsEdge), e.sub < 8 ∧ (s.flag F.TMB_CTRL.PPS_EN = false ∨ e.rising = s.flag F.TMB_CTRL.PPS_POL)) ∧
    (∃ (s : State) (e : PpsEdge), e.sub < 8 ∧ s.flag F.TMB_CTRL.PPS_EN = true ∧ e.rising ≠ s.flag F.TMB_CTRL.PPS_POL ∧ s.tmb.edgeSeen = true
        ∧ s.u08 e.sub < s.tmb.edgeU + 625000000) ∧
    (∃ (s : State) (e : PpsEdge), e.sub < 8 ∧ s.flag F.TMB_CTRL.PPS_EN = true ∧ e.rising ≠ s.flag F.TMB_CTRL.PPS_POL
        ∧ (s.tmb.edgeSeen = false ∨ s.tmb.edgeU + 625000000 ≤ s.u08 e.sub) ∧ s.flag F.TMB_TOD_SEC.VALID = false) ∧
    (∃ (s : State) (e : PpsEdge), e.sub < 8 ∧ s.flag F.TMB_CTRL.PPS_EN = true ∧ e.rising ≠ s.flag F.TMB_CTRL.PPS_POL
        ∧ (s.tmb.edgeSeen = false ∨ s.tmb.edgeU + 625000000 ≤ s.u08 e.sub) ∧ s.flag F.TMB_TOD_SEC.VALID = true ∧ s.stopped = true) ∧
    (∃ (s : State) (e : PpsEdge), e.sub < 8 ∧ s.flag F.TMB_CTRL.PPS_EN = true ∧ e.rising ≠ s.flag F.TMB_CTRL.PPS_POL
        ∧ (s.tmb.edgeSeen = false ∨ s.tmb.edgeU + 625000000 ≤ s.u08 e.sub) ∧ s.flag F.TMB_TOD_SEC.VALID = true ∧ s.stopped = false) ∧
    (∃ (s : State) (m : List Byte), s.flag F.TMB_CTRL.TOD_EN = true ∧ todOk m s = true) ∧
    (∃ (s : State) (m : List Byte), s.flag F.TMB_CTRL.TOD_EN = true ∧ todOk m s = false) ∧
    (∃ (s : State) (m : List Byte), s.flag F.TMB_CTRL.TOD_EN = false) ∧
    (∃ (s : State), s.flag F.TMB_STATUS.PPS_MISS = false ∧ s.tmb.edgeU + 1875000000 ≤ s.u08 ∧ s.pwr.backup = false) ∧
    (∃ (s : State) (cause : Nat), cause < 3 ∧ s.tmb.onReplica = false ∧ s.masterFailed cause = true) ∧
    (∃ (s : State) (cause : Nat), cause < 3 ∧ (s.tmb.onReplica = true ∨ s.masterFailed cause = false)) ∧
    (∃ (s : State), s.flag F.TMB_STATUS.REF_LOSS = false ∧ s.pwr.backup = false) ∧
    (∃ (s : State), s.flag F.TMB_STATUS.REF_LOSS = true) ∧
    (∃ (s : State), s.flag F.TMB_STATUS.REF_LOSS = true ∧ s.tmb.lastLoss + 156250 ≤ s.tmb.clk) :=
  ⟨⟨({ st [(F.TMB_CTRL.PPS_EN, 0, 1)] with tmb := { edgeSeen := true } }).setFld F.TMB_CTRL.PPS_EN 0 0, ⟨7, true⟩, by decide⟩,
    ⟨{ st [(F.TMB_CTRL.PPS_EN, 0, 1)] with tmb := { edgeSeen := true } }, ⟨7, true⟩, by decide⟩,
    ⟨{ st [(F.TMB_CTRL.PPS_EN, 0, 1)] with tmb := { edgeSeen := true, clk := 78125000 } }, ⟨7, true⟩, by decide⟩,
    ⟨((({ st [(F.TMB_CTRL.PPS_EN, 0, 1)] with tmb := { edgeSeen := true, clk := 78125000 } }).setFld F.TMB_CTRL.PPS_EN 0 1).setFld F.TMB_TOD_SEC.VALID 0 1).setFld F.GEY_CTRL.RUN 0 0,
      ⟨7, true⟩, by decide⟩,
    ⟨((({ st [(F.TMB_CTRL.PPS_EN, 0, 1)] with tmb := { edgeSeen := true, clk := 78125000 } }).setFld F.TMB_CTRL.PPS_EN 0 1).setFld F.TMB_TOD_SEC.VALID 0 1).setFld F.GEY_CTRL.RUN 0 1,
      ⟨7, true⟩, by decide⟩,
    ⟨({ st [(F.TMB_CTRL.PPS_EN, 0, 1)] with tmb := { edgeSeen := true } }).setFld F.TMB_CTRL.TOD_EN 0 1,
      [0xC5#8, 0x3A#8, 1#8, 0#8, 0#8, 0#8, 0#8, 0#8, 0#8, 0#8, 1#8, BitVec.ofNat 8 (crc8 [0xC5#8, 0x3A#8, 1#8, 0#8, 0#8, 0#8, 0#8, 0#8, 0#8, 0#8, 1#8])],
      by decide⟩,
    ⟨({ st [(F.TMB_CTRL.PPS_EN, 0, 1)] with tmb := { edgeSeen := true } }).setFld F.TMB_CTRL.TOD_EN 0 1, [0xC5#8], by decide⟩,
    ⟨{ st [(F.TMB_CTRL.PPS_EN, 0, 1)] with tmb := { edgeSeen := true } },
      [0xC5#8, 0x3A#8, 1#8, 0#8, 0#8, 0#8, 0#8, 0#8, 0#8, 0#8, 1#8, BitVec.ofNat 8 (crc8 [0xC5#8, 0x3A#8, 1#8, 0#8, 0#8, 0#8, 0#8, 0#8, 0#8, 0#8, 1#8])],
      by decide⟩,
    ⟨{ st [(F.TMB_STATUS.LOCK, 0, 2)] with tmb := { clk := 234375000 } }, by decide⟩,
    ⟨{ st [(F.TMB_CTRL.PPS_EN, 0, 1)] with tmb := { edgeSeen := true } }, 1, by decide⟩,
    ⟨{ st [(F.TMB_CTRL.PPS_EN, 0, 1)] with tmb := { edgeSeen := true } }, 2, by decide⟩,
    ⟨{ st [(F.TMB_CTRL.PPS_EN, 0, 1)] with tmb := { edgeSeen := true } }, by decide⟩,
    ⟨({ st [(F.TMB_CTRL.PPS_EN, 0, 1)] with tmb := { edgeSeen := true } }).setFld F.TMB_STATUS.REF_LOSS 0 1, by decide⟩,
    ⟨({ st [(F.TMB_CTRL.PPS_EN, 0, 1)] with tmb := { edgeSeen := true, clk := 78125000 } }).setFld F.TMB_STATUS.REF_LOSS 0 1, by decide⟩⟩

/-- The hypotheses of `Obligations.TickGeneratorCommandsComplete`, clause by clause. -/
theorem meets_tickGeneratorCommandsComplete :
    (∃ (s : State) (v : BitVec 32), s.flag F.GEY_CTRL.RUN = false ∧ s.flag F.GEY_CTRL.TICKING = false
        ∧ (s.fld F.TMB_STATUS.LOCK = 2 ∨ bit v.toNat 1 = true)) ∧
    (∃ (s : State) (v : BitVec 32), s.flag F.GEY_CTRL.RUN = false ∧ s.flag F.GEY_CTRL.TICKING = true
        ∧ (s.fld F.TMB_STATUS.LOCK = 2 ∨ bit v.toNat 1 = true)) ∧
    (∃ (s : State) (v : BitVec 32), s.flag F.GEY_CTRL.RUN = false ∧ s.fld F.TMB_STATUS.LOCK ≠ 2 ∧ bit v.toNat 1 = false) ∧
    (∃ (s : State) (v : BitVec 32), s.flag F.GEY_CTRL.RUN = true ∧ s.flag F.GEY_CTRL.TICKING = true) ∧
    (∃ (s : State) (v : BitVec 32), s.flag F.GEY_CTRL.RUN = true ∧ s.flag F.GEY_CTRL.TICKING = false) ∧
    (∃ (s : State) (b : Nat), s.gey.stopAt = some b ∧ b ≤ s.now) ∧
    (∃ (s : State) (x : Nat), s.gey.next = some x ∧ x * 2 ^ 32 < s.now * 2 ^ 32 + s.fld F.TMB_NOW_FRAC.FRAC + s.tmb.incr ∧ s.gey.stopAt = none) ∧
    (∃ (s : State) (v : BitVec 32), bit v.toNat 0 = s.flag F.GEY_CTRL.RUN
        ∧ (bits v.toNat 5 4 ≠ s.fld F.GEY_CTRL.PERIOD_NEXT ∨ bits v.toNat 25 16 ≠ s.fld F.GEY_CTRL.APPLY_SFN) ∧ bits v.toNat 5 4 ≠ s.fld F.GEY_CTRL.PERIOD) ∧
    (∃ (s : State) (v : BitVec 32), bit v.toNat 0 = s.flag F.GEY_CTRL.RUN
        ∧ (bits v.toNat 5 4 ≠ s.fld F.GEY_CTRL.PERIOD_NEXT ∨ bits v.toNat 25 16 ≠ s.fld F.GEY_CTRL.APPLY_SFN) ∧ bits v.toNat 5 4 = s.fld F.GEY_CTRL.PERIOD) ∧
    (∃ (s : State) (b : Nat), s.gey.chgAt = some b ∧ b ≤ s.now) ∧
    (∃ (s : State) (v : BitVec 32), s.flag F.GEY_CTRL.RUN = false ∧ s.flag F.GEY_CTRL.TICKING = false) ∧
    (∃ (s : State) (v : BitVec 32), (s.flag F.GEY_CTRL.RUN = true ∨ s.flag F.GEY_CTRL.TICKING = true)) ∧
    (∃ (s : State), s.gey.marginPend = some true) :=
  ⟨⟨st [(F.TMB_STATUS.LOCK, 0, 2)], 0x10, by decide⟩,
    ⟨(((st [(F.TMB_STATUS.LOCK, 0, 2)]).setFld F.GEY_CTRL.RUN 0 0).setFld F.GEY_CTRL.TICKING 0 1).setFld F.TMB_STATUS.LOCK 0 2, 0x10, by decide⟩,
    ⟨((st [(F.TMB_STATUS.LOCK, 0, 2)]).setFld F.GEY_CTRL.RUN 0 0).setFld F.TMB_STATUS.LOCK 0 0, 0x10, by decide⟩,
    ⟨((st [(F.TMB_STATUS.LOCK, 0, 2)]).setFld F.GEY_CTRL.RUN 0 1).setFld F.GEY_CTRL.TICKING 0 1, 0x10, by decide⟩,
    ⟨((st [(F.TMB_STATUS.LOCK, 0, 2)]).setFld F.GEY_CTRL.RUN 0 1).setFld F.GEY_CTRL.TICKING 0 0, 0x10, by decide⟩,
    ⟨{ st [(F.GEY_CTRL.TICKING, 0, 1)] with gey := { stopAt := some 0 } }, 0, by decide⟩,
    ⟨{ State.reset with gey := { next := some 6 } }, 6, by decide⟩,
    ⟨st [(F.TMB_STATUS.LOCK, 0, 2)], 0x20, by decide⟩,
    ⟨{ st [(F.GEY_CTRL.PERIOD_NEXT, 0, 3)] with gey := { chgAt := some 0 } }, 0x10, by decide⟩,
    ⟨{ st [(F.GEY_CTRL.PERIOD_NEXT, 0, 3)] with gey := { chgAt := some 0 } }, 0, by decide⟩,
    ⟨st [(F.TMB_STATUS.LOCK, 0, 2)], 0x10, by decide⟩,
    ⟨(st [(F.TMB_STATUS.LOCK, 0, 2)]).setFld F.GEY_CTRL.RUN 0 1, 0x10, by decide⟩,
    ⟨{ State.reset with gey := { marginPend := some true } }, by decide⟩⟩

/-- The hypotheses of `Obligations.TriggerCommandsComplete`, clause by clause. -/
theorem meets_triggerCommandsComplete :
    (∃ (s : State) (n : Nat) (v : BitVec 32), n < 4 ∧ s.flag F.TMB_TRIGn_CTRL.ARM n = false ∧ (trigFields n v.toNat s).armBad n = false) ∧
    (∃ (s : State) (n : Nat) (v : BitVec 32), n < 4 ∧ s.flag F.TMB_TRIGn_CTRL.ARM n = false ∧ (trigFields n v.toNat s).armBad n = true) ∧
    (∃ (s : State) (n : Nat) (v : BitVec 32), n < 4 ∧ s.flag F.PKG_LOCK_CTRL.EN = false) ∧
    (∃ (s : State) (n : Nat) (v : BitVec 32), n < 4 ∧ (s.trigSt n).pulseEnd = none) ∧
    (∃ (s : State) (n x : Nat), n < 4 ∧ (s.trigSt n).kept = none ∧ (s.trigSt n).next = some x
        ∧ x * 2 ^ 32 < (s.now * 2 ^ 32 + s.fld F.TMB_NOW_FRAC.FRAC + s.tmb.incr) * 10 ∧ s.pwr.backup = false ∧ s.flag F.PKG_LOCK_CTRL.EN = false) ∧
    (∃ (s : State) (n x : Nat), n < 4 ∧ (s.trigSt n).kept = some x ∧ s.pwr.backup = false ∧ s.flag F.PKG_LOCK_CTRL.EN = false) ∧
    (∃ (s : State) (n x : Nat), n < 4 ∧ (s.trigSt n).pulseEnd = some x ∧ x * 2 ^ 32 < (s.now * 2 ^ 32 + s.fld F.TMB_NOW_FRAC.FRAC + s.tmb.incr) * 10
        ∧ s.flag F.PKG_LOCK_CTRL.EN = false) :=
  ⟨⟨st [(F.TMB_TRIGn_SHAPE.WIDTH, 3, 1), (F.TMB_TRIGn_START.START, 3, 1000)], 3, 1, by decide⟩,
    ⟨State.reset, 3, 1, by decide⟩,
    ⟨st [(F.TMB_TRIGn_SHAPE.WIDTH, 3, 1), (F.TMB_TRIGn_START.START, 3, 1000)], 3, 1, by decide⟩,
    ⟨st [(F.TMB_TRIGn_SHAPE.WIDTH, 3, 1), (F.TMB_TRIGn_START.START, 3, 1000)], 3, 1, by decide⟩,
    ⟨State.reset.setTrig 3 { next := some 63 }, 3, 63, by decide⟩,
    ⟨State.reset.setTrig 3 { kept := some 5 }, 3, 5, by decide⟩,
    ⟨State.reset.setTrig 3 { pulseEnd := some 63 }, 3, 63, by decide⟩⟩

/-- The hypotheses of `Obligations.FenceCommandsComplete`, clause by clause. -/
theorem meets_fenceCommandsComplete :
    (∃ (s : State) (d : Nat), d < 32 ∧ s.fencedUnit (.region d) = false ∧ s.dieEn d = true ∧ s.flt.caldera = none) ∧
    (∃ (s : State) (d : Nat) (past : List (Nat × Nat)), (d < 12 ∨ (24 ≤ d ∧ d < 32)) ∧ s.fencedUnit (.router d) = false ∧ s.dieEn d = true
        ∧ s.flt.caldera = none) ∧
    (∃ (s : State), s.flt.routeChg = true ∧ s.flag F.GEY_CTRL.TICKING = true ∧ s.frameCyc = 0) ∧
    (∃ (s : State) (d k : Nat), d < 32 ∧ k < 16 ∧ ((12 ≤ d ∧ d < 24) ∨ (24 ≤ d ∧ 4 ≤ k)) ∧ s.testFenced (.block d k) = false ∧ s.dieOut d = false
        ∧ s.unitOut (.block d k) = false) ∧
    (∃ (s : State) (d k : Nat), d < 12 ∧ k < 2 ∧ s.testFenced (.block d k) = false ∧ s.dieOut d = false ∧ s.unitOut (.block d k) = false) ∧
    (∃ (s : State) (d k : Nat), 24 ≤ d ∧ d < 28 ∧ k < 4 ∧ s.testFenced (.block d k) = false ∧ s.dieOut d = false ∧ s.unitOut (.block d k) = false) ∧
    (∃ (s : State) (d k : Nat), 28 ≤ d ∧ d < 32 ∧ k < 4 ∧ s.testFenced (.block d k) = false ∧ s.dieOut d = false ∧ s.unitOut (.block d k) = false) ∧
    (∃ (s : State) (d k : Nat), d < 32 ∧ k < 16 ∧ s.testFenced (.block d k) = false ∧ s.dieOut d = true) ∧
    (∃ (s : State) (u : FUnit) (lvl : Nat), lvl < 4 ∧ u.wf = true ∧ (lvl ≠ 3 ∨ s.flt.caldera = none)
        ∧ (s.flt.fences.any fun f => f.unit == u && (decide (f.lvl ≤ lvl) && !f.perm && !f.test)) = true) ∧
    (∃ (s : State), s.flt.caldera = none ∧ s.pwr.aon = true) :=
  ⟨⟨State.reset, 31, by decide⟩,
    ⟨State.reset, 31, [], by decide⟩,
    ⟨{ st [(F.GEY_CTRL.TICKING, 0, 1)] with flt := { routeChg := true } }, by decide⟩,
    ⟨State.reset, 31, 15, by decide⟩,
    ⟨State.reset, 11, 1, by decide⟩,
    ⟨State.reset, 24, 3, by decide⟩,
    ⟨State.reset, 28, 3, by decide⟩,
    ⟨(State.reset).setDieBit true 31 true, 31, 15, by decide⟩,
    ⟨{ State.reset with flt := { fences := [⟨.region 3, 3, false, false⟩] } }, .region 3, 3, by decide⟩,
    ⟨State.reset, by decide⟩⟩

/-- The hypotheses of `Obligations.DiePowerCommandsComplete`, clause by clause. -/
theorem meets_diePowerCommandsComplete :
    (∃ (s : State) (d : Nat), d < 32 ∧ s.dieEn d = true ∧ s.dieOff d = false) ∧
    (∃ (s : State) (d : Nat), d < 32 ∧ (s.dieEn d = false ∨ s.dieOff d = true) ∧ s.mmio = []) ∧
    (∃ (s : State) (d : Nat), d < 32 ∧ s.dieOff d = true ∧ s.fencedUnit (.region d) = true) ∧
    (∃ (s : State) (d : Nat), d < 32 ∧ s.dieOff d = true ∧ (s.setDieBit true d false).fencedUnit (.region d) = false) ∧
    (∃ (s : State) (d : Nat), d < 32 ∧ s.dieOff d = false) ∧
    (∃ (s : State), s.pwr.aon = false) ∧
    (∃ (s : State), s.pwr.aon = true) ∧
    (∃ (s : State) (step : Nat), 1 ≤ step ∧ step ≤ 8 ∧ bit s.pwr.pg (step - 1) = false ∧ s.pgError step = false
        ∧ (s.pwr.mainGood = true ∨ putBit s.pwr.pg (step - 1) true / 2 % 128 ≠ 127)) ∧
    (∃ (s : State) (step : Nat), 1 ≤ step ∧ step ≤ 8 ∧ bit s.pwr.pg (step - 1) = false ∧ s.pgError step = false ∧ s.pwr.mainGood = false
        ∧ putBit s.pwr.pg (step - 1) true / 2 % 128 = 127) ∧
    (∃ (s : State) (step : Nat), 1 ≤ step ∧ step ≤ 8 ∧ bit s.pwr.pg (step - 1) = false ∧ s.pgError step = true
        ∧ (s.pwr.mainGood = true ∨ putBit s.pwr.pg (step - 1) true / 2 % 128 ≠ 127)) ∧
    (∃ (s : State) (step : Nat), 1 ≤ step ∧ step ≤ 8 ∧ (s.pwr.mainGood = true ∨ putBit s.pwr.pg (step - 1) false / 2 % 128 ≠ 127)) ∧
    (∃ (s : State) (grp : Nat), 1 ≤ grp ∧ grp ≤ 5 ∧ s.fld F.PKG_BOOT.STAGE = 1 ∧ s.flag F.PWR_STATUS.SEQ_ERR = false ∧ s.pwr.released + 1 = grp) ∧
    (∃ (s : State) (grp : Nat), 1 ≤ grp ∧ grp ≤ 5 ∧ (s.fld F.PKG_BOOT.STAGE ≠ 1 ∨ s.flag F.PWR_STATUS.SEQ_ERR = true ∨ s.pwr.released + 1 ≠ grp)) ∧
    (∃ (s : State), s.pwr.mainGood = true ∧ s.pwr.aon = true ∧ s.pwr.pg / 2 % 128 ≠ 127) ∧
    (∃ (s : State), (s.pwr.mainGood = false ∨ s.pwr.aon = false ∨ s.pwr.pg / 2 % 128 = 127)) ∧
    (∃ (s : State), s.pwr.aon = true) :=
  ⟨⟨State.reset, 31, by decide⟩,
    ⟨(State.reset).setDieBit true 31 true, 31, by decide⟩,
    ⟨((State.reset).setDieBit true 31 true).addFence ⟨(.region 31), 3, false, false⟩, 31, by decide⟩,
    ⟨(State.reset).setDieBit true 31 true, 31, by decide⟩,
    ⟨State.reset, 31, by decide⟩,
    ⟨(State.reset).modPwr (fun p => { p with aon := false }), by decide⟩,
    ⟨State.reset, by decide⟩,
    ⟨State.reset, 1, by decide⟩,
    ⟨State.reset.modPwr (fun p => { p with pg := 127, mainGood := false }), 8, by decide⟩,
    ⟨State.reset, 5, by decide⟩,
    ⟨State.reset, 1, by decide⟩,
    ⟨((State.reset).setFld F.PKG_BOOT.STAGE 0 1).setFld F.PWR_STATUS.SEQ_ERR 0 0, 1, by decide⟩,
    ⟨State.reset, 1, by decide⟩,
    ⟨((State.reset).modPwr (fun p => { p with mainGood := true })).modPwr (fun p => { p with aon := true }), by decide⟩,
    ⟨State.reset, by decide⟩,
    ⟨State.reset, by decide⟩⟩

/-- The hypotheses of `Obligations.DetectionCommandsComplete`, clause by clause. -/
theorem meets_detectionCommandsComplete :
    (∃ (s : State) (g : Nat), g < 24 ∧ s.coreOut g = false) ∧
    (∃ (s : State) (g : Nat), g < 24 ∧ s.coreOut g = true) ∧
    (∃ (s : State) (d : Nat) (again : Bool), (d < 12 ∨ (24 ≤ d ∧ d < 32)) ∧ (again = false ∨ SMap.get 0 s.flt.hops d ≠ 2)) ∧
    (∃ (s : State) (d : Nat), (d < 12 ∨ (24 ≤ d ∧ d < 32)) ∧ SMap.get 0 s.flt.hops d = 2) ∧
    (∃ (s : State) (n at' : Nat), n < 4 ∧ s.gey.next = some at' ∧ bit (s.rdFault n).sctl 0 = true ∧ s.flag F.GEY_CTRL.TICKING = true
        ∧ at' ≤ s.now + bits (s.rdFault n).sctl 20 1 ∧ s.dieOut (24 + n) = false ∧ (s.crcU (16 * n + 15)).tick ≠ some s.tickNo
        ∧ (s.rdFault n).sctlTick ≠ some s.tickNo) ∧
    (∃ (s : State) (n i a : Nat), n < 4 ∧ i < 256 ∧ s.dlmAddr n i = some a ∧ (s.dlmEntry n a).valid = true
        ∧ (s.dlmEntry n a).d ≤ s.now + s.gey.margin * 100 ∧ SMap.get 0 (s.rdFault n).margin i ≠ (s.dlmEntry n a).d) ∧
    (∃ (s : State) (n i a : Nat), n < 4 ∧ i < 256 ∧ s.dlmAddr n i = some a ∧ (s.dlmEntry n a).valid = true ∧ (s.dlmEntry n a).d ≤ s.now
        ∧ (s.dlmEntry n a).done = true) ∧
    (∃ (s : State) (n i a : Nat), n < 4 ∧ i < 256 ∧ s.dlmAddr n i = some a ∧ (s.dlmEntry n a).valid = true ∧ (s.dlmEntry n a).d ≤ s.now
        ∧ (s.dlmEntry n a).done = false) ∧
    (∃ (s : State) (d : Nat), d < 32 ∧ s.flag F.GEY_CTRL.TICKING = true ∧ s.gey.fresh = false ∧ s.dieOut d = false) ∧
    (∃ (s : State), s.flag F.TMB_STATUS.REF_LOSS = true ∧ s.flag F.FLT_STATUS.TSTOP = false
        ∧ s.fld F.FLT_CTRL.TERR_LIM * 100000000 < (s.tmb.clk - s.tmb.lossClk) * 3200) ∧
    (∃ (s : State), s.fld F.TMB_STATUS.LOCK = 2) ∧
    (∃ (s : State), s.fld F.TMB_STATUS.LOCK ≠ 2) ∧
    (∃ (s : State) (d : Nat) (clk : ClockDev), (Instr.clockFault d clk).wf = true ∧ s.dieOff d = false ∧ s.dieEn d = true
        ∧ (if s.fld F.PWR_DET_CTRL.STATE = 2 ∨ s.radioClock d clk.clk = true then 1000 else 20000) < clk.ppm) ∧
    (∃ (s : State) (r : RailRun), r.rail < 9 ∧ 5 ≤ r.samples.length ∧ (r.samples.drop (r.samples.length - 5)).all (s.railBad r.rail) = true) ∧
    (∃ (s : State) (d : Nat), d < 32 ∧ s.dieOff d = false) ∧
    (∃ (s : State) (d : Nat), d < 32 ∧ 2 ≤ s.fld F.PKG_BOOT.STAGE ∧ s.flag F.FLT_RG_STATUS.HB_FAIL d = false ∧ s.dieOut d = false
        ∧ SMap.get 0 s.flt.hb d + 1875 ≤ s.tmb.clk) ∧
    (∃ (s : State), s.flt.caldera = none ∧ s.pwr.aon = true) ∧
    (∃ (s : State), s.flt.wdtStop = false ∧ s.pwr.aon = true ∧ s.flt.wdtClk + 7813 ≤ s.tmb.clk) :=
  ⟨⟨State.reset, 23, by decide⟩,
    ⟨(State.reset).setDieBit true (23 / 2) true, 23, by decide⟩,
    ⟨State.reset, 0, true, by decide⟩,
    ⟨State.reset.modFlt fun h => { h with hops := [(31, 2)] }, 31, by decide⟩,
    ⟨tk.setRdFault 3 { sctl := 1 }, 3, _, by decide, rfl, by decide⟩,
    ⟨dl5 (1 + 2 ^ 160), 3, 255, 554151452640, by decide⟩,
    ⟨dl5 (1 + 2 ^ 160), 3, 255, 554151452640, by decide⟩,
    ⟨dl5 (1 + 2 ^ 160 + 2 ^ 64), 3, 255, 554151452640, by decide⟩,
    ⟨{ tk with gey := { fresh := false } }, 31, by decide⟩,
    ⟨{ st [(F.TMB_STATUS.REF_LOSS, 0, 1)] with tmb := { clk := 10 ^ 9 } }, by decide⟩,
    ⟨(State.reset).setFld F.TMB_STATUS.LOCK 0 2, by decide⟩,
    ⟨State.reset, by decide⟩,
    ⟨State.reset, 31, ⟨2, 20001⟩, by decide⟩,
    ⟨State.reset, ⟨8, [0, 0, 0, 0, 0]⟩, by decide⟩,
    ⟨State.reset, 31, by decide⟩,
    ⟨{ st [(F.PKG_BOOT.STAGE, 0, 6)] with tmb := { clk := 1875 } }, 31, by decide⟩,
    ⟨State.reset, by decide⟩,
    ⟨{ State.reset with tmb := { clk := 7813 } }, by decide⟩⟩

/-- The hypotheses of `Obligations.JournalAndResetCommandsComplete`, clause by clause. -/
theorem meets_journalAndResetCommandsComplete :
    (∃ (s : State) (r : JrnlRec) (l : List JrnlRec), s.flt.jrnl = r :: l ∧ s.flt.caldera = none ∧ s.pwr.aon = true
        ∧ (s.pwr.backup = false ∨ bit (s.fld F.FLT_ALERT.ALARM) 1 = false)) ∧
    (∃ (s : State) (r : JrnlRec) (l : List JrnlRec), s.flt.jrnl = r :: l ∧ s.flt.caldera = none ∧ s.pwr.aon = true ∧ s.pwr.backup = true
        ∧ bit (s.fld F.FLT_ALERT.ALARM) 1 = true) ∧
    (∃ (s : State), s.flt.presenting = true ∧ s.fld F.PKG_BOOT.STAGE = 6 ∧ s.flag F.EVC_SRCn.ACTIVE 0 = false ∧ s.flt.caldera = none
        ∧ (s.evCap 0).jrnl = false ∧ s.fld F.FLT_JRNL.PRESENTED < s.fld F.FLT_JRNL.HEAD ∧ s.fld F.FLT_JRNL.HEAD ≤ s.fld F.FLT_JRNL.PRESENTED + jrnlRecs) ∧
    (∃ (s : State), s.pwr.aon = true ∧ s.pwr.backup = true) ∧
    (∃ (s : State), (s.pwr.aon = false ∨ s.pwr.backup = false)) ∧
    (∃ (s : State), s.pwr.bkp = false ∧ s.pwr.mainGood = true) ∧
    (∃ (s : State), (s.pwr.bkp = true ∨ s.pwr.mainGood = false)) ∧
    (∃ (s : State), (s.flag F.PKG_RESET.PCYC_REQ = true ∨ s.pwr.i3cIbi = false)) ∧
    (∃ (s : State), s.flag F.PKG_RESET.PCYC_REQ = false ∧ s.pwr.i3cIbi = true) :=
  ⟨⟨State.reset.journal 1 0 0 0, { kind := 1, level := 0, src := 0, time := 0, data := 0, tick := 0 }, [], by decide⟩,
    ⟨(((st [(F.FLT_ALERT.ALARM, 0, 2)]).modFlt fun h => { h with jrnl := [⟨1, 0, false, false, 0, 0, 0, 0⟩] }).modPwr (fun p => { p with aon := true })).modPwr (fun p => { p with backup := true }),
      { kind := 1, level := 0, src := 0, time := 0, data := 0, tick := 0 }, [], by decide⟩,
    ⟨{ st [(F.PKG_BOOT.STAGE, 0, 6), (F.FLT_JRNL.HEAD, 0, 1)] with flt := { presenting := true } }, by decide⟩,
    ⟨((State.reset.journal 1 0 0 0).modPwr (fun p => { p with aon := true })).modPwr (fun p => { p with backup := true }), by decide⟩,
    ⟨State.reset.journal 1 0 0 0, by decide⟩,
    ⟨(State.reset.journal 1 0 0 0).modPwr (fun p => { p with mainGood := true }), by decide⟩,
    ⟨State.reset.journal 1 0 0 0, by decide⟩,
    ⟨(State.reset.journal 1 0 0 0).setFld F.PKG_RESET.PCYC_REQ 0 1, by decide⟩,
    ⟨State.reset.journal 1 0 0 0, by decide⟩⟩

/-- The hypotheses of `Obligations.UnitTestCommandsComplete`, clause by clause. -/
theorem meets_unitTestCommandsComplete :
    (∃ (s : State) (v : Word), s.flag F.FLT_TEST_CMD.BUSY = false ∧ testKind (unitOf (bits v.toNat 15 0)) ≠ none
        ∧ s.dieOut (unitDie (unitOf (bits v.toNat 15 0))) = false ∧ s.testState (unitOf (bits v.toNat 15 0)) ≠ 1
        ∧ s.testRefused (unitOf (bits v.toNat 15 0)) = false ∧ s.flt.caldera = none) ∧
    (∃ (s : State) (v : Word), s.flag F.FLT_TEST_CMD.BUSY = false ∧ s.mmio = []
        ∧ (testKind (unitOf (bits v.toNat 15 0)) = none ∨ s.dieOut (unitDie (unitOf (bits v.toNat 15 0))) = true ∨ s.testState (unitOf (bits v.toNat 15 0)) = 1 ∨ s.testRefused (unitOf (bits v.toNat 15 0)) = true ∨ s.flt.caldera ≠ none)) ∧
    (∃ (s : State) (v : Word), s.flag F.FLT_TEST_CMD.BUSY = false) ∧
    (∃ (s : State) (v : Word), s.flag F.FLT_TEST_CMD.BUSY = true ∧ s.mmio = []) ∧
    (∃ (s : State) (cycles status : Nat), status < 4 ∧ s.flag F.FLT_TEST_CMD.BUSY = true) ∧
    (∃ (s : State) (v : Word), s.flag F.FLT_TEST_CMD.BUSY = false
        ∧ SMap.get 0 s.flt.tests (unitSrc (unitOf (bits v.toNat 15 0))) = s.fld F.FLT_TEST_EXP.EXPECT + 1 ∧ s.testState (unitOf (bits v.toNat 15 0)) = 1
        ∧ s.flt.caldera = none) ∧
    (∃ (s : State) (v : Word), s.flag F.FLT_TEST_CMD.BUSY = false ∧ s.mmio = []
        ∧ (SMap.get 0 s.flt.tests (unitSrc (unitOf (bits v.toNat 15 0))) ≠ s.fld F.FLT_TEST_EXP.EXPECT + 1 ∨ s.testState (unitOf (bits v.toNat 15 0)) ≠ 1)) ∧
    (∃ (s : State) (v : Word), s.flag F.FLT_TEST_CMD.BUSY = false
        ∧ SMap.get 0 s.flt.tests (unitSrc (unitOf (bits v.toNat 15 0))) = s.fld F.FLT_TEST_EXP.EXPECT + 1 ∧ s.testState (unitOf (bits v.toNat 15 0)) = 1
        ∧ s.flt.caldera = none) ∧
    (∃ (s : State) (d : Nat) (v : BitVec 32), d < 32 ∧ bit v.toNat 24 = true ∧ bits v.toNat 7 0 ∈ [2, 3, 4, 5, 6, 7, 8, 10, 11, 12, 13, 14, 15, 17]
        ∧ s.dieOut d = false ∧ s.takesWrite .FLT_INJECT d = true) ∧
    (∃ (s : State) (d k i : Nat) (v : BitVec 32), d < 12 ∧ k < 2 ∧ i < 4 ∧ bit v.toNat 24 = true ∧ bits v.toNat 7 0 = 1
        ∧ unitOf (d * 2048 + bits v.toNat 23 8 % 2048) = .tile d k i ∧ s.dieOut d = false ∧ s.takesWrite .FLT_INJECT d = true) ∧
    (∃ (s : State) (d i : Nat) (v : BitVec 32), 24 ≤ d ∧ d < 28 ∧ i < 18 ∧ bit v.toNat 24 = true ∧ bits v.toNat 7 0 = 9
        ∧ unitOf (d * 2048 + bits v.toNat 23 8 % 2048) = .tile d 4 i ∧ s.dieOut d = false ∧ s.takesWrite .FLT_INJECT d = true) ∧
    (∃ (s : State) (d : Nat) (v : BitVec 32), d < 32 ∧ (bit v.toNat 24 = false ∨ bits v.toNat 7 0 ∈ [0, 16, 18, 19, 20, 21, 22])
        ∧ s.takesWrite .FLT_INJECT d = true) ∧
    (∃ (s : State) (d : Nat) (v : BitVec 32), d < 32 ∧ s.takesWrite .FLT_INJECT d = false) :=
  ⟨⟨State.reset, 0, by decide⟩,
    ⟨{ State.reset with flt := { fences := [⟨.tile 0 0 0, 3, false, true⟩], tests := [(0, 1)] } }, 0, by decide⟩,
    ⟨State.reset, 0, by decide⟩,
    ⟨(State.reset).setFld F.FLT_TEST_CMD.BUSY 0 1, 0, by decide⟩,
    ⟨(State.reset).setFld F.FLT_TEST_CMD.BUSY 0 1, 7, 3, by decide⟩,
    ⟨{ State.reset with flt := { fences := [⟨.tile 0 0 0, 3, false, true⟩], tests := [(0, 1)] } }, 0, by decide⟩,
    ⟨State.reset, 0, by decide⟩,
    ⟨{ State.reset with flt := { fences := [⟨.tile 0 0 0, 3, false, true⟩], tests := [(0, 1)] } }, 0, by decide⟩,
    ⟨State.reset, 31, 0x1000011, by decide⟩,
    ⟨State.reset, 11, 1, 3, BitVec.ofNat 32 (2 ^ 24 + unitSrc (.tile 11 1 3) % 2048 * 256 + 1), by decide⟩,
    ⟨State.reset, 27, 17, BitVec.ofNat 32 (2 ^ 24 + unitSrc (.tile 27 4 17) % 2048 * 256 + 9), by decide⟩,
    ⟨State.reset, 31, 0, by decide⟩,
    ⟨allOff, 31, 0x1000011, by decide⟩⟩

/-- The hypotheses of `Obligations.ControlFlowCompletes`, clause by clause. -/
theorem meets_controlFlowCompletes :
    (∃ (s : State) (g c w : Nat) (x : Ctx), Issues 0x00 s g c w x) ∧
    (∃ (s : State) (g c w : Nat) (x : Ctx), Issues 0x01 s g c w x) ∧
    (∃ (s : State) (g c w : Nat) (x : Ctx), Issues 0x02 s g c w x) ∧
    (∃ (s : State) (g c w : Nat) (x : Ctx), Issues 0x03 s g c w x ∧ x.poisoned (iRa w) = false) ∧
    (∃ (s : State) (g c w : Nat) (x : Ctx), Issues 0x04 s g c w x ∧ x.poisoned (iRa w) = false ∧ x.poisoned (iRb w) = false) ∧
    (∃ (s : State) (g c w : Nat) (x : Ctx), Issues 0x05 s g c w x ∧ x.poisoned (iRa w) = false ∧ x.poisoned (iRb w) = false) ∧
    (∃ (s : State) (g c w : Nat) (x : Ctx), Issues 0x06 s g c w x ∧ x.poisoned (iRa w) = false ∧ x.poisoned (iRb w) = false) ∧
    (∃ (s : State) (g c w : Nat) (x : Ctx), Issues 0x07 s g c w x ∧ x.poisoned (iRa w) = false ∧ x.poisoned (iRb w) = false) ∧
    (∃ (s : State) (g c w : Nat) (x : Ctx), Issues 0x08 s g c w x ∧ x.poisoned (iRa w) = false ∧ iRa w ≠ 0) ∧
    (∃ (s : State) (g c w : Nat) (x : Ctx), Issues 0x08 s g c w x ∧ iRa w = 0) ∧
    (∃ (s : State) (g c w op : Nat) (i : Instr) (x : Ctx), (op, i) ∈ [(0x03, Instr.jr g c), (0x08, .dbnz g c)] ∧ Issues op s g c w x
        ∧ x.poisoned (iRa w) = true) ∧
    (∃ (s : State) (g c w op : Nat) (i : Instr) (x : Ctx), (op, i) ∈ [(0x04, Instr.beq g c), (0x05, .bne g c), (0x06, .blt g c), (0x07, .bge g c)]
        ∧ Issues op s g c w x ∧ (x.poisoned (iRa w) = true ∨ x.poisoned (iRb w) = true)) :=
  ⟨⟨cx 23 3 (run1 0), 23, 3, 0, _, ⟨by decide, by decide, by decide, by decide, rfl, by decide, by decide, by decide⟩⟩,
    ⟨cx 0 0 (run1 (ins 1 0 0 0 0 0)), 0, 0, 72057594037927936, _, ⟨by decide, by decide, by decide, by decide, rfl, by decide, by decide, by decide⟩⟩,
    ⟨cx 0 1 (run1 (ins 2 47 0 0 0 0)), 0, 1, 197032483697459200, _, ⟨by decide, by decide, by decide, by decide, rfl, by decide, by decide, by decide⟩⟩,
    ⟨cx 0 1 (run1 (ins 3 0 5 0 0 0)), 0, 1, 216260743044005888, _, ⟨by decide, by decide, by decide, by decide, rfl, by decide, by decide, by decide⟩,
      by decide⟩,
    ⟨cx 0 1 (run1 (ins 4 0 5 6 0 0)), 0, 1, 288319986349375488, _, ⟨by decide, by decide, by decide, by decide, rfl, by decide, by decide, by decide⟩,
      by decide⟩,
    ⟨cx 0 1 (run1 (ins 5 0 5 6 0 0)), 0, 1, 360377580387303424, _, ⟨by decide, by decide, by decide, by decide, rfl, by decide, by decide, by decide⟩,
      by decide⟩,
    ⟨cx 0 1 (run1 (ins 6 0 5 6 0 0)), 0, 1, 432435174425231360, _, ⟨by decide, by decide, by decide, by decide, rfl, by decide, by decide, by decide⟩,
      by decide⟩,
    ⟨cx 0 1 (run1 (ins 7 0 5 6 0 0)), 0, 1, 504492768463159296, _, ⟨by decide, by decide, by decide, by decide, rfl, by decide, by decide, by decide⟩,
      by decide⟩,
    ⟨cx 0 1 (run1 (ins 8 0 5 0 0 0)), 0, 1, 576548713233645568, _, ⟨by decide, by decide, by decide, by decide, rfl, by decide, by decide, by decide⟩,
      by decide⟩,
    ⟨cx 0 1 (run1 (ins 8 0 0 0 0 0)), 0, 1, 576460752303423488, _, ⟨by decide, by decide, by decide, by decide, rfl, by decide, by decide, by decide⟩,
      by decide⟩,
    ⟨cx 0 1 { run1 (ins 3 0 5 0 0 0) with rp := [(5, true)] }, 0, 1, 216260743044005888, 0x03, Instr.jr 0 1, _, by decide,
      ⟨by decide, by decide, by decide, by decide, rfl, by decide, by decide, by decide⟩, by decide⟩,
    ⟨rpX 1 (ins 4 0 1 0 0 0), 23, 3, 288247968337756160, 0x04, Instr.beq 23 3, _, by decide,
      ⟨by decide, by decide, by decide, by decide, rfl, by decide, by decide, by decide⟩, by decide⟩⟩

/-- The hypotheses of `Obligations.ScalarCommandsComplete`, clause by clause. -/
theorem meets_scalarCommandsComplete :
    (∃ (s : State) (g c w : Nat) (x : Ctx), Issues 0x20 s g c w x) ∧
    (∃ (s : State) (g c w : Nat) (x : Ctx), Issues 0x21 s g c w x) ∧
    (∃ (s : State) (g c w : Nat) (x : Ctx), Issues 0x22 s g c w x) ∧
    (∃ (s : State) (g c w : Nat) (x : Ctx), Issues 0x25 s g c w x) ∧
    (∃ (s : State) (g c w : Nat) (x : Ctx), Issues 0x23 s g c w x ∧ x.poisoned (iRa w) = false
        ∧ (issued s g c).badAddr (s.coreWho g x) false (addImm (x.val (iRa w)) w) (2 ^ (iFn w % 4)) = none) ∧
    (∃ (s : State) (g c w : Nat) (x : Ctx), Issues 0x40 s g c w x ∧ x.poisoned (iRa w) = false
        ∧ (issued s g c).badAddr (s.coreWho g x) false (addImm (x.val (iRa w)) w) 32 = none) ∧
    (∃ (s : State) (g c w : Nat) (x : Ctx), Issues 0x24 s g c w x ∧ x.poisoned (iRa w) = false
        ∧ (issued s g c).badAddr (s.coreWho g x) true (addImm (x.val (iRa w)) w) (2 ^ (iFn w % 4)) = none
        ∧ quotaLines (x.staged ++ lineStores (addImm (x.val (iRa w)) w) ((bytesOf (2 ^ (iFn w % 4)) (x.val (iRb w))).map (·, x.poisoned (iRb w)))) ≤ x.cmd.sntq * 64) ∧
    (∃ (s : State) (g c w a : Nat) (x : Ctx), Issues 0x23 s g c w x ∧ x.poisoned (iRa w) = false
        ∧ (issued s g c).badAddr (s.coreWho g x) false (addImm (x.val (iRa w)) w) (2 ^ (iFn w % 4)) = some a) ∧
    (∃ (s : State) (g c w a : Nat) (x : Ctx), Issues 0x40 s g c w x ∧ x.poisoned (iRa w) = false
        ∧ (issued s g c).badAddr (s.coreWho g x) false (addImm (x.val (iRa w)) w) 32 = some a) ∧
    (∃ (s : State) (g c w a : Nat) (x : Ctx), Issues 0x24 s g c w x ∧ x.poisoned (iRa w) = false
        ∧ (issued s g c).badAddr (s.coreWho g x) true (addImm (x.val (iRa w)) w) (2 ^ (iFn w % 4)) = some a) ∧
    (∃ (s : State) (g c w op : Nat) (i : Instr) (x : Ctx), (op, i) ∈ [(0x23, Instr.ld g c), (0x24, .st g c), (0x40, .sdld g c)] ∧ Issues op s g c w x
        ∧ x.poisoned (iRa w) = true) :=
  ⟨⟨cx 0 1 (run1 (ins 0x20 47 1 0 33 0xFFFFFFFF)), 0, 1, 2358778043050229759, _,
      ⟨by decide, by decide, by decide, by decide, rfl, by decide, by decide, by decide⟩⟩,
    ⟨cx 0 1 (run1 (ins 0x21 47 1 2 2 0)), 0, 1, 2430836049405018112, _,
      ⟨by decide, by decide, by decide, by decide, rfl, by decide, by decide, by decide⟩⟩,
    ⟨cx 0 1 (run1 (ins 0x22 1 0 0 0 5)), 0, 1, 2451084097196392453, _, ⟨by decide, by decide, by decide, by decide, rfl, by decide, by decide, by decide⟩⟩,
    ⟨cx 0 1 (run1 (ins 0x25 9 0 0 6 0)), 0, 1, 2676264104334721024, _, ⟨by decide, by decide, by decide, by decide, rfl, by decide, by decide, by decide⟩⟩,
    ⟨cx 0 1 { run1 (ins 0x23 9 1 0 7 0) with r := [(1, 0x8100000000)] }, 0, 1, 2532166512739876864, _,
      ⟨by decide, by decide, by decide, by decide, rfl, by decide, by decide, by decide⟩, by decide⟩,
    ⟨cx 0 1 { run1 (ins 0x40 48 1 0 0 0) with r := [(1, 0x8100000000)] }, 0, 1, 4665746806141878272, _,
      ⟨by decide, by decide, by decide, by decide, rfl, by decide, by decide, by decide⟩, by decide⟩,
    ⟨cx 0 1 { run1 (ins 0x24 0 1 2 3 0) with r := [(1, 0x810000003C), (2, 5)], cmd := { sntq := 1 } }, 0, 1, 2594091540192165888, _,
      ⟨by decide, by decide, by decide, by decide, rfl, by decide, by decide, by decide⟩, by decide⟩,
    ⟨cx 0 1 (run1 (ins 0x23 9 1 0 7 16)), 0, 1, 2532166512739876880, 16, _,
      ⟨by decide, by decide, by decide, by decide, rfl, by decide, by decide, by decide⟩, by decide⟩,
    ⟨cx 23 3 { prog := [ins 0x40 48 1 0 0 0], r := [(1, 0x4800000000)] }, 23, 3, 4665746806141878272, 309237645312, _,
      ⟨by decide, by decide, by decide, by decide, rfl, by decide, by decide, by decide⟩, by decide⟩,
    ⟨cx 23 3 { prog := [ins 0x24 0 1 2 3 0], r := [(1, 0x4800000000)] }, 23, 3, 2594091540192165888, 309237645312, _,
      ⟨by decide, by decide, by decide, by decide, rfl, by decide, by decide, by decide⟩, by decide⟩,
    ⟨rpX 1 (ins 0x23 2 1 0 3 0), 23, 3, 2524285196212109312, 0x23, Instr.ld 23 3, _, by decide,
      ⟨by decide, by decide, by decide, by decide, rfl, by decide, by decide, by decide⟩, by decide⟩⟩

/-- The hypotheses of `Obligations.StreamCommandsComplete`, clause by clause. -/
theorem meets_streamCommandsComplete :
    (∃ (s : State) (g c w : Nat) (x : Ctx), Issues 0x41 s g c w x ∧ x.poisoned (iRb w) = false) ∧
    (∃ (s : State) (g c w : Nat) (x : Ctx), Issues 0x43 s g c w x) ∧
    (∃ (s : State) (g c w : Nat) (x : Ctx) (b : List (Byte × Bool)), Issues 0x42 s g c w x ∧ x.poisoned (sdSpec (iRa w)) = false
        ∧ x.poisoned (sdSpec (iRd w)) = false ∧ sdOk (x.sdReg (iRa w)) 0 = true ∧ sdOk (x.sdReg (iRd w)) 1 = true
        ∧ (issued s g c).streamBad g x false (x.sdReg (iRa w)) = none ∧ (issued s g c).streamBad g x true (x.sdReg (iRd w)) = none
        ∧ ((issued s g c).meetStream g (x.sdReg (iRa w))).streamRead g x (x.sdReg (iRa w)) = b
        ∧ quotaLines (x.staged ++ sdStores (x.sdReg (iRd w)) b) ≤ x.cmd.sntq * 64) ∧
    (∃ (s : State) (g c w : Nat) (x : Ctx), Issues 0x42 s g c w x ∧ (x.poisoned (sdSpec (iRa w)) = true ∨ x.poisoned (sdSpec (iRd w)) = true)) ∧
    (∃ (s : State) (g c w : Nat) (x : Ctx), Issues 0x41 s g c w x ∧ x.poisoned (iRb w) = true) ∧
    (∃ (s : State) (g c sd i : Nat) (x : Ctx), g < 24 ∧ c < 4 ∧ sd < 8 ∧ s.ctx g c = some x
        ∧ x.streams.findIdx? (fun t => t.sd == sd && t.op != 0x60) = some i) :=
  ⟨⟨cx 0 1 (run1 (ins 0x41 48 0 2 16 0)), 0, 1, 4737787426469052416, _,
      ⟨by decide, by decide, by decide, by decide, rfl, by decide, by decide, by decide⟩, by decide⟩,
    ⟨cx 0 1 { run1 (ins 0x43 0 55 0 0 0) with streams := [⟨7, 0x60⟩] }, 0, 1, 4828826370773614592, _,
      ⟨by decide, by decide, by decide, by decide, rfl, by decide, by decide, by decide⟩⟩,
    ⟨cx 0 1 { run1 (ins 0x42 49 48 0 0 0) with sd := [(0, sd1 0x8100000000 0 64), (1, sd1 0x8100001000 1 64)], cmd := { sntq := 1 } }, 0, 1,
      4811814726868664320, _, _, ⟨by decide, by decide, by decide, by decide, rfl, by decide, by decide, by decide⟩, by decide, by decide, by decide,
      by decide, by decide, by decide, rfl, by decide⟩,
    ⟨rpX 49 (ins 0x42 48 49 0 0 0), 23, 3, 4810706419147866112, _, ⟨by decide, by decide, by decide, by decide, rfl, by decide, by decide, by decide⟩,
      by decide⟩,
    ⟨rpX 1 (ins 0x41 48 0 1 0 0), 23, 3, 4737787082871668736, _, ⟨by decide, by decide, by decide, by decide, rfl, by decide, by decide, by decide⟩,
      by decide⟩,
    ⟨cx 0 1 { blk := .swait 3, streams := [⟨3, 0x42⟩] }, 0, 1, 3, 0, _, by decide, by decide, by decide, rfl, by decide⟩⟩

/-- The hypotheses of `Obligations.WeightCommandsComplete`, clause by clause. -/
theorem meets_weightCommandsComplete :
    (∃ (s : State) (g c w : Nat) (x : Ctx), Issues 0x60 s g c w x ∧ x.poisoned (sdSpec (iSd w)) = false ∧ sdOk (x.sdReg (iSd w)) 0 = true
        ∧ weightFmt (sdFmt (x.sdReg (iSd w))) = true ∧ (sdMx (x.sdReg (iSd w)) = true → sdFmt (x.sdReg (iSd w)) ≤ 4)
        ∧ sdLen (x.sdReg (iSd w)) = tileLen (sdFmt (x.sdReg (iSd w))) (sdMx (x.sdReg (iSd w))) ∧ (issued s g c).streamBad g x false (x.sdReg (iSd w)) = none) ∧
    (∃ (s : State) (g c w : Nat) (x : Ctx), Issues 0x60 s g c w x ∧ x.poisoned (sdSpec (iSd w)) = true) ∧
    (∃ (s : State) (g c q : Nat), g < 24 ∧ (s.core g).loading = some (c, q) ∧ (s.core g).loadT ≤ s.gey.arr) ∧
    (∃ (s : State) (g c w : Nat) (x : Ctx), Issues 0x61 s g c w x ∧ (∀ a ∈ s.arraysIn g, s.fld F.MXC_ARR_STATUS.SHD_VALID (g * 4 + a) = 1)) ∧
    (∃ (s : State) (g c w a : Nat) (x : Ctx), Issues 0x61 s g c w x ∧ a ∈ s.arraysIn g ∧ s.fld F.MXC_ARR_STATUS.SHD_VALID (g * 4 + a) = 0) :=
  ⟨⟨cx 0 1 { run1 (3 * 2 ^ 53 + 0x60 * 2 ^ 56) with sd := [(3, sd1 0x8100000000 0 0x40000)] }, 0, 1, 6944550625405304832, _,
      ⟨by decide, by decide, by decide, by decide, rfl, by decide, by decide, by decide⟩, by decide⟩,
    ⟨rpX 48 (0x60 * 2 ^ 56), 23, 3, 6917529027641081856, _, ⟨by decide, by decide, by decide, by decide, rfl, by decide, by decide, by decide⟩, by decide⟩,
    ⟨ld0, 5, 2, 7, by decide⟩,
    ⟨shd0 (run1 (ins 0x61 0 0 0 0 0)), 0, 1, 6989586621679009792, _, ⟨by decide, by decide, by decide, by decide, rfl, by decide, by decide, by decide⟩,
      by decide⟩,
    ⟨(shd0 (run1 (ins 0x61 0 0 0 0 0))).setFld F.MXC_ARR_STATUS.SHD_VALID (0 * 4 + 0) 0, 0, 1, 6989586621679009792, 0, _,
      ⟨by decide, by decide, by decide, by decide, rfl, by decide, by decide, by decide⟩, by decide⟩⟩

/-- The hypotheses of `Obligations.ArrayCommandsComplete`, clause by clause. -/
theorem meets_arrayCommandsComplete :
    (∃ (s : State) (g c w : Nat) (x : Ctx), Issues 0x62 s g c w x ∧ x.poisoned (iRb w) = false ∧ x.poisoned (sdSpec (iSd w)) = false
        ∧ sdOk (x.sdReg (iSd w)) 0 = true ∧ sdCnt2 (x.sdReg (iSd w)) = (arraysOf (iAmask w)).length ∧ weightFmt (sdFmt (x.sdReg (iSd w))) = true
        ∧ sdMx (x.sdReg (iSd w)) = bit w 47 ∧ modeOk (bits w 46 44) (sdFmt (x.sdReg (iSd w))) (bit w 47) = true
        ∧ sdLen0 (x.sdReg (iSd w)) = passLen (sdFmt (x.sdReg (iSd w))) (bit w 47) ∧ (∀ a ∈ arraysOf (iAmask w), (issued s g c).arrayOut g a = false
        ∧ (issued s g c).flag F.MXC_ARR_STATUS.ACT_VALID (g * 4 + a) = true ∧ pairOk (sdFmt (x.sdReg (iSd w))) ((issued s g c).actPlane g a).fmt = true
        ∧ modeOk (bits w 46 44) ((issued s g c).actPlane g a).fmt (bit w 47) = true ∧ ((issued s g c).actPlane g a).mx = bit w 47)
        ∧ (issued s g c).streamBad g x false (x.sdReg (iSd w)) = none) ∧
    (∃ (s : State) (g c w : Nat) (x : Ctx), Issues 0x63 s g c w x ∧ bit (iFn w) 5 = false
        ∧ (iRb w :: (if bit w 28 then [iFn w % 32, iFn w % 32 + 1] else []) ++ [sdSpec (iSd w)]).any x.poisoned = false
        ∧ (arraysOf (iAmask w)).any ((issued s g c).arrayOut g) = false ∧ (issued s g c).flushFpBad g x w = false
        ∧ (issued s g c).flushShape g x w (x.sdReg (iSd w)) = true ∧ (issued s g c).streamBad g x true (x.sdReg (iSd w)) = none
        ∧ quotaLines (x.staged ++ (((issued s g c).flushRows g x w (sdNv (x.sdReg (iSd w)))).1.flatMap fun (p, k, r) => match r with | some b => lineStores (sdRun (x.sdReg (iSd w)) p k) b | none => [])) ≤ x.cmd.sntq * 64) ∧
    (∃ (s : State) (g c w : Nat) (x y : Ctx) (rows : List (Nat × Nat × Option (List (Byte × Bool)))) (u : State), Issues 0x63 s g c w x
        ∧ bit (iFn w) 5 = true ∧ (iRb w :: (if bit w 28 then [iFn w % 32, iFn w % 32 + 1] else []) ++ []).any x.poisoned = false
        ∧ (arraysOf (iAmask w)).any ((issued s g c).arrayOut g) = false ∧ (issued s g c).flushFpBad g x w = false
        ∧ (issued s g c).flushRows g x w 512 = (rows, u) ∧ flushToV x w (u.flushSize g x w) rows = some y) ∧
    (∃ (s : State) (g c w : Nat) (x : Ctx), Issues 0x64 s g c w x ∧ x.poisoned (iRb w) = false ∧ bit w 20 = false
        ∧ (arraysOf (iAmask w)).any ((issued s g c).arrayOut g) = false) ∧
    (∃ (s : State) (g c w : Nat) (x : Ctx), Issues 0x64 s g c w x ∧ bit w 20 = true ∧ x.poisoned (iRb w) = false ∧ x.poisoned (sdSpec (iSd w)) = false
        ∧ (arraysOf (iAmask w)).any ((issued s g c).arrayOut g) = false ∧ sdOk (x.sdReg (iSd w)) 0 = true ∧ sdLen0 (x.sdReg (iSd w)) = 8192
        ∧ sdCnt1 (x.sdReg (iSd w)) = entryCnt w ∧ sdCnt2 (x.sdReg (iSd w)) = (arraysOf (iAmask w)).length
        ∧ (issued s g c).streamBad g x false (x.sdReg (iSd w)) = none) ∧
    (∃ (s : State) (g c w op : Nat) (i : Instr) (x : Ctx), (op, i) ∈ [(0x63, Instr.accflush g c), (0x64, .accinit g c)] ∧ Issues op s g c w x
        ∧ (∀ k, x.poisoned k = false) ∧ (arraysOf (iAmask w)).any ((issued s g c).arrayOut g) = true) ∧
    (∃ (s : State) (g c w op : Nat) (i : Instr) (x : Ctx), (op, i) ∈ [(0x62, Instr.astream g c), (0x63, .accflush g c), (0x64, .accinit g c)]
        ∧ Issues op s g c w x ∧ x.poisoned (iRb w) = true) :=
  ⟨⟨as0, 0, 1, 7062207165670359040, _, ⟨by decide, by decide, by decide, by decide, rfl, by decide, by decide, by decide⟩, by decide⟩,
    ⟨fl0, 0, 1, 7134264759708286976, _, ⟨by decide, by decide, by decide, by decide, rfl, by decide, by decide, by decide⟩, by decide⟩,
    ⟨cx 0 1 { prog := [0x63 * 2 ^ 56 + 2 ^ 49 + 32 * 2 ^ 32] }, 0, 1, 7134264897147240448, fvX,
      (flushToV fvX 7134264897147240448 (((issued (cx 0 1 fvX) 0 1).flushRows 0 fvX 7134264897147240448 512).2.flushSize 0 fvX 7134264897147240448) ((issued (cx 0 1 fvX) 0 1).flushRows 0 fvX 7134264897147240448 512).1).get (by decide +kernel),
      ((issued (cx 0 1 fvX) 0 1).flushRows 0 fvX 7134264897147240448 512).1, ((issued (cx 0 1 fvX) 0 1).flushRows 0 fvX 7134264897147240448 512).2,
      ⟨by decide, by decide, by decide, by decide, rfl, by decide, by decide, by decide⟩, by decide, by decide, by decide, by decide, rfl,
      (Option.some_get _).symm⟩,
    ⟨cx 0 1 (run1 (0x64 * 2 ^ 56 + 5 * 2 ^ 49 + 4 * 2 ^ 44 + 1023)), 0, 1, 7208644522304078847, _,
      ⟨by decide, by decide, by decide, by decide, rfl, by decide, by decide, by decide⟩, by decide⟩,
    ⟨cx 0 1 { prog := [0x64 * 2 ^ 56 + 2 ^ 49 + 2 ^ 20], sd := [(0, sd1 0x8100000000 0 8192)] }, 0, 1, 7206322353747263488, _,
      ⟨by decide, by decide, by decide, by decide, rfl, by decide, by decide, by decide⟩, by decide⟩,
    ⟨fl0.addFence ⟨.tile 0 0 0, 1, false, false⟩, 0, 1, 7134264759708286976, 0x63, Instr.accflush 0 1, flX, by decide,
      ⟨by decide, by decide, by decide, by decide, rfl, by decide, by decide, by decide⟩, (by intro k; simp [Ctx.poisoned, flX, SMap.get]), by decide⟩,
    ⟨rpX 1 (0x62 * 2 ^ 56 + 1 * 2 ^ 38), 23, 3, 7061644490594844672, 0x62, Instr.astream 23 3, _, by decide,
      ⟨by decide, by decide, by decide, by decide, rfl, by decide, by decide, by decide⟩, by decide⟩⟩

/-- The hypotheses of `Obligations.VectorCommandsComplete`, clause by clause. -/
theorem meets_vectorCommandsComplete :
    (∃ (s : State) (g c w : Nat) (x : Ctx), Issues 0x80 s g c w x ∧ iFn w < 17) ∧
    (∃ (s : State) (g c w k : Nat) (x : Ctx), Issues 0x80 s g c w x ∧ iFn w = 17 ∧ cvtTarget (bits w 7 4) = some k
        ∧ (cvtTarget (bits w 3 0)).isSome = true) ∧
    (∃ (s : State) (g c w : Nat) (x : Ctx), Issues 0x80 s g c w x ∧ iFn w = 17 ∧ (cvtTarget (bits w 7 4) = none ∨ cvtTarget (bits w 3 0) = none)) ∧
    (∃ (s : State) (g c w : Nat) (x : Ctx), Issues 0x81 s g c w x ∧ x.poisoned (sdSpec (iRa w)) = false ∧ sdOk (x.sdReg (iRa w)) 0 = true
        ∧ (issued s g c).streamBad g x false (x.sdReg (iRa w)) = none) ∧
    (∃ (s : State) (g c w : Nat) (x : Ctx), Issues 0x82 s g c w x ∧ x.poisoned (sdSpec (iRd w)) = false ∧ sdOk (x.sdReg (iRd w)) 1 = true
        ∧ (issued s g c).streamBad g x true (x.sdReg (iRd w)) = none
        ∧ quotaLines (x.staged ++ sdStores (x.sdReg (iRd w)) ((List.zip (x.lanes (iRa w)) (x.lanePois (iRa w))).flatMap fun (v, p) => (bytesOf 4 v).map (·, p))) ≤ x.cmd.sntq * 64) ∧
    (∃ (s : State) (g c w : Nat) (x : Ctx), Issues 0x83 s g c w x) ∧
    (∃ (s : State) (g c w : Nat) (x : Ctx), Issues 0x84 s g c w x) ∧
    (∃ (s : State) (g c w : Nat) (x : Ctx), Issues 0x85 s g c w x ∧ bit (iFn w) 2 = false) ∧
    (∃ (s : State) (g c w : Nat) (x : Ctx), Issues 0x85 s g c w x ∧ bit (iFn w) 2 = true) ∧
    (∃ (s : State) (g c w : Nat) (x : Ctx), Issues 0x86 s g c w x ∧ s.fld F.MXC_DIGk.OWNER (g * 16 + iFn w) = x.basin) ∧
    (∃ (s : State) (g c w : Nat) (x : Ctx), Issues 0x86 s g c w x ∧ s.fld F.MXC_DIGk.OWNER (g * 16 + iFn w) ≠ x.basin) ∧
    (∃ (s : State) (g c w op : Nat) (i : Instr) (x : Ctx), (op, i) ∈ [(0x80, Instr.vop g c true), (0x83, .vred g c true), (0x85, .vtopk g c true)]
        ∧ Issues op s g c w x) ∧
    (∃ (s : State) (g c w : Nat) (x : Ctx), Issues 0x81 s g c w x ∧ x.poisoned (sdSpec (iRa w)) = true) ∧
    (∃ (s : State) (g c w : Nat) (x : Ctx), Issues 0x82 s g c w x ∧ x.poisoned (sdSpec (iRd w)) = true) :=
  ⟨⟨cx 0 1 (run1 (ins 0x80 15 14 13 8 0)), 0, 1, 9240510433834565632, _,
      ⟨by decide, by decide, by decide, by decide, rfl, by decide, by decide, by decide⟩, by decide⟩,
    ⟨cx 0 1 (run1 (ins 0x80 15 14 0 17 0x7D)), 0, 1, 9240506899076481149, 1, _,
      ⟨by decide, by decide, by decide, by decide, rfl, by decide, by decide, by decide⟩, by decide⟩,
    ⟨cx 23 3 { prog := [ins 0x80 15 14 0 17 0xFF] }, 23, 3, 9240506899076481279, _,
      ⟨by decide, by decide, by decide, by decide, rfl, by decide, by decide, by decide⟩, by decide⟩,
    ⟨cx 0 1 { run1 (ins 0x81 15 48 0 0 0) with sd := [(0, sd1 0x8100000000 0 64)] }, 0, 1, 9313162554425475072, _,
      ⟨by decide, by decide, by decide, by decide, rfl, by decide, by decide, by decide⟩, by decide⟩,
    ⟨cx 0 1 { run1 (ins 0x82 48 15 0 0 0) with sd := [(0, sd1 0x8100000000 1 64)], v := [(15, [7])], vp := [(15, [true])], cmd := { sntq := 1 } }, 0, 1,
      9421794303249743872, _, ⟨by decide, by decide, by decide, by decide, rfl, by decide, by decide, by decide⟩, by decide⟩,
    ⟨cx 0 1 (run1 (ins 0x83 15 14 0 2 0)), 0, 1, 9456679616765755392, _,
      ⟨by decide, by decide, by decide, by decide, rfl, by decide, by decide, by decide⟩⟩,
    ⟨cx 0 1 (run1 (ins 0x84 15 14 13 0 0)), 0, 1, 9528740775626539008, _,
      ⟨by decide, by decide, by decide, by decide, rfl, by decide, by decide, by decide⟩⟩,
    ⟨cx 0 1 (run1 (ins 0x85 14 1 2 3 256)), 0, 1, 9599440760566972672, _,
      ⟨by decide, by decide, by decide, by decide, rfl, by decide, by decide, by decide⟩, by decide⟩,
    ⟨cx 0 1 (run1 (ins 0x85 14 1 2 7 1)), 0, 1, 9599440777746841601, _,
      ⟨by decide, by decide, by decide, by decide, rfl, by decide, by decide, by decide⟩, by decide⟩,
    ⟨cx 0 1 (run1 (ins 0x86 0 1 0 15 (2047 * 32 + 5))), 0, 1, 9655735257692962789, _,
      ⟨by decide, by decide, by decide, by decide, rfl, by decide, by decide, by decide⟩, by decide⟩,
    ⟨cx 23 3 { prog := [ins 0x86 0 1 0 15 (2047 * 32 + 5)], basin := 1 }, 23, 3, 9655735257692962789, _,
      ⟨by decide, by decide, by decide, by decide, rfl, by decide, by decide, by decide⟩, by decide⟩,
    ⟨cx 0 1 (run1 (ins 0x80 15 14 13 8 0)), 0, 1, 9240510433834565632, 0x80, Instr.vop 0 1 true, _, by decide,
      ⟨by decide, by decide, by decide, by decide, rfl, by decide, by decide, by decide⟩⟩,
    ⟨rpX 48 (ins 0x81 15 48 0 0 0), 23, 3, 9313162554425475072, _, ⟨by decide, by decide, by decide, by decide, rfl, by decide, by decide, by decide⟩,
      by decide⟩,
    ⟨rpX 48 (ins 0x82 48 15 0 0 0), 23, 3, 9421794303249743872, _, ⟨by decide, by decide, by decide, by decide, rfl, by decide, by decide, by decide⟩,
      by decide⟩⟩

/-- The hypotheses of `Obligations.SynchronisationComplete`, clause by clause. -/
theorem meets_synchronisationComplete :
    (∃ (s : State) (g c w : Nat) (x : Ctx), Issues 0xA0 s g c w x ∧ bits w 4 0 < 24 ∧ s.semOwner (bits w 4 0) (iSem w) = x.basin
        ∧ quotaLines (x.staged ++ [.signal (bits w 4 0) (iSem w) (iCnt w)]) ≤ x.cmd.sntq * 64) ∧
    (∃ (s : State) (g c w : Nat) (x : Ctx), Issues 0xA0 s g c w x ∧ (24 ≤ bits w 4 0 ∨ s.semOwner (bits w 4 0) (iSem w) ≠ x.basin)) ∧
    (∃ (s : State) (g c w : Nat) (x : Ctx), Issues 0xA1 s g c w x ∧ s.semOwner g (iSem w) = x.basin) ∧
    (∃ (s : State) (g c w : Nat) (x : Ctx), Issues 0xA1 s g c w x ∧ s.semOwner g (iSem w) ≠ x.basin) ∧
    (∃ (s : State) (g c n k : Nat) (x : Ctx), g < 24 ∧ c < 4 ∧ s.ctx g c = some x ∧ x.blk = .wait n k ∧ s.coreRuns g = true
        ∧ s.waitersBefore g n x + k ≤ s.fld F.MXC_SEMn.VAL (g * 4096 + n)) ∧
    (∃ (s : State) (g c w : Nat) (x : Ctx), Issues 0xA2 s g c w x ∧ bits w 19 0 < nMin (s.fld F.GEY_CTRL.PERIOD)) ∧
    (∃ (s : State) (g c w : Nat) (x : Ctx), Issues 0xA2 s g c w x ∧ nMin (s.fld F.GEY_CTRL.PERIOD) ≤ bits w 19 0) ∧
    (∃ (s : State) (g c k : Nat) (x : Ctx), g < 24 ∧ c < 4 ∧ s.ctx g c = some x ∧ x.blk = .tickwait k ∧ k ≤ s.frameCyc) ∧
    (∃ (s : State) (g c w : Nat) (x : Ctx), Issues 0xA3 s g c w x ∧ (issued s g c).barEn (bits w 11 0) = true
        ∧ (issued s g c).barOwner (bits w 11 0) = x.basin ∧ quotaLines (x.staged ++ [.fbar (bits w 11 0) (iSem w)]) ≤ x.cmd.sntq * 64) ∧
    (∃ (s : State) (g c w : Nat) (x : Ctx), Issues 0xA3 s g c w x
        ∧ ((issued s g c).barEn (bits w 11 0) = false ∨ (issued s g c).barOwner (bits w 11 0) ≠ x.basin)) ∧
    (∃ (s : State) (g c w : Nat) (x : Ctx), Issues 0xE5 s g c w x ∧ x.poisoned (sdSpec (iRd w)) = false ∧ sdOk (x.sdReg (iRd w)) 1 = true
        ∧ s.mqOwner (bits w 11 0) = x.basin) ∧
    (∃ (s : State) (g c w : Nat) (x : Ctx), Issues 0xE5 s g c w x ∧ x.poisoned (sdSpec (iRd w)) = false ∧ sdOk (x.sdReg (iRd w)) 1 = true
        ∧ s.mqOwner (bits w 11 0) ≠ x.basin) :=
  ⟨⟨cx 0 1 (run1 (0xA0 * 2 ^ 56 + 255 * 2 ^ 44 + 255 * 2 ^ 36 + 23)), 0, 1, 11533718576976363543, _,
      ⟨by decide, by decide, by decide, by decide, rfl, by decide, by decide, by decide⟩, by decide⟩,
    ⟨cx 0 1 { run1 (0xA0 * 2 ^ 56 + 2 ^ 36) with basin := 1 }, 0, 1, 11529215114787946496, _,
      ⟨by decide, by decide, by decide, by decide, rfl, by decide, by decide, by decide⟩, by decide⟩,
    ⟨cx 0 1 (run1 (0xA1 * 2 ^ 56 + 2 ^ 36)), 0, 1, 11601272708825874432, _,
      ⟨by decide, by decide, by decide, by decide, rfl, by decide, by decide, by decide⟩, by decide⟩,
    ⟨cx 23 3 { prog := [0xA1 * 2 ^ 56 + 2 ^ 36], basin := 1 }, 23, 3, 11601272708825874432, _,
      ⟨by decide, by decide, by decide, by decide, rfl, by decide, by decide, by decide⟩, by decide⟩,
    ⟨(cx 0 1 { blk := .wait 255 3 }).setFld F.MXC_SEMn.VAL 255 3, 0, 1, 255, 3, _, by decide, by decide, rfl, by decide⟩,
    ⟨cx 0 1 (run1 (ins 0xA2 0 0 0 0 65619)), 0, 1, 11673330234144391251, _,
      ⟨by decide, by decide, by decide, by decide, rfl, by decide, by decide, by decide⟩, by decide⟩,
    ⟨cx 23 3 { prog := [ins 0xA2 0 0 0 0 0xFFFFF] }, 23, 3, 11673330234145374207, _,
      ⟨by decide, by decide, by decide, by decide, rfl, by decide, by decide, by decide⟩, by decide⟩,
    ⟨{ cx 0 1 { blk := .tickwait 5 } with gey := { arr := 3125 } }, 0, 1, 5, _, by decide, by decide, rfl, by decide⟩,
    ⟨((cx 0 1 (run1 (ins 0xA3 0 0 0 0 0))).setFld F.FAB_BAR_BASE.EN 0 1).write 73 [1#8], 0, 1, 11745387828182253568, _,
      ⟨by decide, by decide, by decide, by decide, rfl, by decide, by decide, by decide⟩, by decide⟩,
    ⟨cx 23 3 { prog := [ins 0xA3 0 0 0 0 0xFFF] }, 23, 3, 11745387828182257663, _,
      ⟨by decide, by decide, by decide, by decide, rfl, by decide, by decide, by decide⟩, by decide⟩,
    ⟨cx 0 1 { run1 (ins 0xE5 48 0 0 0 9) with sd := [(0, sd1 0x8100000000 1 64)] }, 0, 1, 16555232230213943305, _,
      ⟨by decide, by decide, by decide, by decide, rfl, by decide, by decide, by decide⟩, by decide⟩,
    ⟨cx 23 3 { prog := [ins 0xE5 48 0 0 0 0], sd := [(0, sd1 0x8100001000 1 64)], basin := 1 }, 23, 3, 16555232230213943296, _,
      ⟨by decide, by decide, by decide, by decide, rfl, by decide, by decide, by decide⟩, by decide⟩⟩

/-- The hypotheses of `Obligations.EndOfCommandsComplete`, clause by clause. -/
theorem meets_endOfCommandsComplete :
    (∃ (s : State) (g c w : Nat) (x : Ctx), Issues 0xC0 s g c w x) ∧
    (∃ (s : State) (g c w : Nat) (x : Ctx), Issues 0xC1 s g c w x) ∧
    (∃ (s : State) (g c user : Nat) (x : Ctx), g < 24 ∧ c < 4 ∧ s.ctx g c = some x ∧ x.blk = .commit user ∧ s.coreRuns g = true ∧ s.canCommit g c = true
        ∧ ((s.held4 g).all fun (k, y) => k == c || !s.canCommit g k || decide (x.seq < y.seq)) = true
        ∧ (x.cmd.passPoison = true ∨ stagedPoison (s.meetSinter g x.seq x.staged).1 = false)) ∧
    (∃ (s : State) (g c : Nat) (x : Ctx), g < 24 ∧ c < 4 ∧ s.ctx g c = some x ∧ s.coreRuns g = true ∧ s.canCommit g c = true
        ∧ ((s.held4 g).all fun (k, y) => k == c || !s.canCommit g k || decide (x.seq < y.seq)) = true ∧ x.cmd.passPoison = false
        ∧ stagedPoison (s.meetSinter g x.seq x.staged).1 = true) ∧
    (∃ (s : State) (g : Nat), g < 24 ∧ s.routerDown (g / 2) = false) ∧
    (∃ (s : State) (g a k n cnt : Nat) (data : List Byte) (p : Bool) (d : Drain), g < 24 ∧ s.routerDown (g / 2) = false ∧ (s.core g).drains = [d]
        ∧ d.staged = [.store a data p, .signal k n cnt] ∧ d.waiting = [] ∧ d.mcFail = [] ∧ s.flips = [] ∧ s.mmio = [] ∧ a < 0xFF00000000) ∧
    (∃ (s : State) (g : Nat), g < 24 ∧ s.routerDown (g / 2) = true ∧ s.mmio = []) ∧
    (∃ (s : State) (g c : Nat) (x : Ctx), g < 24 ∧ c < 4 ∧ s.ctx g c = some x ∧ x.cmd.budget < s.since x.t0) :=
  ⟨⟨cx 0 1 (run1 (ins 0xC0 0 0 0 0 65535)), 0, 1, 13835058055282229247, _,
      ⟨by decide, by decide, by decide, by decide, rfl, by decide, by decide, by decide⟩⟩,
    ⟨cx 0 1 (run1 (ins 0xC1 0 0 0 0 7)), 0, 1, 13907115649320091655, _,
      ⟨by decide, by decide, by decide, by decide, rfl, by decide, by decide, by decide⟩⟩,
    ⟨cx 0 1 { blk := .commit 7, staged := [.signal 0 0 1] }, 0, 1, 7, _, by decide, by decide, rfl, by decide⟩,
    ⟨cx 0 1 { cmd := { q := 1 }, blk := .commit 7, staged := [.store 0 [1#8] true] }, 0, 1, _, by decide, by decide, rfl, by decide⟩,
    ⟨cx 0 1 (run1 (ins 0xC0 0 0 0 0 65535)), 23, by decide⟩,
    ⟨State.reset.modCore 3 (fun m => { m with drains := [{ seq := 9, cmd := {}, basin := 0, gen := 0, staged := [.store 0x8100000000 [1#8, 2#8] false, .signal 3 5 255] }] }),
      3, 0x8100000000, 3, 5, 255, [1#8, 2#8], false,
      { seq := 9, cmd := {}, basin := 0, gen := 0, staged := [.store 0x8100000000 [1#8, 2#8] false, .signal 3 5 255] }, by decide⟩,
    ⟨State.reset.setDieBit true 11 true, 23, by decide⟩,
    ⟨{ cx 0 1 { cmd := { budget := 1 } } with gey := { arr := 1250 } }, 0, 1, _, by decide, by decide, rfl, by decide⟩⟩

/-- The hypotheses of `Obligations.DispatchAndRecordsComplete`, clause by clause (part 1 of 2). -/
theorem meets_dispatchAndRecordsComplete_a :
    (∃ (s v h : State) (g q ix a b : Nat) (c r : Cmd), g < 24 ∧ q < 8 ∧ s.coreRuns g = true ∧ (s.core g).mapDue = [] ∧ ((q = 0
        ∧ ∃ r, (s.core g).run = some r ∧ ix = qIx r.w.owner 0) ∨ (0 < q ∧ s.windowDue g = none ∧ s.choice g = some q ∧ ix = qIx g q)) ∧ s.stallOf g ix = 0
        ∧ s.headOf g ix = some (false, r) ∧ a = s.entryAddr ix (s.fld F.MXC_Qq_STATUS.HEAD ix) ∧ b = s.queueBasin ix
        ∧ s.badAddr (s.queueWho ix 0) false a 64 = none ∧ v = s.meet a 64 ∧ h = v.headNext ix ∧ c = entryOf (v.readNat a 64) ix ∧ c.gen ≠ h.gen b) ∧
    (∃ (s v h : State) (g q ix a b : Nat) (c r : Cmd), g < 24 ∧ q < 8 ∧ s.coreRuns g = true ∧ (s.core g).mapDue = [] ∧ ((q = 0
        ∧ ∃ r, (s.core g).run = some r ∧ ix = qIx r.w.owner 0) ∨ (0 < q ∧ s.windowDue g = none ∧ s.choice g = some q ∧ ix = qIx g q)) ∧ s.stallOf g ix = 0
        ∧ s.headOf g ix = some (false, r) ∧ a = s.entryAddr ix (s.fld F.MXC_Qq_STATUS.HEAD ix) ∧ b = s.queueBasin ix
        ∧ s.badAddr (s.queueWho ix 0) false a 64 = none ∧ v = s.meet a 64 ∧ h = v.headNext ix ∧ c = entryOf (v.readNat a 64) ix ∧ c.gen = h.gen b
        ∧ h.tagDup g c = true) ∧
    (∃ (s v h : State) (g q ix a b : Nat) (c r : Cmd), g < 24 ∧ q < 8 ∧ s.coreRuns g = true ∧ (s.core g).mapDue = [] ∧ ((q = 0
        ∧ ∃ r, (s.core g).run = some r ∧ ix = qIx r.w.owner 0) ∨ (0 < q ∧ s.windowDue g = none ∧ s.choice g = some q ∧ ix = qIx g q)) ∧ s.stallOf g ix = 0
        ∧ s.headOf g ix = some (false, r) ∧ a = s.entryAddr ix (s.fld F.MXC_Qq_STATUS.HEAD ix) ∧ b = s.queueBasin ix
        ∧ s.badAddr (s.queueWho ix 0) false a 64 = none ∧ v = s.meet a 64 ∧ h = v.headNext ix ∧ c = entryOf (v.readNat a 64) ix ∧ c.gen = h.gen b
        ∧ h.tagDup g c = false ∧ v.rangePoison (v.entryAddr ix (v.fld F.MXC_Qq_STATUS.HEAD ix)) 64 = true) ∧
    (∃ (s v h u : State) (g q ix a b : Nat) (c r : Cmd), g < 24 ∧ q < 8 ∧ s.coreRuns g = true ∧ (s.core g).mapDue = [] ∧ ((q = 0
        ∧ ∃ r, (s.core g).run = some r ∧ ix = qIx r.w.owner 0) ∨ (0 < q ∧ s.windowDue g = none ∧ s.choice g = some q ∧ ix = qIx g q)) ∧ s.stallOf g ix = 0
        ∧ s.headOf g ix = some (false, r) ∧ a = s.entryAddr ix (s.fld F.MXC_Qq_STATUS.HEAD ix) ∧ b = h.queueBasin ix
        ∧ s.badAddr (s.queueWho ix 0) false a 64 = none ∧ v = s.meet a 64 ∧ h = v.headNext ix ∧ c = entryOf (v.readNat a 64) ix
        ∧ c.gen = h.gen (s.queueBasin ix) ∧ h.tagDup g c = false ∧ v.rangePoison (v.entryAddr ix (v.fld F.MXC_Qq_STATUS.HEAD ix)) 64 = false
        ∧ 
      u = (let w := h.incFld F.MXC_Qq_CNT.DISPATCHED ix
      if ix % 8 = 0 then w.modCore g fun m => { m with run := m.run.map fun r => { r with left := r.left - 1 } } else w)
        ∧ u.jobTorn c.job = true) ∧
    (∃ (s v h u : State) (g q ix a b : Nat) (c r : Cmd), g < 24 ∧ q < 8 ∧ s.coreRuns g = true ∧ (s.core g).mapDue = [] ∧ ((q = 0
        ∧ ∃ r, (s.core g).run = some r ∧ ix = qIx r.w.owner 0) ∨ (0 < q ∧ s.windowDue g = none ∧ s.choice g = some q ∧ ix = qIx g q)) ∧ s.stallOf g ix = 0
        ∧ s.headOf g ix = some (false, r) ∧ a = s.entryAddr ix (s.fld F.MXC_Qq_STATUS.HEAD ix) ∧ b = h.queueBasin ix
        ∧ s.badAddr (s.queueWho ix 0) false a 64 = none ∧ v = s.meet a 64 ∧ h = v.headNext ix ∧ c = entryOf (v.readNat a 64) ix
        ∧ c.gen = h.gen (s.queueBasin ix) ∧ h.tagDup g c = false ∧ v.rangePoison (v.entryAddr ix (v.fld F.MXC_Qq_STATUS.HEAD ix)) 64 = false
        ∧ 
      u = (let w := h.incFld F.MXC_Qq_CNT.DISPATCHED ix
      if ix % 8 = 0 then w.modCore g fun m => { m with run := m.run.map fun r => { r with left := r.left - 1 } } else w)
        ∧ u.jobTorn c.job = false ∧ u.sideCap g (c.q % 8 == 0) < c.sntq) ∧
    (∃ (s v h u : State) (g q ix a b : Nat) (c r : Cmd), g < 24 ∧ q < 8 ∧ s.coreRuns g = true ∧ (s.core g).mapDue = [] ∧ ((q = 0
        ∧ ∃ r, (s.core g).run = some r ∧ ix = qIx r.w.owner 0) ∨ (0 < q ∧ s.windowDue g = none ∧ s.choice g = some q ∧ ix = qIx g q)) ∧ s.stallOf g ix = 0
        ∧ s.headOf g ix = some (false, r) ∧ a = s.entryAddr ix (s.fld F.MXC_Qq_STATUS.HEAD ix) ∧ b = h.queueBasin ix
        ∧ s.badAddr (s.queueWho ix 0) false a 64 = none ∧ v = s.meet a 64 ∧ h = v.headNext ix ∧ c = entryOf (v.readNat a 64) ix
        ∧ c.gen = h.gen (s.queueBasin ix) ∧ h.tagDup g c = false ∧ v.rangePoison (v.entryAddr ix (v.fld F.MXC_Qq_STATUS.HEAD ix)) 64 = false
        ∧ 
      u = (let w := h.incFld F.MXC_Qq_CNT.DISPATCHED ix
      if ix % 8 = 0 then w.modCore g fun m => { m with run := m.run.map fun r => { r with left := r.left - 1 } } else w)
        ∧ u.jobTorn c.job = false ∧ c.sntq ≤ u.sideCap g (c.q % 8 == 0) ∧ c.prog % 8 ≠ 0) ∧
    (∃ (s v h u : State) (g q ix a b : Nat) (c r : Cmd) (e : _), g < 24 ∧ q < 8 ∧ s.coreRuns g = true ∧ (s.core g).mapDue = [] ∧ ((q = 0
        ∧ ∃ r, (s.core g).run = some r ∧ ix = qIx r.w.owner 0) ∨ (0 < q ∧ s.windowDue g = none ∧ s.choice g = some q ∧ ix = qIx g q)) ∧ s.stallOf g ix = 0
        ∧ s.headOf g ix = some (false, r) ∧ a = s.entryAddr ix (s.fld F.MXC_Qq_STATUS.HEAD ix) ∧ b = h.queueBasin ix
        ∧ s.badAddr (s.queueWho ix 0) false a 64 = none ∧ v = s.meet a 64 ∧ h = v.headNext ix ∧ c = entryOf (v.readNat a 64) ix
        ∧ c.gen = h.gen (s.queueBasin ix) ∧ h.tagDup g c = false ∧ v.rangePoison (v.entryAddr ix (v.fld F.MXC_Qq_STATUS.HEAD ix)) 64 = false
        ∧ 
      u = (let w := h.incFld F.MXC_Qq_CNT.DISPATCHED ix
      if ix % 8 = 0 then w.modCore g fun m => { m with run := m.run.map fun r => { r with left := r.left - 1 } } else w)
        ∧ u.jobTorn c.job = false ∧ c.sntq ≤ u.sideCap g (c.q % 8 == 0) ∧ c.prog % 8 = 0
        ∧ u.badAddr (u.queueWho c.q c.tag) false c.prog (c.ninstr * 8) = some e) ∧
    (∃ (s v h u : State) (g q ix a b : Nat) (c r : Cmd), g < 24 ∧ q < 8 ∧ s.coreRuns g = true ∧ (s.core g).mapDue = [] ∧ ((q = 0
        ∧ ∃ r, (s.core g).run = some r ∧ ix = qIx r.w.owner 0) ∨ (0 < q ∧ s.windowDue g = none ∧ s.choice g = some q ∧ ix = qIx g q)) ∧ s.stallOf g ix = 0
        ∧ s.headOf g ix = some (false, r) ∧ a = s.entryAddr ix (s.fld F.MXC_Qq_STATUS.HEAD ix) ∧ b = h.queueBasin ix
        ∧ s.badAddr (s.queueWho ix 0) false a 64 = none ∧ v = s.meet a 64 ∧ h = v.headNext ix ∧ c = entryOf (v.readNat a 64) ix
        ∧ c.gen = h.gen (s.queueBasin ix) ∧ h.tagDup g c = false ∧ v.rangePoison (v.entryAddr ix (v.fld F.MXC_Qq_STATUS.HEAD ix)) 64 = false
        ∧ 
      u = (let w := h.incFld F.MXC_Qq_CNT.DISPATCHED ix
      if ix % 8 = 0 then w.modCore g fun m => { m with run := m.run.map fun r => { r with left := r.left - 1 } } else w)
        ∧ u.jobTorn c.job = false ∧ c.sntq ≤ u.sideCap g (c.q % 8 == 0) ∧ c.prog % 8 = 0 ∧ u.badAddr (u.queueWho c.q c.tag) false c.prog (c.ninstr * 8) = none
        ∧ (u.meet c.prog (c.ninstr * 8)).rangePoison c.prog (c.ninstr * 8) = true) ∧
    (∃ (s v h u : State) (g q ix a b : Nat) (c r : Cmd), g < 24 ∧ q < 8 ∧ s.coreRuns g = true ∧ (s.core g).mapDue = [] ∧ ((q = 0
        ∧ ∃ r, (s.core g).run = some r ∧ ix = qIx r.w.owner 0) ∨ (0 < q ∧ s.windowDue g = none ∧ s.choice g = some q ∧ ix = qIx g q)) ∧ s.stallOf g ix = 0
        ∧ s.headOf g ix = some (false, r) ∧ a = s.entryAddr ix (s.fld F.MXC_Qq_STATUS.HEAD ix) ∧ b = h.queueBasin ix
        ∧ s.badAddr (s.queueWho ix 0) false a 64 = none ∧ v = s.meet a 64 ∧ h = v.headNext ix ∧ c = entryOf (v.readNat a 64) ix
        ∧ c.gen = h.gen (s.queueBasin ix) ∧ h.tagDup g c = false ∧ v.rangePoison (v.entryAddr ix (v.fld F.MXC_Qq_STATUS.HEAD ix)) 64 = false
        ∧ 
      u = (let w := h.incFld F.MXC_Qq_CNT.DISPATCHED ix
      if ix % 8 = 0 then w.modCore g fun m => { m with run := m.run.map fun r => { r with left := r.left - 1 } } else w)
        ∧ u.jobTorn c.job = false ∧ c.sntq ≤ u.sideCap g (c.q % 8 == 0) ∧ c.prog % 8 = 0 ∧ u.badAddr (u.queueWho c.q c.tag) false c.prog (c.ninstr * 8) = none
        ∧ (u.meet c.prog (c.ninstr * 8)).rangePoison c.prog (c.ninstr * 8) = false) ∧
    (∃ (s u : State) (g q ix b : Nat) (c : Cmd), g < 24 ∧ q < 8 ∧ s.coreRuns g = true ∧ (s.core g).mapDue = [] ∧ ((q = 0 ∧ ∃ r, (s.core g).run = some r
        ∧ ix = qIx r.w.owner 0) ∨ (0 < q ∧ s.windowDue g = none ∧ s.choice g = some q ∧ ix = qIx g q)) ∧ s.stallOf g ix = 0 ∧ s.headOf g ix = some (true, c)
        ∧ b = s.queueBasin c.q ∧ u = (s.modCore g fun m => { m with rerun := m.rerun.filter (· != c) }).incFld F.MXC_Qq_CNT.DISPATCHED c.q
        ∧ u.jobTorn c.job = true) ∧
    (∃ (s u : State) (g q ix b : Nat) (c : Cmd), g < 24 ∧ q < 8 ∧ s.coreRuns g = true ∧ (s.core g).mapDue = [] ∧ ((q = 0 ∧ ∃ r, (s.core g).run = some r
        ∧ ix = qIx r.w.owner 0) ∨ (0 < q ∧ s.windowDue g = none ∧ s.choice g = some q ∧ ix = qIx g q)) ∧ s.stallOf g ix = 0 ∧ s.headOf g ix = some (true, c)
        ∧ b = s.queueBasin c.q ∧ u = (s.modCore g fun m => { m with rerun := m.rerun.filter (· != c) }).incFld F.MXC_Qq_CNT.DISPATCHED c.q
        ∧ u.jobTorn c.job = false ∧ u.sideCap g (c.q % 8 == 0) < c.sntq) ∧
    (∃ (s u : State) (g q ix b : Nat) (c : Cmd) (e : _), g < 24 ∧ q < 8 ∧ s.coreRuns g = true ∧ (s.core g).mapDue = [] ∧ ((q = 0
        ∧ ∃ r, (s.core g).run = some r ∧ ix = qIx r.w.owner 0) ∨ (0 < q ∧ s.windowDue g = none ∧ s.choice g = some q ∧ ix = qIx g q)) ∧ s.stallOf g ix = 0
        ∧ s.headOf g ix = some (true, c) ∧ b = s.queueBasin c.q
        ∧ u = (s.modCore g fun m => { m with rerun := m.rerun.filter (· != c) }).incFld F.MXC_Qq_CNT.DISPATCHED c.q ∧ u.jobTorn c.job = false
        ∧ c.sntq ≤ u.sideCap g (c.q % 8 == 0) ∧ u.badAddr (u.queueWho c.q c.tag) false c.prog (c.ninstr * 8) = some e) ∧
    (∃ (s u : State) (g q ix b : Nat) (c : Cmd), g < 24 ∧ q < 8 ∧ s.coreRuns g = true ∧ (s.core g).mapDue = [] ∧ ((q = 0 ∧ ∃ r, (s.core g).run = some r
        ∧ ix = qIx r.w.owner 0) ∨ (0 < q ∧ s.windowDue g = none ∧ s.choice g = some q ∧ ix = qIx g q)) ∧ s.stallOf g ix = 0 ∧ s.headOf g ix = some (true, c)
        ∧ b = s.queueBasin c.q ∧ u = (s.modCore g fun m => { m with rerun := m.rerun.filter (· != c) }).incFld F.MXC_Qq_CNT.DISPATCHED c.q
        ∧ u.jobTorn c.job = false ∧ c.sntq ≤ u.sideCap g (c.q % 8 == 0) ∧ u.badAddr (u.queueWho c.q c.tag) false c.prog (c.ninstr * 8) = none
        ∧ (u.meet c.prog (c.ninstr * 8)).rangePoison c.prog (c.ninstr * 8) = true) ∧
    (∃ (s u : State) (g q ix b : Nat) (c : Cmd), g < 24 ∧ q < 8 ∧ s.coreRuns g = true ∧ (s.core g).mapDue = [] ∧ ((q = 0 ∧ ∃ r, (s.core g).run = some r
        ∧ ix = qIx r.w.owner 0) ∨ (0 < q ∧ s.windowDue g = none ∧ s.choice g = some q ∧ ix = qIx g q)) ∧ s.stallOf g ix = 0 ∧ s.headOf g ix = some (true, c)
        ∧ b = s.queueBasin c.q ∧ u = (s.modCore g fun m => { m with rerun := m.rerun.filter (· != c) }).incFld F.MXC_Qq_CNT.DISPATCHED c.q
        ∧ u.jobTorn c.job = false ∧ c.sntq ≤ u.sideCap g (c.q % 8 == 0) ∧ u.badAddr (u.queueWho c.q c.tag) false c.prog (c.ninstr * 8) = none
        ∧ (u.meet c.prog (c.ninstr * 8)).rangePoison c.prog (c.ninstr * 8) = false) :=
  ⟨⟨dp1 (5 + 2 ^ 48 + 2 ^ 16) 0x8100001000 (100 + 2 ^ 20), _, _, 0, 1, 1, 554050781184, 0, _, { dpC with gen := 1 }, by decide, by decide, by decide,
      by decide, by decide, by decide, by decide, by decide, by decide, by decide, rfl, rfl, rfl, by decide⟩,
    ⟨dp0.setCtx 0 3 (some { cmd := dpC }), _, _, 0, 1, 1, 554050781184, 0, _, dpC, by decide, by decide, by decide, by decide, by decide, by decide,
      by decide, by decide, by decide, by decide, rfl, rfl, rfl, by decide⟩,
    ⟨{ dp0 with poison := [(0x8100000000 / 64, 7)] }, _, _, 0, 1, 1, 554050781184, 0, _, dpC, by decide, by decide, by decide, by decide, by decide,
      by decide, by decide, by decide, by decide, by decide, rfl, rfl, rfl, by decide⟩,
    ⟨(dp1 (5 + 2 ^ 48) 0x8100001000 ((100 + 2 ^ 20) + 9 * 2 ^ 32)).modFab fun f => { f with jobs := [(9, true)] }, _, _, _, 0, 1, 1, 554050781184, 0, _,
      { dpC with job := 9 }, by decide, by decide, by decide, by decide, by decide, by decide, by decide, by decide, by decide, by decide, rfl, rfl, rfl,
      by decide, by decide, by decide, rfl, by decide⟩,
    ⟨dp1 (5 + 2 ^ 48) 0x8100001000 (100 + 0xFFF * 2 ^ 20), _, _, _, 0, 1, 1, 554050781184, 0, _, { dpC with sntq := 4095 }, by decide, by decide,
      by decide, by decide, by decide, by decide, by decide, by decide, by decide, by decide, rfl, rfl, rfl, by decide, by decide, by decide, rfl,
      by decide⟩,
    ⟨dp1 (5 + 2 ^ 48) 0x8100001001 (100 + 2 ^ 20), _, _, _, 0, 1, 1, 554050781184, 0, _, { dpC with prog := 0x8100001001 }, by decide, by decide,
      by decide, by decide, by decide, by decide, by decide, by decide, by decide, by decide, rfl, rfl, rfl, by decide, by decide, by decide, rfl,
      by decide⟩,
    ⟨dp1 (5 + 2 ^ 48) 0x4800000000 (100 + 2 ^ 20), _, _, _, 0, 1, 1, 554050781184, 0, _, { dpC with prog := 0x4800000000 }, _, by decide, by decide,
      by decide, by decide, by decide, by decide, by decide, by decide, by decide, by decide, rfl, rfl, rfl, by decide, by decide, by decide, rfl,
      by decide, by decide, by decide, rfl⟩,
    ⟨{ dp0 with poison := [(0x8100001000 / 64, 7)] }, _, _, _, 0, 1, 1, 554050781184, 0, _, dpC, by decide, by decide, by decide, by decide, by decide,
      by decide, by decide, by decide, by decide, by decide, rfl, rfl, rfl, by decide, by decide, by decide, rfl, by decide⟩,
    ⟨dp0, _, _, _, 0, 1, 1, 554050781184, 0, _, dpC, by decide, by decide, by decide, by decide, by decide, by decide, by decide, by decide, by decide,
      by decide, rfl, rfl, rfl, by decide, by decide, by decide, rfl, by decide⟩,
    ⟨(dp0.modCore 0 fun m => { m with rerun := [{ dpC with job := 9 }] }).modFab fun f => { f with jobs := [(9, true)] }, _, 0, 1, 1, 0, _, by decide,
      by decide, by decide, by decide, by decide, by decide, rfl, by decide, rfl, by decide⟩,
    ⟨dp0.modCore 0 fun m => { m with rerun := [{ dpC with sntq := 4095 }] }, _, 0, 1, 1, 0, _, by decide, by decide, by decide, by decide, by decide,
      by decide, rfl, by decide, rfl, by decide⟩,
    ⟨dp0.modCore 0 fun m => { m with rerun := [{ dpC with prog := 0x4800000000 }] }, _, 0, 1, 1, 0, _, _, by decide, by decide, by decide, by decide,
      by decide, by decide, rfl, by decide, rfl, by decide, by decide, rfl⟩,
    ⟨{ dpH with poison := [(0x8100001000 / 64, 7)] }, _, 0, 1, 1, 0, _, by decide, by decide, by decide, by decide, by decide, by decide, rfl, by decide,
      rfl, by decide⟩,
    ⟨dpH, _, 0, 1, 1, 0, _, by decide, by decide, by decide, by decide, by decide, by decide, rfl, by decide, rfl, by decide⟩⟩

/-- The hypotheses of `Obligations.DispatchAndRecordsComplete`, clause by clause (part 2 of 2). -/
theorem meets_dispatchAndRecordsComplete_b :
    (∃ (s : State) (g q ix a : Nat) (r : Cmd), g < 24 ∧ q < 8 ∧ s.coreRuns g = true ∧ (s.core g).mapDue = [] ∧ ((q = 0 ∧ ∃ r, (s.core g).run = some r
        ∧ ix = qIx r.w.owner 0) ∨ (0 < q ∧ s.windowDue g = none ∧ s.choice g = some q ∧ ix = qIx g q)) ∧ s.stallOf g ix = 0 ∧ s.headOf g ix = some (false, r)
        ∧ s.badAddr (s.queueWho ix 0) false (s.entryAddr ix (s.fld F.MXC_Qq_STATUS.HEAD ix)) 64 = some a) ∧
    (∃ (s : State) (g q : Nat), g < 24 ∧ q < 8 ∧ (s.coreRuns g = false ∨ (s.core g).mapDue ≠ [] ∨ (∀ ix, (q = 0 ∧ ∃ r, (s.core g).run = some r
        ∧ ix = qIx r.w.owner 0) ∨ (0 < q ∧ s.windowDue g = none ∧ s.choice g = some q ∧ ix = qIx g q) → s.stallOf g ix ≠ 0 ∨ s.headOf g ix = none))) ∧
    (∃ (s : State) (g q : Nat) (r : Rec) (drop hold : State → State), OldestRecord s g q r drop hold ∧ r.gen = s.gen r.basin ∧ s.cqFull r.q = false) ∧
    (∃ (s : State) (g q : Nat) (r : Rec) (drop hold : State → State), OldestRecord s g q r drop hold ∧ r.gen = s.gen r.basin ∧ s.cqFull r.q = true) ∧
    (∃ (s : State) (g q : Nat) (r : Rec) (drop hold : State → State), OldestRecord s g q r drop hold ∧ r.gen ≠ s.gen r.basin) :=
  ⟨⟨dp0.setFld F.MXC_Qq_RING.BASE 1 0x4800000000, 0, 1, 1, 309237645312, { ninstr := 4096, args := [0, 0, 0, 0, 0], q := 1 }, by decide⟩,
    ⟨dp0.setDieBit true 11 true, 23, 7, by decide, by decide, .inl (by decide)⟩,
    ⟨rcS 0, 23, 7, { rc0 with q := 191, gen := 0 }, drop23 { rc0 with q := 191, gen := 0 }, hold23 { rc0 with q := 191, gen := 0 },
      ⟨by decide, .inl ⟨by decide, by decide, by decide, rfl, rfl⟩⟩, by decide⟩,
    ⟨(rcS 0).setQueue 191 { cqTail := 16 }, 23, 7, { rc0 with q := 191, gen := 0 }, drop23 { rc0 with q := 191, gen := 0 },
      hold23 { rc0 with q := 191, gen := 0 }, ⟨by decide, .inl ⟨by decide, by decide, by decide, rfl, rfl⟩⟩, by decide⟩,
    ⟨rcS 1, 23, 7, { rc0 with q := 191, gen := 1 }, drop23 { rc0 with q := 191, gen := 1 }, hold23 { rc0 with q := 191, gen := 1 },
      ⟨by decide, .inl ⟨by decide, by decide, by decide, rfl, rfl⟩⟩, by decide⟩⟩

/-- The hypotheses of `Obligations.SinterAndSemaphoreWritesComplete`, clause by clause. -/
theorem meets_sinterAndSemaphoreWritesComplete :
    (∃ (s : State) (g : Nat) (v : BitVec 32), g < 24 ∧ s.takesWrite .SNT_CTRL g = true) ∧
    (∃ (s : State) (g n : Nat), g < 24 ∧ (s.core g).rsvPend = some n ∧ s.unitsHeld g true ≤ n ∧ s.unitsHeld g false ≤ 1024 - n ∧ s.frameCyc = 0
        ∧ s.flag F.GEY_CTRL.TICKING = true) ∧
    (∃ (s : State) (g : Nat) (v : BitVec 32), g < 24 ∧ bits v.toNat 19 12 ≠ 0 ∧ s.takesWrite .MXC_SEM_SIGNAL g = true) ∧
    (∃ (s : State) (g : Nat) (v : BitVec 32), g < 24 ∧ bits v.toNat 19 12 = 0 ∧ s.takesWrite .MXC_SEM_SIGNAL g = true) ∧
    (∃ (s : State) (g n : Nat) (v : BitVec 32), g < 24 ∧ 256 ≤ n ∧ n < 4096 ∧ s.fld F.MXC_SEMn.RSV (g * 4096 + n) = 0
        ∧ s.building (s.fld F.MXC_SEMn.OWNER (g * 4096 + n)) = true ∧ s.building (bits v.toNat 23 16) = true ∧ s.takesWrite .MXC_SEMn (4096 * g + n) = true) ∧
    (∃ (s : State) (g n : Nat) (v : BitVec 32), g < 24 ∧ n < 4096 ∧ (n < 256 ∨ s.fld F.MXC_SEMn.OWNER (g * 4096 + n) = bits v.toNat 23 16
        ∧ (s.fld F.MXC_SEMn.RSV (g * 4096 + n) ≠ 0 ∨ s.building (bits v.toNat 23 16) = false)) ∧ s.takesWrite .MXC_SEMn (4096 * g + n) = true) ∧
    (∃ (s : State) (g n : Nat) (v : BitVec 32), g < 24 ∧ 256 ≤ n ∧ n < 4096 ∧ s.fld F.MXC_SEMn.OWNER (g * 4096 + n) ≠ bits v.toNat 23 16
        ∧ (s.fld F.MXC_SEMn.RSV (g * 4096 + n) ≠ 0 ∨ s.building (s.fld F.MXC_SEMn.OWNER (g * 4096 + n)) = false ∨ s.building (bits v.toNat 23 16) = false)
        ∧ s.takesWrite .MXC_SEMn (4096 * g + n) = true) ∧
    (∃ (s : State) (g n : Nat) (v : BitVec 32) (k : RegKind) (ix : Nat) (i : Instr), g < 24 ∧ n < 4096
        ∧ (k, ix, i) ∈ [(RegKind.SNT_CTRL, g, Instr.radioRsvWrite g v), (.MXC_SEM_SIGNAL, g, .semSignalWrite g v), (.MXC_SEMn, 4096 * g + n, .semOwnerWrite g n v)]
        ∧ s.takesWrite k ix = false) :=
  ⟨⟨State.reset, 23, 1023, by decide⟩,
    ⟨(st [(F.GEY_CTRL.TICKING, 0, 1)]).modCore 0 (fun m => { m with rsvPend := some 768 }), 0, 768, by decide⟩,
    ⟨State.reset, 23, 0xFFFFF, by decide⟩,
    ⟨State.reset, 23, 1023, by decide⟩,
    ⟨State.reset, 23, 256, 1023, by decide⟩,
    ⟨State.reset, 23, 23, 1023, by decide⟩,
    ⟨State.reset, 23, 256, 0xFFFFF, by decide⟩,
    ⟨State.reset.setDieBit true 11 true, 23, 0, 1023, .SNT_CTRL, 23, .radioRsvWrite 23 1023, by decide⟩⟩

/-- The hypotheses of `Obligations.FabricInstructionsComplete`, clause by clause. -/
theorem meets_fabricInstructionsComplete :
    (∃ (s : State) (g c w : Nat) (x : Ctx), Issues 0xE0 s g c w x ∧ x.poisoned (iRa w) = false ∧ addImm (x.val (iRa w)) w % 2 ^ (iFn w % 4) = 0
        ∧ faRange (addImm (x.val (iRa w)) w) (2 ^ (iFn w % 4)) = true ∧ faPidx (addImm (x.val (iRa w)) w) = s.pidx) ∧
    (∃ (s : State) (g c w : Nat) (x : Ctx) (l : RLine), Issues 0xE0 s g c w x ∧ x.poisoned (iRa w) = false
        ∧ addImm (x.val (iRa w)) w % 2 ^ (iFn w % 4) = 0 ∧ faRange (addImm (x.val (iRa w)) w) (2 ^ (iFn w % 4)) = true
        ∧ faPidx (addImm (x.val (iRa w)) w) ≠ s.pidx ∧ (issued s g c).faNoRoute (addImm (x.val (iRa w)) w) = false
        ∧ (issued s g c).fabReach g (s.sysid / 512 * 512 + faPidx (addImm (x.val (iRa w)) w)) (hashAddr (addImm (x.val (iRa w)) w)) = true
        ∧ bit (iFn w) 3 = false
        ∧ ((issued s g c).meetCache (g / 2) (addImm (x.val (iRa w)) w / 64)).rrcHit (g / 2) x.basin (addImm (x.val (iRa w)) w) = some l) ∧
    (∃ (s u : State) (g c w : Nat) (x : Ctx), Issues 0xE0 s g c w x ∧ x.poisoned (iRa w) = false ∧ addImm (x.val (iRa w)) w % 2 ^ (iFn w % 4) = 0
        ∧ faRange (addImm (x.val (iRa w)) w) (2 ^ (iFn w % 4)) = true ∧ faPidx (addImm (x.val (iRa w)) w) ≠ s.pidx
        ∧ (issued s g c).faNoRoute (addImm (x.val (iRa w)) w) = false
        ∧ (issued s g c).fabReach g (s.sysid / 512 * 512 + faPidx (addImm (x.val (iRa w)) w)) (hashAddr (addImm (x.val (iRa w)) w)) = true
        ∧ ((bit (iFn w) 3 = true ∧ u = issued s g c) ∨ (bit (iFn w) 3 = false ∧ u = (issued s g c).meetCache (g / 2) (addImm (x.val (iRa w)) w / 64)
        ∧ u.rrcHit (g / 2) x.basin (addImm (x.val (iRa w)) w) = none))) ∧
    (∃ (s : State) (g c w : Nat) (x : Ctx), Issues 0xE0 s g c w x ∧ x.poisoned (iRa w) = false ∧ addImm (x.val (iRa w)) w % 2 ^ (iFn w % 4) ≠ 0) ∧
    (∃ (s : State) (g c w : Nat) (x : Ctx), Issues 0xE0 s g c w x ∧ x.poisoned (iRa w) = false ∧ addImm (x.val (iRa w)) w % 2 ^ (iFn w % 4) = 0
        ∧ (faRange (addImm (x.val (iRa w)) w) (2 ^ (iFn w % 4)) = false ∨ faPidx (addImm (x.val (iRa w)) w) ≠ s.pidx
        ∧ ((issued s g c).faNoRoute (addImm (x.val (iRa w)) w) = true ∨ (issued s g c).fabReach g (s.sysid / 512 * 512 + faPidx (addImm (x.val (iRa w)) w)) (hashAddr (addImm (x.val (iRa w)) w)) = false))) ∧
    (∃ (s : State) (g c w : Nat) (x : Ctx), Issues 0xE0 s g c w x ∧ x.poisoned (iRa w) = true) ∧
    (∃ (s : State) (g c w : Nat) (x : Ctx), Issues 0xE1 s g c w x ∧ x.poisoned (iRa w) = false
        ∧ faRange (addImm (x.val (iRa w)) w) (2 ^ (iFn w % 4)) = true
        ∧ (faPidx (addImm (x.val (iRa w)) w) = s.pidx ∨ (issued s g c).faNoRoute (addImm (x.val (iRa w)) w) = false
        ∧ (issued s g c).fabReach g (s.sysid / 512 * 512 + faPidx (addImm (x.val (iRa w)) w)) (hashAddr (addImm (x.val (iRa w)) w)) = true)) ∧
    (∃ (s : State) (g c w : Nat) (x : Ctx), Issues 0xE1 s g c w x ∧ x.poisoned (iRa w) = false
        ∧ (faRange (addImm (x.val (iRa w)) w) (2 ^ (iFn w % 4)) = false ∨ faPidx (addImm (x.val (iRa w)) w) ≠ s.pidx
        ∧ ((issued s g c).faNoRoute (addImm (x.val (iRa w)) w) = true ∨ (issued s g c).fabReach g (s.sysid / 512 * 512 + faPidx (addImm (x.val (iRa w)) w)) (hashAddr (addImm (x.val (iRa w)) w)) = false))) ∧
    (∃ (s : State) (g c w : Nat) (x : Ctx), Issues 0xE2 s g c w x ∧ x.poisoned (iRa w) = false ∧ x.poisoned (iRd w) = false ∧ x.val (iRa w) % 8 = 0
        ∧ faRange (x.val (iRa w)) 8 = true ∧ (issued s g c).badAddr (s.coreWho g x) true (x.val (iRd w)) 8 = none ∧ (faPidx (x.val (iRa w)) ≠ s.pidx
        ∧ (issued s g c).faNoRoute (x.val (iRa w)) = false
        ∧ (issued s g c).fabReach g (s.sysid / 512 * 512 + faPidx (x.val (iRa w))) (hashAddr (x.val (iRa w))) = true ∨ faPidx (x.val (iRa w)) = s.pidx
        ∧ (issued s g c).badAddr (s.coreWho g x) true (faOfs (x.val (iRa w))) 8 = none)) ∧
    (∃ (s : State) (g c w : Nat) (x : Ctx), Issues 0xE2 s g c w x ∧ x.poisoned (iRa w) = false ∧ x.poisoned (iRd w) = false ∧ x.val (iRa w) % 8 ≠ 0) ∧
    (∃ (s : State) (g c w a : Nat) (x : Ctx), Issues 0xE2 s g c w x ∧ x.poisoned (iRa w) = false ∧ x.poisoned (iRd w) = false ∧ x.val (iRa w) % 8 = 0
        ∧ faRange (x.val (iRa w)) 8 = true ∧ (issued s g c).badAddr (s.coreWho g x) true (x.val (iRd w)) 8 = some a) ∧
    (∃ (s : State) (g c w : Nat) (x : Ctx), Issues 0xE3 s g c w x ∧ x.poisoned (iRa w) = false ∧ x.poisoned (iRb w) = false) ∧
    (∃ (s : State) (g c w : Nat) (x : Ctx), Issues 0xE4 s g c w x ∧ x.poisoned (iRa w) = false ∧ x.poisoned (sdSpec (iRd w)) = false
        ∧ (if bit (x.val (iRa w)) 31 then x.val (iRa w) % 2 ^ 31 / 64 = 0 ∧ x.val (iRa w) / 2 ^ 32 = 0 else x.val (iRa w) / 2 ^ 25 = 0)
        ∧ sdOk (x.sdReg (iRd w)) 0 = true ∧ sdLen (x.sdReg (iRd w)) ≤ 262144 ∧ (issued s g c).streamBad g x false (x.sdReg (iRd w)) = none
        ∧ (∀ e ∈ (issued s g c).endpoints (x.val (iRa w)), e / 4096 = s.sysid ∨ (issued s g c).rtValid (e / 4096) = true
        ∧ (issued s g c).fabReach g (e / 4096) (hashMsg (e % 4096) g) = true)) ∧
    (∃ (s : State) (g c w : Nat) (x : Ctx), Issues 0xE4 s g c w x ∧ x.poisoned (iRa w) = false ∧ x.poisoned (sdSpec (iRd w)) = false
        ∧ (if bit (x.val (iRa w)) 31 then x.val (iRa w) % 2 ^ 31 / 64 ≠ 0 ∨ x.val (iRa w) / 2 ^ 32 ≠ 0 else x.val (iRa w) / 2 ^ 25 ≠ 0)) ∧
    (∃ (s : State) (g c w op : Nat) (i : Instr) (x : Ctx), (op, i) ∈ [(0xE1, Instr.fstore g c), (0xE2, .fatom g c), (0xE3, .finv g c), (0xE4, .fsend g c)]
        ∧ Issues op s g c w x ∧ x.poisoned (iRa w) = true) :=
  ⟨⟨cx 0 1 { run1 (ins 0xE0 5 1 0 3 0) with r := [(1, 2 * 2 ^ 52 + 0x8100000000)] }, 0, 1, 16146548169101017088, _,
      ⟨by decide, by decide, by decide, by decide, rfl, by decide, by decide, by decide⟩, by decide⟩,
    ⟨{ fb0 { run1 (ins 0xE0 5 1 0 0 0) with r := [(1, 3 * 2 ^ 55)] } with rrc := [(3 * 2 ^ 49, ⟨0, 0, [7#8], false, 1⟩)] }, 0, 1, 16146548156216115200, _,
      _, ⟨by decide, by decide, by decide, by decide, rfl, by decide, by decide, by decide⟩, by decide, by decide, by decide, by decide, by decide,
      by decide, by decide, rfl⟩,
    ⟨fx (ins 0xE0 5 1 0 8 0) [(1, 3 * 2 ^ 55)], _, 0, 1, 16146548190575853568, _,
      ⟨by decide, by decide, by decide, by decide, rfl, by decide, by decide, by decide⟩, by decide, by decide, by decide, by decide, by decide, by decide,
      .inl ⟨by decide, rfl⟩⟩,
    ⟨fx (ins 0xE0 5 1 0 3 0) [(1, 1)], 0, 1, 16146548169101017088, _, ⟨by decide, by decide, by decide, by decide, rfl, by decide, by decide, by decide⟩,
      by decide⟩,
    ⟨cx 0 1 { run1 (ins 0xE0 5 1 0 3 0) with r := [(1, 7 * 2 ^ 52)] }, 0, 1, 16146548169101017088, _,
      ⟨by decide, by decide, by decide, by decide, rfl, by decide, by decide, by decide⟩, by decide⟩,
    ⟨rpX 1 (ins 0xE0 5 1 0 3 0), 23, 3, 16146548169101017088, _, ⟨by decide, by decide, by decide, by decide, rfl, by decide, by decide, by decide⟩,
      by decide⟩,
    ⟨fb0 { run1 (ins 0xE1 0 1 2 3 0) with r := [(1, 3 * 2 ^ 55)], cmd := { sntq := 1 } }, 0, 1, 16212976813360545792, _,
      ⟨by decide, by decide, by decide, by decide, rfl, by decide, by decide, by decide⟩, by decide⟩,
    ⟨fx (ins 0xE1 0 1 2 3 0) [(1, 2 ^ 48)], 0, 1, 16212976813360545792, _,
      ⟨by decide, by decide, by decide, by decide, rfl, by decide, by decide, by decide⟩, by decide⟩,
    ⟨fb0 { run1 (ins 0xE2 3 1 2 7 0) with r := [(1, 3 * 2 ^ 55), (3, 0x8100000000)], cmd := { sntq := 1 } }, 0, 1, 16288412124298870784, _,
      ⟨by decide, by decide, by decide, by decide, rfl, by decide, by decide, by decide⟩, by decide⟩,
    ⟨fx (ins 0xE2 3 1 2 7 0) [(1, 1)], 0, 1, 16288412124298870784, _, ⟨by decide, by decide, by decide, by decide, rfl, by decide, by decide, by decide⟩,
      by decide⟩,
    ⟨fx (ins 0xE2 3 1 2 7 0) [(1, 3 * 2 ^ 55), (3, 0x4800000000)], 0, 1, 16288412124298870784, 309237645312, _,
      ⟨by decide, by decide, by decide, by decide, rfl, by decide, by decide, by decide⟩, by decide⟩,
    ⟨cx 0 1 (run1 (ins 0xE3 0 1 2 0 0)), 0, 1, 16357091988551499776, _,
      ⟨by decide, by decide, by decide, by decide, rfl, by decide, by decide, by decide⟩, by decide⟩,
    ⟨fb0 { run1 (ins 0xE4 48 1 0 0 0) with r := [(1, 3 * 4096 + 9)], sd := [(0, sd1 0x8100000000 0 64)], cmd := { sntq := 1 } }, 0, 1,
      16483192228362059776, _, ⟨by decide, by decide, by decide, by decide, rfl, by decide, by decide, by decide⟩, by decide⟩,
    ⟨fx (ins 0xE4 48 1 0 0 0) [(1, 2 ^ 31 + 64)], 0, 1, 16483192228362059776, _,
      ⟨by decide, by decide, by decide, by decide, rfl, by decide, by decide, by decide⟩, by decide⟩,
    ⟨rpX 1 (ins 0xE1 0 1 2 3 0), 23, 3, 16212976813360545792, 0xE1, Instr.fstore 23 3, _, by decide,
      ⟨by decide, by decide, by decide, by decide, rfl, by decide, by decide, by decide⟩, by decide⟩⟩

/-- The hypotheses of `Obligations.ReadsAndMessagesReturn`, clause by clause. -/
theorem meets_readsAndMessagesReturn :
    (∃ (s u : State) (g c a n rd fn : Nat) (ext : List Byte) (pois : Bool) (x : Ctx) (d : List (Byte × Bool)), g < 24 ∧ c < 4 ∧ s.ctx g c = some x
        ∧ x.blk = .load a n rd fn ∧ s.badAddr (s.coreWho g x) false a n = none ∧ ((a < 0xF000400000 ∧ u = s.meet a n
        ∧ d = u.coreRead g x a n) ∨ (0xFF00000000 ≤ a ∧ a < 0xFF04000000 ∧ u = (s.regBytes .caldera (a - 0xFF00000000) n).2
        ∧ d = s.newest g x a ((s.regBytes .caldera (a - 0xFF00000000) n).1.map (·, false))) ∨ (0x800000000000 ≤ a ∧ a < 0x1000000000000 ∧ s.noHostRead = false
        ∧ u = s.obs 2 g n a (slice ext 0 n) pois ∧ d = s.newest g x a ((slice ext 0 n).map (·, pois))))) ∧
    (∃ (s u : State) (g c rd sd : Nat) (ext : List Byte) (pois : Bool) (x : Ctx) (d : List (Byte × Bool)), g < 24 ∧ c < 4 ∧ s.ctx g c = some x
        ∧ x.blk = .vload rd sd ∧ (∀ r ∈ sdRuns (x.sdReg sd), s.badAddr (s.coreWho g x) false r (sdLen0 (x.sdReg sd)) = none)
        ∧ ((sdBase (x.sdReg sd) < 0xF000400000 ∧ u = s.meetAll ((sdRuns (x.sdReg sd)).map (·, sdLen0 (x.sdReg sd)))
        ∧ d = ((sdRuns (x.sdReg sd)).flatMap fun r => u.coreRead g x r (sdLen0 (x.sdReg sd))).take 8192) ∨ (0x800000000000 ≤ sdBase (x.sdReg sd)
        ∧ sdBase (x.sdReg sd) < 0x1000000000000 ∧ s.noHostRead = false
        ∧ u = s.obs 2 g (min (sdLen (x.sdReg sd)) 8192) (sdBase (x.sdReg sd)) (slice ext 0 (min (sdLen (x.sdReg sd)) 8192)) pois
        ∧ d = s.newestOver g x ((sdRuns (x.sdReg sd)).map (·, sdLen0 (x.sdReg sd))) ((slice ext 0 (min (sdLen (x.sdReg sd)) 8192)).map (·, pois))) ∨ (0xFF00000000 ≤ sdBase (x.sdReg sd)
        ∧ sdBase (x.sdReg sd) < 0xFF04000000
        ∧ ∃ b, (b, u) = (sdRuns (x.sdReg sd)).foldl (fun (r : List Byte × State) q => (r.1 ++ (r.2.regBytes .caldera (q - 0xFF00000000) (sdLen0 (x.sdReg sd))).1, (r.2.regBytes .caldera (q - 0xFF00000000) (sdLen0 (x.sdReg sd))).2)) ([], s)
        ∧ d = s.newestOver g x ((sdRuns (x.sdReg sd)).map (·, sdLen0 (x.sdReg sd))) (b.map (·, false))))) ∧
    (∃ (s : State) (g c a n rd fn p : Nat) (ext : List Byte) (pois : Bool) (x : Ctx), g < 24 ∧ c < 4 ∧ s.ctx g c = some x ∧ x.blk = .load a n rd fn
        ∧ s.badAddr (s.coreWho g x) false a n = some p) ∧
    (∃ (s : State) (g c q sd i : Nat) (x : Ctx), g < 24 ∧ c < 4 ∧ s.ctx g c = some x ∧ x.blk = .frecv q sd ∧ s.coreRuns g = true ∧ s.msgHead q = some i
        ∧ s.readNat (s.mqAddr q i + 4) 4 ≤ sdLen (x.sdReg sd) ∧ s.streamBad g x true (x.sdReg sd) = none) ∧
    (∃ (s : State) (g c q sd i : Nat) (x : Ctx), g < 24 ∧ c < 4 ∧ s.ctx g c = some x ∧ x.blk = .frecv q sd ∧ s.coreRuns g = true ∧ s.msgHead q = some i
        ∧ sdLen (x.sdReg sd) < s.readNat (s.mqAddr q i + 4) 4) :=
  ⟨⟨cx 0 1 ldX, _, 0, 1, 554050781184, 8, 5, 7, [], false, _, _, by decide, by decide, rfl, by decide, by decide, .inl ⟨by decide, rfl, rfl⟩⟩,
    ⟨cx 0 1 vlX, _, 0, 1, 15, 0, [], false, _, _, by decide, by decide, rfl, by decide, by decide, .inl ⟨by decide, rfl, rfl⟩⟩,
    ⟨cx 0 1 { blk := .load 0x4800000000 8 5 7 }, 0, 1, 309237645312, 8, 5, 7, 309237645312, [], false, _, by decide, by decide, rfl, by decide⟩,
    ⟨ms0 msX, 0, 1, 0, 48, 0, _, by decide, by decide, rfl, by decide⟩,
    ⟨ms0 { blk := .frecv 0 48, sd := [(0, sd1 0x8100001000 1 1)], cmd := { sntq := 1 } }, 0, 1, 0, 48, 0, _, by decide, by decide, rfl, by decide⟩⟩

/-- The hypotheses of `Obligations.RegisterAccessesComplete`, clause by clause (part 1 of 3). -/
theorem meets_registerAccessesComplete_a :
    (∃ (s u : State) (r : Req) (o : Nat) (v : Word) (k : RegKind) (i b : Nat), o < 0x4000000 ∧ o % 4 = 0 ∧ mailboxAt o = none ∧ locate o = some (k, i, b)
        ∧ 32 < k.width ∧ b % 8 = 0 ∧ WriteComes s r o (bytesOf 8 v.toNat) u ∧ u.writable r o = true) ∧
    (∃ (s u : State) (r : Req) (o : Nat) (v : Word), o < 0x4000000 ∧ o % 4 = 0 ∧ mailboxAt o = none
        ∧ (∀ k i b, locate o = some (k, i, b) → k.width ≤ 32 ∨ b % 8 ≠ 0) ∧ WriteComes s r o (bytesOf 8 v.toNat) u ∧ u.writable r o = true) ∧
    (∃ (s u : State) (j : Instr) (r : Req) (o : Nat) (v : BitVec 32) (k : RegKind) (i b : Nat), Writes32 j r o v ∧ mailboxAt o = none
        ∧ locate o = some (k, i, b) ∧ k.width ≤ 32 ∧ WriteComes s r o (bytesOf 4 v.toNat) u ∧ u.writable r o = true) ∧
    (∃ (s u : State) (j : Instr) (r : Req) (o : Nat) (v : BitVec 32) (k : RegKind) (i b : Nat), Writes32 j r o v ∧ mailboxAt o = none
        ∧ locate o = some (k, i, b) ∧ 32 < k.width ∧ b % 8 = 0 ∧ WriteComes s r o (bytesOf 4 v.toNat) u ∧ u.writable r o = true) ∧
    (∃ (s u : State) (j : Instr) (r : Req) (o low : Nat) (v : BitVec 32) (k : RegKind) (i b : Nat), Writes32 j r o v ∧ mailboxAt o = none
        ∧ locate o = some (k, i, b) ∧ 32 < k.width ∧ b % 8 ≠ 0 ∧ WriteComes s r o (bytesOf 4 v.toNat) u ∧ u.writable r o = true
        ∧ (u.heldHalf r (wordKey k (u.inst r k i) (b / 8)) = some low ∨ (u.heldHalf r (wordKey k (u.inst r k i) (b / 8)) = none
        ∧ low = u.wordRw k (u.inst r k i) (b / 8) % 2 ^ 32))) ∧
    (∃ (s u : State) (r : Req) (o : Nat) (v : Word), s.mmio = [] ∧ mailboxAt o = none ∧ u.writable r o = false ∧ o < 0x4000000 ∧ o % 4 = 0
        ∧ WriteComes s r o (bytesOf 8 v.toNat) u) ∧
    (∃ (s u : State) (r : Req) (o : Nat) (j : Instr) (v : BitVec 32), s.mmio = [] ∧ mailboxAt o = none ∧ u.writable r o = false ∧ Writes32 j r o v
        ∧ WriteComes s r o (bytesOf 4 v.toNat) u) ∧
    (∃ (s u : State) (j : Instr) (r : Req) (o : Nat) (v : BitVec 32), s.mmio = [] ∧ Writes32 j r o v ∧ mailboxAt o = none ∧ locate o = none
        ∧ WriteComes s r o (bytesOf 4 v.toNat) u) ∧
    (∃ (s : State) (p o : Nat) (v : Word), s.mmio = [] ∧ mailboxAt o = none ∧ s.replaying = true ∧ 0x100000 ≤ o ∧ p < 2 ∧ o < 0x4000000 ∧ o % 4 = 0) ∧
    (∃ (s : State) (p o : Nat) (j : Instr) (v : BitVec 32), s.mmio = [] ∧ mailboxAt o = none ∧ s.replaying = true ∧ 0x100000 ≤ o ∧ Writes32 j (.pf p) o v) ∧
    (∃ (s : State) (r : Req) (o b x : Nat) (d : List Byte) (j : Instr), ReadComes s r ∧ mailboxAt o = some (b, x) ∧ s.answers r o = true
        ∧ ((∃ v : Word, o % 4 = 0 ∧ j = .registerWrite r (.bar0 o) true v ∧ d = bytesOf 8 v.toNat) ∨ (∃ v : BitVec 32, Writes32 j r o v
        ∧ d = bytesOf 4 v.toNat))) ∧
    (∃ (s : State) (p b o : Nat) (d : List Byte) (j : Instr), p < 2 ∧ 1 ≤ b ∧ b < 256 ∧ o < 4096 ∧ s.answers (.vf p b) 0x3000000 = true
        ∧ ((∃ v : Word, o % 4 = 0 ∧ j = .registerWrite (.vf p b) (.bar0 o) true v ∧ d = bytesOf 8 v.toNat) ∨ (∃ v : BitVec 32, Writes32 j (.vf p b) o v
        ∧ d = bytesOf 4 v.toNat))) ∧
    (∃ (s : State) (r : Req) (o : Nat) (k : RegKind) (i b : Nat), o < 0x4000000 ∧ o % 8 = 0 ∧ mailboxAt o = none ∧ locate o = some (k, i, b)
        ∧ 64 ≤ k.width ∧ b % 8 = 0 ∧ ReadComes s r ∧ s.answers r o = true) ∧
    (∃ (s : State) (j : Instr) (r : Req) (o : Nat) (k : RegKind) (i b : Nat), Reads32 j r o ∧ mailboxAt o = none ∧ locate o = some (k, i, b)
        ∧ 32 < k.width ∧ b % 8 = 0 ∧ ReadComes s r ∧ s.answers r o = true) :=
  ⟨⟨State.reset, State.reset, .caldera, 0x100008, 5, _, 0, 0, by decide, by decide, by decide, rfl, by decide⟩,
    ⟨State.reset, State.reset, .caldera, 1048576, 5, by decide, by decide, by decide,
      (by intro k i b h; simp [show locate 1048576 = some (.TMB_CTRL, 0, 0) from by decide] at h; obtain ⟨rfl, -, -⟩ := h; exact .inl (by decide)),
      .inl ⟨rfl, .inl rfl⟩, by decide⟩,
    ⟨State.reset, State.reset, .lowHalfWrite (.caldera) (.bar0 1048576) 5, .caldera, 1048576, 5, _, 0, 0, ⟨by decide, .inr (.inl rfl)⟩, by decide, rfl,
      by decide, .inl ⟨rfl, .inl rfl⟩, by decide⟩,
    ⟨State.reset, State.reset, .lowHalfWrite (.caldera) (.bar0 1048584) 5, .caldera, 1048584, 5, _, 0, 0, ⟨by decide, .inr (.inl rfl)⟩, by decide, rfl,
      by decide, by decide, .inl ⟨rfl, .inl rfl⟩, by decide⟩,
    ⟨{ State.reset with held := [⟨.caldera, wordKey .TMB_INCR 0 0, 7⟩] }, { State.reset with held := [⟨.caldera, wordKey .TMB_INCR 0 0, 7⟩] },
      .highHalfWrite .caldera (.bar0 1048584) 5, .caldera, 1048588, 7, 5, _, 0, 4, ⟨by decide, .inr (.inr ⟨1048584, rfl, rfl⟩)⟩, by decide, rfl, by decide,
      by decide, .inl ⟨rfl, .inl rfl⟩, by decide, .inl (by decide)⟩,
    ⟨off0, off0, .caldera, 16777216, 5, by decide, by decide, by decide, by decide, by decide, .inl ⟨rfl, .inl rfl⟩⟩,
    ⟨off0, off0, .caldera, 16777216, .lowHalfWrite (.caldera) (.bar0 16777216) 5, 5, by decide, by decide, by decide, ⟨by decide, .inr (.inl rfl)⟩,
      .inl ⟨rfl, .inl rfl⟩⟩,
    ⟨State.reset, State.reset, .lowHalfWrite (.caldera) (.bar0 65280) 5, .caldera, 65280, 5, by decide, ⟨by decide, .inr (.inl rfl)⟩, by decide,
      by decide, .inl ⟨rfl, .inl rfl⟩⟩,
    ⟨rep0, 1, 0x100000, 5, by decide⟩,
    ⟨rep0, 1, 0x100000, .lowHalfWrite (.pf 1) (.bar0 0x100000) 5, 5, by decide, by decide, by decide, by decide, ⟨by decide, .inr (.inl rfl)⟩⟩,
    ⟨State.reset, .caldera, 50335760, 1, 16, bytesOf 4 7, .lowHalfWrite .caldera (.bar0 0x3001010) 7, .inl rfl, by decide, by decide,
      .inr ⟨7, ⟨by decide, .inr (.inl rfl)⟩, rfl⟩⟩,
    ⟨State.reset, 1, 255, 16, bytesOf 4 7, .lowHalfWrite (.vf 1 255) (.bar0 16) 7, by decide, by decide, by decide, by decide, by decide,
      .inr ⟨7, ⟨by decide, .inr (.inl rfl)⟩, rfl⟩⟩,
    ⟨State.reset, .caldera, 0x100008, _, 0, 0, by decide, by decide, by decide, rfl, by decide⟩,
    ⟨State.reset, .lowHalfRead (.caldera) (.bar0 1048584), .caldera, 1048584, _, 0, 0, ⟨by decide, .inr (.inl rfl)⟩, by decide, rfl, by decide, by decide,
      .inl rfl, by decide⟩⟩

/-- The hypotheses of `Obligations.RegisterAccessesComplete`, clause by clause (part 2 of 3). -/
theorem meets_registerAccessesComplete_b :
    (∃ (s : State) (j : Instr) (r : Req) (o v : Nat) (k : RegKind) (i b : Nat), Reads32 j r o ∧ mailboxAt o = none ∧ locate o = some (k, i, b)
        ∧ 32 < k.width ∧ b % 8 ≠ 0 ∧ ReadComes s r ∧ s.answers r o = true ∧ s.latched r (wordKey k (s.inst r k i) (b / 8)) = some v) ∧
    (∃ (s : State) (j : Instr) (r : Req) (o : Nat) (k : RegKind) (i b : Nat), Reads32 j r o ∧ mailboxAt o = none ∧ locate o = some (k, i, b)
        ∧ 32 < k.width ∧ b % 8 ≠ 0 ∧ ReadComes s r ∧ s.answers r o = true ∧ s.latched r (wordKey k (s.inst r k i) (b / 8)) = none) ∧
    (∃ (s : State) (j : Instr) (r : Req) (o : Nat) (k : RegKind) (i b : Nat), Reads32 j r o ∧ mailboxAt o = none ∧ locate o = some (k, i, b)
        ∧ k.width ≤ 32 ∧ ReadComes s r ∧ s.answers r o = true ∧ (k ≠ .TMB_NOW_FRAC ∨ s.latched r fracKey = none)) ∧
    (∃ (s : State) (j : Instr) (r : Req) (o n : Nat), ReadComes s r ∧ (Reads32 j r o ∧ n = 4 ∨ j = .registerReadClear r (.bar0 o) ∧ wholeLen (.bar0 o) = 8
        ∧ j.wf = true ∧ n = 8) ∧ (s.answers r o = false ∨ (mailboxAt o = none ∧ locate o = none))) ∧
    (∃ (s : State) (r : Req) (o b x n : Nat) (j : Instr), ReadComes s r ∧ mailboxAt o = some (b, x) ∧ s.answers r o = true ∧ (Reads32 j r o
        ∧ n = 4 ∨ j = .registerReadClear r (.bar0 o) ∧ o % 8 = 0 ∧ n = 8)) ∧
    (∃ (s : State) (p b o n : Nat) (j : Instr), (Reads32 j (.vf p b) o ∧ n = 4 ∨ j = .registerReadClear (.vf p b) (.bar0 o) ∧ wholeLen (.bar0 o) = 8
        ∧ j.wf = true ∧ n = 8) ∧ o < 4096 ∧ p = s.portOf b ∧ s.answers (.vf p b) 0x3000000 = true) ∧
    (∃ (s : State) (p b o n : Nat) (j : Instr), (Reads32 j (.vf p b) o ∧ n = 4 ∨ j = .registerReadClear (.vf p b) (.bar0 o) ∧ wholeLen (.bar0 o) = 8
        ∧ j.wf = true ∧ n = 8) ∧ (4096 ≤ o ∨ p ≠ s.portOf b ∨ s.answers (.vf p b) 0x3000000 = false)) ∧
    (∃ (s : State) (p b o : Nat) (v : Word) (w : BitVec 32) (j : Instr), s.mmio = []
        ∧ (Writes32 j (.vf p b) o w ∨ j = .registerWrite (.vf p b) (.bar0 o) true v ∧ j.wf = true) ∧ (4096 ≤ o ∨ s.answers (.vf p b) 0x3000000 = false)) ∧
    (∃ (s : State) (h o v : Nat) (j : Instr), s.hcRuns h = true ∧ s.hcBasin h ≠ 0 ∧ Writes j (.hc h) (.bar0 o) v
        ∧ (∀ w, j ≠ .highHalfWrite (.hc h) (.bar0 o) w)) ∧
    (∃ (s : State) (h o v : Nat) (j : Instr) (w : _), s.hcRuns h = true ∧ s.hcBasin h ≠ 0 ∧ j = .highHalfWrite (.hc h) (.bar0 o) w ∧ j.wf = true) ∧
    (∃ (s : State) (h o v : Nat) (j : Instr), s.hcRuns h = true ∧ s.hcBasin h ≠ 0 ∧ j.wf = true
        ∧ (j = .registerReadClear (.hc h) (.bar0 o) ∨ j = .lowHalfRead (.hc h) (.bar0 o))) ∧
    (∃ (s : State) (h o v : Nat) (j : Instr), s.hcRuns h = true ∧ s.hcBasin h ≠ 0 ∧ j.wf = true ∧ j = .highHalfRead (.hc h) (.bar0 o)) ∧
    (∃ (s : State) (h v : Nat) (a : RegAddr) (j : Instr), s.mmio = [] ∧ s.hcRuns h = false ∧ (Writes j (.hc h) a v ∨ Reads j (.hc h) a)
        ∧ ((∃ o, a = .bar0 o) ∨ (∃ n, a = .sys h n))) ∧
    (∃ (s u : State) (h num v : Nat) (j : Instr), s.hcRuns h = true ∧ Writes j (.hc h) (.sys h num) v ∧ ((num = 0xC05
        ∧ u = ((s.setFld F.HS_TIMECMP.VALUE h v).hcClear h 4).modHc h fun c => { c with timerOn := true }) ∨ (num = 0xC07
        ∧ u = s.setFld F.HS_IE.VALUE h v) ∨ (num = 0xC08 ∧ u = s.iack h v) ∨ (num = 0xC0A ∧ u = s.d2h h (v % 8)) ∨ ((num = 0xC0C ∨ num = 0xC0D)
        ∧ s.hcBasin h ≠ 0 ∧ u = s.hcTrap h 0x33 num) ∨ ((num = 0xC0C ∨ num = 0xC0D) ∧ s.hcBasin h = 0
        ∧ u = s) ∨ (num ∉ [0xC05, 0xC07, 0xC08, 0xC0A, 0xC0C, 0xC0D] ∧ u = s))) :=
  ⟨⟨{ State.reset with latches := [⟨.caldera, wordKey .TMB_INCR 0 0, 7⟩] }, .highHalfRead .caldera (.bar0 0x100008), .caldera, 1048588, 7, _, 0, 4,
      ⟨by decide, .inr (.inr ⟨0x100008, rfl, rfl⟩)⟩, by decide, rfl, by decide, by decide, .inl rfl, by decide⟩,
    ⟨State.reset, .highHalfRead .caldera (.bar0 0x100008), .caldera, 1048588, _, 0, 4, ⟨by decide, .inr (.inr ⟨0x100008, rfl, rfl⟩)⟩, by decide, rfl,
      by decide, by decide, .inl rfl, by decide⟩,
    ⟨State.reset, .lowHalfRead (.caldera) (.bar0 1048576), .caldera, 1048576, _, 0, 0, ⟨by decide, .inr (.inl rfl)⟩, by decide, rfl, by decide, .inl rfl,
      by decide, .inl (by decide)⟩,
    ⟨State.reset, .lowHalfRead (.caldera) (.bar0 65280), .caldera, 65280, 4, .inl rfl, .inl ⟨⟨by decide, .inr (.inl rfl)⟩, rfl⟩, .inr (by decide)⟩,
    ⟨State.reset, .caldera, 50335760, 1, 16, 4, .lowHalfRead (.caldera) (.bar0 50335760), .inl rfl, by decide, by decide,
      .inl ⟨⟨by decide, .inr (.inl rfl)⟩, rfl⟩⟩,
    ⟨st [(F.BSN_STATEb.PORT, 255, 1)], 1, 255, 16, 4, .lowHalfRead (.vf 1 255) (.bar0 16), .inl ⟨⟨by decide, .inr (.inl rfl)⟩, rfl⟩, by decide⟩,
    ⟨State.reset, 1, 255, 4096, 4, .lowHalfRead (.vf 1 255) (.bar0 4096), .inl ⟨⟨by decide, .inr (.inl rfl)⟩, rfl⟩, .inl (by decide)⟩,
    ⟨State.reset, 1, 255, 4096, 7, 7, .lowHalfWrite (.vf 1 255) (.bar0 4096) 7, by decide, .inl ⟨by decide, .inr (.inl rfl)⟩, .inl (by decide)⟩,
    ⟨hc5 9, 5, 0x100000, 7, .lowHalfWrite (.hc 5) (.bar0 0x100000) 7, by decide, by decide, ⟨by decide, .inr ⟨7, rfl, .inl rfl⟩⟩, (by intro w h; cases h)⟩,
    ⟨hc5 9, 5, 0x100008, 7, .highHalfWrite (.hc 5) (.bar0 0x100008) 7, 7, by decide, by decide, rfl, by decide⟩,
    ⟨hc5 9, 5, 0x100008, 7, .lowHalfRead (.hc 5) (.bar0 0x100008), by decide, by decide, by decide, .inr rfl⟩,
    ⟨st [(F.PKG_HC_CTRLh.HALTED, 5, 0), (F.BSN_HC_OWNERh.BASIN, 5, 9)], 5, 0x100008, 0x100008, _, by decide, by decide, by decide, rfl⟩,
    ⟨State.reset, 5, 7, .bar0 0x100008, .lowHalfRead (.hc 5) (.bar0 0x100008), by decide, by decide, .inr ⟨by decide, .inr (.inl rfl)⟩, .inl ⟨_, rfl⟩⟩,
    ⟨hc5 9, (hc5 9).setFld F.HS_IE.VALUE 5 7, 5, 0xC07, 7, .lowHalfWrite (.hc 5) (.sys 5 0xC07) 7, by decide, ⟨by decide, .inr ⟨7, rfl, .inl rfl⟩⟩,
      .inr (.inl ⟨rfl, rfl⟩)⟩⟩

/-- The hypotheses of `Obligations.RegisterAccessesComplete`, clause by clause (part 3 of 3). -/
theorem meets_registerAccessesComplete_c :
    (∃ (s u : State) (h num : Nat) (j : Instr), s.hcRuns h = true ∧ Reads j (.hc h) (.sys h num)
        ∧ ((∃ v, u = { s with resp := bytesOf 8 v, respPoison := false } ∧ ((num = 0xC00
        ∧ v = h + b2n (s.flag F.PKG_HC_PAIRp.EN (h / 2)) * 64 + (if h % 2 = 0 then h + 1 else h - 1) * 128) ∨ (num = 0xC01
        ∧ v = s.hcBasin h + s.gen (s.hcBasin h) * 256) ∨ (num = 0xC02 ∧ v = s.fld F.TMB_NOW.NS) ∨ (num = 0xC03 ∧ v = s.fld F.GEY_TICK.TICK) ∨ (num = 0xC04
        ∧ v = s.regBits .GEY_POS 0) ∨ (num = 0xC05 ∧ v = s.fld F.HS_TIMECMP.VALUE h) ∨ (num = 0xC06 ∧ v = s.fld F.HS_IP.VALUE h) ∨ (num = 0xC07
        ∧ v = s.fld F.HS_IE.VALUE h) ∨ (num = 0xC0B ∧ v = s.fld F.HS_TVAL.VALUE h) ∨ (num = 0xC0D ∧ s.hcBasin h = 0
        ∧ v = s.fld F.HS_EVDATA.VALUE h) ∨ ((num = 0xC08 ∨ num = 0xC0A) ∧ v = 0))) ∨ (num = 0xC09 ∧ u = s.hsRand h) ∨ (num = 0xC0C
        ∧ u = s.evTake h) ∨ (num = 0xC0D ∧ s.hcBasin h ≠ 0 ∧ u = s.hcTrap h 0x33 0xC0D))) ∧
    (∃ (s : State) (p v : Nat) (j : Instr), Writes j (.pf p) (.sriov p) v) ∧
    (∃ (s : State) (p v : Nat) (j : Instr), Reads j (.pf p) (.sriov p)) ∧
    (∃ (s : State) (r : Req) (p fn v : Nat) (j : Instr), (r = .pf p ∨ (∃ b, r = .vf p b)) ∧ Writes j r (.ats p fn) v) ∧
    (∃ (s : State) (r : Req) (p fn v : Nat) (j : Instr), (r = .pf p ∨ (∃ b, r = .vf p b)) ∧ Reads j r (.ats p fn)) ∧
    (∃ (s : State) (p b off : Nat) (v : Word) (w : BitVec 32) (wide : Bool), p < 2 ∧ 1 ≤ b ∧ b < 256 ∧ off < 0x2000 ∧ off % 4 = 0) ∧
    (∃ (s : State) (r : Req) (a : RegAddr) (v : Nat) (j : Instr), s.mmio = [] ∧ (Writes j r a v ∨ Reads j r a) ∧ ((∃ h num, a = .sys h num
        ∧ r ≠ .hc h) ∨ (∃ p, a = .sriov p ∧ r ≠ .pf p) ∨ (∃ p fn, a = .ats p fn ∧ r ≠ .pf p ∧ ∀ b, r ≠ .vf p b) ∨ (∃ b off, a = .vfBar2 b off
        ∧ ∀ p, r ≠ .vf p b))) :=
  ⟨⟨hc5 9, { (hc5 9) with resp := bytesOf 8 ((hc5 9).fld F.TMB_NOW.NS), respPoison := false }, 5, 0xC02, .registerReadClear (.hc 5) (.sys 5 0xC02),
      by decide, ⟨by decide, .inl rfl⟩, .inl ⟨_, rfl, .inr (.inr (.inl ⟨rfl, rfl⟩))⟩⟩,
    ⟨State.reset, 1, 7, .lowHalfWrite (.pf 1) (.sriov 1) 7, ⟨by decide, .inr ⟨7, rfl, .inl rfl⟩⟩⟩,
    ⟨State.reset, 1, 7, .lowHalfRead (.pf 1) (.sriov 1), ⟨by decide, .inr (.inl rfl)⟩⟩,
    ⟨State.reset, .vf 1 255, 1, 255, 7, .lowHalfWrite (.vf 1 255) (.ats 1 255) 7, .inr ⟨_, rfl⟩, ⟨by decide, .inr ⟨7, rfl, .inl rfl⟩⟩⟩,
    ⟨State.reset, .vf 1 255, 1, 255, 7, .lowHalfRead (.vf 1 255) (.ats 1 255), .inr ⟨_, rfl⟩, ⟨by decide, .inr (.inl rfl)⟩⟩,
    ⟨State.reset, 1, 1, 0, 5, 5, true, by decide⟩,
    ⟨State.reset, .caldera, .sriov 1, 7, .lowHalfRead .caldera (.sriov 1), by decide, .inr ⟨by decide, .inr (.inl rfl)⟩, .inr (.inl ⟨1, rfl, by decide⟩)⟩⟩

/-- The hypotheses of `Obligations.MemoryAccessesComplete`, clause by clause (part 1 of 2). -/
theorem meets_memoryAccessesComplete_a :
    (∃ (s u : State) (m : Master) (a n : Nat) (e : Ecc), m.wf = true ∧ a < 0x1000000000000 ∧ s.badAddr (s.who m) false a n = none
        ∧ u = (s.strike e).meet a n ∧ hasEcc a = true) ∧
    (∃ (s u : State) (m : Master) (a n : Nat) (e : Ecc) (o : _), m.wf = true ∧ a < 0x1000000000000 ∧ s.badAddr (s.who m) false a n = none
        ∧ u = (s.strike e).meet a n ∧ place a = .regs o) ∧
    (∃ (s u : State) (m : Master) (a n : Nat) (e : Ecc) (o : _), m.wf = true ∧ a < 0x1000000000000 ∧ s.badAddr (s.who m) false a n = none
        ∧ u = (s.strike e).meet a n ∧ place a = .host o) ∧
    (∃ (s : State) (m : Master) (a n x : Nat) (e : Ecc), m.wf = true ∧ a < 0x1000000000000 ∧ s.badAddr (s.who m) false a n = some x) ∧
    (∃ (s : State) (m : Master) (a : Nat) (d : List Byte) (pois : Bool) (e : Ecc), m.wf = true ∧ a < 0x1000000000000 ∧ (∀ p, m ≠ .pf p)
        ∧ s.badAddr (s.who m) true a d.length = none) ∧
    (∃ (s : State) (m : Master) (a x : Nat) (d : List Byte) (pois : Bool) (e : Ecc), m.wf = true ∧ a < 0x1000000000000 ∧ (∀ p, m ≠ .pf p)
        ∧ s.badAddr (s.who m) true a d.length = some x) ∧
    (∃ (s u : State) (port ofs a : Nat) (d : List Byte) (pois : Bool) (e : Ecc), port < 2 ∧ ofs < 0x1000000000
        ∧ a = s.fld F.PKG_BAR2_BASE.BASE port * 2 ^ 36 + ofs ∧ a < 0x1000000000000 ∧ (s.replaying = false ∨ (0xFF00000000 ≤ a ∧ a < 0xFF00100000))
        ∧ u = s.obs 1 (port * 2 ^ 16) d.length a d pois ∧ u.badAddr (s.who (.pf port)) true a d.length = none) ∧
    (∃ (s u : State) (port ofs a : Nat) (d : List Byte) (pois : Bool) (e : Ecc) (x : _), port < 2 ∧ ofs < 0x1000000000
        ∧ a = s.fld F.PKG_BAR2_BASE.BASE port * 2 ^ 36 + ofs ∧ a < 0x1000000000000 ∧ (s.replaying = false ∨ (0xFF00000000 ≤ a ∧ a < 0xFF00100000))
        ∧ u = s.obs 1 (port * 2 ^ 16) d.length a d pois ∧ u.badAddr (s.who (.pf port)) true a d.length = some x) ∧
    (∃ (s : State) (port ofs a : Nat) (d : List Byte) (pois : Bool) (e : Ecc), port < 2 ∧ ofs < 0x1000000000
        ∧ a = s.fld F.PKG_BAR2_BASE.BASE port * 2 ^ 36 + ofs ∧ a < 0x1000000000000 ∧ s.replaying = true ∧ (a < 0xFF00000000 ∨ 0xFF00100000 ≤ a)) ∧
    (∃ (s u : State) (port ofs a n : Nat) (e : Ecc), port < 2 ∧ ofs < 0x1000000000 ∧ a = s.fld F.PKG_BAR2_BASE.BASE port * 2 ^ 36 + ofs
        ∧ s.badAddr (s.who (.pf port)) false a n = none ∧ u = (s.strike e).meet a n ∧ hasEcc a = true ∧ u.rangePoison a n = false) ∧
    (∃ (s u : State) (port ofs a n : Nat) (e : Ecc), port < 2 ∧ ofs < 0x1000000000 ∧ a = s.fld F.PKG_BAR2_BASE.BASE port * 2 ^ 36 + ofs
        ∧ s.badAddr (s.who (.pf port)) false a n = none ∧ u = (s.strike e).meet a n ∧ hasEcc a = true ∧ u.rangePoison a n = true) ∧
    (∃ (s u : State) (port ofs a n : Nat) (e : Ecc) (o : _), port < 2 ∧ ofs < 0x1000000000 ∧ a = s.fld F.PKG_BAR2_BASE.BASE port * 2 ^ 36 + ofs
        ∧ s.badAddr (s.who (.pf port)) false a n = none ∧ u = (s.strike e).meet a n ∧ place a = .regs o) ∧
    (∃ (s u : State) (port ofs a n : Nat) (e : Ecc) (o : _), port < 2 ∧ ofs < 0x1000000000 ∧ a = s.fld F.PKG_BAR2_BASE.BASE port * 2 ^ 36 + ofs
        ∧ s.badAddr (s.who (.pf port)) false a n = none ∧ u = (s.strike e).meet a n ∧ place a = .host o) ∧
    (∃ (s : State) (port ofs n x : Nat) (e : Ecc), port < 2 ∧ ofs < 0x1000000000
        ∧ s.badAddr (s.who (.pf port)) false (s.fld F.PKG_BAR2_BASE.BASE port * 2 ^ 36 + ofs) n = some x) :=
  ⟨⟨State.reset, _, .dsp 255, 0x8107FFFFF8, 8, .clean, by decide, by decide, by decide, rfl, by decide⟩,
    ⟨State.reset, _, .caldera, 0xFF00100008, 8, .clean, _, by decide, by decide, by decide, rfl, rfl⟩,
    ⟨State.reset, _, .caldera, 0x800000000000, 8, .clean, _, by decide, by decide, by decide, rfl, rfl⟩,
    ⟨State.reset, .core 23 3, 0x4800000000, 4, 309237645312, .clean, by decide⟩,
    ⟨State.reset, .dsp 255, 0x8100000000, [1#8, 2#8], true, .clean, by decide, by decide, (by intro p h; cases h), by decide⟩,
    ⟨State.reset, .core 0 0, 0xF000000000, 1030792151040, [1#8], true, .clean, by decide, by decide, (by intro p h; cases h), by decide⟩,
    ⟨st [(F.PKG_BAR2_BASE.BASE, 1, 8)], _, 1, 0x100000000, 554050781184, [7#8], true, .clean, by decide, by decide, by decide, by decide, by decide, rfl,
      by decide⟩,
    ⟨st [(F.PKG_BAR2_BASE.BASE, 1, 0xFF)], _, 1, 0x100000000, 17527761534976, [7#8], true, .clean, _, by decide, by decide, by decide, by decide,
      by decide, rfl, rfl⟩,
    ⟨rep0, 1, 0x100000000, 4294967296, [7#8], true, .clean, by decide⟩,
    ⟨st [(F.PKG_BAR2_BASE.BASE, 1, 8)], _, 1, 0x100000000, 554050781184, 4, .clean, by decide, by decide, by decide, by decide, rfl, by decide⟩,
    ⟨{ st [(F.PKG_BAR2_BASE.BASE, 1, 8)] with poison := [(0x8100000000 / 64, 7)] }, _, 1, 0x100000000, 554050781184, 4, .clean, by decide, by decide,
      by decide, by decide, rfl, by decide⟩,
    ⟨st [(F.PKG_BAR2_BASE.BASE, 1, 0xF)], _, 1, 0x0F00000000, 1095216660480, 4, .clean, _, by decide, by decide, by decide, by decide, rfl, rfl⟩,
    ⟨st [(F.PKG_BAR2_BASE.BASE, 1, 0x800)], _, 1, 0x100000000, 140741783322624, 4, .clean, _, by decide, by decide, by decide, by decide, rfl, rfl⟩,
    ⟨st [(F.PKG_BAR2_BASE.BASE, 1, 0xFF)], 1, 0x100000000, 4, 17527761534976, .clean, by decide⟩⟩

/-- The hypotheses of `Obligations.MemoryAccessesComplete`, clause by clause (part 2 of 2). -/
theorem meets_memoryAccessesComplete_b :
    (∃ (s : State) (port : Nat) (v : Word), port < 2) ∧
    (∃ (s u : State) (h a n : Nat) (refused : Bool) (d : List Byte) (e : Ecc), h < 64 ∧ a < 0x1000000000000 ∧ s.hcRuns h = true
        ∧ (refused = false ∨ a < 0x800000000000) ∧ s.badAddr (s.who (.hc h)) false a n = none ∧ u = (s.strike e).meet a n ∧ hasEcc a = true) ∧
    (∃ (s u : State) (h a n : Nat) (refused : Bool) (d : List Byte) (e : Ecc) (o : _), h < 64 ∧ a < 0x1000000000000 ∧ s.hcRuns h = true
        ∧ (refused = false ∨ a < 0x800000000000) ∧ s.badAddr (s.who (.hc h)) false a n = none ∧ u = (s.strike e).meet a n ∧ place a = .regs o) ∧
    (∃ (s u : State) (h a n : Nat) (refused : Bool) (d : List Byte) (e : Ecc) (o : _), h < 64 ∧ a < 0x1000000000000 ∧ s.hcRuns h = true
        ∧ (refused = false ∨ a < 0x800000000000) ∧ s.badAddr (s.who (.hc h)) false a n = none ∧ u = (s.strike e).meet a n ∧ place a = .host o) ∧
    (∃ (s u : State) (h a n : Nat) (refused : Bool) (d : List Byte) (e : Ecc), h < 64 ∧ a < 0x1000000000000 ∧ s.hcRuns h = true
        ∧ (refused = false ∨ a < 0x800000000000) ∧ s.badAddr (s.who (.hc h)) true a d.length = none ∧ ((s.hcBasin h = 0 ∧ u = s) ∨ (s.hcBasin h ≠ 0
        ∧ u = s.obs 4 h d.length a d)) ∧ u.badAddr (s.who (.hc h)) true a d.length = none) ∧
    (∃ (s : State) (h a n x : Nat) (store : Bool) (d : List Byte) (e : Ecc), h < 64 ∧ a < 0x1000000000000 ∧ s.hcRuns h = true
        ∧ s.badAddr (s.who (.hc h)) store a (if store then d.length else n) = some x) ∧
    (∃ (s : State) (h a n : Nat) (store : Bool) (d : List Byte) (e : Ecc), h < 64 ∧ 0x800000000000 ≤ a ∧ a < 0x1000000000000 ∧ s.hcRuns h = true) ∧
    (∃ (s : State) (h a n : Nat) (store refused : Bool) (d : List Byte) (e : Ecc), h < 64 ∧ a < 0x1000000000000 ∧ s.hcRuns h = false) :=
  ⟨⟨State.reset, 1, 0xFFFFFFFFFFFFFFFF, by decide⟩,
    ⟨hc5 0, _, 5, 0x8100000000, 8, false, [7#8], .clean, by decide, by decide, by decide, by decide, by decide, rfl, by decide⟩,
    ⟨hc5 0, _, 5, 0xFF00100008, 8, false, [7#8], .clean, _, by decide, by decide, by decide, by decide, by decide, rfl, rfl⟩,
    ⟨hc5 0, _, 5, 0x800000000000, 8, false, [7#8], .clean, _, by decide, by decide, by decide, by decide, by decide, rfl, rfl⟩,
    ⟨_, hc5 0, 5, 0x8100000000, 8, false, [7#8], .clean, by decide, by decide, by decide, by decide, by decide, .inl ⟨by decide, rfl⟩, by decide⟩,
    ⟨hc5 9, 5, 0x8100000000, 8, 554050781184, true, [7#8], .clean, by decide⟩,
    ⟨hc5 0, 5, 0x800000000000, 8, true, [7#8], .clean, by decide⟩,
    ⟨State.reset, 5, 0x8100000000, 0x8107FFFFF8, true, true, [7#8], .clean, by decide⟩⟩

/-- The hypotheses of `Obligations.StoreUpkeepCompletes`, clause by clause. -/
theorem meets_storeUpkeepCompletes :
    (∃ (s : State) (n ch bg k i r : Nat) (done : List Nat), n < 12 ∧ ch < 16 ∧ bg < 8 ∧ s.dieDown (12 + n) = false
        ∧ k = (if s.flag F.GEY_CTRL.TICKING then s.fld F.GEY_TICK.TICK else 0)
        ∧ 4 * (s.fld F.TMB_NOW.NS - if s.flag F.GEY_CTRL.TICKING then s.gey.last else 0) = 15625 * i + r ∧ r < 15625
        ∧ done = (if (s.store n).refreshIv = (k, i) then (s.store n).refreshed else []) ∧ 8 * ch + bg ∉ done ∧ 116 * (8 * ch + bg) ≤ r) ∧
    (∃ (s : State) (n ch bg k i r : Nat) (done : List Nat), n < 12 ∧ ch < 16 ∧ bg < 8 ∧ s.dieDown (12 + n) = false
        ∧ k = (if s.flag F.GEY_CTRL.TICKING then s.fld F.GEY_TICK.TICK else 0)
        ∧ 4 * (s.fld F.TMB_NOW.NS - if s.flag F.GEY_CTRL.TICKING then s.gey.last else 0) = 15625 * i + r ∧ r < 15625
        ∧ done = (if (s.store n).refreshIv = (k, i) then (s.store n).refreshed else []) ∧ (8 * ch + bg ∈ done ∨ r < 116 * (8 * ch + bg))) ∧
    (∃ (s : State) (n ch bg : Nat), n < 12 ∧ ch < 16 ∧ bg < 8 ∧ s.dieDown (12 + n) = true) ∧
    (∃ (s u : State) (a n p d : Nat) (e : Ecc) (overtaken last : Bool), a < 0x1000000000000 ∧ place a = .store n p d ∧ u = s.strike e
        ∧ u.flag F.STR_CTRL.PATROL_EN n = true ∧ u.dieDown (12 + n) = false) ∧
    (∃ (s u : State) (a n d : Nat) (e : Ecc) (overtaken last : Bool), a < 0x1000000000000 ∧ u = s.strike e ∧ ((place a = .sram n d
        ∧ u.dieDown n = false) ∨ (place a = .rsram n d ∧ u.dieDown (24 + n) = false))) ∧
    (∃ (s u : State) (die line word : Nat) (e : Ecc) (overtaken last : Bool), die < 12 ∧ word < 8 ∧ u = s.strike e ∧ u.dieDown die = false) ∧
    (∃ (s u : State) (loc : EccLoc) (e : Ecc) (overtaken last : Bool), u = s.strike e ∧ ((∃ a, loc = .mem a ∧ a < 0x1000000000000
        ∧ ((∃ n p d, place a = .store n p d ∧ (u.flag F.STR_CTRL.PATROL_EN n = false ∨ u.dieDown (12 + n) = true)) ∨ (∃ n d, place a = .sram n d
        ∧ u.dieDown n = true) ∨ (∃ n d, place a = .rsram n d ∧ u.dieDown (24 + n) = true) ∨ ((∀ n p d, place a ≠ .store n p d) ∧ (∀ n d, place a ≠ .sram n d)
        ∧ ∀ n d, place a ≠ .rsram n d))) ∨ (∃ die line word, loc = .cache die line word ∧ die < 12 ∧ word < 8 ∧ u.dieDown die = true))) ∧
    (∃ (s : State) (n ch bg : Nat), n < 12 ∧ ch < 16 ∧ bg < 8 ∧ s.testFenced (.tile (12 + n) (ch / 4) (ch % 4 * 8 + bg)) = false
        ∧ 8 * ch + bg ∉ (s.store n).inPlace ∧ bit (s.fld F.STR_STATUS.SPARE_USED n) ch = false) ∧
    (∃ (s : State) (n ch bg : Nat), n < 12 ∧ ch < 16 ∧ bg < 8 ∧ s.testFenced (.tile (12 + n) (ch / 4) (ch % 4 * 8 + bg)) = false
        ∧ 8 * ch + bg ∉ (s.store n).inPlace ∧ bit (s.fld F.STR_STATUS.SPARE_USED n) ch = true) ∧
    (∃ (s : State) (n ch bg : Nat), n < 12 ∧ ch < 16 ∧ bg < 8 ∧ s.testFenced (.tile (12 + n) (ch / 4) (ch % 4 * 8 + bg)) = false
        ∧ 8 * ch + bg ∈ (s.store n).inPlace) ∧
    (∃ (s : State) (n ch bg : Nat), n < 12 ∧ ch < 16 ∧ bg < 8 ∧ s.testFenced (.tile (12 + n) (ch / 4) (ch % 4 * 8 + bg)) = true) ∧
    (∃ (s : State) (n : Nat), n < 12 ∧ s.flag F.STR_STATUS.COPY_BUSY n = true) ∧
    (∃ (s : State) (n : Nat), n < 12 ∧ s.flag F.STR_STATUS.COPY_BUSY n = false) :=
  ⟨⟨State.reset, 11, 0, 0, 0, 0, 0, _, by decide, by decide, by decide, by decide, by decide, by decide, by decide, rfl, by decide⟩,
    ⟨State.reset, 11, 15, 7, 0, 0, 0, _, by decide, by decide, by decide, by decide, by decide, by decide, by decide, rfl, by decide⟩,
    ⟨State.reset.setDieBit true 23 true, 11, 15, 7, by decide⟩,
    ⟨State.reset, _, 11, 0, 0, 11, .clean, true, true, by decide, by decide, rfl, by decide⟩,
    ⟨State.reset, _, 0x8000000000, 0, 0, .clean, true, true, by decide, rfl, .inl (by decide)⟩,
    ⟨State.reset, _, 11, 11, 7, .clean, true, true, by decide, by decide, rfl, by decide⟩,
    ⟨st [(F.STR_CTRL.PATROL_EN, 0, 0)], _, .mem 0, .clean, true, true, rfl, .inl ⟨_, rfl, by decide, .inl ⟨0, 0, 0, by decide⟩⟩⟩,
    ⟨State.reset, 11, 15, 7, by decide⟩,
    ⟨st [(F.STR_STATUS.SPARE_USED, 11, 0x8000)], 11, 15, 7, by decide⟩,
    ⟨State.reset.setStore 11 { inPlace := [127] }, 11, 15, 7, by decide⟩,
    ⟨(State.reset).addFence ⟨(.tile (12 + 11) (15 / 4) (15 % 4 * 8 + 7)), 2, false, true⟩, 11, 15, 7, by decide⟩,
    ⟨(State.reset).setFld F.STR_STATUS.COPY_BUSY 11 1, 11, by decide⟩,
    ⟨State.reset, 11, by decide⟩⟩

/-- The hypotheses of `Obligations.PageCommandsComplete`, clause by clause (part 1 of 2). -/
theorem meets_pageCommandsComplete_a :
    (∃ (s : State) (n : Nat) (v : Word), n < 12 ∧ s.takesWrite .STR_PAGE_CMD n = true ∧ s.flag F.STR_PAGE_CMD.BUSY n = false
        ∧ s.assignBad n (bits v.toNat 13 0) (bits v.toNat 27 14) (bits v.toNat 35 28) = false) ∧
    (∃ (s : State) (n : Nat) (v : Word), n < 12 ∧ s.takesWrite .STR_PAGE_CMD n = true ∧ s.flag F.STR_PAGE_CMD.BUSY n = false
        ∧ s.assignBad n (bits v.toNat 13 0) (bits v.toNat 27 14) (bits v.toNat 35 28) = true) ∧
    (∃ (s : State) (n : Nat) (v : Word), n < 12 ∧ s.takesWrite .STR_PAGE_CMD n = true ∧ s.flag F.STR_PAGE_CMD.BUSY n = true) ∧
    (∃ (s u : State) (n : Nat) (v : Word), n < 12 ∧ s.takesWrite .STR_PAGE_CMD n = true ∧ s.flag F.STR_PAGE_CMD.BUSY n = false
        ∧ s.releaseBad n (bits v.toNat 13 0) (bits v.toNat 27 14) = false
        ∧ 
      u = (let w := (((s.setFld F.STR_PAGE_CMD.LPAGE n (bits v.toNat 13 0)).setFld F.STR_PAGE_CMD.COUNT n (bits v.toNat 27 14)).setFld
        F.STR_PAGE_CMD.OWNER n (bits v.toNat 35 28)).setFld F.STR_PAGE_CMD.OP n 1
      if bit v.toNat 40 then w.setFld F.STR_PAGE_CMD.ERR n 0 else w)) ∧
    (∃ (s : State) (n : Nat) (v : Word), n < 12 ∧ s.takesWrite .STR_PAGE_CMD n = true ∧ s.flag F.STR_PAGE_CMD.BUSY n = false ∧ bits v.toNat 27 14 = 1
        ∧ s.releaseBad n (bits v.toNat 13 0) 1 = false ∧ s.drainHits (pageBase n (bits v.toNat 13 0)) (2 ^ 21) = false) ∧
    (∃ (s : State) (n : Nat) (v : Word), n < 12 ∧ s.takesWrite .STR_PAGE_CMD n = true ∧ s.flag F.STR_PAGE_CMD.BUSY n = false
        ∧ s.releaseBad n (bits v.toNat 13 0) (bits v.toNat 27 14) = false ∧ 0 < bits v.toNat 27 14
        ∧ s.drainHits (pageBase n (bits v.toNat 13 0)) (2 ^ 21) = true) ∧
    (∃ (s : State) (n : Nat) (v : Word), n < 12 ∧ s.takesWrite .STR_PAGE_CMD n = true ∧ s.flag F.STR_PAGE_CMD.BUSY n = false
        ∧ s.releaseBad n (bits v.toNat 13 0) (bits v.toNat 27 14) = true) ∧
    (∃ (s : State) (n l k b : Nat), n < 12 ∧ (s.store n).pageOp = some (l, k, some b) ∧ k ≤ 1) ∧
    (∃ (s : State) (n l k b : Nat), n < 12 ∧ (s.store n).pageOp = some (l, k, some b) ∧ 1 < k) ∧
    (∃ (s : State) (n : Nat), n < 12 ∧ (∀ l k b, (s.store n).pageOp ≠ some (l, k, some b))) ∧
    (∃ (s : State) (n l k : Nat), n < 12 ∧ l < 12288 ∧ (s.store n).pageOp = some (l, k, none) ∧ s.drainHits (pageBase n l) (2 ^ 21) = false) ∧
    (∃ (s : State) (n l own : Nat), n < 12 ∧ l < 12288 ∧ (s.store n).pageOp = some (l, 1, none) ∧ s.drainHits (pageBase n l) (2 ^ 21) = false
        ∧ s.fld F.STR_PAGE_OWNERp.STATE (n * 12288 + l) = 1 ∧ own = s.fld F.STR_PAGE_OWNERp.OWNER (n * 12288 + l)) ∧
    (∃ (s : State) (n p : Nat), n < 12 ∧ p < 12288 ∧ ((∀ k, (s.store n).pageOp ≠ some (p, k, none)) ∨ s.drainHits (pageBase n p) (2 ^ 21) = true)) ∧
    (∃ (s : State) (n gr : Nat), n < 12 ∧ gr < 128 ∧ 12288 + gr ∈ (s.store n).relWait ∧ s.drainHits (granBase n gr) (2 ^ 20) = false) :=
  ⟨⟨State.reset.setStore 11 { keys := [(0, some 5)] }, 11, 2 * 2 ^ 14 + 12286, by decide⟩,
    ⟨State.reset, 11, 2 * 2 ^ 14 + 12286, by decide⟩,
    ⟨(State.reset.setStore 11 { keys := [(0, some 5)] }).setFld F.STR_PAGE_CMD.BUSY 11 1, 11, 2 * 2 ^ 14 + 12286, by decide⟩,
    ⟨pgS, _, 0, 2 ^ 14 + 12287, by decide, by decide, by decide, by decide, rfl⟩,
    ⟨st [(F.STR_PAGE_OWNERp.STATE, 12287, 1)], 0, 2 ^ 14 + 12287, by decide⟩,
    ⟨drn pgS (pageBase 0 12287), 0, 2 ^ 14 + 12287, by decide⟩,
    ⟨State.reset.setStore 11 { keys := [(0, some 5)] }, 11, 2 * 2 ^ 14 + 12286, by decide⟩,
    ⟨pgO 12287 1 (some 3), 11, 12287, 1, 3, by decide⟩,
    ⟨pgO 12286 2 (some 3), 11, 12286, 2, 3, by decide⟩,
    ⟨State.reset.setStore 11 { keys := [(0, some 5)] }, 11, by decide, (by intro l k b h; exact absurd (h.symm.trans (show _ = none from rfl)) (by simp))⟩,
    ⟨pgO 12286 2 none, 11, 12286, 2, by decide⟩,
    ⟨(pgO 12286 1 none).setFld F.STR_PAGE_OWNERp.STATE (11 * 12288 + 12286) 1, 11, 12286, 0, by decide⟩,
    ⟨drn State.reset (pageBase 11 12287), 11, 12287, by decide, by decide, .inr (by decide)⟩,
    ⟨State.reset.setStore 11 { relWait := [12288 + 127] }, 11, 127, by decide⟩⟩

/-- The hypotheses of `Obligations.PageCommandsComplete`, clause by clause (part 2 of 2). -/
theorem meets_pageCommandsComplete_b :
    (∃ (s : State) (n gr : Nat), n < 12 ∧ gr < 128 ∧ (12288 + gr ∉ (s.store n).relWait ∨ s.drainHits (granBase n gr) (2 ^ 20) = true)) ∧
    (∃ (s : State) (n gr : Nat) (v : BitVec 32), n < 12 ∧ gr < 128 ∧ s.takesWrite .STR_SRAM_OWNERg (128 * n + gr) = true
        ∧ s.fld F.STR_SRAM_OWNERg.STATE (n * 128 + gr) = 0 ∧ s.building (v.toNat % 256) = true) ∧
    (∃ (s : State) (n gr : Nat) (v : BitVec 32), n < 12 ∧ gr < 128
        ∧ (s.fld F.STR_SRAM_OWNERg.STATE (n * 128 + gr) ≠ 0 ∨ s.building (v.toNat % 256) = false)) ∧
    (∃ (s : State) (n gr : Nat), n < 12 ∧ gr < 128 ∧ s.fld F.STR_SRAM_OWNERg.STATE (n * 128 + gr) = 2) ∧
    (∃ (s : State) (n gr : Nat), n < 12 ∧ gr < 128 ∧ s.fld F.STR_SRAM_OWNERg.STATE (n * 128 + gr) ≠ 2) ∧
    (∃ (s : State) (n gr : Nat) (v : BitVec 32), n < 12 ∧ gr < 128 ∧ s.takesWrite .STR_SRAM_OWNERg (128 * n + gr) = true
        ∧ s.fld F.STR_SRAM_OWNERg.STATE (n * 128 + gr) = 1 ∧ s.building (s.fld F.STR_SRAM_OWNERg.OWNER (n * 128 + gr)) = true
        ∧ s.drainHits (granBase n gr) (2 ^ 20) = false) ∧
    (∃ (s : State) (n gr : Nat) (v : BitVec 32), n < 12 ∧ gr < 128 ∧ s.takesWrite .STR_SRAM_OWNERg (128 * n + gr) = true
        ∧ s.fld F.STR_SRAM_OWNERg.STATE (n * 128 + gr) = 1 ∧ s.building (s.fld F.STR_SRAM_OWNERg.OWNER (n * 128 + gr)) = true
        ∧ s.drainHits (granBase n gr) (2 ^ 20) = true) ∧
    (∃ (s : State) (n gr : Nat) (v : BitVec 32), n < 12 ∧ gr < 128
        ∧ (s.fld F.STR_SRAM_OWNERg.STATE (n * 128 + gr) ≠ 1 ∨ s.building (s.fld F.STR_SRAM_OWNERg.OWNER (n * 128 + gr)) = false)) ∧
    (∃ (s : State) (n : Nat) (v : Word), n < 12 ∧ s.takesWrite .STR_PAGE_CMD n = false) ∧
    (∃ (s : State) (n gr : Nat) (v : BitVec 32), n < 12 ∧ gr < 128 ∧ s.takesWrite .STR_SRAM_OWNERg (128 * n + gr) = false) :=
  ⟨⟨State.reset.setStore 11 { keys := [(0, some 5)] }, 11, 127, by decide⟩,
    ⟨State.reset.setStore 11 { keys := [(0, some 5)] }, 11, 127, 0, by decide⟩,
    ⟨(State.reset.setStore 11 { keys := [(0, some 5)] }).setFld F.STR_SRAM_OWNERg.STATE (11 * 128 + 127) 1, 11, 127, 0, by decide⟩,
    ⟨(State.reset.setStore 11 { keys := [(0, some 5)] }).setFld F.STR_SRAM_OWNERg.STATE (11 * 128 + 127) 2, 11, 127, by decide⟩,
    ⟨State.reset.setStore 11 { keys := [(0, some 5)] }, 11, 127, by decide⟩,
    ⟨(State.reset.setStore 11 { keys := [(0, some 5)] }).setFld F.STR_SRAM_OWNERg.STATE (11 * 128 + 127) 1, 11, 127, 0, by decide⟩,
    ⟨drn (st [(F.STR_SRAM_OWNERg.STATE, 12 * 128 - 1, 1)]) (granBase 11 127), 11, 127, 0, by decide⟩,
    ⟨State.reset.setStore 11 { keys := [(0, some 5)] }, 11, 127, 0, by decide⟩,
    ⟨State.reset.setDieBit true 11 true, 11, 2 * 2 ^ 14 + 12286, by decide⟩,
    ⟨State.reset.setDieBit true 11 true, 11, 127, 0, by decide⟩⟩

/-- The hypotheses of `Obligations.KeyCommandsComplete`, clause by clause. -/
theorem meets_keyCommandsComplete :
    (∃ (s : State) (n : Nat) (v : BitVec 32), n < 12 ∧ s.takesWrite .STR_KEY_CMD n = true ∧ s.flag F.STR_KEY_CMD.BUSY n = false ∧ v.toNat % 256 ≠ 0
        ∧ s.keyFull n (v.toNat % 256) = false) ∧
    (∃ (s : State) (n : Nat) (v : BitVec 32), n < 12 ∧ s.takesWrite .STR_KEY_CMD n = true ∧ s.flag F.STR_KEY_CMD.BUSY n = false ∧ v.toNat % 256 ≠ 0
        ∧ s.keyFull n (v.toNat % 256) = false) ∧
    (∃ (s : State) (n : Nat) (v : BitVec 32), n < 12 ∧ s.takesWrite .STR_KEY_CMD n = true ∧ s.flag F.STR_KEY_CMD.BUSY n = false ∧ v.toNat % 256 ≠ 0
        ∧ s.pagesOf n (v.toNat % 256) = [] ∧ (∀ l k, (s.store n).pageOp ≠ some (l, k, some (v.toNat % 256)))) ∧
    (∃ (s : State) (n : Nat) (v : BitVec 32), n < 12 ∧ s.takesWrite .STR_KEY_CMD n = true ∧ s.flag F.STR_KEY_CMD.BUSY n = false
        ∧ (v.toNat % 256 = 0 ∨ s.keyFull n (v.toNat % 256) = true)) ∧
    (∃ (s : State) (n : Nat) (v : BitVec 32), n < 12 ∧ s.takesWrite .STR_KEY_CMD n = true ∧ s.flag F.STR_KEY_CMD.BUSY n = false
        ∧ (v.toNat % 256 = 0 ∨ s.keyFull n (v.toNat % 256) = true)) ∧
    (∃ (s : State) (n : Nat) (v : BitVec 32), n < 12 ∧ s.takesWrite .STR_KEY_CMD n = true ∧ s.flag F.STR_KEY_CMD.BUSY n = false
        ∧ (v.toNat % 256 = 0 ∨ s.pagesOf n (v.toNat % 256) ≠ [] ∨ (∃ l k, (s.store n).pageOp = some (l, k, some (v.toNat % 256))))) ∧
    (∃ (s : State) (n : Nat) (v : BitVec 32), n < 12 ∧ s.takesWrite .STR_KEY_CMD n = true ∧ s.flag F.STR_KEY_CMD.BUSY n = true) ∧
    (∃ (s : State) (n : Nat) (v : BitVec 32), n < 12 ∧ s.takesWrite .STR_KEY_CMD n = false) ∧
    (∃ (s : State) (n op b : Nat), n < 12 ∧ (s.store n).keyOp = some (op, b) ∧ op < 3) ∧
    (∃ (s : State) (n : Nat), n < 12 ∧ (s.store n).keyOp = none) :=
  ⟨⟨State.reset, 11, 255, by decide⟩,
    ⟨State.reset, 11, 255, by decide⟩,
    ⟨State.reset, 11, 255, by decide, by decide, by decide, by decide, by decide,
      (by intro l k h; exact absurd (h.symm.trans (show _ = none from rfl)) (by simp))⟩,
    ⟨State.reset, 11, 256, by decide⟩,
    ⟨State.reset, 11, 256, by decide⟩,
    ⟨State.reset, 11, 256, by decide, by decide, by decide, .inl (by decide)⟩,
    ⟨(State.reset).setFld F.STR_KEY_CMD.BUSY 11 1, 11, 255, by decide⟩,
    ⟨State.reset.setDieBit true 11 true, 11, 255, by decide⟩,
    ⟨State.reset.setStore 11 { keyOp := some (1, 255), keyData := 7 }, 11, _, _, by decide, rfl, by decide⟩,
    ⟨State.reset, 11, by decide⟩⟩

/-- The hypotheses of `Obligations.ArrayUpkeepCompletes`, clause by clause. -/
theorem meets_arrayUpkeepCompletes :
    (∃ (s : State) (g a : Nat) (faults : List ColFault) (p : Pass) (rest : List Pass) (e : Entry), g < 24 ∧ a < 4
        ∧ SMap.get [] (s.core g).passes a = p :: rest ∧ p.t + 1026 * 625 ≤ s.gey.arr ∧ s.checkPass g a p faults = (e, [])
        ∧ (s.flag F.MXC_ARR_INJECT.ARM (g * 4 + a) = false ∨ (s.fld F.MXC_ARR_INJECT.KIND (g * 4 + a) ≠ 1 ∧ s.fld F.MXC_ARR_INJECT.KIND (g * 4 + a) ≠ 2))) ∧
    (∃ (s u : State) (g a ga : Nat) (faults : List ColFault) (p : Pass) (rest : List Pass) (e : Entry) (inj : Bool) (miss forced own cols : List Nat), g < 24
        ∧ a < 4 ∧ ga = g * 4 + a ∧ SMap.get [] (s.core g).passes a = p :: rest ∧ p.t + 1026 * 625 ≤ s.gey.arr ∧ s.checkPass g a p faults = (e, miss)
        ∧ ((inj = true ∧ s.flag F.MXC_ARR_INJECT.ARM ga = true ∧ (s.fld F.MXC_ARR_INJECT.KIND ga = 1 ∨ s.fld F.MXC_ARR_INJECT.KIND ga = 2)
        ∧ forced = [s.fld F.MXC_ARR_INJECT.PCOL ga]) ∨ (inj = false ∧ forced = []
        ∧ (s.flag F.MXC_ARR_INJECT.ARM ga = false ∨ (s.fld F.MXC_ARR_INJECT.KIND ga ≠ 1 ∧ s.fld F.MXC_ARR_INJECT.KIND ga ≠ 2))))
        ∧ own = miss.filter (fun c => !forced.contains c) ∧ cols = forced ++ own ∧ cols ≠ []
        ∧ 
      u = (let w := s.incFld F.MXC_ARR_RESCNT.MISS ga cols.length
         let w := (((w.setFld F.MXC_ARR_LASTMISS.PCOL ga (cols.foldl min 519)).setFld F.MXC_ARR_LASTMISS.NCOL ga
           (min cols.length 7)).setFld F.MXC_ARR_LASTMISS.FP32 ga (b2n (fpPath p.pm.fw))).setFld F.MXC_ARR_LASTMISS.INJ ga (b2n inj)
         let w := (w.setFld F.MXC_ARR_LASTMISS.CYCLE ga s.frameCyc).setFld F.MXC_ARR_LASTMISS.TICK ga s.tickNo
         let w := if p.init then w.modCore g fun m => { m with
           entries := SMap.set {} m.entries (a * 1024 + p.entry) (startEntry p.pm.mode) } else w
         if inj then (w.setFld F.MXC_ARR_INJECT.ARM ga 0).injMade (g / 2) 1 (unitSrc (.tile (g / 2) (g % 2) a)) else w)
        ∧ own = []) ∧
    (∃ (s u : State) (g a ga : Nat) (faults : List ColFault) (p : Pass) (rest : List Pass) (e : Entry) (inj : Bool) (miss forced own cols : List Nat), g < 24
        ∧ a < 4 ∧ ga = g * 4 + a ∧ SMap.get [] (s.core g).passes a = p :: rest ∧ p.t + 1026 * 625 ≤ s.gey.arr ∧ s.checkPass g a p faults = (e, miss)
        ∧ ((inj = true ∧ s.flag F.MXC_ARR_INJECT.ARM ga = true ∧ (s.fld F.MXC_ARR_INJECT.KIND ga = 1 ∨ s.fld F.MXC_ARR_INJECT.KIND ga = 2)
        ∧ forced = [s.fld F.MXC_ARR_INJECT.PCOL ga]) ∨ (inj = false ∧ forced = []
        ∧ (s.flag F.MXC_ARR_INJECT.ARM ga = false ∨ (s.fld F.MXC_ARR_INJECT.KIND ga ≠ 1 ∧ s.fld F.MXC_ARR_INJECT.KIND ga ≠ 2))))
        ∧ own = miss.filter (fun c => !forced.contains c) ∧ cols = forced ++ own ∧ cols ≠ []
        ∧ 
      u = (let w := s.incFld F.MXC_ARR_RESCNT.MISS ga cols.length
         let w := (((w.setFld F.MXC_ARR_LASTMISS.PCOL ga (cols.foldl min 519)).setFld F.MXC_ARR_LASTMISS.NCOL ga
           (min cols.length 7)).setFld F.MXC_ARR_LASTMISS.FP32 ga (b2n (fpPath p.pm.fw))).setFld F.MXC_ARR_LASTMISS.INJ ga (b2n inj)
         let w := (w.setFld F.MXC_ARR_LASTMISS.CYCLE ga s.frameCyc).setFld F.MXC_ARR_LASTMISS.TICK ga s.tickNo
         let w := if p.init then w.modCore g fun m => { m with
           entries := SMap.set {} m.entries (a * 1024 + p.entry) (startEntry p.pm.mode) } else w
         if inj then (w.setFld F.MXC_ARR_INJECT.ARM ga 0).injMade (g / 2) 1 (unitSrc (.tile (g / 2) (g % 2) a)) else w)
        ∧ own ≠ [] ∧ p.retried = false ∧ (u.core g).intact a p = true ∧ own.length < 3) ∧
    (∃ (s u : State) (g a ga : Nat) (faults : List ColFault) (p : Pass) (rest : List Pass) (e : Entry) (inj : Bool) (miss forced own cols : List Nat), g < 24
        ∧ a < 4 ∧ ga = g * 4 + a ∧ SMap.get [] (s.core g).passes a = p :: rest ∧ p.t + 1026 * 625 ≤ s.gey.arr ∧ s.checkPass g a p faults = (e, miss)
        ∧ ((inj = true ∧ s.flag F.MXC_ARR_INJECT.ARM ga = true ∧ (s.fld F.MXC_ARR_INJECT.KIND ga = 1 ∨ s.fld F.MXC_ARR_INJECT.KIND ga = 2)
        ∧ forced = [s.fld F.MXC_ARR_INJECT.PCOL ga]) ∨ (inj = false ∧ forced = []
        ∧ (s.flag F.MXC_ARR_INJECT.ARM ga = false ∨ (s.fld F.MXC_ARR_INJECT.KIND ga ≠ 1 ∧ s.fld F.MXC_ARR_INJECT.KIND ga ≠ 2))))
        ∧ own = miss.filter (fun c => !forced.contains c) ∧ cols = forced ++ own ∧ cols ≠ []
        ∧ 
      u = (let w := s.incFld F.MXC_ARR_RESCNT.MISS ga cols.length
         let w := (((w.setFld F.MXC_ARR_LASTMISS.PCOL ga (cols.foldl min 519)).setFld F.MXC_ARR_LASTMISS.NCOL ga
           (min cols.length 7)).setFld F.MXC_ARR_LASTMISS.FP32 ga (b2n (fpPath p.pm.fw))).setFld F.MXC_ARR_LASTMISS.INJ ga (b2n inj)
         let w := (w.setFld F.MXC_ARR_LASTMISS.CYCLE ga s.frameCyc).setFld F.MXC_ARR_LASTMISS.TICK ga s.tickNo
         let w := if p.init then w.modCore g fun m => { m with
           entries := SMap.set {} m.entries (a * 1024 + p.entry) (startEntry p.pm.mode) } else w
         if inj then (w.setFld F.MXC_ARR_INJECT.ARM ga 0).injMade (g / 2) 1 (unitSrc (.tile (g / 2) (g % 2) a)) else w)
        ∧ p.retried = false ∧ (u.core g).intact a p = true ∧ 3 ≤ own.length) ∧
    (∃ (s u : State) (g a ga : Nat) (faults : List ColFault) (p : Pass) (rest : List Pass) (e : Entry) (inj : Bool) (miss forced own cols : List Nat), g < 24
        ∧ a < 4 ∧ ga = g * 4 + a ∧ SMap.get [] (s.core g).passes a = p :: rest ∧ p.t + 1026 * 625 ≤ s.gey.arr ∧ s.checkPass g a p faults = (e, miss)
        ∧ ((inj = true ∧ s.flag F.MXC_ARR_INJECT.ARM ga = true ∧ (s.fld F.MXC_ARR_INJECT.KIND ga = 1 ∨ s.fld F.MXC_ARR_INJECT.KIND ga = 2)
        ∧ forced = [s.fld F.MXC_ARR_INJECT.PCOL ga]) ∨ (inj = false ∧ forced = []
        ∧ (s.flag F.MXC_ARR_INJECT.ARM ga = false ∨ (s.fld F.MXC_ARR_INJECT.KIND ga ≠ 1 ∧ s.fld F.MXC_ARR_INJECT.KIND ga ≠ 2))))
        ∧ own = miss.filter (fun c => !forced.contains c) ∧ cols = forced ++ own ∧ cols ≠ []
        ∧ 
      u = (let w := s.incFld F.MXC_ARR_RESCNT.MISS ga cols.length
         let w := (((w.setFld F.MXC_ARR_LASTMISS.PCOL ga (cols.foldl min 519)).setFld F.MXC_ARR_LASTMISS.NCOL ga
           (min cols.length 7)).setFld F.MXC_ARR_LASTMISS.FP32 ga (b2n (fpPath p.pm.fw))).setFld F.MXC_ARR_LASTMISS.INJ ga (b2n inj)
         let w := (w.setFld F.MXC_ARR_LASTMISS.CYCLE ga s.frameCyc).setFld F.MXC_ARR_LASTMISS.TICK ga s.tickNo
         let w := if p.init then w.modCore g fun m => { m with
           entries := SMap.set {} m.entries (a * 1024 + p.entry) (startEntry p.pm.mode) } else w
         if inj then (w.setFld F.MXC_ARR_INJECT.ARM ga 0).injMade (g / 2) 1 (unitSrc (.tile (g / 2) (g % 2) a)) else w)
        ∧ own ≠ [] ∧ p.retried = false ∧ (u.core g).intact a p = false) ∧
    (∃ (s u : State) (g a ga : Nat) (faults : List ColFault) (p : Pass) (rest : List Pass) (e : Entry) (inj : Bool) (miss forced own cols : List Nat), g < 24
        ∧ a < 4 ∧ ga = g * 4 + a ∧ SMap.get [] (s.core g).passes a = p :: rest ∧ p.t + 1026 * 625 ≤ s.gey.arr ∧ s.checkPass g a p faults = (e, miss)
        ∧ ((inj = true ∧ s.flag F.MXC_ARR_INJECT.ARM ga = true ∧ (s.fld F.MXC_ARR_INJECT.KIND ga = 1 ∨ s.fld F.MXC_ARR_INJECT.KIND ga = 2)
        ∧ forced = [s.fld F.MXC_ARR_INJECT.PCOL ga]) ∨ (inj = false ∧ forced = []
        ∧ (s.flag F.MXC_ARR_INJECT.ARM ga = false ∨ (s.fld F.MXC_ARR_INJECT.KIND ga ≠ 1 ∧ s.fld F.MXC_ARR_INJECT.KIND ga ≠ 2))))
        ∧ own = miss.filter (fun c => !forced.contains c) ∧ cols = forced ++ own ∧ cols ≠ []
        ∧ 
      u = (let w := s.incFld F.MXC_ARR_RESCNT.MISS ga cols.length
         let w := (((w.setFld F.MXC_ARR_LASTMISS.PCOL ga (cols.foldl min 519)).setFld F.MXC_ARR_LASTMISS.NCOL ga
           (min cols.length 7)).setFld F.MXC_ARR_LASTMISS.FP32 ga (b2n (fpPath p.pm.fw))).setFld F.MXC_ARR_LASTMISS.INJ ga (b2n inj)
         let w := (w.setFld F.MXC_ARR_LASTMISS.CYCLE ga s.frameCyc).setFld F.MXC_ARR_LASTMISS.TICK ga s.tickNo
         let w := if p.init then w.modCore g fun m => { m with
           entries := SMap.set {} m.entries (a * 1024 + p.entry) (startEntry p.pm.mode) } else w
         if inj then (w.setFld F.MXC_ARR_INJECT.ARM ga 0).injMade (g / 2) 1 (unitSrc (.tile (g / 2) (g % 2) a)) else w)
        ∧ p.retried = true ∧ (3 ≤ own.length ∨ own ≠ [] ∧ u.flag F.MXC_ARR_STATUS.ARRAY_SUSPECT ga = true)) ∧
    (∃ (s u : State) (g a ga : Nat) (faults : List ColFault) (p : Pass) (rest : List Pass) (e : Entry) (inj : Bool) (miss forced own cols : List Nat), g < 24
        ∧ a < 4 ∧ ga = g * 4 + a ∧ SMap.get [] (s.core g).passes a = p :: rest ∧ p.t + 1026 * 625 ≤ s.gey.arr ∧ s.checkPass g a p faults = (e, miss)
        ∧ ((inj = true ∧ s.flag F.MXC_ARR_INJECT.ARM ga = true ∧ (s.fld F.MXC_ARR_INJECT.KIND ga = 1 ∨ s.fld F.MXC_ARR_INJECT.KIND ga = 2)
        ∧ forced = [s.fld F.MXC_ARR_INJECT.PCOL ga]) ∨ (inj = false ∧ forced = []
        ∧ (s.flag F.MXC_ARR_INJECT.ARM ga = false ∨ (s.fld F.MXC_ARR_INJECT.KIND ga ≠ 1 ∧ s.fld F.MXC_ARR_INJECT.KIND ga ≠ 2))))
        ∧ own = miss.filter (fun c => !forced.contains c) ∧ cols = forced ++ own ∧ cols ≠ []
        ∧ 
      u = (let w := s.incFld F.MXC_ARR_RESCNT.MISS ga cols.length
         let w := (((w.setFld F.MXC_ARR_LASTMISS.PCOL ga (cols.foldl min 519)).setFld F.MXC_ARR_LASTMISS.NCOL ga
           (min cols.length 7)).setFld F.MXC_ARR_LASTMISS.FP32 ga (b2n (fpPath p.pm.fw))).setFld F.MXC_ARR_LASTMISS.INJ ga (b2n inj)
         let w := (w.setFld F.MXC_ARR_LASTMISS.CYCLE ga s.frameCyc).setFld F.MXC_ARR_LASTMISS.TICK ga s.tickNo
         let w := if p.init then w.modCore g fun m => { m with
           entries := SMap.set {} m.entries (a * 1024 + p.entry) (startEntry p.pm.mode) } else w
         if inj then (w.setFld F.MXC_ARR_INJECT.ARM ga 0).injMade (g / 2) 1 (unitSrc (.tile (g / 2) (g % 2) a)) else w)
        ∧ p.retried = true ∧ own ≠ [] ∧ own.length < 3 ∧ u.flag F.MXC_ARR_STATUS.ARRAY_SUSPECT ga = false) ∧
    (∃ (s : State) (g a : Nat) (faults : List ColFault), g < 24 ∧ a < 4
        ∧ (SMap.get [] (s.core g).passes a = [] ∨ (∃ p rest, SMap.get [] (s.core g).passes a = p :: rest ∧ s.gey.arr < p.t + 1026 * 625))) ∧
    (∃ (s : State) (g a k l : Nat) (ks : List Nat), g < 24 ∧ a < 4 ∧ (s.core g).mapDue.filter (fun p => p.1 == a) = [(a, l)]
        ∧ s.freeSpares (g * 4 + a) = k :: ks) ∧
    (∃ (s u : State) (g a : Nat) (mine : List (Nat × Nat)), g < 24 ∧ a < 4 ∧ mine = (s.core g).mapDue.filter (fun p => p.1 == a) ∧ mine ≠ []
        ∧ u = mine.foldl (fun s p => s.mapOut g a p.2) s) ∧
    (∃ (s : State) (g a : Nat), g < 24 ∧ a < 4 ∧ (s.core g).mapDue.filter (fun p => p.1 == a) = []) ∧
    (∃ (s : State) (g a col : Nat), g < 24 ∧ a < 4 ∧ col < 520 ∧ (SMap.get (0, 0) (s.core g).miss (520 * a + col)).2 + 156250000 ≤ s.tmb.clk) ∧
    (∃ (s : State) (g a col : Nat), g < 24 ∧ a < 4 ∧ col < 520 ∧ s.tmb.clk < (SMap.get (0, 0) (s.core g).miss (520 * a + col)).2 + 156250000) ∧
    (∃ (s : State) (g a : Nat) (v : BitVec 32), g < 24 ∧ a < 4 ∧ s.takesWrite .MXC_ARR_INJECT (4 * g + a) = true) ∧
    (∃ (s : State) (g a : Nat) (v : BitVec 32), g < 24 ∧ a < 4 ∧ s.takesWrite .MXC_ARR_INJECT (4 * g + a) = false) ∧
    (∃ (s : State) (g : Nat), g < 24 ∧ (s.core g).scrub = true ∧ (s.core g).scrubT ≤ s.gey.arr) ∧
    (∃ (s : State) (g : Nat), g < 24 ∧ ((s.core g).scrub = false ∨ s.gey.arr < (s.core g).scrubT)) :=
  ⟨⟨paS State.reset psM, 23, 3, [], psM, [], ((paS State.reset psM).checkPass 23 3 psM []).1, by decide, by decide, by decide, by decide,
      Prod.ext rfl (by decide), by decide⟩,
    ⟨paS (st [(F.MXC_ARR_INJECT.ARM, 95, 1), (F.MXC_ARR_INJECT.KIND, 95, 1), (F.MXC_ARR_INJECT.PCOL, 95, 5)]) psM, _, 23, 3, 95, [], psM, [],
      ((paS (st [(F.MXC_ARR_INJECT.ARM, 95, 1), (F.MXC_ARR_INJECT.KIND, 95, 1), (F.MXC_ARR_INJECT.PCOL, 95, 5)]) psM).checkPass 23 3 psM []).1, true, [], _,
      _, _, by decide, by decide, by decide, by decide, by decide, Prod.ext rfl (by decide), .inl ⟨rfl, by decide, .inl (by decide), rfl⟩, rfl, rfl,
      by decide, rfl, by decide⟩,
    ⟨paS State.reset psB, _, 23, 3, 95, [⟨511, 1, 0, false⟩], psB, [], ((paS State.reset psB).checkPass 23 3 psB [⟨511, 1, 0, false⟩]).1, false, [511], _,
      _, _, by decide, by decide, by decide, by decide, by decide, Prod.ext rfl (by decide), .inr ⟨rfl, rfl, .inl (by decide)⟩, rfl, rfl, by decide, rfl,
      by decide⟩,
    ⟨paS State.reset psB, _, 23, 3, 95, [⟨1, 1, 0, false⟩, ⟨2, 1, 0, false⟩, ⟨3, 1, 0, false⟩], psB, [],
      ((paS State.reset psB).checkPass 23 3 psB [⟨1, 1, 0, false⟩, ⟨2, 1, 0, false⟩, ⟨3, 1, 0, false⟩]).1, false, [1, 2, 3], _, _, _, by decide, by decide,
      by decide, by decide, by decide, Prod.ext rfl (by decide), .inr ⟨rfl, rfl, .inl (by decide)⟩, rfl, rfl, by decide, rfl, by decide⟩,
    ⟨paS State.reset { psB with plane := 9 }, _, 23, 3, 95, [⟨511, 1, 0, false⟩], { psB with plane := 9 }, [],
      ((paS State.reset { psB with plane := 9 }).checkPass 23 3 { psB with plane := 9 } [⟨511, 1, 0, false⟩]).1, false, [511], _, _, _, by decide,
      by decide, by decide, by decide, by decide, Prod.ext rfl (by decide), .inr ⟨rfl, rfl, .inl (by decide)⟩, rfl, rfl, by decide, rfl, by decide⟩,
    ⟨paS State.reset ps1, _, 23, 3, 95, [⟨1, 1, 0, false⟩, ⟨2, 1, 0, false⟩, ⟨3, 1, 0, false⟩], ps1, [],
      ((paS State.reset ps1).checkPass 23 3 ps1 [⟨1, 1, 0, false⟩, ⟨2, 1, 0, false⟩, ⟨3, 1, 0, false⟩]).1, false, [1, 2, 3], _, _, _, by decide, by decide,
      by decide, by decide, by decide, Prod.ext rfl (by decide), .inr ⟨rfl, rfl, .inl (by decide)⟩, rfl, rfl, by decide, rfl, by decide⟩,
    ⟨paS State.reset ps1, _, 23, 3, 95, [⟨511, 1, 0, false⟩], ps1, [], ((paS State.reset ps1).checkPass 23 3 ps1 [⟨511, 1, 0, false⟩]).1, false, [511], _,
      _, _, by decide, by decide, by decide, by decide, by decide, Prod.ext rfl (by decide), .inr ⟨rfl, rfl, .inl (by decide)⟩, rfl, rfl, by decide, rfl,
      by decide⟩,
    ⟨State.reset, 23, 3, [], by decide, by decide, .inl (by decide)⟩,
    ⟨State.reset.modCore 23 (fun m => { m with mapDue := [(3, 511)] }), 23, 3, 0, 511, [1, 2, 3, 4, 5, 6, 7], by decide⟩,
    ⟨State.reset.modCore 23 (fun m => { m with mapDue := [(3, 511)] }), _, 23, 3, _, by decide, by decide, rfl, by decide, rfl⟩,
    ⟨pa0, 23, 3, by decide⟩,
    ⟨{ State.reset with tmb := { clk := 156250000 } }, 23, 3, 519, by decide⟩,
    ⟨pa0, 23, 3, 519, by decide⟩,
    ⟨pa0, 23, 3, 0xFFFFFFFF, by decide⟩,
    ⟨State.reset.setDieBit true 11 true, 23, 3, 0xFFFFFFFF, by decide⟩,
    ⟨State.reset.modCore 23 (fun m => { m with scrub := true }), 23, by decide⟩,
    ⟨pa0, 23, by decide⟩⟩

/-- The hypotheses of `Obligations.WindowCommandsComplete`, clause by clause. -/
theorem meets_windowCommandsComplete :
    (∃ (s : State) (g : Nat), g < 24 ∧ s.coreOut g = false ∧ (s.core g).read = false ∧ s.flag F.GEY_CTRL.TICKING = true
        ∧ nMin (s.fld F.GEY_CTRL.PERIOD) ≤ s.frameCyc + 8192 ∧ s.fencedUnit (coreUnit (g + 1 - 2 * (g % 2))) = false) ∧
    (∃ (s : State) (g p : Nat), g < 24 ∧ p = g + 1 - 2 * (g % 2) ∧ s.coreOut g = false ∧ (s.core g).read = false ∧ s.flag F.GEY_CTRL.TICKING = true
        ∧ nMin (s.fld F.GEY_CTRL.PERIOD) ≤ s.frameCyc + 8192 ∧ s.fencedUnit (coreUnit p) = true) ∧
    (∃ (s : State) (g : Nat), g < 24
        ∧ (s.coreOut g = true ∨ (s.core g).read = true ∨ s.flag F.GEY_CTRL.TICKING = false ∨ s.frameCyc + 8192 < nMin (s.fld F.GEY_CTRL.PERIOD))) ∧
    (∃ (s u : State) (g k d x : Nat) (w : Window) (ks : List Nat), g < 24 ∧ s.coreOut g = false ∧ (s.core g).run = none ∧ s.flag F.GEY_CTRL.TICKING = true
        ∧ (s.core g).wins.find? (fun w => decide (w.start ≤ s.frameCyc)) = some w ∧ ((s.commitAtStart g = none ∧ u = s) ∨ (∃ c, s.commitAtStart g = some c
        ∧ u = commitPoint g c s)) ∧ k = s.gey.frame0 + w.start * 625 ∧ d = (if s.tenantPass g k then 1024 else 0) ∧ x = (if (u.core g).used
        ∧ !(u.core g).clean ∧ (u.core g).basin ≠ 0 then 512 else 0) ∧ ks = u.tenants g) ∧
    (∃ (s : State) (g : Nat), g < 24
        ∧ (s.coreOut g = true ∨ (s.core g).run ≠ none ∨ s.flag F.GEY_CTRL.TICKING = false ∨ (s.core g).wins.find? (fun w => decide (w.start ≤ s.frameCyc)) = none)) ∧
    (∃ (s : State) (g n : Nat) (r : WinRun), g < 24 ∧ (s.core g).run = some r ∧ r.back = false ∧ r.w.last ≤ s.frameCyc + 559 ∧ s.idle g = true
        ∧ n = (if r.late then s.frameCyc + 560 else r.w.last + 1) - r.w.start) ∧
    (∃ (s : State) (g : Nat) (r : WinRun), g < 24 ∧ (s.core g).run = some r ∧ r.back = false ∧ r.late = false ∧ r.w.last ≤ s.frameCyc + 559
        ∧ s.idle g = false) ∧
    (∃ (s : State) (g : Nat), g < 24 ∧ ((s.core g).run = none ∨ (∃ r, (s.core g).run = some r
        ∧ (r.back = true ∨ s.frameCyc + 559 < r.w.last ∨ r.late = true ∧ s.idle g = false)))) :=
  ⟨⟨{ st [(F.GEY_CTRL.TICKING, 0, 1), (F.MXC_TPROG_BASE.EN, 23, 1)] with gey := { arr := 524986 * 625 } }, 23, by decide⟩,
    ⟨({ st [(F.GEY_CTRL.TICKING, 0, 1), (F.MXC_TPROG_BASE.EN, 23, 1)] with gey := { arr := 524986 * 625 } }).addFence ⟨coreUnit 22, 3, false, false⟩, 23,
      22, by decide⟩,
    ⟨(st [(F.GEY_CTRL.TICKING, 0, 1)]).modCore 23 (fun m => { m with wins := [⟨0, 3000, 1, 23⟩] }), 23, by decide⟩,
    ⟨(st [(F.GEY_CTRL.TICKING, 0, 1)]).modCore 23 (fun m => { m with wins := [⟨0, 3000, 1, 23⟩] }),
      (st [(F.GEY_CTRL.TICKING, 0, 1)]).modCore 23 (fun m => { m with wins := [⟨0, 3000, 1, 23⟩] }), 23, _, _, _, ⟨0, 3000, 1, 23⟩, _, by decide, by decide,
      by decide, by decide, by decide, by decide, rfl, rfl, rfl, rfl⟩,
    ⟨{ st [(F.GEY_CTRL.TICKING, 0, 1), (F.MXC_TPROG_BASE.EN, 23, 1)] with gey := { arr := 524986 * 625 } }, 23, by decide⟩,
    ⟨State.reset.modCore 23 (fun m => { m with run := some { w := ⟨0, 559, 1, 23⟩, left := 1, issueAt := 0 } }), 23, _, _, by decide, rfl, by decide,
      by decide, by decide, rfl⟩,
    ⟨(cx 23 3 {}).modCore 23 (fun m => { m with run := some { w := ⟨0, 559, 1, 23⟩, left := 1, issueAt := 0 } }), 23, _, by decide, rfl, by decide⟩,
    ⟨{ st [(F.GEY_CTRL.TICKING, 0, 1), (F.MXC_TPROG_BASE.EN, 23, 1)] with gey := { arr := 524986 * 625 } }, 23, by decide⟩⟩

/-- The hypotheses of `Obligations.QueueCommandsComplete`, clause by clause. -/
theorem meets_queueCommandsComplete :
    (∃ (s : State) (q n o : Nat) (cq : Bool) (v : BitVec 32), q < 392 ∧ place (s.fld F.MXC_Qq_DBL.LINE q / 64 * 64) = .sram n o) ∧
    (∃ (s : State) (q : Nat) (cq : Bool) (v : BitVec 32), q < 392 ∧ (∀ n o, place (s.fld F.MXC_Qq_DBL.LINE q / 64 * 64) ≠ .sram n o)) ∧
    (∃ (s : State) (q b : Nat) (v : BitVec 32), q < 320 ∧ q % 8 ≠ 0 ∧ s.takesWrite .MXC_Qq_CTRL q = true ∧ b = bits v.toNat 8 1
        ∧ (s.fld F.MXC_Qq_CTRL.BASIN q = b ∨ (s.building (s.fld F.MXC_Qq_CTRL.BASIN q) = true ∧ s.queueBusy q = false ∧ s.building b = true))
        ∧ (s.fld F.MXC_Qq_CTRL.SHARE q = min (bits v.toNat 24 14) 1024 ∨ s.building b = true)) ∧
    (∃ (s : State) (q b : Nat) (v : BitVec 32), q < 320 ∧ q % 8 ≠ 0 ∧ b = bits v.toNat 8 1 ∧ ((s.fld F.MXC_Qq_CTRL.BASIN q ≠ b
        ∧ (s.building (s.fld F.MXC_Qq_CTRL.BASIN q) = false ∨ s.queueBusy q = true ∨ s.building b = false)) ∨ (s.fld F.MXC_Qq_CTRL.SHARE q ≠ min (bits v.toNat 24 14) 1024
        ∧ s.building b = false))) ∧
    (∃ (s : State) (q : Nat) (v : BitVec 32), q < 392 ∧ (q % 8 = 0 ∨ 320 ≤ q) ∧ s.takesWrite .MXC_Qq_CTRL q = true) ∧
    (∃ (s : State) (q : Nat) (v : BitVec 32), q < 392 ∧ s.takesWrite .MXC_Qq_CTRL q = false) ∧
    (∃ (s : State) (v : BitVec 32), s.flag F.PKG_ACCT_SNAP.BUSY = false) ∧
    (∃ (s : State) (v : BitVec 32), s.flag F.PKG_ACCT_SNAP.BUSY = true) ∧
    (∃ (s : State), s.tmb.secs ≠ 0) ∧
    (∃ (s : State), s.tmb.secs = 0) :=
  ⟨⟨st [(F.MXC_Qq_DBL.LINE, 391, 0x8000000040)], 391, 0, 0x40, false, 7, by decide⟩,
    ⟨State.reset.setFld F.BSN_STATEb.STATE 3 1, 391, false, 7, by decide,
      (by intro n o h; exact absurd (h.symm.trans (show place _ = .store 0 0 0 from by decide)) (by simp))⟩,
    ⟨State.reset.setFld F.BSN_STATEb.STATE 3 1, 319, _, 7, by decide, by decide, by decide, rfl, by decide⟩,
    ⟨st [(F.MXC_Qq_DBL.LINE, 391, 0x8000000040)], 319, _, 7, by decide, by decide, rfl, by decide⟩,
    ⟨st [(F.MXC_Qq_DBL.LINE, 391, 0x8000000040)], 391, 7, by decide⟩,
    ⟨State.reset.setDieBit true 11 true, 191, 7, by decide⟩,
    ⟨st [(F.MXC_Qq_DBL.LINE, 391, 0x8000000040)], 7, by decide⟩,
    ⟨(st [(F.MXC_Qq_DBL.LINE, 391, 0x8000000040)]).setFld F.PKG_ACCT_SNAP.BUSY 0 1, 7, by decide⟩,
    ⟨{ st [(F.STR_PAGE_OWNERp.STATE, 147455, 1)] with tmb := { secs := 1 } }, by decide⟩,
    ⟨st [(F.MXC_Qq_DBL.LINE, 391, 0x8000000040)], by decide⟩⟩

/-- The hypotheses of `Obligations.BasinLifeCycleCompletes`, clause by clause. -/
theorem meets_basinLifeCycleCompletes :
    (∃ (s : State) (v : BitVec 32) (b : Nat), s.flag F.BSN_CMD.BUSY = false ∧ s.fld F.PKG_BOOT.STAGE = 6 ∧ s.flt.presenting = false ∧ ((b = v.toNat % 256
        ∧ b ≠ 0 ∧ s.bst b = 0 ∧ s.vfOn (bits v.toNat 8 8) b = true) ∨ (v.toNat % 256 = 0
        ∧ ((List.range 255).map (· + 1)).find? (fun i => s.bst i == 0 && s.vfOn (bits v.toNat 8 8) i) = some b))
        ∧ (∀ n < 12, s.dieEn (12 + n) = true → s.keyFull n b = false)) ∧
    (∃ (s : State) (v : BitVec 32) (b e : Nat), s.flag F.BSN_CMD.BUSY = false ∧ s.fld F.PKG_BOOT.STAGE = 6 ∧ s.flt.presenting = false ∧ b = v.toNat % 256
        ∧ ((e = 1 ∧ b ≠ 0 ∧ s.bst b ≠ 0) ∨ (e = 3 ∧ b ≠ 0 ∧ s.bst b = 0 ∧ s.vfOn (bits v.toNat 8 8) b = false) ∨ (e = 1 ∧ b = 0
        ∧ ∀ i, 1 ≤ i → i < 256 → s.bst i ≠ 0 ∨ s.vfOn (bits v.toNat 8 8) i = false) ∨ (e = 4 ∧ b ≠ 0 ∧ s.bst b = 0 ∧ s.vfOn (bits v.toNat 8 8) b = true
        ∧ ∃ n < 12, s.dieEn (12 + n) = true ∧ s.keyFull n b = true))) ∧
    (∃ (s : State) (v : BitVec 32) (b : Nat), s.flag F.BSN_CMD.BUSY = false ∧ s.fld F.PKG_BOOT.STAGE = 6 ∧ s.flt.presenting = false ∧ b = v.toNat % 256
        ∧ b ≠ 0 ∧ s.bst b = 1 ∧ (∀ g < 24, ((b :: s.openBasins).map fun i => s.shareOf g i).sum ≤ 1024)
        ∧ ((b :: s.openBasins).map fun i => s.fld F.BSN_STATEb.DSP_SHARE i).sum ≤ 1024) ∧
    (∃ (s : State) (v : BitVec 32) (b e : Nat), s.flag F.BSN_CMD.BUSY = false ∧ s.fld F.PKG_BOOT.STAGE = 6 ∧ s.flt.presenting = false ∧ b = v.toNat % 256
        ∧ ((e = 2 ∧ (b = 0 ∨ s.bst b ≠ 1)) ∨ (e = 5 ∧ b ≠ 0 ∧ s.bst b = 1 ∧ ∃ g < 24, 1024 < ((b :: s.openBasins).map fun i => s.shareOf g i).sum) ∨ (e = 6
        ∧ b ≠ 0 ∧ s.bst b = 1 ∧ (∀ g < 24, ((b :: s.openBasins).map fun i => s.shareOf g i).sum ≤ 1024)
        ∧ 1024 < ((b :: s.openBasins).map fun i => s.fld F.BSN_STATEb.DSP_SHARE i).sum))) ∧
    (∃ (s u : State) (v : BitVec 32) (b : Nat), s.flag F.BSN_CMD.BUSY = false ∧ s.fld F.PKG_BOOT.STAGE = 6 ∧ s.flt.presenting = false ∧ b = v.toNat % 256
        ∧ b ≠ 0 ∧ s.bst b = 2
        ∧ u = ((((s.setFld F.BSN_CMD.BASIN 0 (v.toNat % 256)).setFld F.BSN_CMD.PORT 0 (bits v.toNat 8 8)).setFld F.BSN_CMD.OP 0 2).setFld F.BSN_CMD.ERR 0 0).setFld F.BSN_CMD.BUSY 0 1) ∧
    (∃ (s u : State) (v : BitVec 32) (b : Nat), s.flag F.BSN_CMD.BUSY = false ∧ s.fld F.PKG_BOOT.STAGE = 6 ∧ s.flt.presenting = false ∧ b = v.toNat % 256
        ∧ b ≠ 0 ∧ (s.bst b = 1 ∨ s.bst b = 2)
        ∧ u = ((((s.setFld F.BSN_CMD.BASIN 0 (v.toNat % 256)).setFld F.BSN_CMD.PORT 0 (bits v.toNat 8 8)).setFld F.BSN_CMD.OP 0 3).setFld F.BSN_CMD.ERR 0 0).setFld F.BSN_CMD.BUSY 0 1) ∧
    (∃ (s : State) (v : BitVec 32) (b : Nat), s.flag F.BSN_CMD.BUSY = false ∧ s.fld F.PKG_BOOT.STAGE = 6 ∧ s.flt.presenting = false ∧ b = v.toNat % 256
        ∧ (b = 0 ∨ s.bst b ≠ 2)) ∧
    (∃ (s : State) (v : BitVec 32) (b : Nat), s.flag F.BSN_CMD.BUSY = false ∧ s.fld F.PKG_BOOT.STAGE = 6 ∧ s.flt.presenting = false ∧ b = v.toNat % 256
        ∧ (b = 0 ∨ (s.bst b ≠ 1 ∧ s.bst b ≠ 2))) ∧
    (∃ (s : State) (v : BitVec 32), (s.flag F.BSN_CMD.BUSY = true ∨ s.fld F.PKG_BOOT.STAGE ≠ 6 ∨ s.flt.presenting = true)) ∧
    (∃ (s : State) (b : Nat), 0 < b ∧ b < 256 ∧ s.bst b = 3 ∧ s.basinReady b = true) ∧
    (∃ (s : State) (b : Nat), 0 < b ∧ b < 256 ∧ s.bst b = 4 ∧ s.basinReady b = true) ∧
    (∃ (s : State) (b : Nat), 0 < b ∧ b < 256 ∧ (s.bst b ≠ 3 ∨ s.basinReady b = false)) ∧
    (∃ (s : State) (b : Nat), 0 < b ∧ b < 256 ∧ (s.bst b ≠ 4 ∨ s.basinReady b = false)) ∧
    (∃ (s u : State) (port n : Nat) (vfe : Bool) (l : List Nat), port < 2 ∧ n < 65536
        ∧ u = (s.setFld F.CFG_SRIOV.VFE port (b2n vfe)).setFld F.CFG_SRIOV.NUMVFS port (min n 255)
        ∧ l = (s.instances .BSN_STATEb 0).filter (fun b => b != 0 && s.portOf b == port && !(vfe && decide (b ≤ min n 255)))) ∧
    (∃ (s u : State) (port b : Nat), port < 2 ∧ 0 < b ∧ b < 256 ∧ u = s.vfPcieReset port b ∧ s.portOf b = port ∧ s.bst b = 2) ∧
    (∃ (s u : State) (port b : Nat), port < 2 ∧ 0 < b ∧ b < 256 ∧ u = s.vfPcieReset port b ∧ (s.portOf b ≠ port ∨ s.bst b ≠ 2)) :=
  ⟨⟨up6 [(F.CFG_SRIOV.VFE, 1, 1), (F.CFG_SRIOV.NUMVFS, 1, 255)], 0x1FF, 255, by decide⟩,
    ⟨up6 [(F.BSN_STATEb.STATE, 255, 1), (F.BSN_STATEb.DSP_SHARE, 255, 1024)], 0x1FF, _, 1, by decide, by decide, by decide, rfl, .inl (by decide)⟩,
    ⟨up6 [(F.BSN_STATEb.STATE, 255, 1), (F.BSN_STATEb.DSP_SHARE, 255, 1024)], 0x1FF, _, by decide, by decide, by decide, rfl, by decide⟩,
    ⟨up6 [(F.CFG_SRIOV.VFE, 1, 1), (F.CFG_SRIOV.NUMVFS, 1, 255)], 0x1FF, _, 2, by decide, by decide, by decide, rfl, by decide⟩,
    ⟨up6 [(F.BSN_STATEb.STATE, 255, 2), (F.BSN_STATEb.GEN, 255, 4095)], _, 0x1FF, _, by decide, by decide, by decide, rfl, by decide, by decide, rfl⟩,
    ⟨up6 [(F.BSN_STATEb.STATE, 255, 1), (F.BSN_STATEb.DSP_SHARE, 255, 1024)], _, 0x1FF, _, by decide, by decide, by decide, rfl, by decide, by decide,
      rfl⟩,
    ⟨up6 [(F.CFG_SRIOV.VFE, 1, 1), (F.CFG_SRIOV.NUMVFS, 1, 255)], 0x1FF, _, by decide, by decide, by decide, rfl, by decide⟩,
    ⟨up6 [(F.CFG_SRIOV.VFE, 1, 1), (F.CFG_SRIOV.NUMVFS, 1, 255)], 0x1FF, _, by decide, by decide, by decide, rfl, by decide⟩,
    ⟨(up6 [(F.CFG_SRIOV.VFE, 1, 1), (F.CFG_SRIOV.NUMVFS, 1, 255)]).setFld F.BSN_CMD.BUSY 0 1, 0x1FF, by decide⟩,
    ⟨st [(F.BSN_STATEb.STATE, 255, 3), (F.BSN_HC_OWNERh.BASIN, 63, 255)], 255, by decide⟩,
    ⟨st [(F.BSN_STATEb.STATE, 255, 4), (F.BSN_HC_OWNERh.BASIN, 63, 255), (F.MXC_Qq_CTRL.BASIN, 319, 255)], 255, by decide⟩,
    ⟨up6 [(F.CFG_SRIOV.VFE, 1, 1), (F.CFG_SRIOV.NUMVFS, 1, 255)], 255, by decide⟩,
    ⟨up6 [(F.CFG_SRIOV.VFE, 1, 1), (F.CFG_SRIOV.NUMVFS, 1, 255)], 255, by decide⟩,
    ⟨up6 [(F.CFG_SRIOV.VFE, 1, 1), (F.CFG_SRIOV.NUMVFS, 1, 255)], _, 1, 65535, true, _, by decide, by decide, rfl, rfl⟩,
    ⟨up6 [(F.BSN_STATEb.STATE, 255, 2), (F.BSN_STATEb.GEN, 255, 4095)], _, _, 255, by decide, by decide, by decide, rfl, rfl, by decide⟩,
    ⟨up6 [(F.CFG_SRIOV.VFE, 1, 1), (F.CFG_SRIOV.NUMVFS, 1, 255)], _, 1, 255, by decide, by decide, by decide, rfl, by decide⟩⟩

/-- The hypotheses of `Obligations.MailboxCommandsComplete`, clause by clause (part 1 of 2). -/
theorem meets_mailboxCommandsComplete_a :
    (∃ (s u : State) (r : Req) (b o : Nat) (d : List Byte), (Instr.mailboxWrite r b o d).wf = true ∧ d ≠ [] ∧ MailboxComes s r b o d u
        ∧ o % 64 + d.length ≤ 56 ∧ (b = 0 ∨ u.bst b = 2 ∨ asTenant r b = false) ∧ (asTenant r b = false ∨ u.flag F.BSN_STATEb.MODE b = false)
        ∧ asTenant r b = decide (o / 64 < 32) ∧ u.mbxOwn b (o / 64) = false) ∧
    (∃ (s u : State) (r : Req) (b o : Nat) (d : List Byte), (Instr.mailboxWrite r b o d).wf = true ∧ d ≠ [] ∧ MailboxComes s r b o d u
        ∧ o % 64 + d.length ≤ 56 ∧ (b = 0 ∨ u.bst b = 2 ∨ asTenant r b = false) ∧ (asTenant r b = false ∨ u.flag F.BSN_STATEb.MODE b = false)
        ∧ (asTenant r b ≠ decide (o / 64 < 32) ∨ u.mbxOwn b (o / 64) = true)) ∧
    (∃ (s u : State) (r : Req) (b o : Nat) (d : List Byte), (Instr.mailboxWrite r b o d).wf = true ∧ d ≠ [] ∧ MailboxComes s r b o d u
        ∧ ((asTenant r b = true ∧ u.flag F.BSN_STATEb.MODE b = true ∧ (b = 0 ∨ u.bst b = 2)) ∨ (56 < o % 64 + d.length ∧ ¬(o % 64 = 56 ∧ d.length = 8)
        ∧ (asTenant r b = false ∨ (u.flag F.BSN_STATEb.MODE b = false ∧ (b = 0 ∨ u.bst b = 2)))))) ∧
    (∃ (s u : State) (r : Req) (b o : Nat) (d : List Byte), (Instr.mailboxWrite r b o d).wf = true ∧ MailboxComes s r b o d u
        ∧ (d = [] ∨ (asTenant r b = true ∧ b ≠ 0 ∧ u.bst b ≠ 2))) ∧
    (∃ (s u : State) (i : Instr) (r : Req) (b slot v : Nat) (fault : Bool), WritesControl i r b slot v fault
        ∧ MailboxComes s r b (slot * 64 + 56) (bytesOf 8 v) u ∧ (asTenant r b = false ∨ (u.flag F.BSN_STATEb.MODE b = false ∧ (b = 0 ∨ u.bst b = 2)))
        ∧ asTenant r b = true ∧ slot < 32 ∧ u.mbxOwn b slot = false ∧ bit v 63 = true) ∧
    (∃ (s u : State) (i : Instr) (r : Req) (b slot v : Nat) (fault : Bool), WritesControl i r b slot v fault
        ∧ MailboxComes s r b (slot * 64 + 56) (bytesOf 8 v) u ∧ (asTenant r b = false ∨ (u.flag F.BSN_STATEb.MODE b = false ∧ (b = 0 ∨ u.bst b = 2)))
        ∧ asTenant r b = false ∧ 32 ≤ slot ∧ u.mbxOwn b slot = false ∧ bit v 63 = true ∧ bits v 27 16 = u.gen b) ∧
    (∃ (s u : State) (i : Instr) (r : Req) (b slot v : Nat) (fault : Bool), WritesControl i r b slot v fault
        ∧ MailboxComes s r b (slot * 64 + 56) (bytesOf 8 v) u ∧ (asTenant r b = false ∨ (u.flag F.BSN_STATEb.MODE b = false ∧ (b = 0 ∨ u.bst b = 2)))
        ∧ asTenant r b ≠ decide (slot < 32) ∧ u.mbxOwn b slot = true ∧ bit v 63 = false) ∧
    (∃ (s u : State) (i : Instr) (r : Req) (b slot v : Nat) (fault : Bool), WritesControl i r b slot v fault
        ∧ MailboxComes s r b (slot * 64 + 56) (bytesOf 8 v) u ∧ (asTenant r b = false ∨ (u.flag F.BSN_STATEb.MODE b = false ∧ (b = 0 ∨ u.bst b = 2)))
        ∧ ((asTenant r b = decide (slot < 32) ∧ (u.mbxOwn b slot = true ∨ bit v 63 = false ∨ (32 ≤ slot
        ∧ bits v 27 16 ≠ u.gen b))) ∨ (asTenant r b ≠ decide (slot < 32) ∧ (u.mbxOwn b slot = false ∨ bit v 63 = true)))) ∧
    (∃ (s u : State) (i : Instr) (r : Req) (b slot v : Nat) (fault : Bool), WritesControl i r b slot v fault
        ∧ MailboxComes s r b (slot * 64 + 56) (bytesOf 8 v) u ∧ asTenant r b = true ∧ b ≠ 0 ∧ u.bst b ≠ 2) ∧
    (∃ (s u : State) (i : Instr) (r : Req) (b slot v : Nat) (fault : Bool), WritesControl i r b slot v fault
        ∧ MailboxComes s r b (slot * 64 + 56) (bytesOf 8 v) u ∧ asTenant r b = true ∧ u.flag F.BSN_STATEb.MODE b = true ∧ (b = 0 ∨ u.bst b = 2)) ∧
    (∃ (s : State) (i : Instr) (r : Req) (b o slot v : Nat) (d : List Byte) (fault : Bool), ((i = .mailboxWrite r b o d
        ∧ i.wf = true) ∨ WritesControl i r b slot v fault) ∧ ((s.replaying = true ∧ ((∃ p, r = .pf p) ∨ ∃ p k, r = .vf p k)) ∨ (∃ h, r = .hc h
        ∧ s.hcBasin h ≠ 0))) ∧
    (∃ (s u : State) (i : Instr) (p k b o slot v : Nat) (d : List Byte) (fault : Bool), s.replaying = false ∧ ((i = .mailboxWrite (.vf p k) b o d
        ∧ i.wf = true) ∨ (WritesControl i (.vf p k) b slot v fault ∧ o = slot * 64 + 56 ∧ d = bytesOf 8 v))
        ∧ u = s.obs 1 (k + p * 2 ^ 16) d.length (0xFF03000000 + b * 4096 + o) d ∧ (k ≠ b ∨ u.portOf b ≠ p)) ∧
    (∃ (s : State) (b : Nat) (line : List Byte) (es : List (List Byte)), (Instr.ringPoll b line es false).wf = true ∧ b ≠ 0
        ∧ s.flag F.BSN_STATEb.MODE b = true ∧ s.bst b = 2 ∧ s.noHostRead = false ∧ s.ringOk b = true
        ∧ s.elapsed (s.basin b).pollClk (s.fld F.BSN_RINGb.POLL b) = true) ∧
    (∃ (s u : State) (b : Nat) (line : List Byte) (es : List (List Byte)) (fault : Bool), (Instr.ringPoll b line es fault).wf = true ∧ b ≠ 0
        ∧ s.flag F.BSN_STATEb.MODE b = true ∧ s.bst b = 2 ∧ s.noHostRead = false ∧ s.elapsed (s.basin b).pollClk (s.fld F.BSN_RINGb.POLL b) = true
        ∧ (fault = true ∨ s.ringOk b = false) ∧ u = s.setBasin b { s.basin b with pollClk := s.tmb.clk }) :=
  ⟨⟨st [(F.BSN_STATEb.STATE, 255, 2), (F.BSN_STATEb.PORT, 255, 1)], st [(F.BSN_STATEb.STATE, 255, 2), (F.BSN_STATEb.PORT, 255, 1)], .hc 63, 0, 1,
      [1#8, 2#8, 3#8, 4#8], by decide⟩,
    ⟨st [(F.BSN_STATEb.STATE, 255, 2), (F.BSN_STATEb.PORT, 255, 1)], st [(F.BSN_STATEb.STATE, 255, 2), (F.BSN_STATEb.PORT, 255, 1)], .caldera, 1, 1,
      [1#8, 2#8, 3#8, 4#8], by decide⟩,
    ⟨st [(F.BSN_STATEb.STATE, 255, 2), (F.BSN_STATEb.PORT, 255, 1)], st [(F.BSN_STATEb.STATE, 255, 2), (F.BSN_STATEb.PORT, 255, 1)], .caldera, 1, 255,
      [1#8, 2#8, 3#8, 4#8], by decide⟩,
    ⟨st [(F.BSN_STATEb.STATE, 255, 2), (F.BSN_STATEb.PORT, 255, 1)], st [(F.BSN_STATEb.STATE, 255, 2), (F.BSN_STATEb.PORT, 255, 1)], .caldera, 1, 1, [],
      by decide⟩,
    ⟨b255 [], (b255 []).obs 1 (255 + 1 * 2 ^ 16) 8 (0xFF03000000 + 255 * 4096 + (31 * 64 + 56)) (bytesOf 8 (putBit 7 63 true)),
      .upDoorbell (.vf 1 255) 255 31 7, .vf 1 255, 255, 31, putBit 7 63 true, false, ⟨by decide, by decide, .inr (.inl ⟨7, rfl, by decide, rfl, rfl⟩)⟩,
      .inr ⟨by decide, 1, by decide, .inr ⟨rfl, by decide, rfl, by decide⟩⟩, by decide⟩,
    ⟨State.reset, (State.reset), .downDoorbell .caldera 255 0 7 false, .caldera, 255, 32, putBit 7 63 true, false,
      ⟨by decide, by decide, .inr (.inr ⟨7, rfl, by decide, rfl⟩)⟩, .inl ⟨rfl, .inl rfl⟩, by decide⟩,
    ⟨own 255 3, (own 255 3), .mailboxWrite .caldera 255 (3 * 64 + 56) (bytesOf 8 (0 : Word).toNat), .caldera, 255, 3, (0 : Word).toNat, false,
      ⟨by decide, by decide, .inl ⟨0, rfl, rfl, rfl⟩⟩, .inl ⟨rfl, .inl rfl⟩, by decide⟩,
    ⟨own 255 32, (own 255 32), .downDoorbell .caldera 255 0 7 false, .caldera, 255, 32, putBit 7 63 true, false,
      ⟨by decide, by decide, .inr (.inr ⟨7, rfl, by decide, rfl⟩)⟩, .inl ⟨rfl, .inl rfl⟩, by decide⟩,
    ⟨b255 [(F.BSN_STATEb.STATE, 255, 1)],
      (b255 [(F.BSN_STATEb.STATE, 255, 1)]).obs 1 (255 + 1 * 2 ^ 16) 8 (0xFF03000000 + 255 * 4096 + (31 * 64 + 56)) (bytesOf 8 (putBit 7 63 true)),
      .upDoorbell (.vf 1 255) 255 31 7, .vf 1 255, 255, 31, putBit 7 63 true, false, ⟨by decide, by decide, .inr (.inl ⟨7, rfl, by decide, rfl, rfl⟩)⟩,
      .inr ⟨by decide, 1, by decide, .inr ⟨rfl, by decide, rfl, by decide⟩⟩, by decide⟩,
    ⟨b255 [(F.BSN_STATEb.MODE, 255, 1)],
      (b255 [(F.BSN_STATEb.MODE, 255, 1)]).obs 1 (255 + 1 * 2 ^ 16) 8 (0xFF03000000 + 255 * 4096 + (31 * 64 + 56)) (bytesOf 8 (putBit 7 63 true)),
      .upDoorbell (.vf 1 255) 255 31 7, .vf 1 255, 255, 31, putBit 7 63 true, false, ⟨by decide, by decide, .inr (.inl ⟨7, rfl, by decide, rfl, rfl⟩)⟩,
      .inr ⟨by decide, 1, by decide, .inr ⟨rfl, by decide, rfl, by decide⟩⟩, by decide⟩,
    ⟨rep0, .mailboxWrite (.pf 1) 255 0 [1#8], .pf 1, 255, 0, 0, 0, [1#8], false, .inl ⟨rfl, by decide⟩, .inl ⟨by decide, .inl ⟨1, rfl⟩⟩⟩,
    ⟨State.reset, _, .mailboxWrite (.vf 1 3) 255 0 [1#8], 1, 3, 255, 0, 0, 0, [1#8], false, by decide, .inl ⟨rfl, by decide⟩, rfl, by decide⟩,
    ⟨rg255 [(F.BSN_RINGb.BASE, 255, 0x20000000000), (F.BSN_HMW_BASEb.BASE, 255, 0x800000000), (F.BSN_HMW_LIMITb.LIMIT, 255, 0x800000010)], 255, [], [],
      by decide⟩,
    ⟨rg255 [], _, 255, [], [], true, by decide, by decide, by decide, by decide, by decide, by decide, by decide, rfl⟩⟩

/-- The hypotheses of `Obligations.MailboxCommandsComplete`, clause by clause (part 2 of 2). -/
theorem meets_mailboxCommandsComplete_b :
    (∃ (s : State) (b : Nat) (line : List Byte) (es : List (List Byte)) (fault : Bool), (Instr.ringPoll b line es fault).wf = true
        ∧ (b = 0 ∨ s.flag F.BSN_STATEb.MODE b = false ∨ s.bst b ≠ 2 ∨ s.noHostRead = true ∨ s.elapsed (s.basin b).pollClk (s.fld F.BSN_RINGb.POLL b) = false)) ∧
    (∃ (s : State) (b : Nat) (v : BitVec 32), (Instr.modeWrite b v).wf = true
        ∧ (min (bits v.toNat 29 19) 1024 = s.fld F.BSN_STATEb.DSP_SHARE b ∨ s.building b = true)) ∧
    (∃ (s : State) (b : Nat) (v : BitVec 32), (Instr.modeWrite b v).wf = true ∧ min (bits v.toNat 29 19) 1024 ≠ s.fld F.BSN_STATEb.DSP_SHARE b
        ∧ s.building b = false) ∧
    (∃ (s : State) (b : Nat), (Instr.modeChange b).wf = true ∧ s.flag F.BSN_STATEb.MODE_PEND b = true ∧ (∀ i < 64, s.mbxOwn b i = false)) ∧
    (∃ (s : State) (b : Nat), (Instr.modeChange b).wf = true ∧ (s.flag F.BSN_STATEb.MODE_PEND b = false ∨ (∃ i < 64, s.mbxOwn b i = true))) ∧
    (∃ (s : State) (h : Nat) (v : BitVec 32), h < 64 ∧ v.toNat % 256 ≠ s.fld F.BSN_HC_OWNERh.BASIN h ∧ s.flag F.PKG_HC_CTRLh.HALTED h = true
        ∧ s.flag F.PKG_HC_PAIRp.EN (h / 2) = false ∧ s.building (s.fld F.BSN_HC_OWNERh.BASIN h) = true ∧ s.building (v.toNat % 256) = true) ∧
    (∃ (s : State) (h : Nat) (v : BitVec 32), h < 64 ∧ v.toNat % 256 ≠ s.fld F.BSN_HC_OWNERh.BASIN h
        ∧ (s.flag F.PKG_HC_CTRLh.HALTED h = false ∨ s.flag F.PKG_HC_PAIRp.EN (h / 2) = true ∨ s.building (s.fld F.BSN_HC_OWNERh.BASIN h) = false ∨ s.building (v.toNat % 256) = false)) ∧
    (∃ (s : State) (h : Nat) (v : BitVec 32), h < 64 ∧ v.toNat % 256 = s.fld F.BSN_HC_OWNERh.BASIN h) ∧
    (∃ (s : State) (h : Nat), h < 64 ∧ s.flag F.BSN_HC_OWNERh.SCRUB h = true) ∧
    (∃ (s : State) (h : Nat), h < 64 ∧ s.flag F.BSN_HC_OWNERh.SCRUB h = false) :=
  ⟨⟨st [(F.BSN_STATEb.STATE, 255, 2), (F.BSN_STATEb.PORT, 255, 1)], 1, [1#8, 2#8, 3#8, 4#8], [], true, by decide⟩,
    ⟨st [(F.BSN_STATEb.STATE, 255, 2), (F.BSN_STATEb.PORT, 255, 1)], 1, 0x10000, by decide⟩,
    ⟨st [(F.BSN_STATEb.STATE, 255, 2), (F.BSN_STATEb.PORT, 255, 1)], 1, BitVec.allOnes 32, by decide⟩,
    ⟨(st [(F.BSN_STATEb.STATE, 255, 2), (F.BSN_STATEb.PORT, 255, 1)]).setFld F.BSN_STATEb.MODE_PEND 1 1, 1, by decide⟩,
    ⟨st [(F.BSN_STATEb.STATE, 255, 2), (F.BSN_STATEb.PORT, 255, 1)], 1, by decide⟩,
    ⟨st [(F.BSN_STATEb.STATE, 7, 1), (F.PKG_HC_PAIRp.EN, 31, 0)], 63, 7, by decide⟩,
    ⟨st [(F.BSN_STATEb.STATE, 255, 2), (F.BSN_STATEb.PORT, 255, 1)], 63, 7, by decide⟩,
    ⟨st [(F.BSN_STATEb.STATE, 255, 2), (F.BSN_STATEb.PORT, 255, 1)], 63, 0x10000, by decide⟩,
    ⟨(st [(F.BSN_STATEb.STATE, 255, 2), (F.BSN_STATEb.PORT, 255, 1)]).setFld F.BSN_HC_OWNERh.SCRUB 63 1, 63, by decide⟩,
    ⟨st [(F.BSN_STATEb.STATE, 255, 2), (F.BSN_STATEb.PORT, 255, 1)], 63, by decide⟩⟩

/-- The hypotheses of `Obligations.DspArithmeticCompletes`, clause by clause. -/
theorem meets_dspArithmeticCompletes :
    (∃ (s u : State) (d w : Nat) (k : DTask) (c : DCore), DspIssues 0x00 s u d w k c) ∧
    (∃ (s u : State) (d w : Nat) (k : DTask) (c : DCore), DspIssues 0x20 s u d w k c) ∧
    (∃ (s u : State) (d w : Nat) (k : DTask) (c : DCore), DspIssues 0x21 s u d w k c) ∧
    (∃ (s u : State) (d w : Nat) (k : DTask) (c : DCore), DspIssues 0x22 s u d w k c) ∧
    (∃ (s u : State) (d w : Nat) (k : DTask) (c : DCore), DspIssues 0x23 s u d w k c) ∧
    (∃ (s u : State) (d w : Nat) (k : DTask) (c : DCore), DspIssues 0x40 s u d w k c) ∧
    (∃ (s u : State) (d w : Nat) (k : DTask) (c : DCore), DspIssues 0x41 s u d w k c) ∧
    (∃ (s u : State) (d w : Nat) (k : DTask) (c : DCore), DspIssues 0x42 s u d w k c) ∧
    (∃ (s u : State) (d w : Nat) (k : DTask) (c : DCore), DspIssues 0x60 s u d w k c) ∧
    (∃ (s u : State) (d w : Nat) (k : DTask) (c : DCore), DspIssues 0x61 s u d w k c) ∧
    (∃ (s u : State) (d w : Nat) (k : DTask) (c : DCore), DspIssues 0x62 s u d w k c) ∧
    (∃ (s u : State) (d w : Nat) (k : DTask) (c : DCore), DspIssues 0x63 s u d w k c) ∧
    (∃ (s u : State) (d w : Nat) (k : DTask) (c : DCore), DspIssues 0x64 s u d w k c) ∧
    (∃ (s u : State) (d w op : Nat) (k : DTask) (c : DCore) (i : Instr), (op, i) ∈ [(0x20, Instr.cmac d true), (0x21, .cmpy d true), (0x22, .rmac d true), (0x23, .cpow d true), (0x40, .xop d true), (0x41, .aop d true), (0x42, .cmp d true), (0x60, .mvr d true), (0x61, .mva d true), (0x62, .nrm d true), (0x63, .rcp d true), (0x64, .bcast d true)]
        ∧ DspIssues op s u d w k c) :=
  ⟨⟨ds dc (pw 0 0 0 0 0 0), _, 255, 0, _, _,
      ⟨⟨by decide, rfl, rfl, by decide, by decide, by decide, by decide, rfl⟩, by decide, by decide, by decide, by decide⟩⟩,
    ⟨ds dc (pw 0x20 7 1 2 3 0), _, 255, 2337688164488970240, _, _,
      ⟨⟨by decide, rfl, rfl, by decide, by decide, by decide, by decide, rfl⟩, by decide, by decide, by decide, by decide⟩⟩,
    ⟨ds dc (pw 0x21 7 1 2 1 0), _, 255, 2409743559503642624, _, _,
      ⟨⟨by decide, rfl, rfl, by decide, by decide, by decide, by decide, rfl⟩, by decide, by decide, by decide, by decide⟩⟩,
    ⟨ds dc (pw 0x22 7 1 2 2 0), _, 255, 2481802253053198336, _, _,
      ⟨⟨by decide, rfl, rfl, by decide, by decide, by decide, by decide, rfl⟩, by decide, by decide, by decide, by decide⟩⟩,
    ⟨ds dc (pw 0x23 7 1 0 4 0), _, 255, 2553826861742292992, _, _,
      ⟨⟨by decide, rfl, rfl, by decide, by decide, by decide, by decide, rfl⟩, by decide, by decide, by decide, by decide⟩⟩,
    ⟨ds dc (pw 0x40 15 1 2 12 3), _, 255, 4679569879211180032, _, _,
      ⟨⟨by decide, rfl, rfl, by decide, by decide, by decide, by decide, rfl⟩, by decide, by decide, by decide, by decide⟩⟩,
    ⟨ds dc (pw 0x41 7 1 2 2 32), _, 255, 4715587805667917824, _, _,
      ⟨⟨by decide, rfl, rfl, by decide, by decide, by decide, by decide, rfl⟩, by decide, by decide, by decide, by decide⟩⟩,
    ⟨ds dc (pw 0x42 0 15 14 0 0), _, 255, 4760269621758525440, _, _,
      ⟨⟨by decide, rfl, rfl, by decide, by decide, by decide, by decide, rfl⟩, by decide, by decide, by decide, by decide⟩⟩,
    ⟨ds dc (pw 0x60 15 7 0 0 255), _, 255, 6987054442105274368, _, _,
      ⟨⟨by decide, rfl, rfl, by decide, by decide, by decide, by decide, rfl⟩, by decide, by decide, by decide, by decide⟩⟩,
    ⟨ds dc (pw 0x61 7 15 0 0 32), _, 255, 7025334081160216576, _, _,
      ⟨⟨by decide, rfl, rfl, by decide, by decide, by decide, by decide, rfl⟩, by decide, by decide, by decide, by decide⟩⟩,
    ⟨ds dc (pw 0x62 15 7 0 0 0), _, 255, 7131168534964469760, _, _,
      ⟨⟨by decide, rfl, rfl, by decide, by decide, by decide, by decide, rfl⟩, by decide, by decide, by decide, by decide⟩⟩,
    ⟨ds dc (pw 0x63 15 14 0 0 0), _, 255, 7205196453839372288, _, _,
      ⟨⟨by decide, rfl, rfl, by decide, by decide, by decide, by decide, rfl⟩, by decide, by decide, by decide, by decide⟩⟩,
    ⟨ds dc (pw 0x64 15 14 0 1 3), _, 255, 7277255160273829888, _, _,
      ⟨⟨by decide, rfl, rfl, by decide, by decide, by decide, by decide, rfl⟩, by decide, by decide, by decide, by decide⟩⟩,
    ⟨ds dc (pw 0x20 7 1 2 3 0), _, 255, 2337688164488970240, 0x20, _, _, Instr.cmac 255 true, by decide,
      ⟨⟨by decide, rfl, rfl, by decide, by decide, by decide, by decide, rfl⟩, by decide, by decide, by decide, by decide⟩⟩⟩

/-- The hypotheses of `Obligations.DspControlCompletes`, clause by clause (part 1 of 3). -/
theorem meets_dspControlCompletes_a :
    (∃ (s u : State) (d w : Nat) (k : DTask) (c : DCore), DspIssues 0x01 s u d w k c) ∧
    (∃ (s u : State) (d w : Nat) (k : DTask) (c : DCore), DspIssues 0x02 s u d w k c ∧ c.cur.calls.length < 8 ∧ dImm w % 8192 < k.plen) ∧
    (∃ (s u : State) (d w : Nat) (k : DTask) (c : DCore), DspIssues 0x02 s u d w k c ∧ (8 ≤ c.cur.calls.length ∨ k.plen ≤ dImm w % 8192)) ∧
    (∃ (s u : State) (d w p : Nat) (l : List Nat) (k : DTask) (c : DCore), DspIssues 0x03 s u d w k c ∧ c.cur.calls = p :: l ∧ p < k.plen) ∧
    (∃ (s u : State) (d w : Nat) (k : DTask) (c : DCore) (p l : _), DspIssues 0x03 s u d w k c ∧ c.cur.calls = p :: l ∧ k.plen ≤ p) ∧
    (∃ (s u : State) (d w : Nat) (k : DTask) (c : DCore), DspIssues 0x04 s u d w k c) ∧
    (∃ (s u : State) (d w n : Nat) (k : DTask) (c : DCore), DspIssues 0x05 s u d w k c ∧ n = (if dRa w = 1 then c.cur.ir (dRb w) else dImm16 w)
        ∧ dImm w % 8192 < k.plen ∧ (n = 0 ∨ c.cur.loops.length < 4)) ∧
    (∃ (s u : State) (d w n : Nat) (k : DTask) (c : DCore), DspIssues 0x05 s u d w k c ∧ n = (if dRa w = 1 then c.cur.ir (dRb w) else dImm16 w)
        ∧ (k.plen ≤ dImm w % 8192 ∨ (n ≠ 0 ∧ 4 ≤ c.cur.loops.length))) ∧
    (∃ (s u : State) (d w : Nat) (k : DTask) (c : DCore), DspIssues 0x06 s u d w k c) ∧
    (∃ (s u : State) (d w : Nat) (k : DTask) (c : DCore), DspIssues 0x07 s u d w k c) ∧
    (∃ (s : State) (d v : Nat), d < 256 ∧ (s.dsp d).blk = .tick v ∧ v ≤ s.fld F.TMB_NOW.NS ∧ s.dspRuns d = true) ∧
    (∃ (s : State) (d v : Nat), d < 256 ∧ (s.dsp d).blk = .tick v ∧ (s.fld F.TMB_NOW.NS < v ∨ s.dspRuns d = false)) ∧
    (∃ (s : State) (d : Nat), d < 256 ∧ (∀ v, (s.dsp d).blk ≠ .tick v)) ∧
    (∃ (s u : State) (d w : Nat) (k : DTask) (c : DCore), DspIssues 0x80 s u d w k c) :=
  ⟨⟨ds dc (cw 1 0 0 0 7), _, 255, 72057594037927943, _, _,
      ⟨⟨by decide, rfl, rfl, by decide, by decide, by decide, by decide, rfl⟩, by decide, by decide, by decide, by decide⟩⟩,
    ⟨ds dc (cw 2 0 0 0 7), _, 255, 144115188075855879, _, _,
      ⟨⟨by decide, rfl, rfl, by decide, by decide, by decide, by decide, rfl⟩, by decide, by decide, by decide, by decide⟩, by decide⟩,
    ⟨ds { dc with main := { calls := [1, 2, 3, 4, 5, 6, 7, 8] } } (cw 2 0 0 0 7), _, 255, 144115188075855879, _, _,
      ⟨⟨by decide, rfl, rfl, by decide, by decide, by decide, by decide, rfl⟩, by decide, by decide, by decide, by decide⟩, by decide⟩,
    ⟨ds { dc with main := { calls := [7] } } (cw 3 0 0 0 0), _, 255, 216172782113783808, 7, [], _, _,
      ⟨⟨by decide, rfl, rfl, by decide, by decide, by decide, by decide, rfl⟩, by decide, by decide, by decide, by decide⟩, by decide⟩,
    ⟨ds { dc with main := { calls := [8] } } (cw 3 0 0 0 0), _, 255, 216172782113783808, _, _, 8, [],
      ⟨⟨by decide, rfl, rfl, by decide, by decide, by decide, by decide, rfl⟩, by decide, by decide, by decide, by decide⟩, by decide⟩,
    ⟨ds dc (cw 4 6 0 0 7), _, 255, 315251973915934727, _, _,
      ⟨⟨by decide, rfl, rfl, by decide, by decide, by decide, by decide, rfl⟩, by decide, by decide, by decide, by decide⟩⟩,
    ⟨ds dc (cw 5 0 0 3 7), _, 255, 360287983074541575, 3, _, _,
      ⟨⟨by decide, rfl, rfl, by decide, by decide, by decide, by decide, rfl⟩, by decide, by decide, by decide, by decide⟩, by decide⟩,
    ⟨ds dc (cw 5 0 0 3 8), _, 255, 360287983074541576, 3, _, _,
      ⟨⟨by decide, rfl, rfl, by decide, by decide, by decide, by decide, rfl⟩, by decide, by decide, by decide, by decide⟩, by decide⟩,
    ⟨ds dc (cw 6 0 0 0 0), _, 255, 432345564227567616, _, _,
      ⟨⟨by decide, rfl, rfl, by decide, by decide, by decide, by decide, rfl⟩, by decide, by decide, by decide, by decide⟩⟩,
    ⟨ds dc (cw 7 0 0 0 9), _, 255, 504403158265495561, _, _,
      ⟨⟨by decide, rfl, rfl, by decide, by decide, by decide, by decide, rfl⟩, by decide, by decide, by decide, by decide⟩⟩,
    ⟨State.reset.setDsp 255 { dc with blk := .tick 0 }, 255, 0, by decide⟩,
    ⟨State.reset.setDsp 255 { dc with blk := .tick 1 }, 255, 1, by decide⟩,
    ⟨ds dc (cw 1 0 0 0 7), 255, by decide, (by intro v h; exact absurd (h.symm.trans (show _ = DBlk.none from rfl)) (by simp))⟩,
    ⟨ds dc (cw 0x80 15 0 0 0xFFFFFFFF), _, 255, 9290926035560300543, _, _,
      ⟨⟨by decide, rfl, rfl, by decide, by decide, by decide, by decide, rfl⟩, by decide, by decide, by decide, by decide⟩⟩⟩

/-- The hypotheses of `Obligations.DspControlCompletes`, clause by clause (part 2 of 3). -/
theorem meets_dspControlCompletes_b :
    (∃ (s u : State) (d w : Nat) (k : DTask) (c : DCore), DspIssues 0x81 s u d w k c) ∧
    (∃ (s u : State) (d w : Nat) (k : DTask) (c : DCore), DspIssues 0x82 s u d w k c) ∧
    (∃ (s u v : State) (d w a ch desc : Nat) (k : DTask) (c : DCore), DspIssues 0xA0 s u d w k c ∧ a = dspWord d 1 (c.cur.ir (dRa w)) ∧ ch = dImm16 w % 4
        ∧ v = u.meet a 32 ∧ desc = v.readNat a 32 ∧ SMap.get none c.dma ch ≠ none) ∧
    (∃ (s u v : State) (d w a ch desc : Nat) (k : DTask) (c : DCore), DspIssues 0xA0 s u d w k c ∧ a = dspWord d 1 (c.cur.ir (dRa w)) ∧ ch = dImm16 w % 4
        ∧ v = u.meet a 32 ∧ desc = v.readNat a 32 ∧ SMap.get none c.dma ch = none ∧ v.linePoison (a / 64) = true) ∧
    (∃ (s u v : State) (d w a ch desc : Nat) (k : DTask) (c : DCore), DspIssues 0xA0 s u d w k c ∧ a = dspWord d 1 (c.cur.ir (dRa w)) ∧ ch = dImm16 w % 4
        ∧ v = u.meet a 32 ∧ desc = v.readNat a 32 ∧ SMap.get none c.dma ch = none ∧ v.linePoison (a / 64) = false ∧ ¬(sdOk desc (sdKind desc) = true
        ∧ sdKind desc < 2 ∧ (sdFmt desc = 9 ∨ sdFmt desc = 12 ∨ sdFmt desc = 15))) ∧
    (∃ (s u v : State) (d w a ch desc : Nat) (k : DTask) (c : DCore), DspIssues 0xA0 s u d w k c ∧ a = dspWord d 1 (c.cur.ir (dRa w)) ∧ ch = dImm16 w % 4
        ∧ v = u.meet a 32 ∧ desc = v.readNat a 32 ∧ SMap.get none c.dma ch = none ∧ v.linePoison (a / 64) = false ∧ sdOk desc (sdKind desc) = true
        ∧ sdKind desc < 2 ∧ (sdFmt desc = 9 ∨ sdFmt desc = 12 ∨ sdFmt desc = 15) ∧ 4096 < c.cur.ir (dRb w) + dmaWords desc) ∧
    (∃ (s u v : State) (d w a ch desc : Nat) (k : DTask) (c : DCore) (p : _), DspIssues 0xA0 s u d w k c ∧ a = dspWord d 1 (c.cur.ir (dRa w))
        ∧ ch = dImm16 w % 4 ∧ v = u.meet a 32 ∧ desc = v.readNat a 32 ∧ SMap.get none c.dma ch = none ∧ v.linePoison (a / 64) = false
        ∧ sdOk desc (sdKind desc) = true ∧ sdKind desc < 2 ∧ (sdFmt desc = 9 ∨ sdFmt desc = 12 ∨ sdFmt desc = 15) ∧ c.cur.ir (dRb w) + dmaWords desc ≤ 4096
        ∧ (sdRuns desc).findSome? (fun r => v.badAddr (v.taskWho d k) (sdKind desc == 1) r (sdLen0 desc)) = some p) ∧
    (∃ (s u v : State) (d w a ch desc : Nat) (k : DTask) (c : DCore), DspIssues 0xA0 s u d w k c ∧ a = dspWord d 1 (c.cur.ir (dRa w)) ∧ ch = dImm16 w % 4
        ∧ v = u.meet a 32 ∧ desc = v.readNat a 32 ∧ SMap.get none c.dma ch = none ∧ v.linePoison (a / 64) = false ∧ sdOk desc (sdKind desc) = true
        ∧ sdKind desc < 2 ∧ (sdFmt desc = 9 ∨ sdFmt desc = 12 ∨ sdFmt desc = 15) ∧ c.cur.ir (dRb w) + dmaWords desc ≤ 4096
        ∧ (sdRuns desc).findSome? (fun r => v.badAddr (v.taskWho d k) (sdKind desc == 1) r (sdLen0 desc)) = none) ∧
    (∃ (s u : State) (d w : Nat) (k : DTask) (c : DCore), DspIssues 0xA1 s u d w k c) ∧
    (∃ (s u v : State) (d w a e : Nat) (k : DTask) (c : DCore), DspIssues 0xA2 s u d w k c ∧ a = dspWord d 1 (c.cur.ir (dRa w))
        ∧ e = d / 64 * 18 + bits (dImm16 w) 4 0 ∧ v = u.meet a 32 ∧ v.linePoison (a / 64) = true) ∧
    (∃ (s u v : State) (d w a e : Nat) (k : DTask) (c : DCore), DspIssues 0xA2 s u d w k c ∧ a = dspWord d 1 (c.cur.ir (dRa w))
        ∧ e = d / 64 * 18 + bits (dImm16 w) 4 0 ∧ v = u.meet a 32 ∧ v.linePoison (a / 64) = false ∧ 64 ≤ (v.engine e).length) ∧
    (∃ (s u v : State) (d w a e : Nat) (k : DTask) (c : DCore), DspIssues 0xA2 s u d w k c ∧ a = dspWord d 1 (c.cur.ir (dRa w))
        ∧ e = d / 64 * 18 + bits (dImm16 w) 4 0 ∧ v = u.meet a 32 ∧ v.linePoison (a / 64) = false ∧ (v.engine e).length < 64) ∧
    (∃ (s u : State) (d w : Nat) (k : DTask) (c : DCore), DspIssues 0xA3 s u d w k c ∧ dImm w % 32 < 24 ∧ u.semOwner (dImm w % 32) (dImm16 w % 4096) = 0) ∧
    (∃ (s u : State) (d w : Nat) (k : DTask) (c : DCore), DspIssues 0xA3 s u d w k c
        ∧ (24 ≤ dImm w % 32 ∨ u.semOwner (dImm w % 32) (dImm16 w % 4096) ≠ 0)) :=
  ⟨⟨ds dc (cw 0x81 7 0 0 0xFFFFFFFF), _, 255, 9326954832579264511, _, _,
      ⟨⟨by decide, rfl, rfl, by decide, by decide, by decide, by decide, rfl⟩, by decide, by decide, by decide, by decide⟩⟩,
    ⟨ds dc (cw 0x82 7 15 2 0), _, 255, 9403234555562819584, _, _,
      ⟨⟨by decide, rfl, rfl, by decide, by decide, by decide, by decide, rfl⟩, by decide, by decide, by decide, by decide⟩⟩,
    ⟨ds { dc with dma := [(3, some ⟨0, 0, false⟩)] } (cw 0xA0 1 2 7 0), _, _, 255, 11534281625714032640, 558479572992, 3, 0, _, _,
      ⟨⟨by decide, rfl, rfl, by decide, by decide, by decide, by decide, rfl⟩, by decide, by decide, by decide, by decide⟩, by decide, by decide, rfl,
      by decide⟩,
    ⟨{ dma0 with poison := [(dspWord 255 1 0 / 64, 7)] }, _, _, 255, 11534281625714032640, 558479572992, 3, 20282428947645379256985229197312, _, _,
      ⟨⟨by decide, rfl, rfl, by decide, by decide, by decide, by decide, rfl⟩, by decide, by decide, by decide, by decide⟩, by decide, by decide, rfl,
      by decide⟩,
    ⟨ds dc (cw 0xA0 1 2 7 0), _, _, 255, 11534281625714032640, 558479572992, 3, 0, _, _,
      ⟨⟨by decide, rfl, rfl, by decide, by decide, by decide, by decide, rfl⟩, by decide, by decide, by decide, by decide⟩, by decide, by decide, rfl,
      by decide⟩,
    ⟨dma1 (sd1 0x8100000000 0 0x40000 + 12 * 2 ^ 48), _, _, 255, 11534281625714032640, 558479572992, 3, 20282433782168066094784516718592, _, _,
      ⟨⟨by decide, rfl, rfl, by decide, by decide, by decide, by decide, rfl⟩, by decide, by decide, by decide, by decide⟩, by decide, by decide, rfl,
      by decide⟩,
    ⟨dma1 (sd1 0x4800000000 0 64 + 12 * 2 ^ 48), _, _, 255, 11534281625714032640, 558479572992, 3, 20282428947645379256740416061440, _, _, _,
      ⟨⟨by decide, rfl, rfl, by decide, by decide, by decide, by decide, rfl⟩, by decide, by decide, by decide, by decide⟩, by decide, by decide, rfl,
      by decide, by decide, by decide, by decide, by decide, by decide, by decide, rfl⟩,
    ⟨dma0, _, _, 255, 11534281625714032640, 558479572992, 3, 20282428947645379256985229197312, _, _,
      ⟨⟨by decide, rfl, rfl, by decide, by decide, by decide, by decide, rfl⟩, by decide, by decide, by decide, by decide⟩, by decide, by decide, rfl,
      by decide⟩,
    ⟨ds { dc with dma := [(3, some ⟨0, 0, false⟩)] } (cw 0xA1 0 0 8 0), _, 255, 11601272674466136064, _, _,
      ⟨⟨by decide, rfl, rfl, by decide, by decide, by decide, by decide, rfl⟩, by decide, by decide, by decide, by decide⟩⟩,
    ⟨{ ds dc (cw 0xA2 1 0 17 0) with poison := [(dspWord 255 1 0 / 64, 7)] }, _, _, 255, 11677833906786140160, 558479572992, 71, _, _,
      ⟨⟨by decide, rfl, rfl, by decide, by decide, by decide, by decide, rfl⟩, by decide, by decide, by decide, by decide⟩, by decide, by decide, rfl,
      by decide⟩,
    ⟨(ds dc (cw 0xA2 1 0 17 0)).setEngine 71 (List.replicate 64 ⟨0, 255, 0, none, none⟩), _, _, 255, 11677833906786140160, 558479572992, 71, _, _,
      ⟨⟨by decide, rfl, rfl, by decide, by decide, by decide, by decide, rfl⟩, by decide, by decide, by decide, by decide⟩, by decide, by decide, rfl,
      by decide⟩,
    ⟨ds dc (cw 0xA2 1 0 17 0), _, _, 255, 11677833906786140160, 558479572992, 71, _, _,
      ⟨⟨by decide, rfl, rfl, by decide, by decide, by decide, by decide, rfl⟩, by decide, by decide, by decide, by decide⟩, by decide, by decide, rfl,
      by decide⟩,
    ⟨ds dc (cw 0xA3 0 0 255 0xFF17), _, 255, 11745388923398979351, _, _,
      ⟨⟨by decide, rfl, rfl, by decide, by decide, by decide, by decide, rfl⟩, by decide, by decide, by decide, by decide⟩, by decide⟩,
    ⟨ds dc (cw 0xA3 0 0 255 24), _, 255, 11745388923398914072, _, _,
      ⟨⟨by decide, rfl, rfl, by decide, by decide, by decide, by decide, rfl⟩, by decide, by decide, by decide, by decide⟩, by decide⟩⟩

/-- The hypotheses of `Obligations.DspControlCompletes`, clause by clause (part 3 of 3). -/
theorem meets_dspControlCompletes_c :
    (∃ (s u : State) (d w : Nat) (k : DTask) (c : DCore), DspIssues 0xC1 s u d w k c) ∧
    (∃ (s u : State) (d w : Nat) (k : DTask) (c : DCore), DspIssues 0xC2 s u d w k c) ∧
    (∃ (s u : State) (d w : Nat) (k : DTask) (c : DCore) (p : Push) (l : List Push), DspIssues 0xC0 s u d w k c ∧ c.stack = p :: l ∧ u.irq d p.level = 0) ∧
    (∃ (s u : State) (d w : Nat) (k : DTask) (c : DCore) (p : Push) (l : List Push), DspIssues 0xC0 s u d w k c ∧ c.stack = p :: l ∧ u.irq d p.level ≠ 0) ∧
    (∃ (s u : State) (d w : Nat) (k : DTask) (c : DCore), DspIssues 0xC0 s u d w k c ∧ c.stack = []) ∧
    (∃ (s : State) (d : Nat), d < 256 ∧ (s.dsp d).phase = 2 ∧ s.dspRuns d = true ∧ s.irq d (s.dsp d).level ≠ 0) ∧
    (∃ (s : State) (d : Nat), d < 256 ∧ ((s.dsp d).phase ≠ 2 ∨ s.dspRuns d = false ∨ s.irq d (s.dsp d).level = 0)) ∧
    (∃ (s u : State) (i : Instr) (d w op a : Nat) (k : DTask) (c : DCore), dspRow i = some (d, op) ∧ DspNext s u d k c
        ∧ a = dspBase d + 0x40000 + 8 * c.pc ∧ w = u.readNat a 8 ∧ u.linePoison (a / 64) = true) ∧
    (∃ (s u : State) (i : Instr) (d w op a : Nat) (k : DTask) (c : DCore), dspRow i = some (d, op) ∧ DspNext s u d k c
        ∧ a = dspBase d + 0x40000 + 8 * c.pc ∧ w = u.readNat a 8 ∧ u.linePoison (a / 64) = false ∧ dLegal w (k.q % 8 != 0) = false) ∧
    (∃ (s u : State) (i : Instr) (d w op a : Nat) (k : DTask) (c : DCore), dspRow i = some (d, op) ∧ DspNext s u d k c
        ∧ a = dspBase d + 0x40000 + 8 * c.pc ∧ w = u.readNat a 8 ∧ u.linePoison (a / 64) = false ∧ dLegal w (k.q % 8 != 0) = true ∧ dOp w ≠ op) ∧
    (∃ (s : State) (i : Instr) (d op : Nat) (k : DTask), dspRow i = some (d, op) ∧ d < 256 ∧ (s.dsp d).task = some k ∧ s.dspRuns d = true
        ∧ (s.dsp d).phase = 2 ∧ (s.dsp d).blk = .none ∧ k.plen ≤ (s.dsp d).pc) ∧
    (∃ (s : State) (i : Instr) (d op : Nat), dspRow i = some (d, op) ∧ d < 256
        ∧ ((s.dsp d).task = none ∨ s.dspRuns d = false ∨ (s.dsp d).phase ≠ 2 ∨ (s.dsp d).blk ≠ .none)) :=
  ⟨⟨ds dc (cw 0xC1 0 0 4 0), _, 255, 13907115666499960832, _, _,
      ⟨⟨by decide, rfl, rfl, by decide, by decide, by decide, by decide, rfl⟩, by decide, by decide, by decide, by decide⟩⟩,
    ⟨ds dc (cw 0xC2 0 0 255 0), _, 255, 13979174338574680064, _, _,
      ⟨⟨by decide, rfl, rfl, by decide, by decide, by decide, by decide, rfl⟩, by decide, by decide, by decide, by decide⟩⟩,
    ⟨ds { dc with stack := [⟨5, (true, false, true, false, true), 0⟩], inShadow := true, level := 3 } (cw 0xC0 0 0 0 0), _, 255, 13835058055282163712, _,
      _, ⟨5, (true, false, true, false, true), 0⟩, [],
      ⟨⟨by decide, rfl, rfl, by decide, by decide, by decide, by decide, rfl⟩, by decide, by decide, by decide, by decide⟩, by decide⟩,
    ⟨bell 4 (ds { dc with stack := [push5 0], inShadow := true, level := 3 } (cw 0xC0 0 0 0 0)), _, 255, 13835058055282163712, _, _,
      ⟨5, (true, false, true, false, true), 0⟩, [],
      ⟨⟨by decide, rfl, rfl, by decide, by decide, by decide, by decide, rfl⟩, by decide, by decide, by decide, by decide⟩, by decide⟩,
    ⟨ds dc (cw 0xC0 0 0 0 0), _, 255, 13835058055282163712, _, _,
      ⟨⟨by decide, rfl, rfl, by decide, by decide, by decide, by decide, rfl⟩, by decide, by decide, by decide, by decide⟩, by decide⟩,
    ⟨(ds dc 0).setFld F.RDP_CORE_STATUS.PEND 255 128 |>.setFld ⟨.RDP_CORE_IRQ, 23, 21⟩ 255 4, 255, by decide⟩,
    ⟨ds dc (cw 1 0 0 0 7), 255, by decide⟩,
    ⟨dsP, _, .rti 255, 255, 0, 0xC0, 558479704064, _, _, rfl, ⟨by decide, rfl, rfl, by decide, by decide, by decide, by decide, rfl⟩, by decide⟩,
    ⟨ds dc (cw 0x08 0 0 0 0), _, .rti 255, 255, 576460752303423488, 0xC0, 558479704064, _, _, rfl,
      ⟨by decide, rfl, rfl, by decide, by decide, by decide, by decide, rfl⟩, by decide⟩,
    ⟨ds dc 0, _, .rti 255, 255, 0, 0xC0, 558479704064, _, _, rfl, ⟨by decide, rfl, rfl, by decide, by decide, by decide, by decide, rfl⟩, by decide⟩,
    ⟨State.reset.setDsp 255 { dc with pc := 8 }, .rti 255, 255, 0xC0, _, rfl, by decide, rfl, by decide⟩,
    ⟨State.reset, .rti 255, 255, 0xC0, rfl, by decide⟩⟩

/-- The hypotheses of `Obligations.DspTasksComplete`, clause by clause (part 1 of 2). -/
theorem meets_dspTasksComplete_a :
    (∃ (s : State) (k q p d : Nat) (r : DTask), k < 16 ∧ q < 8 ∧ p < 16 ∧ s.posCore k p = some d ∧ (s.dsp d).task = none
        ∧ s.flag F.RDP_CORE_STATUS.LANE d = (q == 0) ∧ s.taskStall k q = 0 ∧ (q = 0 ∨ s.taskChoice k = some q) ∧ s.headTask k q = some (true, r)) ∧
    (∃ (s : State) (k q p d ix a : Nat) (r0 : DTask) (w : Who) (x : _), k < 16 ∧ q < 8 ∧ p < 16 ∧ s.posCore k p = some d ∧ (s.dsp d).task = none
        ∧ s.flag F.RDP_CORE_STATUS.LANE d = (q == 0) ∧ s.taskStall k q = 0 ∧ (q = 0 ∨ s.taskChoice k = some q) ∧ s.headTask k q = some (false, r0)
        ∧ ix = 192 + 8 * k + q ∧ a = s.entryAddr ix (s.fld F.MXC_Qq_STATUS.HEAD ix)
        ∧ w = { basin := s.queueBasin ix, die := 24 + k / 4, src := unitSrc (.block (24 + k / 4) (k % 4)) } ∧ s.badAddr w false a 64 = some x) ∧
    (∃ (s : State) (k q p d ix a : Nat) (r0 : DTask) (w : Who) (v x : State) (r : DTask) (pois : Bool), k < 16 ∧ q < 8 ∧ p < 16 ∧ s.posCore k p = some d
        ∧ (s.dsp d).task = none ∧ s.flag F.RDP_CORE_STATUS.LANE d = (q == 0) ∧ s.taskStall k q = 0 ∧ (q = 0 ∨ s.taskChoice k = some q)
        ∧ s.headTask k q = some (false, r0) ∧ ix = 192 + 8 * k + q ∧ a = s.entryAddr ix (s.fld F.MXC_Qq_STATUS.HEAD ix)
        ∧ w = { basin := s.queueBasin ix, die := 24 + k / 4, src := unitSrc (.block (24 + k / 4) (k % 4)) } ∧ s.badAddr w false a 64 = none ∧ v = s.meet a 64
        ∧ r = taskOf (v.readNat a 64) ix ∧ pois = v.rangePoison a 64 ∧ x = v.headNext ix ∧ r.gen ≠ x.gen (s.queueBasin ix)) ∧
    (∃ (s : State) (k q p d ix a : Nat) (r0 : DTask) (w : Who) (v x : State) (r : DTask) (pois : Bool), k < 16 ∧ q < 8 ∧ p < 16 ∧ s.posCore k p = some d
        ∧ (s.dsp d).task = none ∧ s.flag F.RDP_CORE_STATUS.LANE d = (q == 0) ∧ s.taskStall k q = 0 ∧ (q = 0 ∨ s.taskChoice k = some q)
        ∧ s.headTask k q = some (false, r0) ∧ ix = 192 + 8 * k + q ∧ a = s.entryAddr ix (s.fld F.MXC_Qq_STATUS.HEAD ix)
        ∧ w = { basin := s.queueBasin ix, die := 24 + k / 4, src := unitSrc (.block (24 + k / 4) (k % 4)) } ∧ s.badAddr w false a 64 = none ∧ v = s.meet a 64
        ∧ r = taskOf (v.readNat a 64) ix ∧ pois = v.rangePoison a 64 ∧ x = v.headNext ix ∧ r.gen = x.gen (s.queueBasin ix) ∧ x.taskDup k r = true) ∧
    (∃ (s : State) (k q p d ix a : Nat) (r0 : DTask) (w : Who) (v x : State) (r : DTask) (pois : Bool), k < 16 ∧ q < 8 ∧ p < 16 ∧ s.posCore k p = some d
        ∧ (s.dsp d).task = none ∧ s.flag F.RDP_CORE_STATUS.LANE d = (q == 0) ∧ s.taskStall k q = 0 ∧ (q = 0 ∨ s.taskChoice k = some q)
        ∧ s.headTask k q = some (false, r0) ∧ ix = 192 + 8 * k + q ∧ a = s.entryAddr ix (s.fld F.MXC_Qq_STATUS.HEAD ix)
        ∧ w = { basin := s.queueBasin ix, die := 24 + k / 4, src := unitSrc (.block (24 + k / 4) (k % 4)) } ∧ s.badAddr w false a 64 = none ∧ v = s.meet a 64
        ∧ r = taskOf (v.readNat a 64) ix ∧ pois = v.rangePoison a 64 ∧ x = v.headNext ix ∧ r.gen = x.gen (s.queueBasin ix) ∧ x.taskDup k r = false
        ∧ pois = true) ∧
    (∃ (s : State) (k q p d ix a : Nat) (r0 : DTask) (w : Who) (v x : State) (r : DTask) (pois : Bool), k < 16 ∧ q < 8 ∧ p < 16 ∧ s.posCore k p = some d
        ∧ (s.dsp d).task = none ∧ s.flag F.RDP_CORE_STATUS.LANE d = (q == 0) ∧ s.taskStall k q = 0 ∧ (q = 0 ∨ s.taskChoice k = some q)
        ∧ s.headTask k q = some (false, r0) ∧ ix = 192 + 8 * k + q ∧ a = s.entryAddr ix (s.fld F.MXC_Qq_STATUS.HEAD ix)
        ∧ w = { basin := s.queueBasin ix, die := 24 + k / 4, src := unitSrc (.block (24 + k / 4) (k % 4)) } ∧ s.badAddr w false a 64 = none ∧ v = s.meet a 64
        ∧ r = taskOf (v.readNat a 64) ix ∧ pois = v.rangePoison a 64 ∧ x = v.headNext ix ∧ r.gen = x.gen (s.queueBasin ix) ∧ x.taskDup k r = false
        ∧ pois = false) ∧
    (∃ (s : State) (k q p : Nat), k < 16 ∧ q < 8 ∧ p < 16
        ∧ (∀ d, s.posCore k p = some d → (s.dsp d).task ≠ none ∨ s.flag F.RDP_CORE_STATUS.LANE d ≠ (q == 0) ∨ s.taskStall k q ≠ 0 ∨ (q ≠ 0
        ∧ s.taskChoice k ≠ some q) ∨ s.headTask k q = none)) ∧
    (∃ (s : State) (d : Nat) (k : DTask) (parts : List (Nat × Nat × Nat)) (a : _), d < 256 ∧ (s.dsp d).task = some k ∧ (s.dsp d).phase = 1
        ∧ s.dspRuns d = true
        ∧ parts = [(k.prog, k.plen * 8, dspBase d + 0x40000), (k.src, k.inx * 32, dspWord d 0 0), (k.src + 32 * k.inx, k.iny * 32, dspWord d 1 0)].filter (fun x => x.2.1 != 0)
        ∧ (parts.findSome? fun x => s.badAddr (s.taskWho d k) false x.1 x.2.1) = some a) ∧
    (∃ (s : State) (d : Nat) (k : DTask) (parts : List (Nat × Nat × Nat)) (u : State), d < 256 ∧ (s.dsp d).task = some k ∧ (s.dsp d).phase = 1
        ∧ s.dspRuns d = true
        ∧ parts = [(k.prog, k.plen * 8, dspBase d + 0x40000), (k.src, k.inx * 32, dspWord d 0 0), (k.src + 32 * k.inx, k.iny * 32, dspWord d 1 0)].filter (fun x => x.2.1 != 0)
        ∧ (∀ x ∈ parts, s.badAddr (s.taskWho d k) false x.1 x.2.1 = none) ∧ u = s.meetAll (parts.map fun x => (x.1, x.2.1))
        ∧ (∃ x ∈ parts, u.rangePoison x.1 x.2.1 = true)) ∧
    (∃ (s : State) (d : Nat) (k : DTask) (parts : List (Nat × Nat × Nat)) (u : State), d < 256 ∧ (s.dsp d).task = some k ∧ (s.dsp d).phase = 1
        ∧ s.dspRuns d = true
        ∧ parts = [(k.prog, k.plen * 8, dspBase d + 0x40000), (k.src, k.inx * 32, dspWord d 0 0), (k.src + 32 * k.inx, k.iny * 32, dspWord d 1 0)].filter (fun x => x.2.1 != 0)
        ∧ (∀ x ∈ parts, s.badAddr (s.taskWho d k) false x.1 x.2.1 = none) ∧ u = s.meetAll (parts.map fun x => (x.1, x.2.1))
        ∧ (∀ x ∈ parts, u.rangePoison x.1 x.2.1 = false)) ∧
    (∃ (s : State) (d : Nat), d < 256 ∧ ((s.dsp d).task = none ∨ (s.dsp d).phase ≠ 1 ∨ s.dspRuns d = false)) ∧
    (∃ (s : State) (d n cyc : Nat) (k : DTask) (c : DCore) (a : _), d < 256 ∧ s.dsp d = c ∧ c.task = some k ∧ c.phase = 3
        ∧ s.dieDown (24 + d / 64) = false ∧ n = (k.outx + k.outy) * 32 ∧ cyc = dspCycles c.t0 c.t1 ∧ n ≠ 0 ∧ s.badAddr (s.taskWho d k) true k.dst n = some a) ∧
    (∃ (s : State) (d n cyc : Nat) (k : DTask) (c : DCore) (u : State) (data : List (Byte × Bool)), d < 256 ∧ s.dsp d = c ∧ c.task = some k ∧ c.phase = 3
        ∧ s.dieDown (24 + d / 64) = false ∧ n = (k.outx + k.outy) * 32 ∧ cyc = dspCycles c.t0 c.t1 ∧ (n = 0 ∨ s.badAddr (s.taskWho d k) true k.dst n = none)
        ∧ u = (s.meet (dspWord d 0 0) (k.outx * 32)).meet (dspWord d 1 0) (k.outy * 32)
        ∧ data = ((List.range (k.outx * 32)).map fun i => (u.rd (dspWord d 0 0 + i), u.linePoison ((dspWord d 0 0 + i) / 64))) ++ ((List.range (k.outy * 32)).map fun i => (u.rd (dspWord d 1 0 + i), u.linePoison ((dspWord d 1 0 + i) / 64)))) ∧
    (∃ (s : State) (d : Nat), d < 256 ∧ s.mmio = [] ∧ ((s.dsp d).task = none ∨ (s.dsp d).phase ≠ 3 ∨ s.dieDown (24 + d / 64) = true)) :=
  ⟨⟨tq0.modCluster 15 (fun m => { m with rerun := [{ q := 313, tag := 3 }] }), 15, 1, 14, 254, _, by decide, by decide, by decide, by decide, by decide,
      by decide, by decide, by decide, rfl⟩,
    ⟨tq1.setFld F.MXC_Qq_RING.BASE 313 0x4800000000, 15, 1, 0, 240, 313, 309237645312, taskOf 0 313, _, 309237645312, by decide, by decide, by decide,
      by decide, by decide, by decide, by decide, .inr (by decide), by decide, by decide, by decide, rfl, by decide⟩,
    ⟨tq1.write 0x8106000000 (bytesOf 8 (2 ^ 16)), 15, 1, 0, 240, 313, 554151444480, taskOf (2 ^ 16) 313, _, _, _, _, false, by decide, by decide,
      by decide, by decide, by decide, by decide, by decide, by decide, by decide, by decide, by decide, rfl, by decide, rfl, rfl, by decide, rfl,
      by decide⟩,
    ⟨tq1.setDsp 250 { task := some { q := 313 } }, 15, 1, 0, 240, 313, 554151444480, taskOf 0 313, _, _, _, _, false, by decide, by decide, by decide,
      by decide, by decide, by decide, by decide, by decide, by decide, by decide, by decide, rfl, by decide, rfl, rfl, by decide, rfl, by decide⟩,
    ⟨{ tq1 with poison := [(0x8106000000 / 64, 7)] }, 15, 1, 0, 240, 313, 554151444480, taskOf 0 313, _, _, _, _, true, by decide, by decide, by decide,
      by decide, by decide, by decide, by decide, by decide, by decide, by decide, by decide, rfl, by decide, rfl, rfl, by decide, rfl, by decide⟩,
    ⟨tq1, 15, 1, 14, 254, 313, 554151444480, taskOf 0 313, _, _, _, _, false, by decide, by decide, by decide, by decide, by decide, by decide, by decide,
      by decide, by decide, by decide, by decide, rfl, by decide, rfl, rfl, by decide, rfl, by decide⟩,
    ⟨tq0.modCluster 15 (fun m => { m with rerun := [{ q := 313, tag := 3 }] }), 15, 7, 15, by decide⟩,
    ⟨State.reset.setDsp 255 { task := some { plen := 4, prog := 0x4800000000 }, phase := 1 }, 255, _, _, 309237645312, by decide, rfl, by decide,
      by decide, rfl, by decide⟩,
    ⟨{ State.reset.setDsp 255 { task := some { plen := 4, prog := 0x8100000000 }, phase := 1 } with poison := [(0x8100000000 / 64, 7)] }, 255, _, _, _,
      by decide, rfl, by decide, by decide, rfl, by decide, rfl, by decide⟩,
    ⟨State.reset.setDsp 255 { task := some { plen := 4, prog := 0x8100000000 }, phase := 1 }, 255, _, _, _, by decide, rfl, by decide, by decide, rfl,
      by decide, rfl, by decide⟩,
    ⟨tq0.modCluster 15 (fun m => { m with rerun := [{ q := 313, tag := 3 }] }), 255, by decide⟩,
    ⟨State.reset.setDsp 255 { task := some { q := 312, outx := 1, dst := 0x4800000020 }, phase := 3 }, 255, 32, 0, _, _, 309237645344, by decide, rfl,
      rfl, by decide⟩,
    ⟨State.reset.setDsp 255 { task := some { q := 312 }, phase := 3 }, 255, 0, 0, _, _, _, _, by decide, rfl, rfl, by decide, by decide, by decide,
      by decide, by decide, rfl, rfl⟩,
    ⟨tq0.modCluster 15 (fun m => { m with rerun := [{ q := 313, tag := 3 }] }), 255, by decide⟩⟩

/-- The hypotheses of `Obligations.DspTasksComplete`, clause by clause (part 2 of 2). -/
theorem meets_dspTasksComplete_b :
    (∃ (s : State) (d : Nat) (k : DTask), d < 256 ∧ (s.dsp d).task = some k ∧ (s.dsp d).phase ≠ 3 ∧ k.budget < dspCycles (s.dsp d).t0 s.tmb.clk) ∧
    (∃ (s : State) (d : Nat), d < 256 ∧ ((s.dsp d).phase = 3 ∨ (∀ k, (s.dsp d).task = some k → dspCycles (s.dsp d).t0 s.tmb.clk ≤ k.budget))) ∧
    (∃ (s : State) (n pair d sp i : Nat) (radio : Bool), n < 4 ∧ pair < 2 ∧ d = n * 64 + pair * 32 + i ∧ sp = n * 64 + pair * 32 + 31
        ∧ (List.range 31).find? (fun i => (s.dsp (n * 64 + pair * 32 + i)).fenceTick.any fun t => decide (t < s.tickNo)) = some i
        ∧ s.flag (if pair = 0 then F.RDP_SPARE.VALID0 else F.RDP_SPARE.VALID1) n = false ∧ s.dspRuns sp = true
        ∧ (∀ m, (s.cluster (d / 16)).mask = some m → radio = bit m (d % 16)) ∧ ((s.cluster (d / 16)).mask = none → radio = true)) ∧
    (∃ (s : State) (n pair : Nat), n < 4 ∧ pair < 2
        ∧ ((∀ i < 31, ∀ t, (s.dsp (n * 64 + pair * 32 + i)).fenceTick = some t → s.tickNo ≤ t) ∨ s.flag (if pair = 0 then F.RDP_SPARE.VALID0 else F.RDP_SPARE.VALID1) n = true ∨ s.dspRuns (n * 64 + pair * 32 + 31) = false)) ∧
    (∃ (s u : State) (k at' n : Nat) (r : Bool × Option Nat), k < 16 ∧ s.gey.next = some at' ∧ (s.cluster k).read = false ∧ at' ≤ s.now + 8000
        ∧ s.dieDown (24 + k / 4) = false ∧ s.flag F.RDP_CLk_TPROG.EN k = true ∧ n = s.tickNo + 1 ∧ u = s.meet (s.dspSlotAddr k n) 16 ∧ r = u.dspSlot k n
        ∧ r.2 ≠ none) ∧
    (∃ (s u : State) (k at' n : Nat) (r : Bool × Option Nat), k < 16 ∧ s.gey.next = some at' ∧ (s.cluster k).read = false ∧ at' ≤ s.now + 8000
        ∧ s.dieDown (24 + k / 4) = false ∧ s.flag F.RDP_CLk_TPROG.EN k = true ∧ n = s.tickNo + 1 ∧ u = s.meet (s.dspSlotAddr k n) 16 ∧ r = u.dspSlot k n
        ∧ r.2 = none) ∧
    (∃ (s : State) (k at' : Nat), k < 16 ∧ s.gey.next = some at' ∧ (s.cluster k).read = false ∧ at' ≤ s.now + 8000 ∧ s.dieDown (24 + k / 4) = false
        ∧ s.flag F.RDP_CLk_TPROG.EN k = false) ∧
    (∃ (s : State) (k : Nat), k < 16 ∧ ((s.cluster k).read = true ∨ s.dieDown (24 + k / 4) = true ∨ (∀ at', s.gey.next = some at' → s.now + 8000 < at'))) :=
  ⟨⟨{ State.reset.setDsp 255 { task := some { q := 312 }, phase := 2 } with tmb := { clk := 1 } }, 255, _, by decide, rfl, by decide⟩,
    ⟨tq0.modCluster 15 (fun m => { m with rerun := [{ q := 313, tag := 3 }] }), 255, by decide⟩,
    ⟨(st [(F.GEY_TICK.TICK, 0, 2)]).setDsp 254 { fenceTick := some 1 }, 3, 1, 254, 255, 30, true, by decide⟩,
    ⟨tq0.modCluster 15 (fun m => { m with rerun := [{ q := 313, tag := 3 }] }), 3, 1, by decide⟩,
    ⟨({ st [(F.GEY_CTRL.TICKING, 0, 1), (F.RDP_CLk_TPROG.EN, 15, 1), (F.RDP_CLk_TPROG.BASE, 15, 0x8106000000 / 16384)] with gey := { next := some 8000 } }).write (0x8106000000 + 16) (bytesOf 16 (1 + 3 * 2 ^ 64 + 2 ^ 96)),
      _, 15, _, 1, _, by decide, rfl, by decide, by decide, by decide, by decide, by decide, rfl, rfl, by decide⟩,
    ⟨{ st [(F.GEY_CTRL.TICKING, 0, 1), (F.RDP_CLk_TPROG.EN, 15, 1)] with gey := { next := some 8000 } }, _, 15, _, 1, _, by decide, rfl, by decide,
      by decide, by decide, by decide, by decide, rfl, rfl, by decide⟩,
    ⟨({ st [(F.GEY_CTRL.TICKING, 0, 1), (F.RDP_CLk_TPROG.EN, 15, 1)] with gey := { next := some 8000 } }).setFld F.RDP_CLk_TPROG.EN 15 0, 15, _,
      by decide, rfl, by decide⟩,
    ⟨tq0.modCluster 15 (fun m => { m with rerun := [{ q := 313, tag := 3 }] }), 15, by decide⟩⟩

/-- The hypotheses of `Obligations.DspPeripheralsComplete`, clause by clause. -/
theorem meets_dspPeripheralsComplete :
    (∃ (s u v : State) (d ch n : Nat) (x : Dma) (runs : List Nat) (data : List Byte) (host : Bool), d < 256 ∧ ch < 4
        ∧ SMap.get none (s.dsp d).dma ch = some x ∧ sdKind x.desc = 0 ∧ s.dieDown (24 + d / 64) = false ∧ runs = sdRuns x.desc ∧ n = sdLen0 x.desc
        ∧ u = s.meetAll (runs.map (·, n)) ∧ ((∃ o, place (sdBase x.desc) = .host o) ↔ host = true) ∧ (host = true → s.noHostRead = false)
        ∧ (∃ r ∈ runs, u.rangePoison r n = true) ∧ (s.dsp d).task ≠ none) ∧
    (∃ (s u v : State) (d ch n : Nat) (x : Dma) (runs : List Nat) (data : List Byte) (host : Bool), d < 256 ∧ ch < 4
        ∧ SMap.get none (s.dsp d).dma ch = some x ∧ sdKind x.desc = 0 ∧ s.dieDown (24 + d / 64) = false ∧ runs = sdRuns x.desc ∧ n = sdLen0 x.desc
        ∧ u = s.meetAll (runs.map (·, n)) ∧ ((∃ o, place (sdBase x.desc) = .host o) ↔ host = true) ∧ (host = true → s.noHostRead = false)
        ∧ ((∀ r ∈ runs, u.rangePoison r n = false) ∨ (s.dsp d).task = none)
        ∧ (data, v) = runs.foldl (fun (acc, s) r => (acc ++ (s.readAny .caldera r n).1, (s.readAny .caldera r n).2)) ([], u)) ∧
    (∃ (s u : State) (d ch n base local' : Nat) (x : Dma) (runs : List Nat) (data : List Byte), d < 256 ∧ ch < 4 ∧ SMap.get none (s.dsp d).dma ch = some x
        ∧ sdKind x.desc ≠ 0 ∧ s.dieDown (24 + d / 64) = false ∧ runs = sdRuns x.desc ∧ n = sdLen0 x.desc ∧ base = dspWord d (b2n x.y) x.word
        ∧ local' = dmaWords x.desc * 32 ∧ u = s.meet base local' ∧ data = (if sdKind x.desc = 1
        ∧ sdFmt x.desc = 9 then ciOut (u.read base local') else u.read base local') ∧ u.rangePoison base local' = true ∧ (s.dsp d).task ≠ none) ∧
    (∃ (s u : State) (d ch n base local' : Nat) (x : Dma) (runs : List Nat) (data : List Byte), d < 256 ∧ ch < 4 ∧ SMap.get none (s.dsp d).dma ch = some x
        ∧ sdKind x.desc ≠ 0 ∧ s.dieDown (24 + d / 64) = false ∧ runs = sdRuns x.desc ∧ n = sdLen0 x.desc ∧ base = dspWord d (b2n x.y) x.word
        ∧ local' = dmaWords x.desc * 32 ∧ u = s.meet base local' ∧ data = (if sdKind x.desc = 1
        ∧ sdFmt x.desc = 9 then ciOut (u.read base local') else u.read base local') ∧ (u.rangePoison base local' = false ∨ (s.dsp d).task = none)) ∧
    (∃ (s : State) (d ch : Nat), d < 256 ∧ ch < 4 ∧ s.mmio = []
        ∧ (s.dieDown (24 + d / 64) = true ∨ (∀ x, SMap.get none (s.dsp d).dma ch = some x → sdKind x.desc = 0 ∧ (∃ o, place (sdBase x.desc) = .host o)
        ∧ s.noHostRead = true))) ∧
    (∃ (s : State) (d : Nat) (v : Word), d < 256 ∧ s.takesWrite .RDP_CORE_TIMER d = true) ∧
    (∃ (s : State) (d : Nat) (v : Word), d < 256 ∧ s.takesWrite .RDP_CORE_TIMER d = false) ∧
    (∃ (s : State) (d : Nat), d < 256 ∧ (s.dsp d).timerOn = true ∧ s.fld F.RDP_CORE_TIMER.T d ≤ s.now) ∧
    (∃ (s : State) (d : Nat), d < 256 ∧ ((s.dsp d).timerOn = false ∨ s.now < s.fld F.RDP_CORE_TIMER.T d)) ∧
    (∃ (s : State) (d : Nat) (v : BitVec 32), d < 256 ∧ s.takesWrite .RDP_CORE_DBELL d = true ∧ bit v.toNat 0 = true) ∧
    (∃ (s : State) (d : Nat) (v : BitVec 32), d < 256 ∧ (s.takesWrite .RDP_CORE_DBELL d = false ∨ bit v.toNat 0 = false)) :=
  ⟨⟨{ dmS 0 with poison := [(0x8100000000 / 64, 7)] }, _, { dmS 0 with poison := [(0x8100000000 / 64, 7)] }, 255, 3, 64, _, _, [], false, by decide,
      by decide, rfl, by decide, by decide, rfl, by decide, rfl,
      ⟨by rintro ⟨o, h⟩; exact absurd (h.symm.trans (show place _ = .rsram 0 0 from by decide)) (by simp), by simp⟩, by decide⟩,
    ⟨State.reset.setDsp 255 { dma := [(3, some ⟨0x8100000000 + 12 * 2 ^ 48 + 64 * 2 ^ 64 + 2 ^ 84 + 2 ^ 104, 4094, true⟩)] }, _, _, 255, 3, 64, _, _, _,
      false, by decide, by decide, rfl, by decide, by decide, rfl, by decide, rfl,
      ⟨by rintro ⟨o, h⟩; exact absurd (h.symm.trans (show place _ = .rsram 0 0 from by decide)) (by simp), by simp⟩, by decide, by decide, rfl⟩,
    ⟨{ dmS 1 with poison := [(dspWord 255 1 4094 / 64, 7)] }, _, 255, 3, 64, 558479704000, _, _, _, _, by decide, by decide, rfl, by decide, by decide,
      rfl, by decide, by decide, rfl, rfl, rfl, by decide⟩,
    ⟨dmS 1, _, 255, 3, 64, 558479704000, _, _, _, _, by decide, by decide, rfl, by decide, by decide, rfl, by decide, by decide, rfl, rfl, rfl, by decide⟩,
    ⟨(State.reset.setDsp 255 { dma := [(3, some ⟨0x8100000000 + 12 * 2 ^ 48 + 64 * 2 ^ 64 + 2 ^ 84 + 2 ^ 104, 4094, true⟩)] }).setDieBit true (24 + 255 / 64) true,
      255, 3, by decide, by decide, by decide, .inl (by decide)⟩,
    ⟨State.reset.setDsp 255 { dma := [(3, some ⟨0x8100000000 + 12 * 2 ^ 48 + 64 * 2 ^ 64 + 2 ^ 84 + 2 ^ 104, 4094, true⟩)] }, 255, 0xFFFFFFFFFFFFFFFF,
      by decide⟩,
    ⟨allOff, 255, 0xFFFFFFFFFFFFFFFF, by decide⟩,
    ⟨State.reset.setDsp 255 { timerOn := true }, 255, by decide⟩,
    ⟨State.reset.setDsp 255 { dma := [(3, some ⟨0x8100000000 + 12 * 2 ^ 48 + 64 * 2 ^ 64 + 2 ^ 84 + 2 ^ 104, 4094, true⟩)] }, 255, by decide⟩,
    ⟨State.reset.setDsp 255 { dma := [(3, some ⟨0x8100000000 + 12 * 2 ^ 48 + 64 * 2 ^ 64 + 2 ^ 84 + 2 ^ 104, 4094, true⟩)] }, 255, 1, by decide⟩,
    ⟨allOff, 255, 1, by decide⟩⟩

/-- The hypotheses of `Obligations.EngineJobsComplete`, clause by clause. -/
theorem meets_engineJobsComplete :
    (∃ (s v : State) (n e z f inB outB c : Nat) (bad bads : List Nat) (bg : Bool) (j : EngJob) (blk : List ((List Bool × Bool × Nat) × Bool × Bool)) (outs : List (List Bool × Bool)), n < 4
        ∧ e < 8 ∧ s.engHead n e = some j ∧ bads = (if s.engInj n e then 0 :: bad else bad) ∧ bg = bit j.desc 2 ∧ z = bits j.desc 11 3 ∧ f = bits j.desc 45 32
        ∧ c = bits j.desc 63 48 ∧ inB = ldpcN bg * z ∧ outB = (ldpcK bg * z - f + 7) / 8 ∧ ldpcLegal j.desc 0 inB outB = false) ∧
    (∃ (s v : State) (n e z f inB outB c : Nat) (bad bads : List Nat) (bg : Bool) (j : EngJob) (blk : List ((List Bool × Bool × Nat) × Bool × Bool)) (outs : List (List Bool × Bool)), n < 4
        ∧ e < 8 ∧ s.engHead n e = some j ∧ bads = (if s.engInj n e then 0 :: bad else bad) ∧ bg = bit j.desc 2 ∧ z = bits j.desc 11 3 ∧ f = bits j.desc 45 32
        ∧ c = bits j.desc 63 48 ∧ inB = ldpcN bg * z ∧ outB = (ldpcK bg * z - f + 7) / 8 ∧ ldpcLegal j.desc 0 inB outB = true
        ∧ v = s.meet (rsAddr n (jIn j.desc)) (c * inB)
        ∧ blk = (List.range c).map (fun i => (ldpcBlock bg z (bits j.desc 16 12) f (bit j.desc 17) (v.read (rsAddr n (jIn j.desc + i * inB)) inB), v.rangePoison (rsAddr n (jIn j.desc + i * inB)) inB, bads.contains i))
        ∧ outs = blk.map (fun b => (b.1.1, b.2.1 || b.2.2))) ∧
    (∃ (s v : State) (n e z k len inB outB c : Nat) (bad bads : List Nat) (bg on : Bool) (j : EngJob) (seen ins outs : List (List Bool × Bool)), n < 4
        ∧ 8 ≤ e ∧ e < 16 ∧ s.engHead n e = some j ∧ bads = (if s.engInj n e then 0 :: bad else bad) ∧ bg = bit j.desc 2 ∧ z = bits j.desc 11 3
        ∧ k = ldpcK bg * z ∧ len = k - bits j.desc 45 32 ∧ c = bits j.desc 63 48 ∧ inB = (len + 7) / 8 ∧ outB = (ldpcN bg * z + 7) / 8
        ∧ ldpcLegal j.desc 1 inB outB = false) ∧
    (∃ (s v : State) (n e z k len inB outB c : Nat) (bad bads : List Nat) (bg on : Bool) (j : EngJob) (seen ins outs : List (List Bool × Bool)), n < 4
        ∧ 8 ≤ e ∧ e < 16 ∧ s.engHead n e = some j ∧ bads = (if s.engInj n e then 0 :: bad else bad) ∧ bg = bit j.desc 2 ∧ z = bits j.desc 11 3
        ∧ k = ldpcK bg * z ∧ len = k - bits j.desc 45 32 ∧ c = bits j.desc 63 48 ∧ inB = (len + 7) / 8 ∧ outB = (ldpcN bg * z + 7) / 8
        ∧ ldpcLegal j.desc 1 inB outB = true ∧ v = s.meet (rsAddr n (jIn j.desc)) (c * inB)
        ∧ on = (bit j.desc 18 && v.crcReady n (bits j.desc 22 19) e (jTag j.desc)) ∧ (seen, ins) = v.encodeIn n (bits j.desc 22 19) len on j.desc inB c
        ∧ outs = ins.zipIdx.map (fun (b, i) => ((List.range (ldpcN bg * z)).map fun i => (Config.ldpcEncode (b2n bg) z (b.1 ++ List.replicate (k - len) false)).getD i false, b.2 || bads.contains i))) ∧
    (∃ (s v : State) (n e kind a el list inB outB : Nat) (bad b dec pin : Bool) (j : EngJob) (unit : Option Nat) (seen ins : List (List Bool × Bool)) (r : List Bool × Bool), n < 4
        ∧ 16 ≤ e ∧ e < 18 ∧ s.engHead n e = some j ∧ b = (bad || s.engInj n e) ∧ dec = (bits j.desc 1 0 == 0) ∧ kind = bits j.desc 3 2 ∧ a = bits j.desc 13 4
        ∧ el = bits j.desc 27 14 ∧ list = 2 ^ bits j.desc 29 28 ∧ inB = (if dec then el else (a + 7) / 8) ∧ outB = (if dec then (a + 7) / 8 else (el + 7) / 8)
        ∧ (2 ≤ bits j.desc 1 0 ∨ kind = 3 ∨ 2 ^ 25 < jIn j.desc + inB ∨ 2 ^ 25 < jOut j.desc + outB)) ∧
    (∃ (s v : State) (n e kind a el list inB outB : Nat) (bad b dec pin : Bool) (j : EngJob) (unit : Option Nat) (seen ins : List (List Bool × Bool)) (r : List Bool × Bool), n < 4
        ∧ 16 ≤ e ∧ e < 18 ∧ s.engHead n e = some j ∧ b = (bad || s.engInj n e) ∧ dec = (bits j.desc 1 0 == 0) ∧ kind = bits j.desc 3 2 ∧ a = bits j.desc 13 4
        ∧ el = bits j.desc 27 14 ∧ list = 2 ^ bits j.desc 29 28 ∧ inB = (if dec then el else (a + 7) / 8) ∧ outB = (if dec then (a + 7) / 8 else (el + 7) / 8)
        ∧ bits j.desc 1 0 < 2 ∧ kind ≠ 3 ∧ jIn j.desc + inB ≤ 2 ^ 25 ∧ jOut j.desc + outB ≤ 2 ^ 25 ∧ v = s.meet (rsAddr n (jIn j.desc)) inB
        ∧ pin = v.rangePoison (rsAddr n (jIn j.desc)) inB ∧ unit = (List.range 16).find? (fun u => v.crcReady n u (if dec then e else e + 2) (jTag j.desc))
        ∧ (seen, ins) = v.encodeIn n (unit.getD 0) a unit.isSome j.desc inB 1
        ∧ (dec = true → r = polarDecode kind (bits j.desc 47 32) a el list ((v.read (rsAddr n (jIn j.desc)) inB).map fun b => max (-127) (sext 8 b.toNat)))
        ∧ (dec = false → r = (polarEncode kind (bits j.desc 47 32) a el (ins.flatMap (·.1)), true))) ∧
    (∃ (s u : State) (n e d c k r crc : Nat) (x : Option Nat) (l : List EngJob), n < 4 ∧ e < 18 ∧ s.engine (18 * n + e) = ⟨d, c, k, some r, x⟩ :: l
        ∧ ((x = none ∧ u = s ∧ crc = 0) ∨ (∃ y, x = some y ∧ u = (s.crcU y).frames.foldl (fun s _ => s.crcNext y) s
        ∧ crc = if (u.crcU y).good then 1 else 2))) ∧
    (∃ (s : State) (n e : Nat) (bads : List Nat) (bad : Bool), n < 4 ∧ e < 18 ∧ (s.engHead n e = none ∨ 8 ≤ e)) ∧
    (∃ (s : State) (n e : Nat) (bads : List Nat) (bad : Bool), n < 4 ∧ e < 18 ∧ (s.engHead n e = none ∨ e < 8 ∨ 16 ≤ e)) ∧
    (∃ (s : State) (n e : Nat) (bads : List Nat) (bad : Bool), n < 4 ∧ e < 18 ∧ (s.engHead n e = none ∨ e < 16)) ∧
    (∃ (s : State) (n e : Nat) (bads : List Nat) (bad : Bool), n < 4 ∧ e < 18 ∧ (s.engine (18 * n + e) = [] ∨ (∃ j l, s.engine (18 * n + e) = j :: l
        ∧ j.result = none))) :=
  ⟨⟨eng18 338 18 (0), (eng18 338 18 (0)), 1, 0, 0, 0, 0, 0, 0, [], _, false, _, [], [], by decide, by decide, rfl, rfl, by decide⟩,
    ⟨eng18 338 18 (2 * 2 ^ 3 + 2 ^ 48), _, 1, 0, 2, 0, 132, 6, 1, [], _, false, _, _, _, by decide, by decide, rfl, rfl, by decide, by decide, by decide,
      by decide, by decide, by decide, by decide, rfl, rfl, rfl⟩,
    ⟨eng18 346 26 (0), (eng18 346 26 (0)), 1, 8, 0, 0, 0, 0, 0, 0, [], _, false, false, _, [], [], [], by decide, by decide, by decide, rfl, rfl,
      by decide⟩,
    ⟨eng18 346 26 (2 * 2 ^ 3 + 1 + 2 ^ 48), _, 1, 8, 2, 44, 44, 6, 17, 1, [], _, false, false, _, _, _, _, by decide, by decide, by decide, rfl, rfl,
      by decide, by decide, by decide, by decide, by decide, by decide, by decide, by decide, rfl, by decide, rfl, rfl⟩,
    ⟨eng18 354 34 (2), (eng18 354 34 (2)), 1, 16, 0, 0, 0, 1, 0, 0, false, false, false, false, _, none, [], [], ([], false), by decide, by decide,
      by decide, rfl, by decide⟩,
    ⟨eng18 354 34 (0), _, 1, 16, 0, 0, 0, 1, 0, 0, false, false, true, false, _, _, _, _, _, by decide, by decide, by decide, rfl, by decide, by decide,
      by decide, by decide, by decide, by decide, by decide, by decide, by decide, by decide, by decide, by decide, rfl, by decide, rfl, rfl, fun _ => rfl,
      fun h => absurd h (by decide)⟩,
    ⟨State.reset.setEngine 71 [⟨7 * 2 ^ 144, 192, 0, some 5, none⟩], (State.reset.setEngine 71 [⟨7 * 2 ^ 144, 192, 0, some 5, none⟩]), 3, 17, 7 * 2 ^ 144,
      192, 0, 5, 0, none, [], by decide, by decide, by decide, .inl ⟨rfl, rfl, rfl⟩⟩,
    ⟨State.reset, 3, 17, [], true, by decide⟩,
    ⟨State.reset, 3, 17, [], true, by decide⟩,
    ⟨State.reset, 3, 17, [], true, by decide⟩,
    ⟨State.reset, 3, 17, [], true, by decide, by decide, .inl (by decide)⟩⟩

/-- The hypotheses of `Obligations.CrcUnitsAndModemsComplete`, clause by clause (part 1 of 3). -/
theorem meets_crcUnitsAndModemsComplete_a :
    (∃ (s : State) (n u x : Nat) (v : Word), n < 4 ∧ u < 16 ∧ x = 16 * n + u ∧ s.takesWrite .CRC_Uu_CTRL x = true ∧ s.flag F.CRC_Uu_CTRL.ARM x = false
        ∧ bits v.toNat 9 5 < 22 ∧ (bits v.toNat 4 3 = 2 → 8 ≤ bits v.toNat 9 5 ∧ bits v.toNat 9 5 < 16 ∨ bits v.toNat 9 5 = 18 ∨ bits v.toNat 9 5 = 19)) ∧
    (∃ (s : State) (n u x : Nat) (v : Word), n < 4 ∧ u < 16 ∧ x = 16 * n + u ∧ s.takesWrite .CRC_Uu_CTRL x = true ∧ s.flag F.CRC_Uu_CTRL.ARM x = false
        ∧ (22 ≤ bits v.toNat 9 5 ∨ (bits v.toNat 4 3 = 2 ∧ (bits v.toNat 9 5 < 8 ∨ bits v.toNat 9 5 = 16 ∨ bits v.toNat 9 5 = 17 ∨ 20 ≤ bits v.toNat 9 5)))) ∧
    (∃ (s : State) (n u x : Nat) (v : Word), n < 4 ∧ u < 16 ∧ x = 16 * n + u ∧ s.takesWrite .CRC_Uu_CTRL x = true ∧ s.flag F.CRC_Uu_CTRL.ARM x = false) ∧
    (∃ (s : State) (n u : Nat) (v : Word), n < 4 ∧ u < 16 ∧ s.takesWrite .CRC_Uu_CTRL (16 * n + u) = true ∧ s.flag F.CRC_Uu_CTRL.ARM (16 * n + u) = true) ∧
    (∃ (s : State) (n u : Nat) (v : Word), n < 4 ∧ u < 16 ∧ s.takesWrite .CRC_Uu_CTRL (16 * n + u) = false) ∧
    (∃ (s : State) (n u x : Nat) (l : List Bool) (pois complete : Bool), n < 4 ∧ u < 16 ∧ x = 16 * n + u ∧ s.dieDown (24 + n) = false
        ∧ (s.crcU x).stopped = true ∧ complete = false) ∧
    (∃ (s : State) (n u x : Nat) (l : List Bool) (pois complete : Bool) (r : _), n < 4 ∧ u < 16 ∧ x = 16 * n + u ∧ s.dieDown (24 + n) = false
        ∧ (s.crcU x).stopped = false ∧ (s.crcU x).frames = (l, pois) :: r ∧ complete = true) ∧
    (∃ (s : State) (n u x : Nat) (l : List Bool) (pois complete : Bool), n < 4 ∧ u < 16 ∧ x = 16 * n + u
        ∧ (s.dieDown (24 + n) = true ∨ ((s.crcU x).stopped = true ∧ complete = true) ∨ ((s.crcU x).stopped = false
        ∧ (complete = false ∨ (s.crcU x).frames.head? ≠ some (l, pois))))) ∧
    (∃ (s : State) (u : Nat) (l : List Bool) (pois complete : Bool), (pois = true ∨ complete = false)) ∧
    (∃ (s : State) (u : Nat) (l : List Bool) (pois complete : Bool), pois = false ∧ complete = true ∧ s.fld F.CRC_Uu_CTRL.MODE u ≠ 1) ∧
    (∃ (s : State) (u : Nat) (l : List Bool) (pois complete : Bool) (p w : _), pois = false ∧ complete = true ∧ s.fld F.CRC_Uu_CTRL.MODE u = 1
        ∧ p = s.fld F.CRC_Uu_CTRL.POLY u ∧ w = (crcPoly p).1) ∧
    (∃ (s : State) (n u : Nat) (v : Word), n < 4 ∧ u < 16 ∧ s.flag F.CRC_Uu_CTRL.BUSY (16 * n + u) = false ∧ s.takesWrite .CRC_Uu_RUN (16 * n + u) = true) ∧
    (∃ (s : State) (n u : Nat) (v : Word), n < 4 ∧ u < 16
        ∧ (s.flag F.CRC_Uu_CTRL.BUSY (16 * n + u) = true ∨ s.takesWrite .CRC_Uu_RUN (16 * n + u) = false)) ∧
    (∃ (s : State) (n u x cnt d gap : Nat) (m : List Byte) (fail : State), n < 4 ∧ u < 16 ∧ x = 16 * n + u ∧ s.flag F.CRC_Uu_CTRL.ARM x = true
        ∧ s.fld F.CRC_Uu_CTRL.MODE x = 3 ∧ s.fld F.CRC_Uu_CTRL.TAP x = 21 ∧ s.dieDown (24 + n) = false ∧ cnt = (m.getD 0 0).toNat
        ∧ d = (cnt + 256 - s.fld F.CRC_Uu_SAFE.LAST x) % 256 ∧ gap = (if u = 15 ∧ bit (s.rdFault n).sctl 0 = true then 0 else s.fld F.CRC_Uu_SAFE.MAXGAP x)
        ∧ fail = s.setFld F.CRC_Uu_CTRL.RESULT x 2 ∧ s.safeOk x m = true ∧ ((s.crcU x).primed = false ∨ d = 1)) :=
  ⟨⟨State.reset, 3, 15, 63, BitVec.ofNat 64 (7 + 2 * 2 ^ 3 + 19 * 2 ^ 5), by decide⟩,
    ⟨State.reset, 3, 15, 63, BitVec.allOnes 64, by decide⟩,
    ⟨State.reset, 3, 15, 63, BitVec.ofNat 64 (7 + 2 * 2 ^ 3 + 19 * 2 ^ 5), by decide⟩,
    ⟨(State.reset).setFld F.CRC_Uu_CTRL.ARM (16 * 3 + 15) 1, 3, 15, BitVec.ofNat 64 (7 + 2 * 2 ^ 3 + 19 * 2 ^ 5), by decide⟩,
    ⟨allOff, 3, 15, BitVec.ofNat 64 (7 + 2 * 2 ^ 3 + 19 * 2 ^ 5), by decide⟩,
    ⟨State.reset.setCrcU 63 { stopped := true }, 3, 15, 63, [true], false, false, by decide⟩,
    ⟨State.reset.setCrcU 63 { frames := [([true], false)] }, 3, 15, 63, [true], false, true, [], by decide⟩,
    ⟨State.reset, 3, 15, 63, [true], false, false, by decide⟩,
    ⟨State.reset, 3, [true], false, false, by decide⟩,
    ⟨State.reset, 3, [true], false, true, by decide⟩,
    ⟨(State.reset).setFld F.CRC_Uu_CTRL.MODE 3 1, 3, [true], false, true, _, _, by decide, by decide, by decide, rfl, rfl⟩,
    ⟨State.reset, 3, 15, BitVec.ofNat 64 (7 + 2 * 2 ^ 3 + 19 * 2 ^ 5), by decide⟩,
    ⟨(State.reset).setFld F.CRC_Uu_CTRL.BUSY (16 * 3 + 15) 1, 3, 15, BitVec.ofNat 64 (7 + 2 * 2 ^ 3 + 19 * 2 ^ 5), by decide⟩,
    ⟨(((State.reset).setFld F.CRC_Uu_CTRL.ARM 63 1).setFld F.CRC_Uu_CTRL.MODE 63 3).setFld F.CRC_Uu_CTRL.TAP 63 21, 3, 15, 63, 0, 0, 0, [0#8, 0#8], _,
      by decide, by decide, by decide, by decide, by decide, by decide, by decide, by decide, by decide, by decide, rfl, by decide⟩⟩

/-- The hypotheses of `Obligations.CrcUnitsAndModemsComplete`, clause by clause (part 2 of 3). -/
theorem meets_crcUnitsAndModemsComplete_b :
    (∃ (s : State) (n u x cnt d gap : Nat) (m : List Byte) (fail : State), n < 4 ∧ u < 16 ∧ x = 16 * n + u ∧ s.flag F.CRC_Uu_CTRL.ARM x = true
        ∧ s.fld F.CRC_Uu_CTRL.MODE x = 3 ∧ s.fld F.CRC_Uu_CTRL.TAP x = 21 ∧ s.dieDown (24 + n) = false ∧ cnt = (m.getD 0 0).toNat
        ∧ d = (cnt + 256 - s.fld F.CRC_Uu_SAFE.LAST x) % 256 ∧ gap = (if u = 15 ∧ bit (s.rdFault n).sctl 0 = true then 0 else s.fld F.CRC_Uu_SAFE.MAXGAP x)
        ∧ fail = s.setFld F.CRC_Uu_CTRL.RESULT x 2 ∧ s.safeOk x m = true ∧ (s.crcU x).primed = true ∧ 2 ≤ d ∧ d ≤ gap + 1) ∧
    (∃ (s : State) (n u x cnt d gap : Nat) (m : List Byte) (fail : State), n < 4 ∧ u < 16 ∧ x = 16 * n + u ∧ s.flag F.CRC_Uu_CTRL.ARM x = true
        ∧ s.fld F.CRC_Uu_CTRL.MODE x = 3 ∧ s.fld F.CRC_Uu_CTRL.TAP x = 21 ∧ s.dieDown (24 + n) = false ∧ cnt = (m.getD 0 0).toNat
        ∧ d = (cnt + 256 - s.fld F.CRC_Uu_SAFE.LAST x) % 256 ∧ gap = (if u = 15 ∧ bit (s.rdFault n).sctl 0 = true then 0 else s.fld F.CRC_Uu_SAFE.MAXGAP x)
        ∧ fail = s.setFld F.CRC_Uu_CTRL.RESULT x 2 ∧ s.safeOk x m = false) ∧
    (∃ (s : State) (n u x cnt d gap : Nat) (m : List Byte) (fail : State), n < 4 ∧ u < 16 ∧ x = 16 * n + u ∧ s.flag F.CRC_Uu_CTRL.ARM x = true
        ∧ s.fld F.CRC_Uu_CTRL.MODE x = 3 ∧ s.fld F.CRC_Uu_CTRL.TAP x = 21 ∧ s.dieDown (24 + n) = false ∧ cnt = (m.getD 0 0).toNat
        ∧ d = (cnt + 256 - s.fld F.CRC_Uu_SAFE.LAST x) % 256 ∧ gap = (if u = 15 ∧ bit (s.rdFault n).sctl 0 = true then 0 else s.fld F.CRC_Uu_SAFE.MAXGAP x)
        ∧ fail = s.setFld F.CRC_Uu_CTRL.RESULT x 2 ∧ s.safeOk x m = true ∧ (s.crcU x).primed = true ∧ d = 0) ∧
    (∃ (s : State) (n u x cnt d gap : Nat) (m : List Byte) (fail : State), n < 4 ∧ u < 16 ∧ x = 16 * n + u ∧ s.flag F.CRC_Uu_CTRL.ARM x = true
        ∧ s.fld F.CRC_Uu_CTRL.MODE x = 3 ∧ s.fld F.CRC_Uu_CTRL.TAP x = 21 ∧ s.dieDown (24 + n) = false ∧ cnt = (m.getD 0 0).toNat
        ∧ d = (cnt + 256 - s.fld F.CRC_Uu_SAFE.LAST x) % 256 ∧ gap = (if u = 15 ∧ bit (s.rdFault n).sctl 0 = true then 0 else s.fld F.CRC_Uu_SAFE.MAXGAP x)
        ∧ fail = s.setFld F.CRC_Uu_CTRL.RESULT x 2 ∧ s.safeOk x m = true ∧ (s.crcU x).primed = true ∧ d ≠ 1 ∧ gap + 1 < d) ∧
    (∃ (s : State) (n u : Nat) (m : List Byte), n < 4 ∧ u < 16
        ∧ (s.flag F.CRC_Uu_CTRL.ARM (16 * n + u) = false ∨ s.fld F.CRC_Uu_CTRL.MODE (16 * n + u) ≠ 3 ∨ s.fld F.CRC_Uu_CTRL.TAP (16 * n + u) ≠ 21 ∨ s.dieDown (24 + n) = true)) ∧
    (∃ (s : State) (n u x : Nat), n < 4 ∧ u < 16 ∧ x = 16 * n + u ∧ s.flag F.CRC_Uu_CTRL.ARM x = true ∧ s.fld F.CRC_Uu_CTRL.MODE x = 3
        ∧ s.fld F.CRC_Uu_SAFE.TIMEOUT x ≠ 0 ∧ (s.crcU x).clk * 64 + s.fld F.CRC_Uu_SAFE.TIMEOUT x * 10000 ≤ s.tmb.clk * 64) ∧
    (∃ (s : State) (n u x : Nat), n < 4 ∧ u < 16 ∧ x = 16 * n + u
        ∧ (s.flag F.CRC_Uu_CTRL.ARM x = false ∨ s.fld F.CRC_Uu_CTRL.MODE x ≠ 3 ∨ s.fld F.CRC_Uu_SAFE.TIMEOUT x = 0 ∨ s.tmb.clk * 64 < (s.crcU x).clk * 64 + s.fld F.CRC_Uu_SAFE.TIMEOUT x * 10000)) ∧
    (∃ (s : State) (n j : Nat), n < 4 ∧ j < 96) ∧
    (∃ (s u : State) (n b car c len base log2 prod m : Nat) (sync : GfskSync) (frame data : List Byte) (rssi fofs : Int) (ok : Bool), n < 4 ∧ b < 4
        ∧ car < 128 ∧ c = 128 * (4 * n + b) + car ∧ s.flag F.GFK_Bb_CARc_CFG.EN_RX c = true ∧ s.dieDown (24 + n) = false ∧ len = (frame.headD 0).toNat
        ∧ 0 < len ∧ frame.length = len + 3 ∧ syncErrors sync.word.toNat (s.fld F.GFK_Bb_CARc_SYNC.SYNC c) ≤ s.fld F.GFK_Bb_CARc_CFG.SYNC_ERR c
        ∧ sync.time ≤ s.now ∧ (ok = true ↔ gfskCrc (frame.take (len + 1)) = frame.drop (len + 1))
        ∧ u = (if ok then (s.gfskConsume c).incFld F.GFK_Bb_CARc_CNT.RX_OK c else (s.gfskConsume c).incFld F.GFK_Bb_CARc_CNT.RX_BAD c)
        ∧ base = u.fld F.GFK_Bb_RXRING.BASE (4 * n + b) * 64 ∧ log2 = clamp 4 12 (u.fld F.GFK_Bb_RXRING.LOG2 (4 * n + b)) ∧ prod = u.ringProd base
        ∧ m = 1 + (len + 15) / 16 ∧ data = gfkHeader b car ok len rssi fofs sync.time ++ slice frame 1 len ++ List.replicate ((len + 15) / 16 * 16 - len) 0#8
        ∧ ok = false ∧ u.flag F.GFK_Bb_CARc_CFG.KEEPBAD c = false) ∧
    (∃ (s u : State) (n b car c len base log2 prod m : Nat) (sync : GfskSync) (frame data : List Byte) (rssi fofs : Int) (ok : Bool), n < 4 ∧ b < 4
        ∧ car < 128 ∧ c = 128 * (4 * n + b) + car ∧ s.flag F.GFK_Bb_CARc_CFG.EN_RX c = true ∧ s.dieDown (24 + n) = false ∧ len = (frame.headD 0).toNat
        ∧ 0 < len ∧ frame.length = len + 3 ∧ syncErrors sync.word.toNat (s.fld F.GFK_Bb_CARc_SYNC.SYNC c) ≤ s.fld F.GFK_Bb_CARc_CFG.SYNC_ERR c
        ∧ sync.time ≤ s.now ∧ (ok = true ↔ gfskCrc (frame.take (len + 1)) = frame.drop (len + 1))
        ∧ u = (if ok then (s.gfskConsume c).incFld F.GFK_Bb_CARc_CNT.RX_OK c else (s.gfskConsume c).incFld F.GFK_Bb_CARc_CNT.RX_BAD c)
        ∧ base = u.fld F.GFK_Bb_RXRING.BASE (4 * n + b) * 64 ∧ log2 = clamp 4 12 (u.fld F.GFK_Bb_RXRING.LOG2 (4 * n + b)) ∧ prod = u.ringProd base
        ∧ m = 1 + (len + 15) / 16 ∧ data = gfkHeader b car ok len rssi fofs sync.time ++ slice frame 1 len ++ List.replicate ((len + 15) / 16 * 16 - len) 0#8
        ∧ (ok = true ∨ u.flag F.GFK_Bb_CARc_CFG.KEEPBAD c = true) ∧ 2 ^ log2 < (prod + 2 ^ 32 - u.ringCons base) % 2 ^ 32 + m) ∧
    (∃ (s u : State) (n b car c len base log2 prod m : Nat) (sync : GfskSync) (frame data : List Byte) (rssi fofs : Int) (ok : Bool), n < 4 ∧ b < 4
        ∧ car < 128 ∧ c = 128 * (4 * n + b) + car ∧ s.flag F.GFK_Bb_CARc_CFG.EN_RX c = true ∧ s.dieDown (24 + n) = false ∧ len = (frame.headD 0).toNat
        ∧ 0 < len ∧ frame.length = len + 3 ∧ syncErrors sync.word.toNat (s.fld F.GFK_Bb_CARc_SYNC.SYNC c) ≤ s.fld F.GFK_Bb_CARc_CFG.SYNC_ERR c
        ∧ sync.time ≤ s.now ∧ (ok = true ↔ gfskCrc (frame.take (len + 1)) = frame.drop (len + 1))
        ∧ u = (if ok then (s.gfskConsume c).incFld F.GFK_Bb_CARc_CNT.RX_OK c else (s.gfskConsume c).incFld F.GFK_Bb_CARc_CNT.RX_BAD c)
        ∧ base = u.fld F.GFK_Bb_RXRING.BASE (4 * n + b) * 64 ∧ log2 = clamp 4 12 (u.fld F.GFK_Bb_RXRING.LOG2 (4 * n + b)) ∧ prod = u.ringProd base
        ∧ m = 1 + (len + 15) / 16 ∧ data = gfkHeader b car ok len rssi fofs sync.time ++ slice frame 1 len ++ List.replicate ((len + 15) / 16 * 16 - len) 0#8
        ∧ (ok = true ∨ u.flag F.GFK_Bb_CARc_CFG.KEEPBAD c = true) ∧ (prod + 2 ^ 32 - u.ringCons base) % 2 ^ 32 + m ≤ 2 ^ log2) ∧
    (∃ (s : State) (n b car c : Nat) (sync : GfskSync) (frame : List Byte) (rssi fofs : Int), n < 4 ∧ b < 4 ∧ car < 128 ∧ c = 128 * (4 * n + b) + car
        ∧ (s.flag F.GFK_Bb_CARc_CFG.EN_RX c = false ∨ s.dieDown (24 + n) = true ∨ (frame.headD 0).toNat = 0 ∨ frame.length ≠ (frame.headD 0).toNat + 3 ∨ s.fld F.GFK_Bb_CARc_CFG.SYNC_ERR c < syncErrors sync.word.toNat (s.fld F.GFK_Bb_CARc_SYNC.SYNC c) ∨ s.now < sync.time)) ∧
    (∃ (s v u : State) (n b h base log2 cons c m len start : Nat) (pay : List Byte), n < 4 ∧ b < 4 ∧ s.dieDown (24 + n) = false
        ∧ base = s.fld F.GFK_Bb_TXRING.BASE (4 * n + b) * 64 ∧ log2 = clamp 4 12 (s.fld F.GFK_Bb_TXRING.LOG2 (4 * n + b)) ∧ cons = s.ringCons base
        ∧ cons ≠ s.ringProd base ∧ v = s.meet (gfkChunk base log2 cons) 16 ∧ h = v.readNat (gfkChunk base log2 cons) 16 ∧ len = bits h 19 12
        ∧ c = 128 * (4 * n + b) + bits h 6 0 ∧ start = bits h 127 64 ∧ m = (len + 15) / 16
        ∧ u = v.meetAll ((List.range m).map fun i => (gfkChunk base log2 (cons + 1 + i), 16))
        ∧ pay = ((List.range m).flatMap fun i => u.read (gfkChunk base log2 (cons + 1 + i)) 16).take len) ∧
    (∃ (s : State) (n b : Nat), n < 4 ∧ b < 4
        ∧ (s.dieDown (24 + n) = true ∨ s.ringCons (s.fld F.GFK_Bb_TXRING.BASE (4 * n + b) * 64) = s.ringProd (s.fld F.GFK_Bb_TXRING.BASE (4 * n + b) * 64))) :=
  ⟨⟨sf63 254, 3, 15, 63, 0, 2, 1, [0#8, 0#8], _, by decide, by decide, by decide, by decide, by decide, by decide, by decide, by decide, by decide,
      by decide, rfl, by decide⟩,
    ⟨(((State.reset).setFld F.CRC_Uu_CTRL.ARM 63 1).setFld F.CRC_Uu_CTRL.MODE 63 3).setFld F.CRC_Uu_CTRL.TAP 63 21, 3, 15, 63, 0, 0, 0, [0#8, 1#8], _,
      by decide, by decide, by decide, by decide, by decide, by decide, by decide, by decide, by decide, by decide, rfl, by decide⟩,
    ⟨sf63 0, 3, 15, 63, 0, 0, 1, [0#8, 0#8], _, by decide, by decide, by decide, by decide, by decide, by decide, by decide, by decide, by decide,
      by decide, rfl, by decide⟩,
    ⟨sf63 200, 3, 15, 63, 0, 56, 1, [0#8, 0#8], _, by decide, by decide, by decide, by decide, by decide, by decide, by decide, by decide, by decide,
      by decide, rfl, by decide⟩,
    ⟨State.reset, 3, 15, [0#8, 0#8], by decide⟩,
    ⟨((({ st [(F.CRC_Uu_CTRL.ARM, 0, 1), (F.CRC_Uu_CTRL.MODE, 0, 3), (F.CRC_Uu_SAFE.TIMEOUT, 0, 1)] with tmb := { clk := 157 } }).setFld F.CRC_Uu_CTRL.ARM 63 1).setFld F.CRC_Uu_CTRL.MODE 63 3).setFld F.CRC_Uu_SAFE.TIMEOUT 63 1,
      3, 15, 63, by decide⟩,
    ⟨State.reset, 3, 15, 63, by decide⟩,
    ⟨State.reset, 3, 95, by decide⟩,
    ⟨gfR [], _, 3, 3, 127, 2047, 1, 554050781184, 4, 0, 2, ⟨0, 5⟩, [1#8, 5#8, 0#8, 0#8], _, 0, 0, false, by decide, by decide, by decide, by decide,
      by decide, by decide, by decide, by decide, by decide, by decide, by decide, by decide, rfl, by decide, by decide, by decide, by decide, rfl,
      by decide⟩,
    ⟨(gfR []).write 0x8100000000 (bytesOf 4 16), _, 3, 3, 127, 2047, 1, 554050781184, 4, 16, 2, ⟨0, 5⟩, gfskBody [5#8], _, 0, 0, true, by decide,
      by decide, by decide, by decide, by decide, by decide, by decide, by decide, by decide, by decide, by decide, by decide, rfl, by decide, by decide,
      by decide, by decide, rfl, by decide⟩,
    ⟨gfR [], _, 3, 3, 127, 2047, 1, 554050781184, 4, 0, 2, ⟨0, 5⟩, gfskBody [5#8], _, 0, 0, true, by decide, by decide, by decide, by decide, by decide,
      by decide, by decide, by decide, by decide, by decide, by decide, by decide, rfl, by decide, by decide, by decide, by decide, rfl, by decide⟩,
    ⟨State.reset, 3, 3, 127, 2047, ⟨0, 5⟩, [0#8, 0#8], 0, 0, by decide⟩,
    ⟨((st [(F.GFK_Bb_TXRING.BASE, 15, 0x204000000), (F.GFK_Bb_CARc_CFG.EN_TX, 2047, 1)]).write 0x8100000000 (bytesOf 4 1)).write 0x8100000040 (bytesOf 16 (127 + 2 ^ 12 + 100000 * 2 ^ 64)),
      _, _, 3, 3, 1844674407370955161604223, 554050781184, 4, 0, 2047, 1, 1, 100000, _, by decide, by decide, by decide, by decide, by decide, by decide,
      by decide, rfl, by decide, by decide, by decide, by decide, by decide, rfl, rfl⟩,
    ⟨State.reset, 3, 3, by decide⟩⟩

/-- The hypotheses of `Obligations.CrcUnitsAndModemsComplete`, clause by clause (part 3 of 3). -/
theorem meets_crcUnitsAndModemsComplete_c :
    (∃ (s : State) (n b : Nat) (l : List NoiseStat), n < 4 ∧ b < 4 ∧ s.dieDown (24 + n) = false) ∧
    (∃ (s : State) (n b : Nat) (l : List NoiseStat), n < 4 ∧ b < 4
        ∧ (s.dieDown (24 + n) = true ∨ (∀ car < 128, s.flag F.GFK_Bb_CARc_CFG.EN_RX (128 * (4 * n + b) + car) = false))) :=
  ⟨⟨State.reset, 3, 3, [{ car := 127, total := 4, idle := 1, sum := 5 }], by decide⟩,
    ⟨State.reset, 3, 3, [{ car := 127, total := 4, idle := 1, sum := 5 }], by decide⟩⟩

/-- The hypotheses of `Obligations.FronthaulFlowsComplete`, clause by clause. -/
theorem meets_fronthaulFlowsComplete :
    (∃ (s : State) (p : Nat) (fr : Frame), p < 16 ∧ s.portUp p = false) ∧
    (∃ (s : State) (p : Nat) (fr : Frame), p < 16 ∧ s.portUp p = true ∧ (fr.fcsOk = false ∨ fr.len < 64 ∨ 9216 < fr.len ∨ fr.etype = 0x8808)) ∧
    (∃ (s s1 : State) (p : Nat) (fr : Frame) (r : Option Frame), p < 16 ∧ s.portUp p = true ∧ fr.fcsOk = true ∧ 64 ≤ fr.len ∧ fr.len ≤ 9216
        ∧ fr.etype ≠ 0x8808 ∧ (s.incFld F.FHL_Pp_CNT.WORD (p * 11)).police p fr = (s1, r)) ∧
    (∃ (s s1 : State) (p k f v : Nat) (fr x : Frame) (e : Ecpri) (good : Bool) (nsym air : Int), p < 16 ∧ k = p / 4 ∧ s.portUp p = true ∧ fr.fcsOk = true
        ∧ 64 ≤ fr.len ∧ fr.len ≤ 9216 ∧ fr.etype ≠ 0x8808 ∧ (s.incFld F.FHL_Pp_CNT.WORD (p * 11)).police p fr = (s1, some x)
        ∧ x.dst = s1.fld F.FHL_Pp_MAC.ADDR p ∧ x.etype = 0xAEFE ∧ x.ecpri = some e ∧ e.rev = 1 ∧ e.concat = false ∧ e.ebit = true ∧ e.msgType = 0
        ∧ (s1.edge k).flows.find? (fun y => flw y.2 F.FHL_FLOWf.PORT == p % 4 && flw y.2 F.FHL_FLOWf.EAXC == e.eaxc && [0, 2].contains (flw y.2 F.FHL_FLOWf.KIND) && flw y.2 F.FHL_FLOWf.DIR == 0) = some (f, v)
        ∧ flw v F.FHL_FLOWf.KIND = 0 ∧ (good = true ↔ x.src = flw v F.FHL_FLOWf.RUMAC ∧ e.dataDirection = 0 ∧ e.payloadVersion = 1 ∧ e.extension = false
        ∧ e.symbolId < 14 ∧ e.slotId < 2 ^ flw v F.FHL_FLOWf.MU ∧ e.subframeId < 10 ∧ ∀ y ∈ e.sections, y.startPrb + y.prbs.length ≤ flw v F.FHL_FLOWf.NPRB
        ∧ ∀ b ∈ y.prbs, b.length = iqBytes (flw v F.FHL_FLOWf.IQW)) ∧ s1.airOf (flw v F.FHL_FLOWf.MU) e = (nsym, air)) ∧
    (∃ (s : State) (k f v np rd ix : Nat) (nsym : Int) (miss : List Nat), k < 4 ∧ f < 4096 ∧ s.flow k f = some v ∧ flw v F.FHL_FLOWf.KIND = 0
        ∧ flw v F.FHL_FLOWf.DIR = 0 ∧ s.dieOut (28 + k) = false
        ∧ s.flowDue (s.flowSt k f).done nsym (fun n => s.airAt (flw v F.FHL_FLOWf.MU) n + flw v F.FHL_FLOWf.T2) = true ∧ np = flw v F.FHL_FLOWf.NPRB
        ∧ rd = flw v F.FHL_FLOWf.RD ∧ ix = ringIx (flw v F.FHL_FLOWf.NSYM) nsym
        ∧ miss = (List.range np).filter (fun i => !(s.flowSt k f).got.contains (count64 nsym, i))) ∧
    (∃ (s : State) (k f : Nat) (nsym : Int), k < 4 ∧ f < 4096
        ∧ (∀ v, s.flow k f = some v → flw v F.FHL_FLOWf.KIND ≠ 0 ∨ flw v F.FHL_FLOWf.DIR ≠ 0 ∨ s.dieOut (28 + k) = true ∨ s.flowDue (s.flowSt k f).done nsym (fun n => s.airAt (flw v F.FHL_FLOWf.MU) n + flw v F.FHL_FLOWf.T2) = false)) ∧
    (∃ (s u : State) (k f v : Nat) (nsym : Int), k < 4 ∧ f < 4096 ∧ s.txFlow k f 0 = some v ∧ u = s.flowMeet v 0 8
        ∧ s.flowDue (s.flowSt k f).done nsym (fun n => s.airAt (flw v F.FHL_FLOWf.MU) n - flw v F.FHL_FLOWf.T1 - 2000) = true) ∧
    (∃ (s : State) (k f : Nat) (nsym : Int), k < 4 ∧ f < 4096
        ∧ (∀ v, s.txFlow k f 0 = some v → s.flowDue (s.flowSt k f).done nsym (fun n => s.airAt (flw v F.FHL_FLOWf.MU) n - flw v F.FHL_FLOWf.T1 - 2000) = false)) ∧
    (∃ (s : State) (k f v np mx w base : Nat) (nsym : Int), k < 4 ∧ f < 4096 ∧ s.txFlow k f 0 = some v ∧ (s.flowSt k f).ready = some nsym
        ∧ s.airAt (flw v F.FHL_FLOWf.MU) nsym - flw v F.FHL_FLOWf.T1 ≤ (s.now : Int) ∧ np = flw v F.FHL_FLOWf.NPRB ∧ mx = flw v F.FHL_FLOWf.MAXPRB
        ∧ w = flw v F.FHL_FLOWf.IQW ∧ base = 64 + ringIx (flw v F.FHL_FLOWf.NSYM) nsym * np * 48) ∧
    (∃ (s : State) (k f : Nat) (nsym : Int), k < 4 ∧ f < 4096
        ∧ (∀ v, s.txFlow k f 0 = some v → (s.flowSt k f).ready ≠ some nsym ∨ (s.now : Int) < s.airAt (flw v F.FHL_FLOWf.MU) nsym - flw v F.FHL_FLOWf.T1)) ∧
    (∃ (s u : State) (k f v : Nat) (sc : Int), k < 4 ∧ f < 4096 ∧ s.txFlow k f 1 = some v ∧ u = s.flowMeet v 0 8
        ∧ s.flowDue (s.flowSt k f).done sc (fun n => s.airAt (flw v F.FHL_FLOWf.MU) (n * 14) - flw v F.FHL_FLOWf.T1 - 2000) = true) ∧
    (∃ (s : State) (k f : Nat) (sc : Int), k < 4 ∧ f < 4096
        ∧ (∀ v, s.txFlow k f 1 = some v → s.flowDue (s.flowSt k f).done sc (fun n => s.airAt (flw v F.FHL_FLOWf.MU) (n * 14) - flw v F.FHL_FLOWf.T1 - 2000) = false)) ∧
    (∃ (s x y : State) (k f v n ofs : Nat) (sc : Int), k < 4 ∧ f < 4096 ∧ s.txFlow k f 1 = some v ∧ (s.flowSt k f).ready = some sc
        ∧ s.airAt (flw v F.FHL_FLOWf.MU) (sc * 14) - flw v F.FHL_FLOWf.T1 ≤ (s.now : Int) ∧ ofs = 64 + ringIx (flw v F.FHL_FLOWf.NSYM) sc * 1024
        ∧ x = (s.modFlow k f fun w => { w with ready := none }).flowMeet v ofs 2 ∧ n = natOf (x.flowRead v ofs 2).1 ∧ y = x.flowMeet v (ofs + 2) n) ∧
    (∃ (s : State) (k f : Nat) (sc : Int), k < 4 ∧ f < 4096
        ∧ (∀ v, s.txFlow k f 1 = some v → (s.flowSt k f).ready ≠ some sc ∨ (s.now : Int) < s.airAt (flw v F.FHL_FLOWf.MU) (sc * 14) - flw v F.FHL_FLOWf.T1)) ∧
    (∃ (s u w : State) (k f v n prod cons : Nat), k < 4 ∧ f < 4096 ∧ s.txFlow k f 2 = some v ∧ u = s.gfskFill (gfskCar k f v) v
        ∧ n = flw v F.FHL_FLOWf.MAXPRB * 48 ∧ prod = natOf (u.flowRead v 0 4).1 ∧ cons = natOf (u.flowRead v 4 4).1
        ∧ w = u.meetAll ((ringAddrs v cons n).map (·, 1)) ∧ (prod + 2 ^ 32 - cons) % 2 ^ 32 < n) ∧
    (∃ (s u w : State) (k f v n prod cons : Nat), k < 4 ∧ f < 4096 ∧ s.txFlow k f 2 = some v ∧ u = s.gfskFill (gfskCar k f v) v
        ∧ n = flw v F.FHL_FLOWf.MAXPRB * 48 ∧ prod = natOf (u.flowRead v 0 4).1 ∧ cons = natOf (u.flowRead v 4 4).1
        ∧ w = u.meetAll ((ringAddrs v cons n).map (·, 1)) ∧ n ≤ (prod + 2 ^ 32 - cons) % 2 ^ 32) ∧
    (∃ (s : State) (k f : Nat), k < 4 ∧ f < 4096 ∧ s.txFlow k f 2 = none) ∧
    (∃ (s : State) (p : Nat) (link fec : Bool), p < 16) :=
  ⟨⟨State.reset, 15, { dst := 0, src := 0, tag := none, etype := 0, len := 64, fcsOk := true, ecpri := none }, by decide⟩,
    ⟨fh0 0, 0, { dst := 0, src := 0, tag := none, etype := 0x8808, len := 9216, fcsOk := true, ecpri := none }, by decide⟩,
    ⟨fh0 0, (fh0 0).incFld F.FHL_Pp_CNT.WORD 0, 0, { dst := 0, src := 0, tag := none, etype := 0, len := 64, fcsOk := true, ecpri := none },
      some { dst := 0, src := 0, tag := none, etype := 0, len := 64, fcsOk := true, ecpri := none }, by decide⟩,
    ⟨fhN (fhV 0 0), (fhN (fhV 0 0)).incFld F.FHL_Pp_CNT.WORD (0 * 11), 0, 0, 0, 3220153190253367231847759974105532871460508343010055073890309, frE, frE,
      _, true, _, _, by decide, by decide, by decide, by decide, by decide, by decide, by decide, by decide, by decide, by decide, rfl, by decide,
      by decide, by decide, by decide, by decide, by decide, by decide, rfl⟩,
    ⟨(fhN (fhV 0 0)).modFlow 0 0 (fun x => { x with done := some 4, got := [(5, 0)] }), 0, 0,
      3220153190253367231847759974105532871460508343010055073890309, 1, 0, 5, 5, _, by decide, by decide, by decide, by decide, by decide, by decide,
      by decide, by decide, by decide, by decide, rfl⟩,
    ⟨State.reset, 3, 4095, 0, by decide⟩,
    ⟨(fhN (fhV 0 1)).modFlow 0 0 (fun x => { x with done := some 4 }), _, 0, 0, 3220153190253367231847759974105532871460508343010055074021381, 5,
      by decide, by decide, by decide, rfl, by decide⟩,
    ⟨State.reset, 3, 4095, 0, by decide⟩,
    ⟨(fhN (fhV 0 1)).modFlow 0 0 (fun x => { x with ready := some 5 }), 0, 0, 3220153190253367231847759974105532871460508343010055074021381, 1, 1, 0, 304,
      _, by decide, by decide, by decide, rfl, by decide⟩,
    ⟨State.reset, 3, 4095, 0, by decide⟩,
    ⟨(fhN (fhV 1 1)).modFlow 0 0 (fun x => { x with done := some 4 }), _, 0, 0, 3220153190253367231847759974105532871460508343010055074283525, 5,
      by decide, by decide, by decide, rfl, by decide⟩,
    ⟨State.reset, 3, 4095, 0, by decide⟩,
    ⟨(fhN (fhV 1 1)).modFlow 0 0 (fun x => { x with ready := some 5 }), _, _, 0, 0, 3220153190253367231847759974105532871460508343010055074283525, 0,
      5184, 5, by decide, by decide, by decide, by decide, by decide, by decide, rfl, by decide, rfl⟩,
    ⟨State.reset, 3, 4095, 0, by decide⟩,
    ⟨fhN (fhV 2 1), _, _, 0, 0, 3220153190253367231847759974105532871460508343010055074545669, 48, 0, 0, by decide, by decide, by decide, rfl, by decide,
      by decide, by decide, rfl, by decide⟩,
    ⟨(fhN (fhV 2 1)).write 0x8100000000 [48#8], _, _, 0, 0, 3220153190253367231847759974105532871460508343010055074545669, 48, 48, 0, by decide,
      by decide, by decide, rfl, by decide, by decide, by decide, rfl, by decide⟩,
    ⟨State.reset, 3, 4095, by decide⟩,
    ⟨State.reset, 15, true, true, by decide⟩⟩

/-- The hypotheses of `Obligations.SwitchCommandsComplete`, clause by clause (part 1 of 2). -/
theorem meets_switchCommandsComplete_a :
    (∃ (s : State) (k addr vid : Nat) (m : _), k < 4 ∧ addr < 2 ^ 48 ∧ vid < 4096 ∧ s.macEnt k addr vid = some m ∧ m.pinned = false
        ∧ m.seen + clamp 10 4095 (s.fld F.FHL_SW_CTRL.AGE k) * oneSecond ≤ s.tmb.clk) ∧
    (∃ (s : State) (k addr vid : Nat), k < 4 ∧ addr < 2 ^ 48 ∧ vid < 4096
        ∧ (∀ m, s.macEnt k addr vid = some m → m.pinned = true ∨ s.tmb.clk < m.seen + clamp 10 4095 (s.fld F.FHL_SW_CTRL.AGE k) * oneSecond)) ∧
    (∃ (s : State) (k a v p : Nat), k < 4 ∧ s.flag F.FHL_MAC_OP.BUSY k = false ∧ s.takesWrite .FHL_MAC_OP k = true ∧ a = s.fld F.FHL_MAC_KEY.ADDR k
        ∧ v = s.fld F.FHL_MAC_KEY.VID k ∧ p = s.fld F.FHL_MAC_KEY.PORT k ∧ p ≤ 4 ∧ s.flag F.FHL_SW_STATUS.FULL k = false ∧ s.macEnt k a v = none) ∧
    (∃ (s : State) (k a v p : Nat) (m : _), k < 4 ∧ s.flag F.FHL_MAC_OP.BUSY k = false ∧ s.takesWrite .FHL_MAC_OP k = true
        ∧ a = s.fld F.FHL_MAC_KEY.ADDR k ∧ v = s.fld F.FHL_MAC_KEY.VID k ∧ p = s.fld F.FHL_MAC_KEY.PORT k ∧ p ≤ 4 ∧ s.flag F.FHL_SW_STATUS.FULL k = false
        ∧ s.macEnt k a v = some m) ∧
    (∃ (s : State) (k a v p : Nat), k < 4 ∧ s.flag F.FHL_MAC_OP.BUSY k = false ∧ s.takesWrite .FHL_MAC_OP k = true ∧ a = s.fld F.FHL_MAC_KEY.ADDR k
        ∧ v = s.fld F.FHL_MAC_KEY.VID k ∧ p = s.fld F.FHL_MAC_KEY.PORT k ∧ (4 < p ∨ s.flag F.FHL_SW_STATUS.FULL k = true)) ∧
    (∃ (s : State) (k a v p : Nat), k < 4 ∧ s.flag F.FHL_MAC_OP.BUSY k = false ∧ s.takesWrite .FHL_MAC_OP k = true ∧ a = s.fld F.FHL_MAC_KEY.ADDR k
        ∧ v = s.fld F.FHL_MAC_KEY.VID k ∧ p = s.fld F.FHL_MAC_KEY.PORT k) ∧
    (∃ (s : State) (k a v p : Nat) (m : _), k < 4 ∧ s.flag F.FHL_MAC_OP.BUSY k = false ∧ s.takesWrite .FHL_MAC_OP k = true
        ∧ a = s.fld F.FHL_MAC_KEY.ADDR k ∧ v = s.fld F.FHL_MAC_KEY.VID k ∧ p = s.fld F.FHL_MAC_KEY.PORT k ∧ s.macEnt k a v = some m) ∧
    (∃ (s : State) (k a v p : Nat), k < 4 ∧ s.flag F.FHL_MAC_OP.BUSY k = false ∧ s.takesWrite .FHL_MAC_OP k = true ∧ a = s.fld F.FHL_MAC_KEY.ADDR k
        ∧ v = s.fld F.FHL_MAC_KEY.VID k ∧ p = s.fld F.FHL_MAC_KEY.PORT k ∧ s.macEnt k a v = none) ∧
    (∃ (s : State) (k a v p : Nat), k < 4 ∧ s.flag F.FHL_MAC_OP.BUSY k = false ∧ s.takesWrite .FHL_MAC_OP k = true ∧ a = s.fld F.FHL_MAC_KEY.ADDR k
        ∧ v = s.fld F.FHL_MAC_KEY.VID k ∧ p = s.fld F.FHL_MAC_KEY.PORT k ∧ p ≤ 4) ∧
    (∃ (s : State) (k a v p : Nat), k < 4 ∧ s.flag F.FHL_MAC_OP.BUSY k = false ∧ s.takesWrite .FHL_MAC_OP k = true ∧ a = s.fld F.FHL_MAC_KEY.ADDR k
        ∧ v = s.fld F.FHL_MAC_KEY.VID k ∧ p = s.fld F.FHL_MAC_KEY.PORT k ∧ 4 < p) ∧
    (∃ (s : State) (k : Nat) (p : _), k < 4 ∧ (s.edge k).flush = some p) ∧
    (∃ (s : State) (k : Nat), k < 4 ∧ (s.edge k).flush = none) ∧
    (∃ (s : State) (k : Nat), k < 4 ∧ (s.flag F.FHL_MAC_OP.BUSY k = true ∨ s.takesWrite .FHL_MAC_OP k = false)) ∧
    (∃ (s : State) (k p q : Nat) (fr : Frame) (l : List Frame), k < 4 ∧ p < 4 ∧ s.portUp (4 * k + p) = true ∧ s.fhSends = true ∧ s.dieOut (28 + k) = false
        ∧ (List.range 8).reverse.find? (fun q => s.mayStart k p q) = some q ∧ SMap.get [] (s.edge k).out (8 * p + q) = fr :: l) :=
  ⟨⟨{ State.reset.modEdge 3 (fun e => { e with mac := [{ addr := 5, vid := 1, port := 2 }] }) with tmb := { clk := 4095 * oneSecond } }, 3, 5, 1, _,
      by decide, by decide, by decide, rfl, by decide⟩,
    ⟨{ State.reset.modEdge 3 (fun e => { e with mac := [{ addr := 5, vid := 1, port := 2 }] }) with tmb := { clk := 4095 * oneSecond } }, 3, 3, 4095,
      by decide⟩,
    ⟨{ State.reset.modEdge 3 (fun e => { e with mac := [{ addr := 5, vid := 1, port := 2 }] }) with tmb := { clk := 4095 * oneSecond } }, 3, 0, 0, 0,
      by decide⟩,
    ⟨(st [(F.FHL_MAC_KEY.ADDR, 3, 5)]).modEdge 3 (fun e => { e with mac := [{ addr := 5, vid := 0, port := 2 }] }), 3, 5, 0, 0, _, by decide, by decide,
      by decide, by decide, by decide, by decide, by decide, by decide, rfl⟩,
    ⟨(({ State.reset.modEdge 3 (fun e => { e with mac := [{ addr := 5, vid := 1, port := 2 }] }) with tmb := { clk := 4095 * oneSecond } }).setFld F.FHL_MAC_OP.BUSY 3 0).setFld F.FHL_SW_STATUS.FULL 3 1,
      3, 0, 0, 0, by decide⟩,
    ⟨{ State.reset.modEdge 3 (fun e => { e with mac := [{ addr := 5, vid := 1, port := 2 }] }) with tmb := { clk := 4095 * oneSecond } }, 3, 0, 0, 0,
      by decide⟩,
    ⟨(st [(F.FHL_MAC_KEY.ADDR, 3, 5)]).modEdge 3 (fun e => { e with mac := [{ addr := 5, vid := 0, port := 2 }] }), 3, 5, 0, 0, _, by decide, by decide,
      by decide, by decide, by decide, by decide, rfl⟩,
    ⟨{ State.reset.modEdge 3 (fun e => { e with mac := [{ addr := 5, vid := 1, port := 2 }] }) with tmb := { clk := 4095 * oneSecond } }, 3, 0, 0, 0,
      by decide⟩,
    ⟨{ State.reset.modEdge 3 (fun e => { e with mac := [{ addr := 5, vid := 1, port := 2 }] }) with tmb := { clk := 4095 * oneSecond } }, 3, 0, 0, 0,
      by decide⟩,
    ⟨st [(F.FHL_MAC_KEY.PORT, 3, 5)], 3, 0, 0, 5, by decide⟩,
    ⟨State.reset.modEdge 3 (fun e => { e with flush := some 2, mac := [{ addr := 5, vid := 0, port := 2 }, { addr := 6, vid := 0, port := 3 }] }), 3, _,
      by decide, rfl⟩,
    ⟨{ State.reset.modEdge 3 (fun e => { e with mac := [{ addr := 5, vid := 1, port := 2 }] }) with tmb := { clk := 4095 * oneSecond } }, 3, by decide⟩,
    ⟨({ State.reset.modEdge 3 (fun e => { e with mac := [{ addr := 5, vid := 1, port := 2 }] }) with tmb := { clk := 4095 * oneSecond } }).setFld F.FHL_MAC_OP.BUSY 3 1,
      3, by decide⟩,
    ⟨fhOut, 0, 0, 6, { dst := 1, src := 2, tag := none, etype := 0, len := 64, fcsOk := true, ecpri := none }, [], by decide⟩⟩

/-- The hypotheses of `Obligations.SwitchCommandsComplete`, clause by clause (part 2 of 2). -/
theorem meets_switchCommandsComplete_b :
    (∃ (s : State) (k q : Nat) (fr : Frame) (l : List Frame), k < 4 ∧ s.dieOut (28 + k) = false
        ∧ (List.range 8).reverse.find? (fun q => s.mayStart k 4 q) = some q ∧ SMap.get [] (s.edge k).out (32 + q) = fr :: l) ∧
    (∃ (s : State) (k p : Nat), k < 4 ∧ p < 5 ∧ ((p < 4
        ∧ (s.portUp (4 * k + p) = false ∨ s.fhSends = false)) ∨ s.dieOut (28 + k) = true ∨ (∀ q < 8, s.mayStart k p q = false))) ∧
    (∃ (s : State) (k p q x : Nat) (v : Word), k < 4 ∧ p < 4 ∧ q < 7 ∧ x = (4 * k + p) * 7 + q ∧ s.takesWrite .FHL_Pp_SHq x = true) ∧
    (∃ (s : State) (k p q x : Nat) (v : Word), k < 4 ∧ p < 4 ∧ q < 7 ∧ x = (4 * k + p) * 7 + q ∧ s.takesWrite .FHL_Pp_SHq x = false) ∧
    (∃ (s u : State) (k i x : Nat) (v : Word), k < 4 ∧ i < 64 ∧ x = 64 * k + i
        ∧ u = (s.modEdge k fun e => { e with polOld := SMap.set none e.polOld i (some (s.polCfg x)) }) ∧ s.takesWrite .FHL_POLi x = true) ∧
    (∃ (s u : State) (k i x : Nat) (v : Word) (w : _), k < 4 ∧ i < 64 ∧ x = 64 * k + i
        ∧ u = (s.modEdge k fun e => { e with polOld := SMap.set none e.polOld i (some (s.polCfg x)) }) ∧ s.takesWrite .FHL_POLi x = false ∧ w < 4) ∧
    (∃ (s u w : State) (k base log2 cons n : Nat), k < 4 ∧ s.flag F.PKG_NETQ_TX.EN k = true ∧ s.dieOut (28 + k) = false
        ∧ base = s.fld F.PKG_NETQ_TX.BASE k * 64 ∧ log2 = clamp 4 10 (s.fld F.PKG_NETQ_TX.LOG2 k) ∧ s.netRam k base log2 = true ∧ cons = s.ringCons base
        ∧ cons ≠ s.ringProd base ∧ u = (s.meet (netSlot base log2 cons) 9216).meet (netSlot base log2 cons + 9216) 2
        ∧ n = u.readNat (netSlot base log2 cons + 9216) 2 ∧ w = u.put 0 (base + 4) (bytesOf 4 ((cons + 1) % 2 ^ 32)) ∧ 64 ≤ n ∧ n ≤ 9216
        ∧ w.rangePoison (netSlot base log2 cons) n = false) ∧
    (∃ (s u w : State) (k base log2 cons n : Nat), k < 4 ∧ s.flag F.PKG_NETQ_TX.EN k = true ∧ s.dieOut (28 + k) = false
        ∧ base = s.fld F.PKG_NETQ_TX.BASE k * 64 ∧ log2 = clamp 4 10 (s.fld F.PKG_NETQ_TX.LOG2 k) ∧ s.netRam k base log2 = true ∧ cons = s.ringCons base
        ∧ cons ≠ s.ringProd base ∧ u = (s.meet (netSlot base log2 cons) 9216).meet (netSlot base log2 cons + 9216) 2
        ∧ n = u.readNat (netSlot base log2 cons + 9216) 2 ∧ w = u.put 0 (base + 4) (bytesOf 4 ((cons + 1) % 2 ^ 32))
        ∧ (n < 64 ∨ 9216 < n ∨ w.rangePoison (netSlot base log2 cons) n = true)) ∧
    (∃ (s : State) (k base : Nat), k < 4 ∧ base = s.fld F.PKG_NETQ_TX.BASE k * 64
        ∧ (s.flag F.PKG_NETQ_TX.EN k = false ∨ s.dieOut (28 + k) = true ∨ s.netRam k base (clamp 4 10 (s.fld F.PKG_NETQ_TX.LOG2 k)) = false ∨ s.ringCons base = s.ringProd base)) :=
  ⟨⟨State.reset.modEdge 3 (fun e => { e with out := [(34, [{ dst := 1, src := 2, tag := none, etype := 0, len := 64, fcsOk := true, ecpri := none }])] }),
      3, 2, { dst := 1, src := 2, tag := none, etype := 0, len := 64, fcsOk := true, ecpri := none }, [], by decide⟩,
    ⟨{ State.reset.modEdge 3 (fun e => { e with mac := [{ addr := 5, vid := 1, port := 2 }] }) with tmb := { clk := 4095 * oneSecond } }, 3, 4, by decide⟩,
    ⟨{ State.reset.modEdge 3 (fun e => { e with mac := [{ addr := 5, vid := 1, port := 2 }] }) with tmb := { clk := 4095 * oneSecond } }, 3, 3, 6, 111,
      0xFFFFFFFFFFFFFFFF#64, by decide⟩,
    ⟨allOff, 3, 3, 6, 111, 0xFFFFFFFFFFFFFFFF#64, by decide⟩,
    ⟨{ State.reset.modEdge 3 (fun e => { e with mac := [{ addr := 5, vid := 1, port := 2 }] }) with tmb := { clk := 4095 * oneSecond } }, _, 3, 63, 255,
      0xFFFFFFFFFFFFFFFF#64, by decide, by decide, by decide, rfl, by decide⟩,
    ⟨State.reset.setDieBit true 31 true, _, 3, 63, 255, 0xFFFFFFFFFFFFFFFF#64, 3, by decide, by decide, by decide, rfl, by decide⟩,
    ⟨nqTx, _, _, 3, 549755813888, 4, 0, 64, by decide, by decide, by decide, by decide, by decide, by decide, by decide, by decide, rfl, by decide, rfl,
      by decide⟩,
    ⟨nqTx.write (0x8000000040 + 9216) [10#8], _, _, 3, 549755813888, 4, 0, 10, by decide, by decide, by decide, by decide, by decide, by decide,
      by decide, by decide, rfl, by decide, rfl, by decide⟩,
    ⟨{ State.reset.modEdge 3 (fun e => { e with mac := [{ addr := 5, vid := 1, port := 2 }] }) with tmb := { clk := 4095 * oneSecond } }, 3, 0, by decide⟩⟩

/-- The hypotheses of `Obligations.FabricRequestsServed`, clause by clause. -/
theorem meets_fabricRequestsServed :
    (∃ (s : State) (i : Instr) (l ty : Nat) (p : Packet) (e : Ecc), IsRequest i l p e ty ∧ s.mmio = []
        ∧ (s.linkUp l = false ∨ s.expelled p.src = true ∨ s.fabOn p.ty = false)) ∧
    (∃ (s : State) (i : Instr) (l ty : Nat) (p : Packet) (e : Ecc), IsRequest i l p e ty ∧ s.mmio = [] ∧ s.linkUp l = true ∧ s.expelled p.src = false
        ∧ s.fabOn p.ty = true ∧ (p.ty = 0 ∨ 10 < p.ty)) ∧
    (∃ (s : State) (i : Instr) (l ty : Nat) (p : Packet) (e : Ecc), IsRequest i l p e ty ∧ s.mmio = [] ∧ s.linkUp l = true ∧ s.expelled p.src = false
        ∧ s.fabOn p.ty = true ∧ 1 ≤ p.ty ∧ p.ty ≤ 10 ∧ p.ty ≠ ty) ∧
    (∃ (s : State) (i : Instr) (l ty : Nat) (p : Packet) (e : Ecc), IsRequest i l p e ty ∧ s.mmio = [] ∧ s.linkUp l = true ∧ s.expelled p.src = false
        ∧ s.fabOn p.ty = true ∧ p.ty = ty ∧ p.dst ≠ s.sysid) ∧
    (∃ (s : State) (i : Instr) (l a n k : Nat) (p : Packet), ((i = .fabricRdl l p ∧ Comes s p 1 ∧ a = p.addr / 64 * 64 ∧ n = 64) ∨ (i = .fabricRds l p
        ∧ Comes s p 2 ∧ a = p.addr ∧ n = p.mlen % 8 + 1)) ∧ l < 64 ∧ s.linkUp l = true ∧ s.refused l p a n = some k) ∧
    (∃ (s u : State) (i : Instr) (l a n : Nat) (p : Packet) (o : _), ((i = .fabricRdl l p ∧ Comes s p 1 ∧ a = p.addr / 64 * 64
        ∧ n = 64) ∨ (i = .fabricRds l p ∧ Comes s p 2 ∧ a = p.addr ∧ n = p.mlen % 8 + 1)) ∧ l < 64 ∧ s.linkUp l = true ∧ s.refused l p a n = none
        ∧ u = (if Config.freeValue s.free % 2 = 1 then { s with free := s.free + 1 }.incFld F.FAB_CNT.LATE_REPLY else { s with free := s.free + 1 })
        ∧ place (faOfs a) = .regs o) ∧
    (∃ (s u : State) (i : Instr) (l a n : Nat) (p : Packet) (v : _), ((i = .fabricRdl l p ∧ Comes s p 1 ∧ a = p.addr / 64 * 64
        ∧ n = 64) ∨ (i = .fabricRds l p ∧ Comes s p 2 ∧ a = p.addr ∧ n = p.mlen % 8 + 1)) ∧ l < 64 ∧ s.linkUp l = true ∧ s.refused l p a n = none
        ∧ u = (if Config.freeValue s.free % 2 = 1 then { s with free := s.free + 1 }.incFld F.FAB_CNT.LATE_REPLY else { s with free := s.free + 1 })
        ∧ (∀ o, place (faOfs a) ≠ .regs o) ∧ v = u.meet (faOfs a) n) ∧
    (∃ (s : State) (l : Nat) (p : Packet) (e : Ecc) (d : List Byte) (pois : Bool) (k : _), l < 64 ∧ s.linkUp l = true ∧ Comes s p 3 ∧ d = p.payload.take 8
        ∧ pois = (p.poison || p.payPoison.any id) ∧ s.refused l p p.addr (max 1 d.length) = some k) ∧
    (∃ (s : State) (l : Nat) (p : Packet) (e : Ecc) (d : List Byte) (pois : Bool), l < 64 ∧ s.linkUp l = true ∧ Comes s p 3 ∧ d = p.payload.take 8
        ∧ pois = (p.poison || p.payPoison.any id) ∧ s.refused l p p.addr (max 1 d.length) = none) ∧
    (∃ (s : State) (l : Nat) (p : Packet) (e : Ecc), l < 64 ∧ s.linkUp l = true ∧ Comes s p 4 ∧ (faClass p.addr = 3 ∨ p.addr % 8 ≠ 0)) ∧
    (∃ (s : State) (l : Nat) (p : Packet) (e : Ecc) (k : _), l < 64 ∧ s.linkUp l = true ∧ Comes s p 4 ∧ faClass p.addr ≠ 3 ∧ p.addr % 8 = 0
        ∧ s.refused l p p.addr 8 = some k) ∧
    (∃ (s : State) (l : Nat) (p : Packet) (e : Ecc) (op new fn : Nat) (sgn pois : Bool) (u : State) (r : Nat × Bool × State), l < 64 ∧ s.linkUp l = true
        ∧ Comes s p 4 ∧ faClass p.addr ≠ 3 ∧ p.addr % 8 = 0 ∧ s.refused l p p.addr 8 = none ∧ op = natOf (slice p.payload 0 8)
        ∧ new = natOf (slice p.payload 8 8) ∧ fn = bits (natOf (slice p.payload 16 1)) 1 0 ∧ sgn = bit (natOf (slice p.payload 16 1)) 2
        ∧ pois = (p.poison || p.payPoison.any id)
        ∧ u = (s.obs 7 p.src (4 + 8 * 16 + (fn + 4 * b2n sgn) * 256) p.addr (p.payload.take 16) pois).service.strike e
        ∧ r = u.atomic 0 (faOfs p.addr) fn sgn op new pois) ∧
    (∃ (s u : State) (l q n : Nat) (last : Bool) (p : Packet), l < 64 ∧ s.linkUp l = true ∧ Comes s p 5 ∧ q = p.addr % 4096 ∧ n = p.mlen + 1
        ∧ last = (p.seg + 1 == (n + 4095) / 4096) ∧ (s.mq q).seen.contains (p.src, p.tag) = true) ∧
    (∃ (s u : State) (l q n : Nat) (last : Bool) (p : Packet) (deny : Option Nat) (k : _), l < 64 ∧ s.linkUp l = true ∧ Comes s p 5 ∧ q = p.addr % 4096
        ∧ n = p.mlen + 1 ∧ last = (p.seg + 1 == (n + 4095) / 4096) ∧ (s.mq q).seen.contains (p.src, p.tag) = false ∧ deny = (if s.replaying = true
        ∧ s.inSet p.src = false then some 2 else if s.fld F.FAB_Ll_STATUS.LVL l < 3 ∧ 65536 < n then some 5 else s.msgRefused q p.ftid n) ∧ deny = some k
        ∧ u = s.setMq q ((s.mq q).purge p.src p.tag)) ∧
    (∃ (s u : State) (l q n : Nat) (last : Bool) (p : Packet) (deny : Option Nat), l < 64 ∧ s.linkUp l = true ∧ Comes s p 5 ∧ q = p.addr % 4096
        ∧ n = p.mlen + 1 ∧ last = (p.seg + 1 == (n + 4095) / 4096) ∧ (s.mq q).seen.contains (p.src, p.tag) = false ∧ deny = (if s.replaying = true
        ∧ s.inSet p.src = false then some 2 else if s.fld F.FAB_Ll_STATUS.LVL l < 3 ∧ 65536 < n then some 5 else s.msgRefused q p.ftid n) ∧ deny = none
        ∧ u = s.setMq q { s.mq q with parts := ((s.mq q).parts.filter fun (a, b, c, _, _) => !(a == p.src && b == p.tag && c == p.seg)) ++ [(p.src, p.tag, p.seg, p.payload, (List.range ((p.payload.length + 63) / 64)).map fun i => p.poison || p.payPoison.getD i false)] }
        ∧ (last = false ∨ (u.mq q).whole p.src p.tag n = none)) ∧
    (∃ (s u : State) (l q n : Nat) (last : Bool) (p : Packet) (deny : Option Nat) (d : List Byte) (pois : List Bool) (stt : Nat) (v : State), l < 64
        ∧ s.linkUp l = true ∧ Comes s p 5 ∧ q = p.addr % 4096 ∧ n = p.mlen + 1 ∧ last = (p.seg + 1 == (n + 4095) / 4096)
        ∧ (s.mq q).seen.contains (p.src, p.tag) = false ∧ deny = (if s.replaying = true
        ∧ s.inSet p.src = false then some 2 else if s.fld F.FAB_Ll_STATUS.LVL l < 3 ∧ 65536 < n then some 5 else s.msgRefused q p.ftid n) ∧ deny = none
        ∧ u = s.setMq q { s.mq q with parts := ((s.mq q).parts.filter fun (a, b, c, _, _) => !(a == p.src && b == p.tag && c == p.seg)) ++ [(p.src, p.tag, p.seg, p.payload, (List.range ((p.payload.length + 63) / 64)).map fun i => p.poison || p.payPoison.getD i false)] }
        ∧ last = true ∧ (u.mq q).whole p.src p.tag n = some (d, pois) ∧ u.accept q p.src p.ftid d pois = (stt, v)) ∧
    (∃ (s : State) (p : Packet) (k ty : Nat) (d : List Byte) (pois : Bool), ((p.ty = 1 ∨ p.ty = 2 ∨ p.ty = 4) ∧ ty = 8 ∨ (p.ty = 3 ∨ 5 ≤ p.ty ∧ p.ty ≤ 7)
        ∧ ty = 9)) :=
  ⟨⟨fi0, .fabricRdl 1 (rq 1 0), 1, 1, rq 1 0, .clean, ⟨by decide, .inl ⟨rfl, rfl⟩⟩, by decide⟩,
    ⟨fi0, .fabricRdl 0 (rq 0 0), 0, 1, rq 0 0, .clean, ⟨by decide, .inl ⟨rfl, rfl⟩⟩, by decide⟩,
    ⟨fi0, .fabricRdl 0 (rq 2 0), 0, 1, rq 2 0, .clean, ⟨by decide, .inl ⟨rfl, rfl⟩⟩, by decide⟩,
    ⟨fi0, .fabricRdl 0 ({ rq 1 0 with dst := 3 }), 0, 1, { rq 1 0 with dst := 3 }, .clean, ⟨by decide, .inl ⟨rfl, rfl⟩⟩, by decide⟩,
    ⟨fi0, .fabricRdl 0 ({ ty := 1, src := 3, addr := 2 ^ 48 }), 0, 281474976710656, 64, 6, { ty := 1, src := 3, addr := 2 ^ 48 },
      .inl ⟨rfl, by decide, rfl, rfl⟩, by decide⟩,
    ⟨fi0, _, .fabricRdl 0 ({ ty := 1, src := 3, addr := 3 * 2 ^ 52 + 0xFF00100000 }), 0, 13511894099820544, 64,
      { ty := 1, src := 3, addr := 3 * 2 ^ 52 + 0xFF00100000 }, 1048576, .inl ⟨rfl, by decide, rfl, rfl⟩, by decide, by decide, by decide, rfl, by decide⟩,
    ⟨fi0, _, .fabricRdl 0 (rq 1 0x8100000000), 0, 9007753305522176, 64, rq 1 0x8100000000, _, .inl ⟨rfl, by decide, rfl, rfl⟩, by decide, by decide,
      by decide, rfl, (by intro o h; exact absurd (h.symm.trans (show place _ = .rsram 0 0 from by decide)) (by simp)), rfl⟩,
    ⟨fi0, 0, { ty := 3, src := 3, addr := 2 * 2 ^ 52 + 0x8100000007, ftid := 1 }, .clean, _, false, _, by decide, by decide, by decide, rfl, by decide,
      rfl⟩,
    ⟨fi0, 0, { ty := 3, src := 3, addr := 2 * 2 ^ 52 + 0x8100000007, payload := [1#8, 2#8] }, .clean, _, false, by decide, by decide, by decide, rfl,
      by decide⟩,
    ⟨fi0, 0, { ty := 4, src := 3, addr := 2 * 2 ^ 52 + 0x8100000001 }, .clean, by decide⟩,
    ⟨fi0, 0, { ty := 4 }, .clean, _, by decide, by decide, by decide, by decide, by decide, rfl⟩,
    ⟨fi0, 0, { ty := 4, src := 3, addr := 2 * 2 ^ 52 + 0x8100000008, payload := [1#8] }, .clean, 1, 0, 0, false, false, _, _, by decide, by decide,
      by decide, by decide, by decide, by decide, by decide, by decide, by decide, by decide, by decide, rfl, rfl⟩,
    ⟨fi0.setMq 7 { seen := [(3, 9)] }, fi0, 0, 7, 2, true, { ty := 5, src := 3, addr := 7, tag := 9, mlen := 1, payload := [1#8, 2#8] }, by decide⟩,
    ⟨fi0, _, 0, 7, 2, true, { ty := 5, src := 3, addr := 7, tag := 9, mlen := 1, payload := [1#8, 2#8] }, _, _, by decide, by decide, by decide,
      by decide, by decide, by decide, by decide, rfl, rfl, rfl⟩,
    ⟨(fi0.setFld F.FAB_MQn.EN 7 1).setFld F.FAB_MQn.BASE 7 0x8100000000, _, 0, 7, 2, false,
      { ty := 5, src := 3, addr := 7, tag := 9, mlen := 1, seg := 1, payload := [1#8, 2#8] }, _, by decide, by decide, by decide, by decide, by decide,
      by decide, by decide, rfl, by decide, rfl, by decide⟩,
    ⟨(fi0.setFld F.FAB_MQn.EN 7 1).setFld F.FAB_MQn.BASE 7 0x8100000000, _, 0, 7, 2, true,
      { ty := 5, src := 3, addr := 7, tag := 9, mlen := 1, payload := [1#8, 2#8] }, _, _, _, 0, _, by decide, by decide, by decide, by decide, by decide,
      by decide, by decide, rfl, by decide, rfl, by decide, rfl, rfl⟩,
    ⟨fi0, { ty := 1, src := 3 }, 8, 8, [], true, by decide⟩⟩

/-- The hypotheses of `Obligations.FabricRepliesComplete`, clause by clause (part 1 of 3). -/
theorem meets_fabricRepliesComplete_a :
    (∃ (s : State) (i : Instr) (ty : Nat) (p : Packet), IsPacket i p ty ∧ s.mmio = [] ∧ (s.expelled p.src = true ∨ s.fabOn p.ty = false)) ∧
    (∃ (s : State) (i : Instr) (ty : Nat) (p : Packet), IsPacket i p ty ∧ s.mmio = [] ∧ s.expelled p.src = false ∧ s.fabOn p.ty = true
        ∧ (p.ty = 0 ∨ 10 < p.ty)) ∧
    (∃ (s : State) (i : Instr) (ty : Nat) (p : Packet), IsPacket i p ty ∧ s.mmio = [] ∧ s.expelled p.src = false ∧ s.fabOn p.ty = true ∧ 1 ≤ p.ty
        ∧ p.ty ≤ 10 ∧ p.ty ≠ ty) ∧
    (∃ (s : State) (i : Instr) (ty : Nat) (p : Packet), IsPacket i p ty ∧ s.mmio = [] ∧ s.expelled p.src = false ∧ s.fabOn p.ty = true ∧ p.ty = ty
        ∧ p.dst ≠ s.sysid) ∧
    (∃ (s : State) (p : Packet), Comes s p 6) ∧
    (∃ (s : State) (p : Packet), Comes s p 7) ∧
    (∃ (s : State) (b : Nat) (e c : _), b < 4096 ∧ (s.bar b).release = some (e, c) ∧ c ≤ s.gey.arr) ∧
    (∃ (s : State) (b : Nat), b < 4096 ∧ (∀ e c, (s.bar b).release = some (e, c) → s.gey.arr < c)) ∧
    (∃ (s : State) (b : Nat) (k : _), b < 4096 ∧ (s.bar b).sent = some k ∧ s.elapsed k (s.fld F.FAB_CTRL.BAR_TMO * 1000) = true) ∧
    (∃ (s : State) (b : Nat), b < 4096 ∧ (∀ k, (s.bar b).sent = some k → s.elapsed k (s.fld F.FAB_CTRL.BAR_TMO * 1000) = false)) ∧
    (∃ (s u : State) (i : Instr) (p : Packet) (k : Txn), IsReply i p ∧ Comes s p p.ty
        ∧ (s.fab.txns.find? fun t => t.tag == p.tag && (t.pkt.dst == p.src || p.status == 2)) = some k
        ∧ u = (if (s.tmb.clk - k.clk) * 4200 > s.roundTrip (s.rtClass k.pkt.dst + 1) * 625 then s.incFld F.FAB_CNT.LATE_REPLY else s) ∧ p.gen ≠ u.gen k.basin) ∧
    (∃ (s u : State) (i : Instr) (p : Packet) (k : Txn), IsReply i p ∧ Comes s p p.ty
        ∧ (s.fab.txns.find? fun t => t.tag == p.tag && (t.pkt.dst == p.src || p.status == 2)) = some k
        ∧ u = (if (s.tmb.clk - k.clk) * 4200 > s.roundTrip (s.rtClass k.pkt.dst + 1) * 625 then s.incFld F.FAB_CNT.LATE_REPLY else s) ∧ p.gen = u.gen k.basin
        ∧ (k.pkt.ty = 1 ∨ k.pkt.ty = 2) ∧ u.stillWaits k = false) ∧
    (∃ (s u : State) (i : Instr) (p : Packet) (k : Txn), IsReply i p ∧ Comes s p p.ty
        ∧ (s.fab.txns.find? fun t => t.tag == p.tag && (t.pkt.dst == p.src || p.status == 2)) = some k
        ∧ u = (if (s.tmb.clk - k.clk) * 4200 > s.roundTrip (s.rtClass k.pkt.dst + 1) * 625 then s.incFld F.FAB_CNT.LATE_REPLY else s) ∧ p.gen = u.gen k.basin
        ∧ (k.pkt.ty = 1 ∨ k.pkt.ty = 2) ∧ u.stillWaits k = true ∧ p.status = 0) ∧
    (∃ (s u : State) (i : Instr) (p : Packet) (k : Txn), IsReply i p ∧ Comes s p p.ty
        ∧ (s.fab.txns.find? fun t => t.tag == p.tag && (t.pkt.dst == p.src || p.status == 2)) = some k
        ∧ u = (if (s.tmb.clk - k.clk) * 4200 > s.roundTrip (s.rtClass k.pkt.dst + 1) * 625 then s.incFld F.FAB_CNT.LATE_REPLY else s) ∧ p.gen = u.gen k.basin
        ∧ (k.pkt.ty = 1 ∨ k.pkt.ty = 2) ∧ u.stillWaits k = true ∧ (p.status = 1 ∨ p.status = 6)) :=
  ⟨⟨State.reset, .fabricData (pk 8 0), 8, pk 8 0, .inl ⟨rfl, rfl⟩, by decide⟩,
    ⟨fi0, .fabricData (pk 0 0), 8, pk 0 0, .inl ⟨rfl, rfl⟩, by decide⟩,
    ⟨fi0, .fabricData (pk 9 0), 8, pk 9 0, .inl ⟨rfl, rfl⟩, by decide⟩,
    ⟨fi0, .fabricData (pk 8 3), 8, pk 8 3, .inl ⟨rfl, rfl⟩, by decide⟩,
    ⟨fi0, { ty := 6, src := 3, addr := 7 }, by decide⟩,
    ⟨fi0, { ty := 7, src := 3, addr := 7 }, by decide⟩,
    ⟨State.reset.setBar 4095 { release := some (0, 0) }, 4095, _, _, by decide, rfl, by decide⟩,
    ⟨fi0, 4095, by decide, (by intro e c h; exact absurd (h.symm.trans (show _ = none from rfl)) (by simp))⟩,
    ⟨{ State.reset.setBar 4095 { sent := some 0 } with tmb := { clk := 2 ^ 62 } }, 4095, _, by decide, rfl, by decide⟩,
    ⟨fi0, 4095, by decide⟩,
    ⟨fiT 3, _, .fabricAck ({ ak 0 with gen := 1 }), { ak 0 with gen := 1 }, _, .inr ⟨rfl, by decide⟩, by decide, rfl, rfl, by decide⟩,
    ⟨fiT 2, _, .fabricData (dt 0), dt 0, _, .inl ⟨rfl, by decide⟩, by decide, rfl, rfl, by decide⟩,
    ⟨fiL, _, .fabricData (dt 0), dt 0, _, .inl ⟨rfl, by decide⟩, by decide, rfl, rfl, by decide⟩,
    ⟨fiL, _, .fabricData (dt 1), dt 1, _, .inl ⟨rfl, by decide⟩, by decide, rfl, rfl, by decide⟩⟩

/-- The hypotheses of `Obligations.FabricRepliesComplete`, clause by clause (part 2 of 3). -/
theorem meets_fabricRepliesComplete_b :
    (∃ (s u : State) (i : Instr) (p : Packet) (k : Txn), IsReply i p ∧ Comes s p p.ty
        ∧ (s.fab.txns.find? fun t => t.tag == p.tag && (t.pkt.dst == p.src || p.status == 2)) = some k
        ∧ u = (if (s.tmb.clk - k.clk) * 4200 > s.roundTrip (s.rtClass k.pkt.dst + 1) * 625 then s.incFld F.FAB_CNT.LATE_REPLY else s) ∧ p.gen = u.gen k.basin
        ∧ (k.pkt.ty = 1 ∨ k.pkt.ty = 2) ∧ u.stillWaits k = true ∧ p.status ≠ 0 ∧ p.status ≠ 1 ∧ p.status ≠ 6) ∧
    (∃ (s u : State) (i : Instr) (p : Packet) (k : Txn), IsReply i p ∧ Comes s p p.ty
        ∧ (s.fab.txns.find? fun t => t.tag == p.tag && (t.pkt.dst == p.src || p.status == 2)) = some k
        ∧ u = (if (s.tmb.clk - k.clk) * 4200 > s.roundTrip (s.rtClass k.pkt.dst + 1) * 625 then s.incFld F.FAB_CNT.LATE_REPLY else s) ∧ p.gen = u.gen k.basin
        ∧ k.pkt.ty ≠ 1 ∧ k.pkt.ty ≠ 2 ∧ (p.status = 2 ∨ p.status = 4)) ∧
    (∃ (s u : State) (i : Instr) (p : Packet) (k : Txn), IsReply i p ∧ Comes s p p.ty
        ∧ (s.fab.txns.find? fun t => t.tag == p.tag && (t.pkt.dst == p.src || p.status == 2)) = some k
        ∧ u = (if (s.tmb.clk - k.clk) * 4200 > s.roundTrip (s.rtClass k.pkt.dst + 1) * 625 then s.incFld F.FAB_CNT.LATE_REPLY else s) ∧ p.gen = u.gen k.basin
        ∧ k.pkt.ty ≠ 1 ∧ k.pkt.ty ≠ 2 ∧ p.status = 0) ∧
    (∃ (s u : State) (i : Instr) (p : Packet) (k : Txn), IsReply i p ∧ Comes s p p.ty
        ∧ (s.fab.txns.find? fun t => t.tag == p.tag && (t.pkt.dst == p.src || p.status == 2)) = some k
        ∧ u = (if (s.tmb.clk - k.clk) * 4200 > s.roundTrip (s.rtClass k.pkt.dst + 1) * 625 then s.incFld F.FAB_CNT.LATE_REPLY else s) ∧ p.gen = u.gen k.basin
        ∧ k.pkt.ty ≠ 1 ∧ k.pkt.ty ≠ 2 ∧ p.status = 3 ∧ k.pkt.ty = 5 ∧ k.tries < 3) ∧
    (∃ (s u : State) (i : Instr) (p : Packet) (k : Txn), IsReply i p ∧ Comes s p p.ty
        ∧ (s.fab.txns.find? fun t => t.tag == p.tag && (t.pkt.dst == p.src || p.status == 2)) = some k
        ∧ u = (if (s.tmb.clk - k.clk) * 4200 > s.roundTrip (s.rtClass k.pkt.dst + 1) * 625 then s.incFld F.FAB_CNT.LATE_REPLY else s) ∧ p.gen = u.gen k.basin
        ∧ k.pkt.ty ≠ 1 ∧ k.pkt.ty ≠ 2 ∧ p.status ≠ 0 ∧ p.status ≠ 2 ∧ p.status ≠ 4 ∧ (p.status ≠ 3 ∨ k.pkt.ty ≠ 5 ∨ 3 ≤ k.tries)) ∧
    (∃ (s : State) (i : Instr) (p : Packet), IsReply i p ∧ Comes s p p.ty ∧ s.mmio = []
        ∧ (s.fab.txns.find? fun t => t.tag == p.tag && (t.pkt.dst == p.src || p.status == 2)) = none ∧ (s.fab.orphans.find? fun o => o.1 == p.tag) = none) ∧
    (∃ (s : State) (i : Instr) (p : Packet) (tag b : _), IsReply i p ∧ Comes s p p.ty ∧ s.mmio = []
        ∧ (s.fab.txns.find? fun t => t.tag == p.tag && (t.pkt.dst == p.src || p.status == 2)) = none
        ∧ (s.fab.orphans.find? fun o => o.1 == p.tag) = some (tag, b)) ∧
    (∃ (s : State) (tag : Nat) (k : _), (s.fab.txns.find? fun t => t.tag == tag) = some k ∧ (s.rtDead k.pkt.dst = true ∨ (k.link ≠ none ∧ k.link ≠ some 64
        ∧ s.elapsed k.clk (s.fld F.FAB_CTRL.TMO) = true))) ∧
    (∃ (s : State) (tag : Nat), s.mmio = [] ∧ (∀ k, (s.fab.txns.find? fun t => t.tag == tag) = some k → s.rtDead k.pkt.dst = false
        ∧ (k.link = none ∨ k.link = some 64 ∨ s.elapsed k.clk (s.fld F.FAB_CTRL.TMO) = false))) ∧
    (∃ (s : State) (tag : Nat) (k : _), (s.fab.txns.find? fun t => t.tag == tag) = some k ∧ k.pkt.ty = 5 ∧ k.link ≠ none
        ∧ s.elapsed k.clk (s.fld F.FAB_CTRL.MC_RTO) = true) ∧
    (∃ (s : State) (tag : Nat), (∀ k, (s.fab.txns.find? fun t => t.tag == tag) = some k → k.pkt.ty ≠ 5 ∨ k.link = none ∨ s.elapsed k.clk (s.fld F.FAB_CTRL.MC_RTO) = false)) ∧
    (∃ (s x w : State) (v : Word) (j : Nat), j = bits v.toNat 31 0 ∧ s.takesWrite .FAB_TEARDOWN 0 = true
        ∧ x = (s.setFld F.FAB_TEARDOWN.JOB 0 j).setFld F.FAB_TEARDOWN.OP 0 0 ∧ w = (if bit v.toNat 35 then x.setFld F.FAB_TEARDOWN.ERR 0 0 else x)
        ∧ ((s.fab.jobs.any fun e => e.1 == j) = true ∨ s.fab.jobs.length < 64)) ∧
    (∃ (s x w : State) (v : Word) (j : Nat), j = bits v.toNat 31 0 ∧ s.takesWrite .FAB_TEARDOWN 0 = true
        ∧ x = (s.setFld F.FAB_TEARDOWN.JOB 0 j).setFld F.FAB_TEARDOWN.OP 0 0 ∧ w = (if bit v.toNat 35 then x.setFld F.FAB_TEARDOWN.ERR 0 0 else x)
        ∧ (s.fab.jobs.any fun e => e.1 == j) = false ∧ 64 ≤ s.fab.jobs.length) ∧
    (∃ (s x w : State) (v : Word) (j : Nat), j = bits v.toNat 31 0 ∧ s.takesWrite .FAB_TEARDOWN 0 = true
        ∧ x = (s.setFld F.FAB_TEARDOWN.JOB 0 j).setFld F.FAB_TEARDOWN.OP 0 1 ∧ w = (if bit v.toNat 35 then x.setFld F.FAB_TEARDOWN.ERR 0 0 else x)
        ∧ (s.fab.jobs.any fun e => e.1 == j) = true) :=
  ⟨⟨fiL, _, .fabricData (dt 2), dt 2, _, .inl ⟨rfl, by decide⟩, by decide, rfl, rfl, by decide⟩,
    ⟨fiT 3, _, .fabricAck (ak 2), ak 2, _, .inr ⟨rfl, by decide⟩, by decide, rfl, rfl, by decide⟩,
    ⟨fiT 3, _, .fabricAck (ak 0), ak 0, _, .inr ⟨rfl, by decide⟩, by decide, rfl, rfl, by decide⟩,
    ⟨fiT 5, _, .fabricAck (ak 3), ak 3, _, .inr ⟨rfl, by decide⟩, by decide, rfl, rfl, by decide⟩,
    ⟨fiT 3, _, .fabricAck (ak 1), ak 1, _, .inr ⟨rfl, by decide⟩, by decide, rfl, rfl, by decide⟩,
    ⟨fi0, .fabricAck (ak 0), ak 0, .inr ⟨rfl, by decide⟩, by decide⟩,
    ⟨{ fi0 with fab := { fi0.fab with orphans := [(9, some 3)] } }, .fabricAck (ak 0), ak 0, 9, _, .inr ⟨rfl, by decide⟩, by decide, by decide, by decide,
      rfl⟩,
    ⟨{ fiT 3 with tmb := { clk := 2 ^ 62 } }, 9, _, rfl, by decide⟩,
    ⟨fi0, 4095, by decide⟩,
    ⟨{ fiT 5 with tmb := { clk := 2 ^ 62 } }, 9, _, rfl, by decide⟩,
    ⟨fi0, 4095, by decide⟩,
    ⟨fi0, _, _, 7#64, 7, by decide, by decide, rfl, rfl, by decide⟩,
    ⟨fi0.setJobs ((List.range 64).map (· + 100, true)), _, _, 7#64, 7, by decide, by decide, rfl, rfl, by decide⟩,
    ⟨fi0.setJobs [(7, true)], _, _, 7#64, 7, by decide, by decide, rfl, rfl, by decide⟩⟩

/-- The hypotheses of `Obligations.FabricRepliesComplete`, clause by clause (part 3 of 3). -/
theorem meets_fabricRepliesComplete_c :
    (∃ (s x w : State) (v : Word) (j : Nat), j = bits v.toNat 31 0 ∧ s.takesWrite .FAB_TEARDOWN 0 = true
        ∧ x = (s.setFld F.FAB_TEARDOWN.JOB 0 j).setFld F.FAB_TEARDOWN.OP 0 1 ∧ w = (if bit v.toNat 35 then x.setFld F.FAB_TEARDOWN.ERR 0 0 else x)
        ∧ (s.fab.jobs.any fun e => e.1 == j) = false) ∧
    (∃ (s : State) (v : Word), s.takesWrite .FAB_TEARDOWN 0 = false) ∧
    (∃ (s : State) (pod : Bool) (i : Nat) (v : Word), i < (if pod then 16 else 512) ∧ s.takesWrite (if pod then .FAB_PODRTp else .FAB_ROUTEi) i = true) ∧
    (∃ (s : State) (pod : Bool) (i : Nat) (v : Word), i < (if pod then 16 else 512) ∧ s.takesWrite (if pod then .FAB_PODRTp else .FAB_ROUTEi) i = false
        ∧ s.mmio = []) ∧
    (∃ (s : State) (b : Nat) (v : BitVec 32), b < 256 ∧ s.takesWrite .FAB_FTIDb b = true ∧ 0 < b ∧ s.fld F.BSN_STATEb.STATE b = 1 ∧ bits v.toNat 15 0 ≠ 0) ∧
    (∃ (s : State) (b : Nat) (v : BitVec 32), b < 256
        ∧ (s.takesWrite .FAB_FTIDb b = false ∨ b = 0 ∨ s.fld F.BSN_STATEb.STATE b ≠ 1 ∨ bits v.toNat 15 0 = 0)) :=
  ⟨⟨fi0, _, _, 7#64, 7, by decide, by decide, rfl, rfl, by decide⟩,
    ⟨allOff, 7#64, by decide⟩,
    ⟨fi0, true, 0, 7#64, by decide⟩,
    ⟨allOff, true, 0, 7#64, by decide⟩,
    ⟨(fi0).setFld F.BSN_STATEb.STATE 255 1, 255, 0xFFFFFFFF#32, by decide⟩,
    ⟨fi0, 255, 0xFFFFFFFF#32, by decide⟩⟩

/-- The hypotheses of `Obligations.LinksAndViewComplete`, clause by clause (part 1 of 3). -/
theorem meets_linksAndViewComplete_a :
    (∃ (s u : State) (l : Nat) (v : BitVec 32), l < 64 ∧ s.takesWrite .FAB_Ll_CTRL l = true ∧ u = s.setFld F.FAB_Ll_CTRL.EN l 1
        ∧ s.fld F.FAB_Ll_STATUS.STATE l = 7) ∧
    (∃ (s u : State) (l : Nat) (v : BitVec 32), l < 64 ∧ s.takesWrite .FAB_Ll_CTRL l = true ∧ u = s.setFld F.FAB_Ll_CTRL.EN l 1
        ∧ s.fld F.FAB_Ll_STATUS.STATE l ≠ 7 ∧ bit v.toNat 1 = true) ∧
    (∃ (s u : State) (l : Nat) (v : BitVec 32), l < 64 ∧ s.takesWrite .FAB_Ll_CTRL l = true ∧ u = s.setFld F.FAB_Ll_CTRL.EN l 1
        ∧ s.fld F.FAB_Ll_STATUS.STATE l ≠ 7 ∧ bit v.toNat 1 = false ∧ s.flag F.FAB_Ll_CTRL.EN l = true) ∧
    (∃ (s u : State) (l : Nat) (v : BitVec 32), l < 64 ∧ s.takesWrite .FAB_Ll_CTRL l = true ∧ u = s.setFld F.FAB_Ll_CTRL.EN l 1
        ∧ s.fld F.FAB_Ll_STATUS.STATE l ≠ 7 ∧ bit v.toNat 1 = false ∧ s.flag F.FAB_Ll_CTRL.EN l = false) ∧
    (∃ (s u : State) (l : Nat) (v : BitVec 32), l < 64 ∧ s.takesWrite .FAB_Ll_CTRL l = true ∧ u = s.setFld F.FAB_Ll_CTRL.EN l 1
        ∧ s.fld F.FAB_Ll_STATUS.STATE l ≠ 7 ∧ bit v.toNat 0 = true) ∧
    (∃ (s u : State) (l : Nat) (v : BitVec 32), l < 64 ∧ s.takesWrite .FAB_Ll_CTRL l = true ∧ u = s.setFld F.FAB_Ll_CTRL.EN l 1
        ∧ s.fld F.FAB_Ll_STATUS.STATE l ≠ 7 ∧ bit v.toNat 0 = false) ∧
    (∃ (s : State) (l : Nat) (v : BitVec 32), l < 64 ∧ s.takesWrite .FAB_Ll_CTRL l = false ∧ s.mmio = []) ∧
    (∃ (s : State) (l : Nat), l < 64) ∧
    (∃ (s x u : State) (l : Nat) (p : Partner) (v : _), l < 64 ∧ 1 ≤ s.fld F.FAB_Ll_STATUS.STATE l ∧ s.fld F.FAB_Ll_STATUS.STATE l < 5
        ∧ x = (if (s.link l).heldAt = none then s else s.dropHeld l)
        ∧ u = ((x.setFld F.FAB_Ll_STATUS.PARTNER l p.sysid).setFld F.FAB_Ll_STATUS.PLINK l p.plink).setFld F.FAB_Ll_STATUS.LM l p.lm
        ∧ u.expelled p.sysid = false ∧ p.sysid / 512 = u.sysid / 512 ∧ p.lm ≤ u.fld F.FAB_HOPC.LC ∧ commonLevel (u.fld F.FAB_CTRL.NATIVE) p.native = some v) ∧
    (∃ (s x u : State) (l : Nat) (p : Partner), l < 64 ∧ 1 ≤ s.fld F.FAB_Ll_STATUS.STATE l ∧ s.fld F.FAB_Ll_STATUS.STATE l < 5
        ∧ x = (if (s.link l).heldAt = none then s else s.dropHeld l)
        ∧ u = ((x.setFld F.FAB_Ll_STATUS.PARTNER l p.sysid).setFld F.FAB_Ll_STATUS.PLINK l p.plink).setFld F.FAB_Ll_STATUS.LM l p.lm
        ∧ (u.expelled p.sysid = true ∨ p.sysid / 512 ≠ u.sysid / 512 ∨ u.fld F.FAB_HOPC.LC < p.lm ∨ commonLevel (u.fld F.FAB_CTRL.NATIVE) p.native = none)) ∧
    (∃ (s : State) (l : Nat) (p : Partner), l < 64 ∧ s.mmio = [] ∧ (s.fld F.FAB_Ll_STATUS.STATE l = 0 ∨ 5 ≤ s.fld F.FAB_Ll_STATUS.STATE l)) ∧
    (∃ (s : State) (l seq ack : Nat) (k : Link) (b : List OnLink), l < 64 ∧ s.linkUp l = true ∧ s.link l = k
        ∧ b = k.buf.filter (fun e => decide (ack < e.last))) ∧
    (∃ (s : State) (l seq ack : Nat) (k : Link) (b : List OnLink) (m : Link) (u : State), l < 64 ∧ s.linkUp l = true ∧ s.link l = k
        ∧ b = k.buf.filter (fun e => decide (ack < e.last))
        ∧ m = { k with buf := b, replays := if b.length < k.buf.length then 0 else k.replays, lastFlit := s.tmb.clk }
        ∧ u = (if seq = k.rxSeq then s.setLink l { m with rxSeq := k.rxSeq + 1 } else (((s.setLink l m).incFld F.FAB_Ll_CNT.REPLAY l).obsTiming (unitSrc (linkUnit l)) 8).emit (.replay l k.rxSeq))) ∧
    (∃ (s : State) (l seq : Nat) (k : Link), l < 64 ∧ s.linkUp l = true ∧ s.link l = k) :=
  ⟨⟨(State.reset).setFld F.FAB_Ll_STATUS.STATE 63 7, _, 63, 0#32, by decide, by decide, rfl, by decide⟩,
    ⟨State.reset, _, 63, BitVec.ofNat 32 (3 + 2 ^ 9), by decide, by decide, rfl, by decide⟩,
    ⟨((State.reset).setFld F.FAB_Ll_STATUS.STATE 63 0).setFld F.FAB_Ll_CTRL.EN 63 1, _, 63, 0#32, by decide, by decide, rfl, by decide⟩,
    ⟨State.reset, _, 63, 0#32, by decide, by decide, rfl, by decide⟩,
    ⟨State.reset, _, 63, 1#32, by decide, by decide, rfl, by decide⟩,
    ⟨State.reset, _, 63, 0#32, by decide, by decide, rfl, by decide⟩,
    ⟨(fi0.setDieBit true 31 true).setDieBit true 30 true, 63, 0, by decide⟩,
    ⟨State.reset, 63, by decide⟩,
    ⟨lk63 1 { heldAt := some 0 } 0, _, _, 63, { pt0 with native := 3 }, 3, by decide, by decide, by decide, rfl, rfl, by decide⟩,
    ⟨lk63 4 { heldAt := some 0 } 0, _, _, 63, { pt0 with sysid := 512 }, by decide, by decide, by decide, rfl, rfl, by decide⟩,
    ⟨State.reset, 63, { sysid := 3, plink := 5, native := 3, lm := 0 }, by decide⟩,
    ⟨lk63 5 { buf := [ol 4, ol 6], txSeq := 7 } 9, 63, 1, 4, _, _, by decide, by decide, rfl, rfl⟩,
    ⟨lk63 5 { buf := [ol 4, ol 6], txSeq := 7 } 9, 63, 1, 4, _, _, _, _, by decide, by decide, rfl, rfl, rfl, rfl⟩,
    ⟨lk63 5 { buf := [ol 4, ol 6], txSeq := 7 } 9, 63, 5, _, by decide, by decide, rfl⟩⟩

/-- The hypotheses of `Obligations.LinksAndViewComplete`, clause by clause (part 2 of 3). -/
theorem meets_linksAndViewComplete_b :
    (∃ (s : State) (l seq ack cause : Nat) (ok : Bool), l < 64 ∧ s.linkUp l = false ∧ s.mmio = []) ∧
    (∃ (s : State) (l seq ack cause : Nat) (ok : Bool), l < 64 ∧ s.linkUp l = false ∧ s.mmio = [] ∧ cause < 4) ∧
    (∃ (s : State) (l cause : Nat), l < 64 ∧ s.linkUp l = true ∧ ((cause = 0 ∧ 8 ≤ (s.link l).replays) ∨ (cause = 1
        ∧ s.elapsed (s.link l).lastFlit 1 = true) ∨ cause = 2)) ∧
    (∃ (s : State) (l cause : Nat), l < 64 ∧ s.linkUp l = true ∧ ((cause = 0 ∧ (s.link l).replays < 8) ∨ (cause = 1
        ∧ s.elapsed (s.link l).lastFlit 1 = false)) ∧ s.mmio = []) ∧
    (∃ (s : State) (l cause : Nat) (u : _), l < 64 ∧ s.linkUp l = true
        ∧ u = (if s.fencedUnit (linkUnit l) then s else s.addFence ⟨linkUnit l, 1, false, false⟩)) ∧
    (∃ (s : State) (l seq : Nat) (k : Link), l < 64 ∧ s.link l = k ∧ s.linkUp l = false ∧ k.heldAt ≠ none) ∧
    (∃ (s : State) (l seq : Nat) (k : Link), l < 64 ∧ s.link l = k ∧ (s.linkUp l = true ∨ k.heldAt = none) ∧ s.mmio = []) ∧
    (∃ (s : State) (l seq : Nat) (k : Link) (c : _), l < 64 ∧ s.link l = k ∧ k.heldAt = some c ∧ s.elapsed c 10 = true) ∧
    (∃ (s : State) (l seq : Nat) (k : Link), l < 64 ∧ s.link l = k ∧ (∀ c, k.heldAt = some c → s.elapsed c 10 = false) ∧ s.mmio = []) ∧
    (∃ (s : State) (dev l c sq : Nat), dev < 512 ∧ l < 64 ∧ c < 8 ∧ s.fabOn 10 = true ∧ s.expelled (s.sysid / 512 * 512 + dev) = false ∧ dev ≠ s.pidx
        ∧ SMap.get 0 s.fab.seqs dev < sq) ∧
    (∃ (s : State) (dev l c sq : Nat), dev < 512 ∧ l < 64 ∧ c < 8
        ∧ (s.fabOn 10 = false ∨ s.expelled (s.sysid / 512 * 512 + dev) = true ∨ dev = s.pidx ∨ sq ≤ SMap.get 0 s.fab.seqs dev)) ∧
    (∃ (s : State) (dev : Nat) (states : List Nat), dev < 512 ∧ s.fabOn 10 = true ∧ s.expelled (s.sysid / 512 * 512 + dev) = false ∧ dev ≠ s.pidx) ∧
    (∃ (s : State) (dev : Nat) (states : List Nat), dev < 512 ∧ (s.fabOn 10 = false ∨ s.expelled (s.sysid / 512 * 512 + dev) = true ∨ dev = s.pidx)) ∧
    (∃ (s : State), s.elapsed s.fab.lviewClk 100 = true) :=
  ⟨⟨State.reset, 63, 63, 63, 63, true, by decide⟩,
    ⟨State.reset, 63, 63, 63, 3, true, by decide⟩,
    ⟨lk63 5 { replays := 8 } 0, 63, 0, by decide⟩,
    ⟨lk63 5 { replays := 7 } 0, 63, 0, by decide⟩,
    ⟨lk63 5 { replays := 7 } 0, 63, 0, _, by decide, by decide, rfl⟩,
    ⟨lk63 1 { buf := [ol 4, ol 6], heldAt := some 0 } 0, 63, 5, _, by decide, rfl, by decide⟩,
    ⟨State.reset, 63, 63, _, by decide, rfl, by decide⟩,
    ⟨lk63 1 { buf := [ol 4, ol 6], heldAt := some 0 } 15625, 63, 5, _, 0, by decide, rfl, by decide⟩,
    ⟨State.reset, 63, 63, _, by decide, rfl, by decide⟩,
    ⟨fi0, 511, 63, 7, 1, by decide⟩,
    ⟨State.reset, 511, 63, 7, 63, by decide⟩,
    ⟨fi0, 511, [5, 1], by decide⟩,
    ⟨State.reset, 511, [0, 5], by decide⟩,
    ⟨lk63 5 {} (10 ^ 8), by decide⟩⟩

/-- The hypotheses of `Obligations.LinksAndViewComplete`, clause by clause (part 3 of 3). -/
theorem meets_linksAndViewComplete_c :
    (∃ (s : State), s.elapsed s.fab.lviewClk 100 = false) ∧
    (∃ (s x u : State) (v : BitVec 32) (k : _), s.takesWrite .FAB_VOTE 0 = true
        ∧ x = (s.setFld F.FAB_VOTE.TARGET 0 (bits v.toNat 8 0)).setFld F.FAB_VOTE.NUM 0 (bits v.toNat 24 9)
        ∧ u = (if bit v.toNat 26 then x.setFld F.FAB_VOTE.ERR 0 0 else x) ∧ (s.managers.findIdx? fun m => m == s.pidx) = some k
        ∧ bits v.toNat 24 9 = (s.fld F.FAB_MEMB.ESEQ + 1) % 2 ^ 16 ∧ s.flag F.FAB_ID.PVALID = true) ∧
    (∃ (s x u : State) (v : BitVec 32), s.takesWrite .FAB_VOTE 0 = true
        ∧ x = (s.setFld F.FAB_VOTE.TARGET 0 (bits v.toNat 8 0)).setFld F.FAB_VOTE.NUM 0 (bits v.toNat 24 9)
        ∧ u = (if bit v.toNat 26 then x.setFld F.FAB_VOTE.ERR 0 0 else x)
        ∧ ((s.managers.findIdx? fun m => m == s.pidx) = none ∨ bits v.toNat 24 9 ≠ (s.fld F.FAB_MEMB.ESEQ + 1) % 2 ^ 16 ∨ s.flag F.FAB_ID.PVALID = false)
        ∧ s.mmio = []) ∧
    (∃ (s : State) (v : BitVec 32), s.takesWrite .FAB_VOTE 0 = false ∧ s.mmio = []) ∧
    (∃ (s : State) (slot target num : Nat), slot < 5 ∧ target < 512 ∧ s.fabOn 10 = true ∧ s.managers ≠ []) ∧
    (∃ (s : State) (slot target num : Nat), slot < 5 ∧ target < 512 ∧ (s.fabOn 10 = false ∨ s.managers = []) ∧ s.mmio = []) :=
  ⟨⟨State.reset, by decide⟩,
    ⟨fi0.setFld F.FAB_QUORUM.NMGR 0 3, _, _, BitVec.ofNat 32 (5 + 1 * 2 ^ 9), 0, by decide, rfl, rfl, by decide⟩,
    ⟨State.reset, _, _, 0#32, by decide, rfl, rfl, by decide⟩,
    ⟨State.reset.setDieBit true 28 true, 0, by decide⟩,
    ⟨fi0.setFld F.FAB_QUORUM.NMGR 0 3, 4, 511, 1, by decide⟩,
    ⟨State.reset, 4, 511, 63, by decide⟩⟩

/-- The hypotheses of `Obligations.DeterministicAndRecordComplete`, clause by clause (part 1 of 2). -/
theorem meets_deterministicAndRecordComplete_a :
    (∃ (s : State) (v : BitVec 32) (hz : Nat), hz = clamp 1000 2800 (bits v.toNat 16 5) ∧ s.flag F.PWR_DET_CTRL.EN = false
        ∧ s.fld F.PWR_DET_CTRL.STATE = 0) ∧
    (∃ (s : State) (v : BitVec 32) (hz : Nat), hz = clamp 1000 2800 (bits v.toNat 16 5) ∧ s.flag F.PWR_DET_CTRL.EN = false
        ∧ s.fld F.PWR_DET_CTRL.STATE ≠ 0) ∧
    (∃ (s : State) (v : BitVec 32) (hz : Nat), hz = clamp 1000 2800 (bits v.toNat 16 5) ∧ s.flag F.PWR_DET_CTRL.EN = true) ∧
    (∃ (s : State) (v : BitVec 32) (hz : Nat), hz = clamp 1000 2800 (bits v.toNat 16 5)) ∧
    (∃ (s : State), s.fld F.PWR_DET_CTRL.STATE = 1 ∧ s.flag F.GEY_CTRL.TICKING = true ∧ s.frameCyc = 0) ∧
    (∃ (s : State), (s.fld F.PWR_DET_CTRL.STATE ≠ 1 ∨ s.flag F.GEY_CTRL.TICKING = false ∨ s.frameCyc ≠ 0)) ∧
    (∃ (s : State) (cause : Nat), 1 ≤ cause ∧ cause < 4 ∧ (s.fld F.PWR_DET_CTRL.STATE = 1 ∨ s.fld F.PWR_DET_CTRL.STATE = 2)) ∧
    (∃ (s : State) (cause : Nat), 1 ≤ cause ∧ cause < 4 ∧ s.fld F.PWR_DET_CTRL.STATE ≠ 1 ∧ s.fld F.PWR_DET_CTRL.STATE ≠ 2) ∧
    (∃ (s : State) (v : Word), bit v.toNat 7 = false ∧ s.flag F.PKG_OBS_CTRL.EN = false) ∧
    (∃ (s : State) (v : Word), bit v.toNat 7 = false ∧ s.flag F.PKG_OBS_CTRL.EN = true) ∧
    (∃ (s : State) (v : Word), bit v.toNat 7 = false) ∧
    (∃ (s : State) (v w : Word), bit v.toNat 7 = true ∧ w.toNat = putBit v.toNat 7 false) ∧
    (∃ (s : State) (e : Bool), s.obsOn = true ∧ s.obsd.post = none ∧ (e = true → s.flag F.PKG_OBS_CTRL.TRIG_FLT = true)) ∧
    (∃ (s : State) (e : Bool), (s.obsOn = false ∨ s.obsd.post ≠ none ∨ (e = true ∧ s.flag F.PKG_OBS_CTRL.TRIG_FLT = false))) :=
  ⟨⟨State.reset, 0xFFFFFFFF#32, 2800, by decide⟩,
    ⟨((State.reset).setFld F.PWR_DET_CTRL.EN 0 0).setFld F.PWR_DET_CTRL.STATE 0 1, 0xFFFFFFFF#32, 2800, by decide⟩,
    ⟨(State.reset).setFld F.PWR_DET_CTRL.EN 0 1, 0xFFFFFFFF#32, 2800, by decide⟩,
    ⟨State.reset, 0xFFFFFFFF#32, 2800, by decide⟩,
    ⟨((State.reset).setFld F.PWR_DET_CTRL.STATE 0 1).setFld F.GEY_CTRL.TICKING 0 1, by decide⟩,
    ⟨State.reset, by decide⟩,
    ⟨(State.reset).setFld F.PWR_DET_CTRL.STATE 0 1, 1, by decide⟩,
    ⟨State.reset, 1, by decide⟩,
    ⟨State.reset, 0xFFFF0F01#64, by decide⟩,
    ⟨(State.reset).setFld F.PKG_OBS_CTRL.EN 0 1, 0xFFFF0F01#64, by decide⟩,
    ⟨State.reset, 0xFFFF0F01#64, by decide⟩,
    ⟨State.reset, 129, 1, by decide⟩,
    ⟨{ st [(F.PKG_OBS_CTRL.POST, 0, 9)] with obsd := { on := true } }, false, by decide⟩,
    ⟨State.reset, false, by decide⟩⟩

/-- The hypotheses of `Obligations.DeterministicAndRecordComplete`, clause by clause (part 2 of 2). -/
theorem meets_deterministicAndRecordComplete_b :
    (∃ (s : State), s.obsOn = true ∧ s.obsd.post = some 0) ∧
    (∃ (s : State), (s.obsOn = false ∨ s.obsd.post ≠ some 0)) ∧
    (∃ (s : State) (v : Word) (n : Nat), n = (v.toNat + 2 ^ 64 - 1) % 2 ^ 64 ∧ s.flag F.GEY_CTRL.RUN = false ∧ s.flag F.GEY_CTRL.TICKING = false
        ∧ s.fld F.PKG_OBS_CTRL.OP = 1) ∧
    (∃ (s : State) (v : Word) (n : Nat), n = (v.toNat + 2 ^ 64 - 1) % 2 ^ 64
        ∧ (s.flag F.GEY_CTRL.RUN = true ∨ s.flag F.GEY_CTRL.TICKING = true ∨ s.fld F.PKG_OBS_CTRL.OP ≠ 1)) ∧
    (∃ (s x : State) (o : Nat) (r : ObsRec) (agrees : Bool), s.replaying = true ∧ o = s.fld F.PKG_OBS_OLD.OLD % s.obsSize ∧ s.obsAt o = r
        ∧ s.flag F.PKG_OBS_STATUS.DONE = false ∧ s.recDue r 0 = true ∧ Applies s agrees r x) ∧
    (∃ (s x : State) (d : List Byte) (l : List (List Byte)) (agrees : Bool), s.replaying = false ∧ s.shadowing = true ∧ s.lock.inputs = d :: l
        ∧ s.recDue (obsParse d) (s.fld F.PKG_LOCK_CTRL.LAG) = true ∧ Applies { s with lock := { s.lock with inputs := l } } agrees (obsParse d) x) ∧
    (∃ (s : State) (agrees : Bool), s.mmio = [] ∧ ((s.replaying = true
        ∧ (s.flag F.PKG_OBS_STATUS.DONE = true ∨ s.recDue (s.obsAt (s.fld F.PKG_OBS_OLD.OLD % s.obsSize)) 0 = false)) ∨ (s.replaying = false
        ∧ (s.shadowing = false ∨ s.lock.inputs = [] ∨ ∃ d l, s.lock.inputs = d :: l ∧ s.recDue (obsParse d) (s.fld F.PKG_LOCK_CTRL.LAG) = false)))) ∧
    (∃ (s : State) (g k x : Nat), g < 24 ∧ k < 16 ∧ x = 16 * g + k ∧ s.takesWrite .MXC_DIGk x = true) ∧
    (∃ (s : State) (g k x : Nat), g < 24 ∧ k < 16 ∧ x = 16 * g + k ∧ s.takesWrite .MXC_DIGk x = false) :=
  ⟨⟨{ State.reset with obsd := { on := true, post := some 0 } }, by decide⟩,
    ⟨State.reset, by decide⟩,
    ⟨(((State.reset).setFld F.GEY_CTRL.RUN 0 0).setFld F.GEY_CTRL.TICKING 0 0).setFld F.PKG_OBS_CTRL.OP 0 1, 0xFFFF0F01#64, 4294905600, by decide⟩,
    ⟨State.reset, 0xFFFF0F01#64, 4294905600, by decide⟩,
    ⟨rp0 8, rp0 8, 0, _, true, by decide, by decide, rfl, by decide, by decide,
      .inr (.inr (.inr (.inr (.inr (.inr (.inr (.inr (.inl ⟨by decide, rfl⟩))))))))⟩,
    ⟨(shd { inputs := [obsHeader 5 false false 0 0 0 5 0 7] }).setFld F.GEY_TICK.TICK 0 100,
      { ((shd { inputs := [obsHeader 5 false false 0 0 0 5 0 7] }).setFld F.GEY_TICK.TICK 0 100) with lock := { ((shd { inputs := [obsHeader 5 false false 0 0 0 5 0 7] }).setFld F.GEY_TICK.TICK 0 100).lock with inputs := ([]) } },
      obsHeader 5 false false 0 0 0 5 0 7, [], true, by decide, by decide, by decide, by decide, .inr (.inr (.inr (.inr (.inr (.inl ⟨by decide, rfl⟩)))))⟩,
    ⟨State.reset, false, by decide, .inr ⟨by decide, .inl (by decide)⟩⟩,
    ⟨State.reset, 23, 15, 383, by decide⟩,
    ⟨allOff, 23, 15, 383, by decide⟩⟩

/-- The hypotheses of `Obligations.LockstepCommandsComplete`, clause by clause. -/
theorem meets_lockstepCommandsComplete :
    (∃ (s : State) (v : Word), bit v.toNat 0 = true ∧ s.flag F.PKG_LOCK_CTRL.EN = false ∧ s.lockOk = true) ∧
    (∃ (s : State) (v : Word), bit v.toNat 0 = true ∧ (s.flag F.PKG_LOCK_CTRL.EN = true ∨ s.lockOk = false)) ∧
    (∃ (s : State) (v : Word), bit v.toNat 0 = false ∧ s.flag F.PKG_LOCK_CTRL.MISMATCH = false ∧ s.flag F.PKG_LOCK_CTRL.LOSTSIG = false) ∧
    (∃ (s : State) (v : Word), bit v.toNat 0 = false ∧ (s.flag F.PKG_LOCK_CTRL.MISMATCH = true ∨ s.flag F.PKG_LOCK_CTRL.LOSTSIG = true)) ∧
    (∃ (s : State) (i : Instr) (k : Nat) (p : Packet), ((i = .lockrec p ∧ k = 4) ∨ (i = .locksig p ∧ k = 5))
        ∧ (s.expelled p.src = true ∨ s.fabOn p.ty = false)) ∧
    (∃ (s : State) (i : Instr) (k : Nat) (p : Packet), ((i = .lockrec p ∧ k = 4) ∨ (i = .locksig p ∧ k = 5)) ∧ s.expelled p.src = false
        ∧ s.fabOn p.ty = true ∧ (p.ty = 0 ∨ 10 < p.ty ∨ (p.ty = 10 ∧ p.dst = s.sysid ∧ 6 ≤ p.addr % 256))) ∧
    (∃ (s : State) (i : Instr) (k : Nat) (p : Packet), ((i = .lockrec p ∧ k = 4) ∨ (i = .locksig p ∧ k = 5)) ∧ s.expelled p.src = false
        ∧ s.fabOn p.ty = true ∧ (1 ≤ p.ty ∧ p.ty < 10 ∨ (p.ty = 10 ∧ p.dst = s.sysid ∧ p.addr % 256 < 6 ∧ p.addr % 256 ≠ k))) ∧
    (∃ (s : State) (i : Instr) (k : Nat) (p : Packet), ((i = .lockrec p ∧ k = 4) ∨ (i = .locksig p ∧ k = 5)) ∧ s.expelled p.src = false
        ∧ s.fabOn p.ty = true ∧ p.ty = 10 ∧ p.dst ≠ s.sysid) ∧
    (∃ (s : State) (p : Packet), Comes s p 10 ∧ p.addr % 256 = 4 ∧ s.shadowing = true ∧ p.src = s.fld F.PKG_LOCK_CTRL.PARTNER) ∧
    (∃ (s : State) (p : Packet), Comes s p 10 ∧ p.addr % 256 = 4 ∧ (s.shadowing = false ∨ p.src ≠ s.fld F.PKG_LOCK_CTRL.PARTNER)) ∧
    (∃ (s : State) (p : Packet) (tick idx sig flag : Nat), Comes s p 10 ∧ p.addr % 256 = 5 ∧ tick = natOf (slice p.payload 0 8)
        ∧ idx = natOf (slice p.payload 8 2) ∧ sig = natOf (slice p.payload 10 8) ∧ flag = natOf (slice p.payload 18 1)
        ∧ (s.flag F.PKG_LOCK_CTRL.EN = false ∨ p.src ≠ s.fld F.PKG_LOCK_CTRL.PARTNER ∨ (s.flag F.PKG_LOCK_CTRL.ROLE = true ∧ s.lock.stopped = true))) ∧
    (∃ (s : State) (p : Packet) (tick idx sig flag : Nat), Comes s p 10 ∧ p.addr % 256 = 5 ∧ tick = natOf (slice p.payload 0 8)
        ∧ idx = natOf (slice p.payload 8 2) ∧ sig = natOf (slice p.payload 10 8) ∧ flag = natOf (slice p.payload 18 1) ∧ s.flag F.PKG_LOCK_CTRL.EN = true
        ∧ p.src = s.fld F.PKG_LOCK_CTRL.PARTNER ∧ s.flag F.PKG_LOCK_CTRL.ROLE = true ∧ s.lock.stopped = false) ∧
    (∃ (s : State) (p : Packet) (tick idx sig flag : Nat), Comes s p 10 ∧ p.addr % 256 = 5 ∧ tick = natOf (slice p.payload 0 8)
        ∧ idx = natOf (slice p.payload 8 2) ∧ sig = natOf (slice p.payload 10 8) ∧ flag = natOf (slice p.payload 18 1) ∧ s.flag F.PKG_LOCK_CTRL.EN = true
        ∧ p.src = s.fld F.PKG_LOCK_CTRL.PARTNER ∧ s.flag F.PKG_LOCK_CTRL.ROLE = false) ∧
    (∃ (s : State), s.flag F.PKG_LOCK_CTRL.EN = true ∧ (s.lock.idx + 1) * 2 ^ (s.fld F.PKG_LOCK_CTRL.SIGINT + 10) ≤ s.frameCyc) ∧
    (∃ (s : State), (s.flag F.PKG_LOCK_CTRL.EN = false ∨ s.frameCyc < (s.lock.idx + 1) * 2 ^ (s.fld F.PKG_LOCK_CTRL.SIGINT + 10))) ∧
    (∃ (s : State) (tick idx mine c l : _), s.lock.own = (tick, idx, mine, c) :: l ∧ c + 4200 * 625 ≤ s.gey.arr) ∧
    (∃ (s : State), (s.lock.own = [] ∨ (∃ tick idx mine c l, s.lock.own = (tick, idx, mine, c) :: l ∧ s.gey.arr < c + 4200 * 625))) :=
  ⟨⟨st [(F.PWR_DET_CTRL.STATE, 0, 2)], 0x3FF#64, by decide⟩,
    ⟨(st [(F.PWR_DET_CTRL.STATE, 0, 2)]).setFld F.PKG_LOCK_CTRL.EN 0 1, 0x3FF#64, by decide⟩,
    ⟨st [(F.PWR_DET_CTRL.STATE, 0, 2)], 0#64, by decide⟩,
    ⟨(st [(F.PWR_DET_CTRL.STATE, 0, 2)]).setFld F.PKG_LOCK_CTRL.MISMATCH 0 1, 0#64, by decide⟩,
    ⟨State.reset, .lockrec (lkp 4), 4, lkp 4, .inl ⟨rfl, rfl⟩, by decide⟩,
    ⟨fi0, .lockrec ({ lkp 4 with ty := 0 }), 4, { lkp 4 with ty := 0 }, .inl ⟨rfl, rfl⟩, by decide⟩,
    ⟨fi0, .lockrec (lkp 5), 4, lkp 5, .inl ⟨rfl, rfl⟩, by decide⟩,
    ⟨fi0, .lockrec ({ lkp 4 with dst := 3 }), 4, { lkp 4 with dst := 3 }, .inl ⟨rfl, rfl⟩, by decide⟩,
    ⟨shd {}, lkp 4, by decide⟩,
    ⟨fi0, lkp 4, by decide⟩,
    ⟨fi0, lkp 5, 5, 6, 7, 0, by decide⟩,
    ⟨shd {}, lkp 5, 5, 6, 7, 0, by decide⟩,
    ⟨(shd {}).setFld F.PKG_LOCK_CTRL.ROLE 0 0, lkp 5, 5, 6, 7, 0, by decide⟩,
    ⟨{ st [(F.PKG_LOCK_CTRL.EN, 0, 1), (F.PKG_LOCK_CTRL.SIGINT, 0, 0)] with gey := { State.reset.gey with arr := State.reset.gey.frame0 + 1024 * 625 } },
      by decide⟩,
    ⟨st [(F.PWR_DET_CTRL.STATE, 0, 2)], by decide⟩,
    ⟨{ shd { own := [(5, 6, 7, 0)] } with gey := { arr := 10 ^ 7 } }, 5, 6, 7, 0, [], by decide⟩,
    ⟨State.reset, .inl (by decide)⟩⟩

/-- The hypotheses of `Obligations.HostCoresComplete`, clause by clause (part 1 of 2). -/
theorem meets_hostCoresComplete_a :
    (∃ (s : State) (port : Nat), port < 2) ∧
    (∃ (s : State) (port fn page count : Nat), port < 2 ∧ fn < 256 ∧ page < 2 ^ 35) ∧
    (∃ (s : State) (port : Nat) (p fn page n : _), port < 2 ∧ (s.ats.find? fun e => e.1 == port) = some (p, fn, page, n)) ∧
    (∃ (s : State) (port : Nat), port < 2 ∧ (s.ats.find? fun e => e.1 == port) = none) ∧
    (∃ (s : State) (h : Nat) (v : Word), h < 64 ∧ (s.flag F.PKG_HC_CTRLh.RUN h = false ∨ s.flag F.PKG_HC_CTRLh.HALTED h = true)) ∧
    (∃ (s : State) (h : Nat) (v : Word), h < 64 ∧ s.flag F.PKG_HC_CTRLh.RUN h = true ∧ s.flag F.PKG_HC_CTRLh.HALTED h = false) ∧
    (∃ (s : State) (h : Nat) (v : Word), h < 64) ∧
    (∃ (s : State) (h : Nat) (on : Bool), h < 64 ∧ s.flag F.PKG_HC_PAIRp.EN (h / 2) = false) ∧
    (∃ (s : State) (h : Nat) (on : Bool) (k : _), h < 64 ∧ s.flag F.PKG_HC_PAIRp.EN (h / 2) = true ∧ k / 2 = h / 2) ∧
    (∃ (s : State) (h : Nat) (on : Bool), h < 64 ∧ s.flag F.PKG_HC_PAIRp.EN (h / 2) = true) ∧
    (∃ (s : State) (h : Nat), h < 64 ∧ (s.hc h).timerOn = true ∧ s.fld F.HS_TIMECMP.VALUE h ≤ s.now) ∧
    (∃ (s : State) (h : Nat), h < 64 ∧ ((s.hc h).timerOn = false ∨ s.now < s.fld F.HS_TIMECMP.VALUE h)) ∧
    (∃ (s : State) (h : Nat) (v : Word), h < 64 ∧ s.hcRuns h = true) ∧
    (∃ (s : State) (h v : Nat), h < 64 ∧ s.hcRuns h = true ∧ (s.noHostRead = false ∨ (s.obsd.hrand.find? fun e => e.1 == h) = none)
        ∧ v = Config.random64 s.free % 2 ^ 64) :=
  ⟨⟨st [(F.BSN_STATEb.STATE, 1, 2)], 1, by decide⟩,
    ⟨st [(F.BSN_STATEb.STATE, 1, 2)], 1, 255, 1, 1, by decide⟩,
    ⟨{ State.reset with ats := [(1, 2, 3, 4)] }, 1, _, _, _, _, by decide, rfl⟩,
    ⟨st [(F.BSN_STATEb.STATE, 1, 2)], 1, by decide⟩,
    ⟨st [(F.BSN_STATEb.STATE, 1, 2)], 63, 0x500000000#64, by decide⟩,
    ⟨((st [(F.BSN_STATEb.STATE, 1, 2)]).setFld F.PKG_HC_CTRLh.RUN 63 1).setFld F.PKG_HC_CTRLh.HALTED 63 0, 63, 0x500000000#64, by decide⟩,
    ⟨st [(F.BSN_STATEb.STATE, 1, 2)], 63, 0x500000000#64, by decide⟩,
    ⟨st [(F.BSN_STATEb.STATE, 1, 2)], 63, true, by decide⟩,
    ⟨st [(F.PKG_HC_PAIRp.EN, 31, 1)], 63, true, 62, by decide⟩,
    ⟨(st [(F.BSN_STATEb.STATE, 1, 2)]).setFld F.PKG_HC_PAIRp.EN (63 / 2) 1, 63, true, by decide⟩,
    ⟨(st [(F.HS_TIMECMP.VALUE, 63, 0)]).modHc 63 (fun c => { c with timerOn := true }), 63, by decide⟩,
    ⟨st [(F.BSN_STATEb.STATE, 1, 2)], 63, by decide⟩,
    ⟨(st [(F.BSN_STATEb.STATE, 1, 2)]).setFld F.PKG_HC_CTRLh.HALTED 63 0, 63, 0x500000000#64, by decide⟩,
    ⟨(st [(F.BSN_STATEb.STATE, 1, 2)]).setFld F.PKG_HC_CTRLh.HALTED 63 0, 63, _, by decide, by decide, by decide, rfl⟩⟩

/-- The hypotheses of `Obligations.HostCoresComplete`, clause by clause (part 2 of 2). -/
theorem meets_hostCoresComplete_b :
    (∃ (s : State) (h v : Nat) (k : _), h < 64 ∧ s.hcRuns h = true ∧ s.noHostRead = true ∧ (s.obsd.hrand.find? fun e => e.1 == h) = some (k, v)) ∧
    (∃ (s : State) (h : Nat) (a l n : _), h < 64 ∧ s.hcRuns h = true ∧ s.hcBasin h = 0 ∧ s.fld F.EVC_CTRL.SRVHC = h ∧ s.awaiting = a :: l
        ∧ n = l.foldl min a) ∧
    (∃ (s : State) (h : Nat), h < 64 ∧ s.hcRuns h = true ∧ s.hcBasin h = 0 ∧ (s.fld F.EVC_CTRL.SRVHC ≠ h ∨ s.awaiting = [])) ∧
    (∃ (s : State) (h : Nat), h < 64 ∧ s.hcRuns h = true ∧ s.hcBasin h ≠ 0) ∧
    (∃ (s u : State) (h k b a f w : Nat), h < 64 ∧ k < 8 ∧ s.hcRuns h = true ∧ b = s.hcBasin h ∧ a = s.fld F.PKG_D2H_ADDRb.ADDR b * 8
        ∧ f = s.fld F.PKG_D2H_WORDb.FLAGS b ∧ w = f - bits f (8 * k + 7) (8 * k) * 2 ^ (8 * k) + (bits f (8 * k + 7) (8 * k) + 1) % 256 * 2 ^ (8 * k)
        ∧ u = s.setFld F.PKG_D2H_WORDb.FLAGS b w ∧ (s.flag F.PKG_D2H_ADDRb.EN b = false ∨ (∀ o, place a ≠ .host o) ∨ (b ≠ 0 ∧ s.inWindow b a = false))) ∧
    (∃ (s u : State) (h k b a f w : Nat), h < 64 ∧ k < 8 ∧ s.hcRuns h = true ∧ b = s.hcBasin h ∧ a = s.fld F.PKG_D2H_ADDRb.ADDR b * 8
        ∧ f = s.fld F.PKG_D2H_WORDb.FLAGS b ∧ w = f - bits f (8 * k + 7) (8 * k) * 2 ^ (8 * k) + (bits f (8 * k + 7) (8 * k) + 1) % 256 * 2 ^ (8 * k)
        ∧ u = s.setFld F.PKG_D2H_WORDb.FLAGS b w ∧ s.flag F.PKG_D2H_ADDRb.EN b = true ∧ (∃ o, place a = .host o) ∧ (b = 0 ∨ s.inWindow b a = true)) ∧
    (∃ (s : State) (h k : Nat) (v : Word), h < 64 ∧ k < 8 ∧ s.hcRuns h = false) ∧
    (∃ (s : State) (p : Nat) (v : BitVec 32) (ok : Bool), p < 32
        ∧ ok = (s.flag F.PKG_HC_CTRLh.HALTED (2 * p) && s.flag F.PKG_HC_CTRLh.HALTED (2 * p + 1) && s.hcBasin (2 * p) == 0 && s.hcBasin (2 * p + 1) == 0)) ∧
    (∃ (s : State) (p d : Nat) (again : Bool), p < 32 ∧ d = 28 + p / 8
        ∧ again = (s.flt.misses.any fun m => m.mech == 11 && decide (s.tmb.clk < m.clk + oneSecond) && (m.src == p || (s.flag F.PKG_HC_PAIRp.SBY_EN m.src && s.fld F.PKG_HC_PAIRp.STANDBY m.src == p)))
        ∧ s.flag F.PKG_HC_PAIRp.EN p = true ∧ s.hcRuns (2 * p) = true) ∧
    (∃ (s : State) (p d : Nat) (again : Bool), p < 32 ∧ d = 28 + p / 8
        ∧ again = (s.flt.misses.any fun m => m.mech == 11 && decide (s.tmb.clk < m.clk + oneSecond) && (m.src == p || (s.flag F.PKG_HC_PAIRp.SBY_EN m.src && s.fld F.PKG_HC_PAIRp.STANDBY m.src == p)))
        ∧ (s.flag F.PKG_HC_PAIRp.EN p = false ∨ s.hcRuns (2 * p) = false)) ∧
    (∃ (s : State) (h : Nat) (v : BitVec 32), h < 64) :=
  ⟨⟨{ st [(F.PKG_HC_CTRLh.HALTED, 63, 0), (F.PKG_OBS_CTRL.OP, 0, 1)] with obsd := { on := true, hrand := [(63, 5)] } }, 63, 5, _, by decide, by decide,
      by decide, rfl⟩,
    ⟨st [(F.PKG_HC_CTRLh.RUN, 63, 1), (F.PKG_HC_CTRLh.HALTED, 63, 0), (F.EVC_CTRL.SRVHC, 0, 63), (F.EVC_CTRL.EN, 0, 1), (F.EVC_SRCn.ACTIVE, 0x440, 1)],
      63, 0x440, [], 1088, by decide⟩,
    ⟨(st [(F.BSN_STATEb.STATE, 1, 2)]).setFld F.PKG_HC_CTRLh.HALTED 63 0, 63, by decide⟩,
    ⟨st [(F.PKG_HC_CTRLh.HALTED, 63, 0), (F.BSN_HC_OWNERh.BASIN, 63, 1)], 63, by decide⟩,
    ⟨(st [(F.BSN_STATEb.STATE, 1, 2)]).setFld F.PKG_HC_CTRLh.HALTED 63 0, _, 63, 7, 0, 0, 0, 72057594037927936, by decide, by decide, by decide,
      by decide, by decide, by decide, by decide, rfl, .inl (by decide)⟩,
    ⟨st [(F.PKG_HC_CTRLh.RUN, 63, 1), (F.PKG_HC_CTRLh.HALTED, 63, 0), (F.PKG_D2H_ADDRb.EN, 0, 1), (F.PKG_D2H_ADDRb.ADDR, 0, 0x100000000000)], _, 63, 7, 0,
      140737488355328, 0, 72057594037927936, by decide, by decide, by decide, by decide, by decide, by decide, by decide, rfl, by decide, ⟨_, rfl⟩,
      by decide⟩,
    ⟨st [(F.BSN_STATEb.STATE, 1, 2)], 63, 7, 0x500000000#64, by decide⟩,
    ⟨st [(F.BSN_STATEb.STATE, 1, 2)], 31, 0xFFFFFFFF#32, true, by decide⟩,
    ⟨((st [(F.BSN_STATEb.STATE, 1, 2)]).setFld F.PKG_HC_PAIRp.EN 31 1).setFld F.PKG_HC_CTRLh.HALTED (2 * 31) 0, 31, 31, false, by decide⟩,
    ⟨st [(F.BSN_STATEb.STATE, 1, 2)], 31, 31, false, by decide⟩,
    ⟨st [(F.BSN_STATEb.STATE, 1, 2)], 63, 0xFFFFFFFF#32, by decide⟩⟩

/-- The hypotheses of `Obligations.EventControllerComplete`, clause by clause. -/
theorem meets_eventControllerComplete :
    (∃ (s : State) (k n : Nat) (v : BitVec 32) (hr mine : Bool), k < 2 ∧ n = bits v.toNat 11 0
        ∧ mine = (if k = 0 then srvCaldera n else !srvCaldera n && s.flag F.EVC_SRCn.INSVC n) ∧ (s.flag F.EVC_SRCn.ACTIVE n = false ∨ mine = false)) ∧
    (∃ (s : State) (k n : Nat) (v : BitVec 32) (hr mine : Bool), k < 2 ∧ n = bits v.toNat 11 0
        ∧ mine = (if k = 0 then srvCaldera n else !srvCaldera n && s.flag F.EVC_SRCn.INSVC n) ∧ s.flag F.EVC_SRCn.ACTIVE n = true ∧ mine = true
        ∧ s.flag F.EVC_CTRL.EN = false) ∧
    (∃ (s : State) (k n : Nat) (v : BitVec 32) (hr mine : Bool) (need rung time : Nat) (full : Bool) (werr : Nat → Field) (kept : State) (bad : List Nat), k < 2
        ∧ n = bits v.toNat 11 0 ∧ mine = (if k = 0 then srvCaldera n else !srvCaldera n && s.flag F.EVC_SRCn.INSVC n) ∧ s.flag F.EVC_SRCn.ACTIVE n = true
        ∧ mine = true ∧ s.flag F.EVC_CTRL.EN = true ∧ need = 1 + b2n ((s.evCap n).ext || decide (1 < s.fld F.EVC_SRCn.COUNT n))
        ∧ (werr = fun q => if q = 0 then F.EVC_STATUS.WERR0 else F.EVC_STATUS.WERR1)
        ∧ full = (s.evRoutes n).any (fun q => s.flag (werr q) || decide (s.evSize q < s.evCount q + need))
        ∧ kept = (s.setFld F.EVC_SRCn.INSVC n 1).incFld F.EVC_STATUS.QFULL_CNT
        ∧ bad = (s.evRoutes n).filter (fun q => !s.evRingOk q || (hr && decide (0x800000000000 ≤ s.evAddr q 0)))
        ∧ rung = max (bits v.toNat 14 12) (s.fld F.EVC_SRCn.RUNG n) ∧ time = (s.evCap n).time.getD (SMap.get 0 s.cplTime k) ∧ full = true) ∧
    (∃ (s : State) (k n : Nat) (v : BitVec 32) (hr mine : Bool) (need rung time : Nat) (full : Bool) (werr : Nat → Field) (kept : State) (bad : List Nat), k < 2
        ∧ n = bits v.toNat 11 0 ∧ mine = (if k = 0 then srvCaldera n else !srvCaldera n && s.flag F.EVC_SRCn.INSVC n) ∧ s.flag F.EVC_SRCn.ACTIVE n = true
        ∧ mine = true ∧ s.flag F.EVC_CTRL.EN = true ∧ need = 1 + b2n ((s.evCap n).ext || decide (1 < s.fld F.EVC_SRCn.COUNT n))
        ∧ (werr = fun q => if q = 0 then F.EVC_STATUS.WERR0 else F.EVC_STATUS.WERR1)
        ∧ full = (s.evRoutes n).any (fun q => s.flag (werr q) || decide (s.evSize q < s.evCount q + need))
        ∧ kept = (s.setFld F.EVC_SRCn.INSVC n 1).incFld F.EVC_STATUS.QFULL_CNT
        ∧ bad = (s.evRoutes n).filter (fun q => !s.evRingOk q || (hr && decide (0x800000000000 ≤ s.evAddr q 0)))
        ∧ rung = max (bits v.toNat 14 12) (s.fld F.EVC_SRCn.RUNG n) ∧ time = (s.evCap n).time.getD (SMap.get 0 s.cplTime k) ∧ full = false
        ∧ (s.evCap n).gen ≠ s.gen (s.evCap n).basin) ∧
    (∃ (s : State) (k n : Nat) (v : BitVec 32) (hr mine : Bool) (need rung time : Nat) (full : Bool) (werr : Nat → Field) (kept : State) (bad : List Nat), k < 2
        ∧ n = bits v.toNat 11 0 ∧ mine = (if k = 0 then srvCaldera n else !srvCaldera n && s.flag F.EVC_SRCn.INSVC n) ∧ s.flag F.EVC_SRCn.ACTIVE n = true
        ∧ mine = true ∧ s.flag F.EVC_CTRL.EN = true ∧ need = 1 + b2n ((s.evCap n).ext || decide (1 < s.fld F.EVC_SRCn.COUNT n))
        ∧ (werr = fun q => if q = 0 then F.EVC_STATUS.WERR0 else F.EVC_STATUS.WERR1)
        ∧ full = (s.evRoutes n).any (fun q => s.flag (werr q) || decide (s.evSize q < s.evCount q + need))
        ∧ kept = (s.setFld F.EVC_SRCn.INSVC n 1).incFld F.EVC_STATUS.QFULL_CNT
        ∧ bad = (s.evRoutes n).filter (fun q => !s.evRingOk q || (hr && decide (0x800000000000 ≤ s.evAddr q 0)))
        ∧ rung = max (bits v.toNat 14 12) (s.fld F.EVC_SRCn.RUNG n) ∧ time = (s.evCap n).time.getD (SMap.get 0 s.cplTime k) ∧ full = false
        ∧ (s.evCap n).gen = s.gen (s.evCap n).basin ∧ bad ≠ []) ∧
    (∃ (s : State) (k n : Nat) (v : BitVec 32) (hr mine : Bool) (need rung time : Nat) (full : Bool) (werr : Nat → Field) (kept : State) (bad : List Nat), k < 2
        ∧ n = bits v.toNat 11 0 ∧ mine = (if k = 0 then srvCaldera n else !srvCaldera n && s.flag F.EVC_SRCn.INSVC n) ∧ s.flag F.EVC_SRCn.ACTIVE n = true
        ∧ mine = true ∧ s.flag F.EVC_CTRL.EN = true ∧ need = 1 + b2n ((s.evCap n).ext || decide (1 < s.fld F.EVC_SRCn.COUNT n))
        ∧ (werr = fun q => if q = 0 then F.EVC_STATUS.WERR0 else F.EVC_STATUS.WERR1)
        ∧ full = (s.evRoutes n).any (fun q => s.flag (werr q) || decide (s.evSize q < s.evCount q + need))
        ∧ kept = (s.setFld F.EVC_SRCn.INSVC n 1).incFld F.EVC_STATUS.QFULL_CNT
        ∧ bad = (s.evRoutes n).filter (fun q => !s.evRingOk q || (hr && decide (0x800000000000 ≤ s.evAddr q 0)))
        ∧ rung = max (bits v.toNat 14 12) (s.fld F.EVC_SRCn.RUNG n) ∧ time = (s.evCap n).time.getD (SMap.get 0 s.cplTime k) ∧ full = false
        ∧ (s.evCap n).gen = s.gen (s.evCap n).basin ∧ bad = []) ∧
    (∃ (s : State) (n rung time q x : Nat) (ext : Bool) (c : EvCap), x = s.fld F.EVC_Qq_TAIL.TAIL q ∧ c = s.evCap n
        ∧ ext = (c.ext || decide (1 < s.fld F.EVC_SRCn.COUNT n))) ∧
    (∃ (s : State) (q d w : Nat) (v : BitVec 32), q < 2 ∧ d = diff32 (s.fld F.EVC_Qq_TAIL.TAIL q) (s.fld F.EVC_Qq_HEAD.HEAD q)
        ∧ w = diff32 v.toNat (s.fld F.EVC_Qq_HEAD.HEAD q) ∧ d < w) ∧
    (∃ (s : State) (q d w : Nat) (v : BitVec 32), q < 2 ∧ d = diff32 (s.fld F.EVC_Qq_TAIL.TAIL q) (s.fld F.EVC_Qq_HEAD.HEAD q)
        ∧ w = diff32 v.toNat (s.fld F.EVC_Qq_HEAD.HEAD q) ∧ w ≤ d) ∧
    (∃ (s u : State) (v : BitVec 32) (en : Bool) (i : Instr), ((i = .evcEnable v ∧ en = true) ∨ (i = .evcDisable v ∧ en = false))
        ∧ u = (((s.setFld F.EVC_CTRL.EN 0 (b2n en)).setFld F.EVC_CTRL.PORT 0 (bits v.toNat 1 1)).setFld F.EVC_CTRL.SRVHC 0 (bits v.toNat 7 2)).setFld F.EVC_CTRL.Q1HC 0 (bits v.toNat 13 8)) ∧
    (∃ (s u : State) (v : BitVec 32), s.awaiting = [] ∧ s.evCount 1 = 0
        ∧ u = (if s.fld F.EVC_CTRL.Q1HC = bits v.toNat 13 8 then s else s.hcClear (s.fld F.EVC_CTRL.Q1HC) 1)) :=
  ⟨⟨State.reset, 1, 1088, 0x440#32, false, false, by decide⟩,
    ⟨st [(F.EVC_SRCn.ACTIVE, 0x440, 1), (F.EVC_SRCn.INSVC, 0x440, 1), (F.EVC_CTRL.EN, 0, 0)], 1, 1088, 0x440#32, false, true, by decide⟩,
    ⟨ev0.setFld F.EVC_STATUS.WERR0 0 1, 1, 1088, 0x2440#32, false, true, 1, 2, 0, true, fun q => if q = 0 then F.EVC_STATUS.WERR0 else F.EVC_STATUS.WERR1,
      _, _, by decide, by decide, by decide, by decide, by decide, by decide, by decide, rfl, by decide, rfl, rfl, by decide⟩,
    ⟨{ ev0 with evcap := [(0x440, { basin := 0, gen := 1 })] }, 1, 1088, 0x2440#32, false, true, 1, 2, 0, false,
      fun q => if q = 0 then F.EVC_STATUS.WERR0 else F.EVC_STATUS.WERR1, _, _, by decide, by decide, by decide, by decide, by decide, by decide, by decide,
      rfl, by decide, rfl, rfl, by decide⟩,
    ⟨ev0.setFld F.EVC_Qq_BASE.BASE 0 0x480000000, 1, 1088, 0x2440#32, false, true, 1, 2, 0, false,
      fun q => if q = 0 then F.EVC_STATUS.WERR0 else F.EVC_STATUS.WERR1, _, _, by decide, by decide, by decide, by decide, by decide, by decide, by decide,
      rfl, by decide, rfl, rfl, by decide⟩,
    ⟨ev0, 1, 1088, 0x2440#32, false, true, 1, 2, 0, false, fun q => if q = 0 then F.EVC_STATUS.WERR0 else F.EVC_STATUS.WERR1, _, _, by decide, by decide,
      by decide, by decide, by decide, by decide, by decide, rfl, by decide, rfl, rfl, by decide⟩,
    ⟨State.reset, 1, 1, 1, 1, 0, false, _, by decide, rfl, by decide⟩,
    ⟨State.reset, 1, 0, 1088, 0x440#32, by decide⟩,
    ⟨st [(F.EVC_Qq_TAIL.TAIL, 1, 3)], 1, 3, 1, 1#32, by decide⟩,
    ⟨ev0, _, 0x440#32, true, .evcEnable (0x440#32), .inl ⟨rfl, rfl⟩, rfl⟩,
    ⟨State.reset, _, 0x440#32, by decide, by decide, rfl⟩⟩

/-- The hypotheses of `Obligations.StartUpAndPowerComplete`, clause by clause (part 1 of 3). -/
theorem meets_startUpAndPowerComplete_a :
    (∃ (s u : State), s.fld F.PKG_BOOT.STAGE = 2 ∧ u = (s.storeDies.filter fun n => !s.keyFull n 0).foldl (fun x n => State.drawKey x n 0) s
        ∧ u.pwr.warm = false) ∧
    (∃ (s u : State), s.fld F.PKG_BOOT.STAGE = 2 ∧ u = (s.storeDies.filter fun n => !s.keyFull n 0).foldl (fun x n => State.drawKey x n 0) s
        ∧ u.pwr.warm = true ∧ u.flag F.PKG_FW_CMD.STAGED = true) ∧
    (∃ (s u : State), s.fld F.PKG_BOOT.STAGE = 2 ∧ u = (s.storeDies.filter fun n => !s.keyFull n 0).foldl (fun x n => State.drawKey x n 0) s
        ∧ u.pwr.warm = true ∧ u.flag F.PKG_FW_CMD.STAGED = false) ∧
    (∃ (s : State), s.fld F.PKG_BOOT.STAGE ≠ 2) ∧
    (∃ (s : State), s.fld F.PKG_BOOT.STAGE ≠ 5) ∧
    (∃ (s : State) (e : Nat), e = (granBase 0 (32 * s.fld F.PKG_BOOT.SLOT) + SMap.get 0 s.pwr.entry (s.fld F.PKG_BOOT.SLOT)) / 4096) ∧
    (∃ (s : State) (v : Word), s.flag F.PKG_FW_CMD.BUSY = false) ∧
    (∃ (s : State) (v : Word), s.flag F.PKG_FW_CMD.BUSY = true) ∧
    (∃ (s : State) (image : List Byte) (ok : Bool), s.flag F.PKG_FW_CMD.BUSY = true ∧ (ok = true → fwErr image (s.fld F.PKG_FW_CMD.LEN) ≠ 0)) ∧
    (∃ (s u : State) (image : List Byte) (slot : Nat), s.flag F.PKG_FW_CMD.BUSY = true
        ∧ slot = (if s.fld F.PKG_BOOT.STAGE = 4 then s.fld F.PKG_BOOT.SLOT else 1 - s.fld F.PKG_BOOT.SLOT)
        ∧ u = (((s.setFld F.PKG_FW_CMD.BUSY 0 0).putRam 0 (granBase 0 (32 * slot)) image).modPwr fun p => { p with entry := SMap.set 0 p.entry slot (natOf (slice image 12 4)) })) ∧
    (∃ (s : State) (image : List Byte) (ok : Bool), s.flag F.PKG_FW_CMD.BUSY = false) ∧
    (∃ (s : State), s.fld F.PKG_BOOT.STAGE = 5) ∧
    (∃ (s : State), (∃ k, s.pwr.entryClk = some k ∧ k + 9375000 ≤ s.tmb.clk) ∧ s.fld F.PKG_BOOT.STAGE = 5 ∧ s.flag F.PKG_BOOT.ERR = false) ∧
    (∃ (s : State), ((∀ k, s.pwr.entryClk = some k → s.tmb.clk < k + 9375000) ∨ s.fld F.PKG_BOOT.STAGE ≠ 5 ∨ s.flag F.PKG_BOOT.ERR = true)) :=
  ⟨⟨st [(F.PKG_BOOT.STAGE, 0, 2)], _, by decide, rfl, by decide⟩,
    ⟨(st [(F.PKG_BOOT.STAGE, 0, 2), (F.PKG_FW_CMD.STAGED, 0, 1)]).modPwr fun p => { p with warm := true }, _, by decide, rfl, by decide⟩,
    ⟨(st [(F.PKG_BOOT.STAGE, 0, 2), (F.PKG_FW_CMD.STAGED, 0, 0)]).modPwr fun p => { p with warm := true }, _, by decide, rfl, by decide⟩,
    ⟨(st [(F.PKG_BOOT.STAGE, 0, 2)]).setFld F.PKG_BOOT.STAGE 0 0, by decide⟩,
    ⟨st [(F.PKG_BOOT.STAGE, 0, 2)], by decide⟩,
    ⟨st [(F.PKG_BOOT.STAGE, 0, 2)], 134217728, by decide⟩,
    ⟨st [(F.PKG_BOOT.STAGE, 0, 2)], 0x80#64, by decide⟩,
    ⟨(st [(F.PKG_BOOT.STAGE, 0, 2)]).setFld F.PKG_FW_CMD.BUSY 0 1, 0x80#64, by decide⟩,
    ⟨(st [(F.PKG_BOOT.STAGE, 0, 2)]).setFld F.PKG_FW_CMD.BUSY 0 1, [], false, by decide⟩,
    ⟨(st [(F.PKG_BOOT.STAGE, 0, 2)]).setFld F.PKG_FW_CMD.BUSY 0 1, _, [], 1, by decide, by decide, rfl⟩,
    ⟨st [(F.PKG_BOOT.STAGE, 0, 2)], [], false, by decide⟩,
    ⟨(st [(F.PKG_BOOT.STAGE, 0, 2)]).setFld F.PKG_BOOT.STAGE 0 5, by decide⟩,
    ⟨{ st [(F.PKG_BOOT.STAGE, 0, 5)] with pwr := { State.reset.pwr with entryClk := some 0 }, tmb := { clk := 9375000 } }, by decide⟩,
    ⟨st [(F.PKG_BOOT.STAGE, 0, 2)], by decide⟩⟩

/-- The hypotheses of `Obligations.StartUpAndPowerComplete`, clause by clause (part 2 of 3). -/
theorem meets_startUpAndPowerComplete_b :
    (∃ (s : State) (i : Nat) (v : Word) (r lo hi x sum : Int), i < 256 ∧ calRange i = some (r, lo, hi) ∧ x = sext 16 (bits v.toNat 31 16)
        ∧ sum = sext 16 (s.fld F.CAL_ITEMi.FACTORY i) + clampInt (-r) r x) ∧
    (∃ (s : State) (i : Nat) (v : Word), i < 256 ∧ calRange i = none) ∧
    (∃ (s : State) (a : Nat), s.pwr.aon = true) ∧
    (∃ (s u : State) (n : Nat) (c : Ccc) (d : List Byte), s.pwr.aon = true ∧ s.freshBytes n = (d, u) ∧ ((c = .getbcr ∧ n = 1) ∨ (c = .getdcr
        ∧ n = 1) ∨ (c = .getstatus ∧ n = 2))) ∧
    (∃ (s : State) (i : Byte) (l : List Byte), s.pwr.aon = true) ∧
    (∃ (s : State) (n : Nat), s.pwr.aon = true) ∧
    (∃ (s : State) (c : Ccc) (b : List Byte) (n : Nat), s.pwr.aon = false) ∧
    (∃ (s u : State) (w : Nat), s.pwr.windowClk + 156250 ≤ s.tmb.clk
        ∧ u = ((s.modPwr fun p => { p with windowClk := s.tmb.clk }).setFld F.PWR_STATUS.PKG_W 0 (min w 4095)).setFld F.PWR_STATUS.LIMITING 0 (if s.fld F.PWR_PKG_LIMIT.LIMIT < w then 1 else 0)) ∧
    (∃ (s u : State) (w : Nat), s.tmb.clk < s.pwr.windowClk + 156250) ∧
    (∃ (s u x : State) (n w cause : Nat) (mx : Bool), n < 12 ∧ s.atTick = true ∧ SMap.get 0 s.pwr.stepTick n ≠ s.tickNo + 1 ∧ s.dieOut n = false
        ∧ u = (s.modPwr fun p => { p with dieW := SMap.set 0 p.dieW n w, stepTick := SMap.set 0 p.stepTick n (s.tickNo + 1) })
        ∧ (u.hot n = true ∨ mx = true ∨ u.overDie n = true ∨ (u.flag F.PWR_STATUS.LIMITING = true ∧ u.tenantDie n = true))
        ∧ cause = (if u.hot n then 1 else if mx then 2 else 3) ∧ x = u.detLoss cause) ∧
    (∃ (s u x : State) (n w cause : Nat) (mx : Bool), n < 12 ∧ s.atTick = true ∧ SMap.get 0 s.pwr.stepTick n ≠ s.tickNo + 1 ∧ s.dieOut n = false
        ∧ u = (s.modPwr fun p => { p with dieW := SMap.set 0 p.dieW n w, stepTick := SMap.set 0 p.stepTick n (s.tickNo + 1) }) ∧ u.hot n = false ∧ mx = false
        ∧ u.overDie n = false ∧ (u.flag F.PWR_STATUS.LIMITING = false ∨ u.tenantDie n = false)) ∧
    (∃ (s : State) (n w : Nat) (mx : Bool), n < 12 ∧ (s.atTick = false ∨ SMap.get 0 s.pwr.stepTick n = s.tickNo + 1 ∨ s.dieOut n = true)) ∧
    (∃ (s : State) (n : Nat), n < 12 ∧ s.atTick = true ∧ s.fld F.PWR_DIEd.STEP n ≠ 0 ∧ s.flag F.PWR_DIEd.TFAULT n = false ∧ s.tj n ≤ (tjLimits n).1 - 48
        ∧ SMap.get 0 s.pwr.trigClk n + 1562500 ≤ s.tmb.clk) ∧
    (∃ (s : State) (n : Nat), n < 12
        ∧ (s.atTick = false ∨ s.fld F.PWR_DIEd.STEP n = 0 ∨ s.flag F.PWR_DIEd.TFAULT n = true ∨ (tjLimits n).1 - 48 < s.tj n ∨ s.tmb.clk < SMap.get 0 s.pwr.trigClk n + 1562500)) :=
  ⟨⟨st [(F.PKG_BOOT.STAGE, 0, 2)], 0, 0x80#64, _, _, _, _, _, by decide, rfl, rfl, rfl⟩,
    ⟨st [(F.PKG_BOOT.STAGE, 0, 2)], 255, 0x80#64, by decide⟩,
    ⟨st [(F.PKG_BOOT.STAGE, 0, 2)], 0, by decide⟩,
    ⟨st [(F.PKG_BOOT.STAGE, 0, 2)], _, 1, .getbcr, _, by decide, rfl, by decide⟩,
    ⟨st [(F.PKG_BOOT.STAGE, 0, 2)], 0x10#8, [], by decide⟩,
    ⟨st [(F.PKG_BOOT.STAGE, 0, 2)], 0, by decide⟩,
    ⟨(st [(F.PKG_BOOT.STAGE, 0, 2)]).modPwr (fun p => { p with aon := false }), .getbcr, [], 0, by decide⟩,
    ⟨{ st [(F.PKG_BOOT.STAGE, 0, 5)] with pwr := { State.reset.pwr with entryClk := some 0 }, tmb := { clk := 9375000 } }, _, 0, by decide, rfl⟩,
    ⟨st [(F.PKG_BOOT.STAGE, 0, 2)], st [(F.PKG_BOOT.STAGE, 0, 2)], 0, by decide⟩,
    ⟨st [(F.GEY_CTRL.TICKING, 0, 1)], _, _, 11, 0, 2, true, by decide, by decide, by decide, by decide, rfl, by decide, by decide, rfl⟩,
    ⟨st [(F.GEY_CTRL.TICKING, 0, 1)], _, st [(F.PKG_BOOT.STAGE, 0, 2)], 11, 0, 0, false, by decide, by decide, by decide, by decide, rfl, by decide⟩,
    ⟨st [(F.PKG_BOOT.STAGE, 0, 2)], 11, 0, false, by decide⟩,
    ⟨{ st [(F.GEY_CTRL.TICKING, 0, 1), (F.PWR_DIEd.STEP, 11, 4)] with tmb := { clk := 1562500 } }, 11, by decide⟩,
    ⟨st [(F.PKG_BOOT.STAGE, 0, 2)], 11, by decide⟩⟩

/-- The hypotheses of `Obligations.StartUpAndPowerComplete`, clause by clause (part 3 of 3). -/
theorem meets_startUpAndPowerComplete_c :
    (∃ (s u : State) (n step : Nat), n < 12 ∧ step ≤ 4
        ∧ u = (s.setFld F.PWR_DIEd.STEP n step).setFld F.PWR_DIEd.CLK_MHZ n (if s.radioDie n then 1050 else 1050 - 105 * step)) ∧
    (∃ (s : State) (g a : Nat), g < 24 ∧ a < 4 ∧ s.lending = true ∧ s.arrayOut g a = false ∧ SMap.get [] (s.core g).passes a = []
        ∧ SMap.get 0 (s.core g).idleT a + s.fld F.PWR_LEND.THRESH * 625 ≤ s.gey.arr) ∧
    (∃ (s : State) (g a : Nat), g < 24 ∧ a < 4
        ∧ (s.lending = false ∨ s.arrayOut g a = true ∨ SMap.get [] (s.core g).passes a ≠ [] ∨ s.gey.arr < SMap.get 0 (s.core g).idleT a + s.fld F.PWR_LEND.THRESH * 625)) ∧
    (∃ (s : State) (d : Nat), d < 256 ∧ s.lending = true ∧ s.dspRuns d = true ∧ (s.dsp d).task = none ∧ s.flag F.RDP_CORE_STATUS.LANE d = false
        ∧ s.fld F.PWR_LEND.THRESH ≤ dspCycles (s.dsp d).freeClk s.tmb.clk) ∧
    (∃ (s : State) (d : Nat), d < 256
        ∧ (s.lending = false ∨ s.dspRuns d = false ∨ (s.dsp d).task ≠ none ∨ s.flag F.RDP_CORE_STATUS.LANE d = true ∨ dspCycles (s.dsp d).freeClk s.tmb.clk < s.fld F.PWR_LEND.THRESH)) ∧
    (∃ (s u : State) (d : Nat) (raw0 raw1 j : Int), d < 32 ∧ s.dieEn d = true
        ∧ j = clampInt (-32768) 32767 (max (raw0 + sext 16 (s.fld F.CAL_ITEMi.EFFECTIVE (2 * d))) (raw1 + sext 16 (s.fld F.CAL_ITEMi.EFFECTIVE (2 * d + 1))))
        ∧ 12 ≤ d
        ∧ u = (if j < (tjLimits d).2.1 then (s.setFld F.PWR_DIEd.TJ d (wrap 16 j)).setFld F.PWR_DIEd.TFAULT d 0 else s.setFld F.PWR_DIEd.TJ d (wrap 16 j))) ∧
    (∃ (s u : State) (d : Nat) (raw0 raw1 j : Int) (x : _), d < 32 ∧ s.dieEn d = true
        ∧ j = clampInt (-32768) 32767 (max (raw0 + sext 16 (s.fld F.CAL_ITEMi.EFFECTIVE (2 * d))) (raw1 + sext 16 (s.fld F.CAL_ITEMi.EFFECTIVE (2 * d + 1))))
        ∧ d < 12
        ∧ x = (if j < (tjLimits d).2.1 then ((s.setFld F.PWR_DIEd.TJ d (wrap 16 j)).mxSet).setFld F.PWR_DIEd.TFAULT d 0 else (s.setFld F.PWR_DIEd.TJ d (wrap 16 j)).mxSet)
        ∧ u = (if (tjLimits d).1 - 48 < j then x.modPwr fun p => { p with trigClk := SMap.set 0 p.trigClk d x.tmb.clk } else x)) ∧
    (∃ (s : State) (d : Nat) (raw0 raw1 : Int), d < 32 ∧ s.dieEn d = false) ∧
    (∃ (s u x : State) (d : Nat), d < 32 ∧ s.dieEn d = true ∧ s.flag F.PWR_DIEd.TFAULT d = false ∧ (tjLimits d).2.1 ≤ s.tj d
        ∧ u = (if d < 12 then (s.setFld F.PWR_DIEd.TFAULT d 1).setStep d 4 else s.setFld F.PWR_DIEd.TFAULT d 1)
        ∧ x = (u.journal 19 3 (unitSrc (.region d)) d).raise 0x007 { mech := 19, level := 3, data := d } 4) ∧
    (∃ (s u x : State) (d : Nat), d < 32 ∧ s.dieEn d = true ∧ (s.flag F.PWR_DIEd.TFAULT d = true ∨ s.tj d < (tjLimits d).2.1)) ∧
    (∃ (s u x y : State) (d : Nat) (top : Bool) (fences : List Fence), d < 32 ∧ s.dieEn d = true ∧ s.dieOff d = false ∧ s.flag F.PWR_DIEd.CRIT d = false
        ∧ (tjLimits d).2.2 ≤ s.tj d
        ∧ u = ((((s.setFld F.PWR_DIEd.CRIT d 1).setFld F.FLT_STATUS.ALERT 0 1).journal 19 3 (unitSrc (.region d)) d).raise 0x007 { mech := 19, level := 3, data := d } 4)
        ∧ top = decide (topDie d = d) ∧ x = (if top then u.dropInFlight d [] else u)
        ∧ fences = (if top then [⟨.region d, 3, false, false⟩, ⟨.router d, 3, false, false⟩] else [⟨.region d, 3, false, false⟩]) ∧ ((x.flt.caldera ≠ none
        ∧ y = x.modFlt fun h => { h with waiting := h.waiting ++ fences }) ∨ (x.flt.caldera = none
        ∧ y = (x.modFlt fun h => { h with fences := h.fences ++ fences, routeChg := h.routeChg || top }).setFen d))) ∧
    (∃ (s : State) (d : Nat), d < 32 ∧ (s.dieOff d = true ∨ s.flag F.PWR_DIEd.CRIT d = true ∨ s.tj d < (tjLimits d).2.2)) :=
  ⟨⟨st [(F.PKG_BOOT.STAGE, 0, 2)], _, 11, 0, by decide, by decide, rfl⟩,
    ⟨{ st [(F.PWR_LEND.EN, 0, 1)] with gey := { State.reset.gey with arr := 65536 * 625 } }, 23, 3, by decide⟩,
    ⟨st [(F.PKG_BOOT.STAGE, 0, 2)], 23, 3, by decide⟩,
    ⟨({ st [(F.PKG_BOOT.STAGE, 0, 5)] with pwr := { State.reset.pwr with entryClk := some 0 }, tmb := { clk := 9375000 } }).setFld F.RDP_CORE_STATUS.LANE 255 0,
      255, by decide⟩,
    ⟨st [(F.PKG_BOOT.STAGE, 0, 2)], 255, by decide⟩,
    ⟨st [(F.PKG_BOOT.STAGE, 0, 2)], _, 31, 2000, 2000, _, by decide, by decide, rfl, by decide, rfl⟩,
    ⟨st [(F.PKG_BOOT.STAGE, 0, 2)], _, 11, 2000, 2000, _, _, by decide, by decide, rfl, by decide, rfl, rfl⟩,
    ⟨noDie, 31, 2000, 2000, by decide⟩,
    ⟨st [(F.PWR_DIEd.TJ, 23, 0x7FFF)], _, _, 23, by decide, by decide, by decide, by decide, rfl, rfl⟩,
    ⟨st [(F.PKG_BOOT.STAGE, 0, 2)], st [(F.PKG_BOOT.STAGE, 0, 2)], st [(F.PKG_BOOT.STAGE, 0, 2)], 31, by decide⟩,
    ⟨State.reset.setFld F.PWR_DIEd.TJ 31 0x7FFF, _, _, _, 31, true, _, by decide, by decide, by decide, by decide, by decide, rfl, by decide, rfl, rfl,
      .inr ⟨by decide, rfl⟩⟩,
    ⟨st [(F.PKG_BOOT.STAGE, 0, 2)], 31, by decide⟩⟩

/-- The hypotheses of `Obligations.StepRunsTheFrontCommand`. -/
theorem meets_stepRunsTheFrontCommand :
    (∃ (s : State) (c : Instr) (rest : List Instr), s.pending = c :: rest) :=
  ⟨{ State.reset with pending := [.refLoss] }, .refLoss, [], by decide⟩

/-- The hypotheses of `Obligations.EmptyQueuePassesAPeriod`, clause by clause. -/
theorem meets_emptyQueuePassesAPeriod :
    (∃ (s : State), s.pending = []) ∧
    (∃ (s : State), s.pwr.aon = false) ∧
    (∃ (s : State), s.pwr.aon = true) ∧
    (∃ (s : State) (b k : _), s.pwr.aon = true ∧ s.snap = some b ∧ k < 7) ∧
    (∃ (s : State) (b : _), s.pwr.aon = true ∧ s.snap = some b) :=
  ⟨⟨State.reset, by decide⟩,
    ⟨(State.reset).modPwr (fun p => { p with aon := false }), by decide⟩,
    ⟨State.reset, by decide⟩,
    ⟨{ State.reset with snap := some 255 }, 255, 6, by decide⟩,
    ⟨{ State.reset with snap := some 255 }, 255, by decide⟩⟩

/-- The hypotheses of `Obligations.EveryCommandAnswers`, clause by clause. -/
theorem meets_everyCommandAnswers :
    (∃ (c : Instr) (s : State), c.wf = true) ∧
    (∃ (c : Instr) (s : State), c.wf = false) :=
  ⟨⟨.refLoss, State.reset, by decide⟩,
    ⟨.linkDown 64 0, State.reset, by decide⟩⟩

/-- The hypotheses of `Obligations.ResetState`, clause by clause. -/
theorem meets_resetState :
    (∃ (d : _), d < 32) ∧
    (∃ (h : _), h < 64) :=
  ⟨⟨31, by decide⟩,
    ⟨63, by decide⟩⟩

/-- The hypotheses of `Obligations.StepKeepsCanonicalForm`. -/
theorem meets_stepKeepsCanonicalForm :
    (∃ (s t : State), Canonical s ∧ step s = .next t) :=
  ⟨State.reset, _, by decide, rfl⟩

/-- The hypotheses of `Obligations.CounterAddsItsIncrement`, clause by clause. -/
theorem meets_counterAddsItsIncrement :
    (∃ (s : State), s.pwr.aon = true ∧ s.tmb.stepPend = none) ∧
    (∃ (s : State) (v : Word), s.pwr.aon = true ∧ s.tmb.stepPend = none) :=
  ⟨⟨{ st [(F.TMB_NOW_FRAC.FRAC, 0, 2 ^ 32 - 1)] with pwr := { State.reset.pwr with aon := true } }, by decide⟩,
    ⟨{ st [(F.TMB_NOW_FRAC.FRAC, 0, 2 ^ 32 - 1)] with pwr := { State.reset.pwr with aon := true } }, 0x666666667#64, by decide⟩⟩

/-- The hypotheses of `Obligations.StepMovesTheCounterOnce`, clause by clause. -/
theorem meets_stepMovesTheCounterOnce :
    (∃ (s : State) (v : Word), s.pwr.aon = true ∧ s.tmb.stepPend = none ∧ s.flag F.GEY_CTRL.RUN = false ∧ s.flag F.GEY_CTRL.TICKING = false) ∧
    (∃ (s : State) (v : Word), s.pwr.aon = true ∧ s.tmb.stepPend = none ∧ (s.flag F.GEY_CTRL.RUN = true ∨ s.flag F.GEY_CTRL.TICKING = true)) :=
  ⟨⟨{ State.reset with pwr := { State.reset.pwr with aon := true } }, 0xFFFFFFFFFFFFFFFF#64, by decide⟩,
    ⟨(({ State.reset with pwr := { State.reset.pwr with aon := true } }).modPwr (fun p => { p with aon := true })).setFld F.GEY_CTRL.RUN 0 1,
      0xFFFFFFFFFFFFFFFF#64, by decide⟩⟩

/-- The hypotheses of `Obligations.StoreMapIsOneToOne`, clause by clause. -/
theorem meets_storeMapIsOneToOne :
    (∃ (a b : _), a < 0x4800000000 ∧ b < 0x4800000000 ∧ storeMap a = storeMap b) ∧
    (∃ (a : _), a < 0x4800000000) ∧
    (∃ (a b : _), a < 0x4800000000 ∧ b < 0x4800000000 ∧ a / 2 ^ 23 = b / 2 ^ 23 ∧ a / 2 ^ 21 ≠ b / 2 ^ 21) :=
  ⟨⟨0x1923456780, 0x1923456780, by decide⟩,
    ⟨0x1923456780, by decide⟩,
    ⟨0x1923456780, 0x1923656780, by decide⟩⟩

/-- The hypotheses of `Obligations.AccessTypesOfRegisters`, clause by clause. -/
theorem meets_accessTypesOfRegisters :
    (∃ (s : State) (k : RegKind) (ix j v : Nat) (i : FieldInfo), i ∈ k.fields ∧ 64 * j ≤ i.lo ∧ i.hi ≤ 64 * j + 63) ∧
    (∃ (s : State) (k : RegKind) (ix j v : Nat) (f : Field) (n : Nat), f.lo < 256
        ∧ (f.kind ≠ k ∨ n ≠ ix ∨ (∀ i ∈ k.fields, i.lo = f.lo → i.hi < 64 * j ∨ 64 * j + 63 < i.lo))) ∧
    (∃ (s : State) (f : Field) (n k : Nat), s.fld f n < 2 ^ f.w) :=
  ⟨⟨State.reset, .TMB_INCR, 0, 0, 0, ⟨39, 0, .rw, 0x666666666⟩, by decide⟩,
    ⟨State.reset, .TMB_INCR, 0, 0, 0, F.TMB_NOW.NS, 0, by decide⟩,
    ⟨State.reset, F.TMB_NOW.NS, 0, 0, by decide⟩⟩

/-- The hypotheses of `Obligations.TenantWritesStayInside`. -/
theorem meets_tenantWritesStayInside :
    (∃ (s : State) (m : Master) (a : Nat) (d : List Byte) (pois : Bool) (b : Nat), Canonical s ∧ a < 2 ^ 48 ∧ m.wf = true ∧ (s.who m).pf = false
        ∧ (s.who m).basin ≠ 0 ∧ (∀ x p y, (EccLoc.mem x, p) ∈ s.flips → eccClass (isStore x) p ≠ .silent y)) :=
  ⟨st [(F.BSN_HC_OWNERh.BASIN, 63, 1)], .hc 63, 0x8100000000, [5#8], true, 0x8100000000, by decide, by decide, by decide, by decide, by decide,
      fun _ _ _ h => absurd h (List.not_mem_nil)⟩

/-- The hypotheses of `Obligations.ProductsInAnyOrder`, clause by clause. -/
theorem meets_productsInAnyOrder :
    (∃ (pm : PassMode) (x1 x2 : List Byte) (w1 w2 : Plane) (c : Nat) (a u v : Accum), u = colExact pm x2 w2 c (colExact pm x1 w1 c a)
        ∧ v = colExact pm x1 w1 c (colExact pm x2 w2 c a)) ∧
    (∃ (pm : PassMode) (x1 x2 : List Byte) (w1 w2 : Plane) (c : Nat) (a u v : Accum), u = colExact pm x2 w2 c (colExact pm x1 w1 c a)
        ∧ v = colExact pm x1 w1 c (colExact pm x2 w2 c a) ∧ u.nan = false) ∧
    (∃ (pm : PassMode) (x1 x2 : List Byte) (w1 w2 : Plane) (c : Nat) (a u v : Accum), u = colExact pm x2 w2 c (colExact pm x1 w1 c a)
        ∧ v = colExact pm x1 w1 c (colExact pm x2 w2 c a) ∧ pm.mode ≠ 3 ∧ pm.mode ≠ 4) ∧
    (∃ (mode : Nat) (b : Int) (a u v : Accum) (l r : List (Val × Nat)), l.Perm r ∧ u = l.foldl (fun a p => a.take mode b p.1 p.2) a
        ∧ v = r.foldl (fun a p => a.take mode b p.1 p.2) a) ∧
    (∃ (mode : Nat) (b : Int) (a u v : Accum) (l r : List (Val × Nat)), l.Perm r ∧ u = l.foldl (fun a p => a.take mode b p.1 p.2) a
        ∧ v = r.foldl (fun a p => a.take mode b p.1 p.2) a ∧ u.nan = false) ∧
    (∃ (mode : Nat) (b : Int) (a u v : Accum) (l r : List (Val × Nat)), l.Perm r ∧ u = l.foldl (fun a p => a.take mode b p.1 p.2) a
        ∧ v = r.foldl (fun a p => a.take mode b p.1 p.2) a ∧ mode ≠ 3 ∧ mode ≠ 4) :=
  ⟨⟨{}, [], [], {}, {}, 0, {}, _, _, rfl, rfl⟩,
    ⟨{}, [], [], {}, {}, 0, {}, _, _, rfl, rfl, by decide⟩,
    ⟨{}, [], [], {}, {}, 0, {}, _, _, rfl, rfl, by decide⟩,
    ⟨0, 0, {}, _, _, [], [], by decide, rfl, rfl⟩,
    ⟨0, 0, {}, _, _, [], [], by decide, rfl, rfl, by decide⟩,
    ⟨0, 0, {}, _, _, [], [], by decide, rfl, rfl, by decide⟩⟩

/-- The hypotheses of `Obligations.UnknownOpcodeKills`, clause by clause. -/
theorem meets_unknownOpcodeKills :
    (∃ (s : State) (i : Instr) (g c op : Nat) (x : Ctx), mRow i = some (g, c, op) ∧ s.mmio = [] ∧ g < 24 ∧ c < 4 ∧ s.coreRuns g = true
        ∧ s.selected g = some c ∧ s.ctx g c = some x ∧ (∀ w, x.word = some w → knownOp (iOp w) = false)) ∧
    (∃ (s : State) (i : Instr) (g c op : Nat) (x : Ctx) (w : _), mRow i = some (g, c, op) ∧ s.mmio = [] ∧ g < 24 ∧ c < 4 ∧ s.coreRuns g = true
        ∧ s.selected g = some c ∧ s.ctx g c = some x ∧ x.word = some w ∧ iOp w = op ∧ legal w = false) ∧
    (∃ (s : State) (i : Instr) (g c op : Nat) (x : Ctx) (w : _), mRow i = some (g, c, op) ∧ s.mmio = [] ∧ g < 24 ∧ c < 4 ∧ s.coreRuns g = true
        ∧ s.selected g = some c ∧ s.ctx g c = some x ∧ x.word = some w ∧ knownOp (iOp w) = true ∧ iOp w ≠ op) ∧
    (∃ (s : State) (i : Instr) (g c op : Nat), mRow i = some (g, c, op) ∧ s.mmio = [] ∧ g < 24 ∧ c < 4 ∧ (s.coreRuns g = false ∨ s.selected g ≠ some c)) :=
  ⟨⟨cx 23 3 (run1 (0xFF * 2 ^ 56)), .scalarOp 23 3, 23, 3, 0x20, _, rfl, by decide, by decide, by decide, by decide, by decide, rfl,
      (by intro w h; cases h; decide)⟩,
    ⟨cx 23 3 (run1 (0x20 * 2 ^ 56 + 0xFF * 2 ^ 32)), .scalarOp 23 3, 23, 3, 0x20, _, 2305844104430354432, rfl, by decide, by decide, by decide, by decide,
      by decide, rfl, by decide⟩,
    ⟨cx 23 3 (run1 (0)), .scalarOp 23 3, 23, 3, 0x20, _, 0, rfl, by decide, by decide, by decide, by decide, by decide, rfl, by decide⟩,
    ⟨State.reset, .scalarOp 23 3, 23, 3, 0x20, rfl, by decide⟩⟩

end Sys2Proof.Tests
end

section
/-! The write of a register's word by the access types alone (R8): what it does to the fields of the word and what it
leaves. -/

namespace Sys2Proof.Machine

/-- No two fields of a register begin at one bit, and every field begins below bit 256. -/
theorem RegKind.fields_lo (k : RegKind) : (k.fields.map (·.lo)).Nodup ∧ ∀ i ∈ k.fields, i.lo < 256 := by
  cases k <;> decide

theorem RegKind.fields_lo_le_hi (k : RegKind) : ∀ i ∈ k.fields, i.lo ≤ i.hi := by cases k <;> decide

/-- One field's part of a write of word `j` (R8). -/
def writeField (k : RegKind) (ix j v : Nat) (s : State) (i : FieldInfo) : State :=
  if i.hi < 64 * j ∨ 64 * j + 63 < i.lo then s
  else
    let f : Field := ⟨k, i.hi, i.lo⟩
    match i.acc with
    | .rw => s.setFld f ix (bits (patch (s.fld f ix * 2 ^ i.lo) (64 * j) 64 v) i.hi i.lo)
    | .rw1c => s.setFld f ix (s.fld f ix - (s.fld f ix &&& bits (v * 2 ^ (64 * j)) i.hi i.lo))
    | _ => s

theorem plain_eq_foldl (s : State) (k : RegKind) (ix j v : Nat) :
    s.plain k ix j v = k.fields.foldl (writeField k ix j v) s := rfl

/-- A field of the word at a value, after the write. -/
def fieldAfter (i : FieldInfo) (j v old : Nat) : Nat :=
  match i.acc with
  | .rw => bits (patch (old * 2 ^ i.lo) (64 * j) 64 v) i.hi i.lo % 2 ^ (i.hi + 1 - i.lo)
  | .rw1c => (old - (old &&& bits (v * 2 ^ (64 * j)) i.hi i.lo)) % 2 ^ (i.hi + 1 - i.lo)
  | _ => old

variable {k : RegKind} {ix j v : Nat} {s : State} {i : FieldInfo} {l : List FieldInfo} {f : Field} {n : Nat}

theorem writeField_outside (h : i.hi < 64 * j ∨ 64 * j + 63 < i.lo) : writeField k ix j v s i = s := if_pos h

theorem fld_writeField_same (h : 64 * j ≤ i.hi ∧ i.lo ≤ 64 * j + 63) :
    (writeField k ix j v s i).fld ⟨k, i.hi, i.lo⟩ ix = fieldAfter i j v (s.fld ⟨k, i.hi, i.lo⟩ ix) := by
  unfold writeField fieldAfter
  rw [if_neg (by omega)]
  cases i.acc <;> simp [Field.w]

theorem fld_writeField_ne (h : Field.key ⟨k, i.hi, i.lo⟩ ix ≠ f.key n) : (writeField k ix j v s i).fld f n = s.fld f n := by
  unfold writeField
  split
  · rfl
  · cases i.acc with
    | rw | rw1c => exact fld_setFld_ne s _ h
    | ro | wo | rc => rfl

/-- Fields whose write does not meet `f` leave it. -/
theorem fld_foldl_writeField_ne
    (h : ∀ i ∈ l, (i.hi < 64 * j ∨ 64 * j + 63 < i.lo) ∨ Field.key ⟨k, i.hi, i.lo⟩ ix ≠ f.key n) :
    (l.foldl (writeField k ix j v) s).fld f n = s.fld f n := by
  induction l generalizing s with
  | nil => rfl
  | cons i l ih =>
    rw [List.foldl_cons, ih fun q hq => h q (List.mem_cons_of_mem i hq)]
    rcases h i List.mem_cons_self with ho | hk
    · rw [writeField_outside ho]
    · exact fld_writeField_ne hk

/-- A field of the word takes its value after the write: the fields before it and after it leave it. -/
theorem fld_plain_of_mem (hi : i ∈ k.fields) (h : 64 * j ≤ i.hi ∧ i.lo ≤ 64 * j + 63) :
    (s.plain k ix j v).fld ⟨k, i.hi, i.lo⟩ ix = fieldAfter i j v (s.fld ⟨k, i.hi, i.lo⟩ ix) := by
  obtain ⟨hnd, hlt⟩ := k.fields_lo
  obtain ⟨l₁, l₂, hl⟩ := List.append_of_mem hi
  rw [hl, List.map_append, List.map_cons, List.nodup_append, List.nodup_cons] at hnd
  obtain ⟨-, ⟨h₂, -⟩, h₁⟩ := hnd
  have hkey : ∀ q ∈ k.fields, q.lo ≠ i.lo → Field.key ⟨k, q.hi, q.lo⟩ ix ≠ Field.key ⟨k, i.hi, i.lo⟩ ix :=
    fun q hq hne e => hne ((Field.key_eq_iff (hlt q hq) (hlt i hi)).mp e).2.2
  have hmem : ∀ q, q ∈ l₁ ∨ q ∈ l₂ → q ∈ k.fields := by
    intro q hq; rw [hl]; rcases hq with hq | hq <;> simp [hq]
  rw [plain_eq_foldl, hl, List.foldl_append, List.foldl_cons, fld_foldl_writeField_ne, fld_writeField_same h,
    fld_foldl_writeField_ne]
  · exact fun q hq => .inr (hkey q (hmem q (.inl hq)) (h₁ _ (List.mem_map_of_mem hq) _ List.mem_cons_self))
  · exact fun q hq => .inr (hkey q (hmem q (.inr hq)) fun e => h₂ (e ▸ List.mem_map_of_mem hq))

/-- A field of another register, of another unit's register or of another word reads as before. -/
theorem fld_plain_ne (hf : f.lo < 256)
    (h : f.kind ≠ k ∨ n ≠ ix ∨ ∀ i ∈ k.fields, i.lo = f.lo → i.hi < 64 * j ∨ 64 * j + 63 < i.lo) :
    (s.plain k ix j v).fld f n = s.fld f n := by
  rw [plain_eq_foldl]
  refine fld_foldl_writeField_ne fun i hi => Decidable.or_iff_not_imp_right.mpr fun e => ?_
  obtain ⟨rfl, hk, hlo⟩ := (Field.key_eq_iff (k.fields_lo.2 i hi) hf).mp (Decidable.not_not.mp e)
  rcases h with h | h | h
  · exact absurd hk.symm h
  · exact absurd rfl h
  · exact h i hi hlo

/-! The bits of the word written -/

/-- Bits of a word moved up by `n`, read at their new place. -/
theorem bits_mul_pow (v n : Nat) {hi lo : Nat} (h : n ≤ lo) (h' : lo ≤ hi) :
    bits (v * 2 ^ n) hi lo = bits v (hi - n) (lo - n) := by
  obtain ⟨d, rfl⟩ := Nat.exists_eq_add_of_le h
  have e : hi + 1 - (n + d) = hi - n + 1 - (n + d - n) := by omega
  rw [bits, bits, e, Nat.pow_add, ← Nat.div_div_eq_div_mul, Nat.mul_div_cancel _ (Nat.two_pow_pos n), Nat.add_sub_cancel_left]

/-- Bits that lie in the part replaced are those of the new value. -/
theorem bits_patch (old n m v : Nat) {hi lo : Nat} (h : n ≤ lo) (hh : lo ≤ hi) (h' : hi < n + m) :
    bits (patch old n m v) hi lo = bits v (hi - n) (lo - n) := by
  have hlow : patch old n m v / 2 ^ n = v % 2 ^ m + old / 2 ^ (n + m) * 2 ^ m := by
    have e : patch old n m v = old % 2 ^ n + 2 ^ n * (v % 2 ^ m + old / 2 ^ (n + m) * 2 ^ m) := by
      rw [patch, Nat.pow_add, Nat.mul_add, Nat.add_assoc, Nat.mul_comm (v % 2 ^ m), Nat.mul_left_comm]
    rw [e, Nat.add_mul_div_left _ _ (Nat.two_pow_pos n), Nat.div_eq_of_lt (Nat.mod_lt _ (Nat.two_pow_pos n)), Nat.zero_add]
  obtain ⟨d, rfl⟩ := Nat.exists_eq_add_of_le h
  have e : hi + 1 - (n + d) = hi - n + 1 - (n + d - n) := by omega
  rw [bits, bits, ← e, Nat.pow_add, ← Nat.div_div_eq_div_mul, hlow, Nat.add_sub_cancel_left]
  apply Nat.eq_of_testBit_eq
  intro b
  have hb : (v % 2 ^ m + old / 2 ^ (n + m) * 2 ^ m).testBit (d + b) = if d + b < m then v.testBit (d + b) else
      (old / 2 ^ (n + m)).testBit (d + b - m) := by
    rw [Nat.add_comm, Nat.mul_comm, Nat.testBit_two_pow_mul_add _ (Nat.mod_lt _ (Nat.two_pow_pos m)), Nat.testBit_mod_two_pow]
    split <;> simp [*]
  simp only [Nat.testBit_mod_two_pow, Nat.testBit_div_two_pow, Nat.add_comm b d, hb]
  by_cases hw : b < hi + 1 - (n + d)
  · rw [if_pos (by omega)]
  · simp [hw]

/-- The value of a field that lies in the word, by its access type (R8). -/
theorem fieldAfter_eq (old : Nat) (hle : i.lo ≤ i.hi) (h : 64 * j ≤ i.lo) (h' : i.hi ≤ 64 * j + 63) :
    fieldAfter i j v old =
      (if i.acc = .rw then bits v (i.hi - 64 * j) (i.lo - 64 * j)
       else if i.acc = .rw1c then (old - (old &&& bits v (i.hi - 64 * j) (i.lo - 64 * j))) % 2 ^ (i.hi + 1 - i.lo)
       else old) := by
  have hmod : bits v (i.hi - 64 * j) (i.lo - 64 * j) % 2 ^ (i.hi + 1 - i.lo) = bits v (i.hi - 64 * j) (i.lo - 64 * j) := by
    rw [bits, show i.hi - 64 * j + 1 - (i.lo - 64 * j) = i.hi + 1 - i.lo by omega, Nat.mod_mod]
  unfold fieldAfter
  cases i.acc with
  | rw => simp only [if_pos, bits_patch _ _ _ _ h hle (show i.hi < 64 * j + 64 by omega), hmod]
  | rw1c => simp [bits_mul_pow _ _ h hle]
  | ro | wo | rc => simp

end Sys2Proof.Machine
end

section
open Sys2Proof.Machine

/-- Settles O56: each field of the word takes its value after the write, every other field is left (`fld_plain_of_mem`,
`fld_plain_ne`), and a counter saturates. -/
theorem accessTypesOfRegisters : Obligations.AccessTypesOfRegisters := by
  unfold Obligations.AccessTypesOfRegisters
  refine ⟨?word, ?other, ?counter⟩
  case word =>
    rintro s k ix j v i ⟨hi, hlo, hhi⟩
    have hle := k.fields_lo_le_hi i hi
    rw [fld_plain_of_mem hi (by omega), fieldAfter_eq _ hle hlo hhi]
  case other => exact fun s k ix j v f n ⟨hf, h⟩ => fld_plain_ne hf h
  case counter => exact fun s f n k _ => fld_incFld_same s f n k

end

section
/-! SUPPORT. What a register access leaves alone: the queue of waiting commands, by every function a write or a read of a
register can reach, and the register writes that wait, by Obsidian's record of the access. Most are an equation for a
function from the equations of the functions it calls. Where a proof names its steps (`proj_when_of`, `generalize`, `rw`),
it keeps a function's state from being unfolded field by field: closed sizes inside it would be computed. -/

namespace Sys2Proof.Machine

/-- A step of a fold leaves a part `π` of the state as it was. -/
def Keeps {α β : Type} (π : State → β) (f : State → α → State) : Prop := ∀ s x t, f s x = t → π t = π s

@[simp] theorem keeps_iff {α β : Type} {π : State → β} {f : State → α → State} : Keeps π f ↔ ∀ s x, π (f s x) = π s :=
  ⟨fun h s x => h s x _ rfl, fun h s x _ e => e ▸ h s x⟩

theorem Keeps.foldl {α β : Type} {π : State → β} {f : State → α → State} (h : Keeps π f) (s : State) (l : List α) :
    π (l.foldl f s) = π s := by
  induction l generalizing s with
  | nil => rfl
  | cons x l ih => rw [List.foldl_cons, ih, h s x _ rfl]

/-- The state `f` makes is kept a variable `t`, so that it is not evaluated. -/
theorem proj_when_of {β : Type} {π : State → β} {s : State} (c : Bool) {f : State → State} (h : ∀ t, f s = t → π t = π s) :
    π (s.when c f) = π s := by
  cases c
  · rfl
  · exact h _ rfl

@[simp] theorem pending_foldl {α : Type} {f : State → α → State} (s : State) (l : List α) (h : Keeps State.pending f) :
    (l.foldl f s).pending = s.pending := h.foldl s l
@[simp] theorem pending_when (s : State) (c : Bool) (f : State → State) :
    (s.when c f).pending = if c then (f s).pending else s.pending := by
  cases c <;> rfl
@[simp] theorem pending_ite (c : Prop) [Decidable c] (s t : State) :
    (if c then s else t).pending = if c then s.pending else t.pending := apply_ite _ _ _ _

variable (s : State)

/-! Registers, units, memory and event sources -/

@[simp] theorem pending_setReg (k : RegKind) (ix v : Nat) : (s.setReg k ix v).pending = s.pending := by simp [State.setReg]
@[simp] theorem pending_resetReg (k : RegKind) (ix : Nat) : (s.resetReg k ix).pending = s.pending := by simp [State.resetReg]
@[simp] theorem pending_fresh (w : Nat) : (s.fresh w).2.pending = s.pending := by simp [State.fresh]
@[simp] theorem pending_emit (o : OutEv) : (s.emit o).pending = s.pending := by simp [State.emit]
@[simp] theorem pending_modCore (g : Nat) (f : MCore → MCore) :
    (s.modCore g f).pending = s.pending := by simp [State.modCore]
@[simp] theorem pending_modDsp (d : Nat) (f : DCore → DCore) : (s.modDsp d f).pending = s.pending := by simp [State.modDsp]
@[simp] theorem pending_modCluster (k : Nat) (f : Cluster → Cluster) :
    (s.modCluster k f).pending = s.pending := by simp [State.modCluster]
@[simp] theorem pending_modEdge (k : Nat) (f : Edge → Edge) : (s.modEdge k f).pending = s.pending := by simp [State.modEdge]
@[simp] theorem pending_modStore (n : Nat) (f : Store → Store) :
    (s.modStore n f).pending = s.pending := by simp [State.modStore]
@[simp] theorem pending_modHc (h : Nat) (f : HCore → HCore) : (s.modHc h f).pending = s.pending := by simp [State.modHc]
@[simp] theorem pending_addFence (f : Fence) : (s.addFence f).pending = s.pending := by simp [State.addFence]
@[simp] theorem pending_setDieBit (off : Bool) (d : Nat) (b : Bool) :
    (s.setDieBit off d b).pending = s.pending := by simp [State.setDieBit]
@[simp] theorem pending_zero (a n : Nat) : (s.zero a n).pending = s.pending := by simp [State.zero]
@[simp] theorem pending_dropFlips (a n : Nat) : (s.dropFlips a n).pending = s.pending := by simp [State.dropFlips]
@[simp] theorem pending_clearPoison (a n : Nat) : (s.clearPoison a n).pending = s.pending := by simp [State.clearPoison]

@[simp] theorem pending_countPoisonWr (l : Nat) : (s.countPoisonWr l).pending = s.pending := by
  unfold State.countPoisonWr
  split <;> simp

@[simp] theorem pending_writePoison (a n : Nat) (pois : Bool) (l : Nat) :
    (s.writePoison a n pois l).pending = s.pending := by simp [State.writePoison]
@[simp] theorem pending_msixPf (port vec : Nat) : (s.msixPf port vec).pending = s.pending := by simp [State.msixPf]
@[simp] theorem pending_msixVf (b vec : Nat) : (s.msixVf b vec).pending = s.pending := by simp [State.msixVf]
@[simp] theorem pending_hcAssert (h k : Nat) : (s.hcAssert h k).pending = s.pending := by simp [State.hcAssert]
@[simp] theorem pending_hcClear (h k : Nat) : (s.hcClear h k).pending = s.pending := by simp [State.hcClear]
@[simp] theorem pending_recommended (n : Nat) (c : EvCap) (rung : Nat) :
    (s.recommended n c rung).pending = s.pending := by simp [State.recommended]
@[simp] theorem pending_raise (n : Nat) (c : EvCap) (rung : Nat) :
    (s.raise n c rung).pending = s.pending := by simp [State.raise]
@[simp] theorem pending_journal (kind level src data : Nat) (perm : Bool) :
    (s.journal kind level src data perm).pending = s.pending := by simp [State.journal]
@[simp] theorem pending_report (n : Nat) (c : EvCap) (src rung : Nat) :
    (s.report n c src rung).pending = s.pending := by simp [State.report]
@[simp] theorem pending_lastFault (d mech src level : Nat) (inj : Bool) :
    (s.lastFault d mech src level inj).pending = s.pending := by simp [State.lastFault]

@[simp] theorem pending_countAction (d level : Nat) : (s.countAction d level).pending = s.pending := by
  unfold State.countAction
  split <;> simp

@[simp] theorem pending_addrFault (w : Who) (a : Nat) : (s.addrFault w a).pending = s.pending := by simp [State.addrFault]

/-! Memory as the requesters meet it: error code, poison, doorbell lines, the shared write -/

@[simp] theorem pending_ibi : (s.ibi).pending = s.pending := by simp [State.ibi]
@[simp] theorem pending_alarm (code rung : Nat) : (s.alarm code rung).pending = s.pending := by simp [State.alarm]
@[simp] theorem pending_backupAlarm (code rung : Nat) :
    (s.backupAlarm code rung).pending = s.pending := by simp [State.backupAlarm]
@[simp] theorem pending_queueError (q tag : Nat) : (s.queueError q tag).pending = s.pending := by simp [State.queueError]
@[simp] theorem pending_newTail (q t : Nat) : (s.newTail q t).pending = s.pending := by simp [State.newTail]

@[simp] theorem pending_ring (a n : Nat) : (s.ring a n).pending = s.pending := by
  unfold State.ring
  refine pending_foldl _ _ ?_
  rintro s ⟨q, l⟩ u hu
  rw [← hu]
  refine (proj_when_of _ fun t ht => ?_).trans (proj_when_of _ fun t ht => ?_)
  · rw [← ht, pending_setQueue]
  · rw [← ht, pending_newTail]

@[simp] theorem pending_rawFill (a n : Nat) : (s.rawFill a n).pending = s.pending := by
  unfold State.rawFill
  refine pending_foldl _ _ (keeps_iff.mpr fun s x => ?_)
  split <;> simp

@[simp] theorem pending_eccCorrected (cnt : Option (Bool × Nat)) (d mech src : Nat) :
    (s.eccCorrected cnt d mech src).pending = s.pending := by
  unfold State.eccCorrected
  split <;> simp

@[simp] theorem pending_eccLost (cnt : Option (Bool × Nat)) (d mech src line : Nat) :
    (s.eccLost cnt d mech src line).pending = s.pending := by
  unfold State.eccLost
  split <;> simp

@[simp] theorem pending_eccLast (a : Nat) (patrol : Bool) : (s.eccLast a patrol).pending = s.pending := by
  unfold State.eccLast
  split <;> simp

@[simp] theorem pending_eccSilent (a x : Nat) : (s.eccSilent a x).pending = s.pending := by
  simp only [State.eccSilent]
  (repeat' split) <;> simp

@[simp] theorem pending_eccHit (a p : Nat) (patrol : Bool) : (s.eccHit a p patrol).pending = s.pending := by
  unfold State.eccHit
  (repeat' split) <;> simp

@[simp] theorem pending_meet (a n : Nat) (patrol : Bool) : (s.meet a n patrol).pending = s.pending := by
  unfold State.meet
  refine pending_foldl _ _ (keeps_iff.mpr fun s x => ?_)
  split <;> simp

@[simp] theorem pending_meetMerge (a n : Nat) : (s.meetMerge a n).pending = s.pending := by simp [State.meetMerge]
@[simp] theorem pending_storeWrite (a : Nat) (d : List Byte) :
    (s.storeWrite a d).pending = s.pending := by simp [State.storeWrite]
@[simp] theorem pending_poisonWrite (a n : Nat) (pois : Bool) :
    (s.poisonWrite a n pois).pending = s.pending := by simp [State.poisonWrite]

@[simp] theorem pending_put (basin a : Nat) (d : List Byte) (pois : Bool) : (s.put basin a d pois).pending = s.pending := by
  unfold State.put
  (repeat' split) <;> simp

@[simp] theorem pending_putRam (basin a : Nat) (d : List Byte) (pois : Bool) :
    (s.putRam basin a d pois).pending = s.pending := by
  unfold State.putRam
  split <;> simp

@[simp] theorem pending_rrcDrop (p : Nat → RLine → Bool) : (s.rrcDrop p).pending = s.pending := by simp [State.rrcDrop]

/-! Obsidian's ring and the streams of lock-step -/

@[simp] theorem pending_obsBytes (ofs : Nat) (d : List Byte) :
    (s.obsBytes ofs d).pending = s.pending := by simp [State.obsBytes]

@[simp] theorem pending_obsFree (f need : Nat) : (State.obsFree f need s).pending = s.pending := by
  induction f generalizing s with
  | zero => rfl
  | succ f ih =>
    unfold State.obsFree
    split
    · rfl
    · rw [ih, pending_setFld]

theorem pending_of_obsd {t : State} {o : Obsidian} (h : { s with obsd := o } = t) : t.pending = s.pending := h ▸ rfl

@[simp] theorem pending_obsAppend (r : List Byte) : (s.obsAppend r).pending = s.pending := by
  generalize ht : s.obsAppend r = t
  unfold State.obsAppend at ht
  extract_lets loss d u _ _ v at ht
  have hu : u.pending = s.pending := by
    generalize hw : u = w
    simp only [u] at hw
    split at hw
    · rw [← hw, pending_obsFree]
    · rw [hw]
  have hv : v.pending = u.pending := pending_obsBytes _ _ _
  clear_value u v
  split at ht
  · rw [← hu, pending_of_obsd _ ht, pending_incFld]
  · rw [pending_of_obsd _ ht, hv, hu]

@[simp] theorem pending_lockSend (kind : Nat) (rec : List Byte) :
    (s.lockSend kind rec).pending = s.pending := by simp [State.lockSend]
@[simp] theorem pending_obsOne (kind : Nat) (poison : Bool) (src aux value : Nat) (data : List Byte) (keep : Bool) :
    (s.obsOne kind poison src aux value data keep).pending = s.pending := by simp [State.obsOne]
@[simp] theorem pending_obs (kind src aux value : Nat) (data : List Byte) (poison keep : Bool) :
    (s.obs kind src aux value data poison keep).pending = s.pending := by simp [State.obs]
@[simp] theorem pending_obsFreeze : (s.obsFreeze).pending = s.pending := by simp [State.obsFreeze]
@[simp] theorem pending_obsFault (src kind ev : Nat) :
    (s.obsFault src kind ev).pending = s.pending := by simp [State.obsFault]
@[simp] theorem pending_obsTiming (src kind : Nat) : (s.obsTiming src kind).pending = s.pending := by simp [State.obsTiming]
@[simp] theorem pending_detect (d mech level src data rung : Nat) (inj perm : Bool) :
    (s.detect d mech level src data rung inj perm).pending = s.pending := by simp [State.detect]
@[simp] theorem pending_fenceEvent (d mech lvl : Nat) (u : FUnit) (rung : Nat) :
    (s.fenceEvent d mech lvl u rung).pending = s.pending := by simp [State.fenceEvent]
@[simp] theorem pending_cfwFlag (n j t flag : Nat) : (s.cfwFlag n j t flag).pending = s.pending := by simp [State.cfwFlag]
@[simp] theorem pending_cellsFlag (n t flag : Nat) : (s.cellsFlag n t flag).pending = s.pending := by simp [State.cellsFlag]

@[simp] theorem pending_cellsOf (n : Nat) : (s.cellsOf n).2.pending = s.pending := by
  unfold State.cellsOf
  split <;> simp

@[simp] theorem pending_workCells (dies : List Nat) (flag : Nat) :
    (s.workCells dies flag).pending = s.pending := by simp [State.workCells]

/-! Matrix cores: contexts, semaphores, records, kills and arrays -/

@[simp] theorem pending_setCtx (g c : Nat) (x : Option Ctx) : (s.setCtx g c x).pending = s.pending := by simp [State.setCtx]
@[simp] theorem pending_charge (b word n : Nat) : (s.charge b word n).pending = s.pending := by simp [State.charge]

@[simp] theorem pending_freeCtx (g c : Nat) : (s.freeCtx g c).pending = s.pending := by
  simp only [State.freeCtx]
  (repeat' split) <;> simp

@[simp] theorem pending_semAdd (g n cnt q : Nat) : (s.semAdd g n cnt q).pending = s.pending := by simp [State.semAdd]
@[simp] theorem pending_semReturn (g : Nat) (rsv : List (Nat × Nat)) :
    (s.semReturn g rsv).pending = s.pending := by simp [State.semReturn]
@[simp] theorem pending_record (g : Nat) (c : Cmd) (b status user cycles tick arrays : Nat) (ivl : Option (Nat × Nat)) :
    (s.record g c b status user cycles tick arrays ivl).pending = s.pending := by simp [State.record]
@[simp] theorem pending_boundary (g : Nat) : (s.boundary g).pending = s.pending := by simp [State.boundary]
@[simp] theorem pending_shdInvalid (g : Nat) : (s.shdInvalid g).pending = s.pending := by simp [State.shdInvalid]

@[simp] theorem pending_drop (g c : Nat) : (s.drop g c).pending = s.pending := by
  unfold State.drop
  split <;> simp

@[simp] theorem pending_killEnd (g c status user : Nat) : (s.killEnd g c status user).pending = s.pending := by
  unfold State.killEnd
  split <;> simp

@[simp] theorem pending_killRerun (g c : Nat) (tick : Bool) : (s.killRerun g c tick).pending = s.pending := by
  unfold State.killRerun
  split <;> simp

@[simp] theorem pending_killAll (g : Nat) : (s.killAll g).pending = s.pending := by simp [State.killAll]
@[simp] theorem pending_wakeUnits (p : Nat → Bool) : (s.wakeUnits p).pending = s.pending := by simp [State.wakeUnits]
@[simp] theorem pending_note (mech src : Nat) : (s.note mech src).pending = s.pending := by simp [State.note]
@[simp] theorem pending_escalate (d src mech : Nat) : (s.escalate d src mech).pending = s.pending := by simp [State.escalate]
@[simp] theorem pending_discard (d n : Nat) : (s.discard d n).pending = s.pending := by simp [State.discard]
@[simp] theorem pending_dropMaps (g a : Nat) : (s.dropMaps g a).pending = s.pending := by simp [State.dropMaps]
@[simp] theorem pending_arrInjectWrite (g a v : Nat) :
    (arrInjectWrite g a v s).pending = s.pending := by simp [arrInjectWrite]
@[simp] theorem pending_startScrub (g : Nat) : (s.startScrub g).pending = s.pending := by simp [State.startScrub]
@[simp] theorem pending_scrubEnd (g : Nat) : (scrubEnd g s).pending = s.pending := by simp [scrubEnd]

/-! The device as a requester on the fabric -/

@[simp] theorem pending_modFab (f : Fabric → Fabric) : (s.modFab f).pending = s.pending := by simp [State.modFab]
@[simp] theorem pending_setLink (l : Nat) (x : Link) : (s.setLink l x).pending = s.pending := by simp [State.setLink]
@[simp] theorem pending_setBar (b : Nat) (x : Barrier) : (s.setBar b x).pending = s.pending := by simp [State.setBar]
@[simp] theorem pending_wire (l : Nat) (p : Packet) : (s.wire l p).pending = s.pending := by simp [State.wire]
@[simp] theorem pending_sendOn (l : Nat) (e : OnLink) : (s.sendOn l e).pending = s.pending := by simp [State.sendOn]
@[simp] theorem pending_onLink (l : Nat) (e : OnLink) : (s.onLink l e).pending = s.pending := by simp [State.onLink]
@[simp] theorem pending_setDead (dst : Nat) : (s.setDead dst).pending = s.pending := by simp [State.setDead]

@[simp] theorem pending_send (p : Packet) (h : Nat) : (s.send p h).pending = s.pending := by
  unfold State.send
  (repeat' split) <;> simp

@[simp] theorem pending_deliver (q src : Nat) (data : List Byte) (lines : List Bool) :
    (s.deliver q src data lines).pending = s.pending := by simp [State.deliver]

@[simp] theorem pending_accept (q src ftid : Nat) (data : List Byte) (lines : List Bool) :
    (s.accept q src ftid data lines).2.pending = s.pending := by
  unfold State.accept
  split <;> simp

@[simp] theorem pending_setTxn (t : Txn) : (s.setTxn t).pending = s.pending := by simp [State.setTxn]
@[simp] theorem pending_dropTxn (tag : Nat) : (s.dropTxn tag).pending = s.pending := by simp [State.dropTxn]
@[simp] theorem pending_modDrain (g seq : Nat) (f : Drain → Drain) :
    (s.modDrain g seq f).pending = s.pending := by simp [State.modDrain]
@[simp] theorem pending_drainDone (t : Txn) (bad : Bool) :
    (s.drainDone t bad).pending = s.pending := by simp [State.drainDone]
@[simp] theorem pending_deliverOwn (t : Txn) : (s.deliverOwn t).pending = s.pending := by simp [State.deliverOwn]
@[simp] theorem pending_launch (t : Txn) : (s.launch t).pending = s.pending := by simp [State.launch]
@[simp] theorem pending_relaunch : (s.relaunch).pending = s.pending := by simp [State.relaunch]
@[simp] theorem pending_forget (tag : Nat) : (s.forget tag).pending = s.pending := by simp [State.forget]
@[simp] theorem pending_newTag : (s.newTag).2.pending = s.pending := by simp [State.newTag]
@[simp] theorem pending_request (g c seq basin : Nat) (cmd : Cmd) (p : Packet) (hash rd fn ret : Nat) :
    (s.request g c seq basin cmd p hash rd fn ret).2.pending = s.pending := by simp [State.request]

@[simp] theorem pending_floadDone (t : Txn) (v : Nat) (p : Bool) : (s.floadDone t v p).pending = s.pending := by
  unfold State.floadDone
  split <;> simp

@[simp] theorem pending_setJobs (l : List (Nat × Bool)) : (s.setJobs l).pending = s.pending := by simp [State.setJobs]
@[simp] theorem pending_unanswered (t : Txn) : (s.unanswered t).pending = s.pending := by simp [State.unanswered]
@[simp] theorem pending_sweepDead : (s.sweepDead).pending = s.pending := by simp [State.sweepDead]
@[simp] theorem pending_issueReq (r : Nat × State) : (State.issueReq r).2.pending = r.2.pending := pending_sweepDead _

/-! Store pages, SRAM granules and keys -/

@[simp] theorem pending_pageZeroing (n p b : Nat) : (s.pageZeroing n p b).pending = s.pending := by simp [State.pageZeroing]
@[simp] theorem pending_pageRelease (n p : Nat) : (s.pageRelease n p).pending = s.pending := by simp [State.pageRelease]
@[simp] theorem pending_granRelease (n gr : Nat) : (s.granRelease n gr).pending = s.pending := by simp [State.granRelease]

@[simp] theorem pending_releaseRun (k n l : Nat) : (State.releaseRun k n l s).pending = s.pending := by
  induction k generalizing s l with
  | zero => rfl
  | succ k ih =>
    unfold State.releaseRun
    split
    · rfl
    · rw [ih, pending_when, pending_pageRelease, ite_self]

@[simp] theorem pending_pageCmd (n v : Nat) : (pageCmd n v s).pending = s.pending := by
  unfold pageCmd
  extract_lets u w
  have hu : u.pending = s.pending := by rw [pending_setFld, pending_setFld, pending_setFld]
  have hw : w.pending = s.pending := by rw [pending_when, pending_setFld, ite_self, pending_setFld, hu]
  rw [← hw]
  split
  · rfl
  · split
    · split
      · rfl
      · exact pending_pageZeroing _ _ _ _
    · split
      · rfl
      · exact pending_releaseRun _ _ _ _
    · rfl

@[simp] theorem pending_sramOwnerWrite (n gr v : Nat) : (sramOwnerWrite n gr v s).pending = s.pending := by
  unfold sramOwnerWrite
  split <;> simp

@[simp] theorem pending_keyCmd (n v : Nat) : (keyCmd n v s).pending = s.pending := by simp [keyCmd]
@[simp] theorem pending_drawKey (n b : Nat) : (s.drawKey n b).pending = s.pending := by simp [State.drawKey]

/-! Barriers, doorbells and accounting -/

@[simp] theorem pending_devRequest (basin : Nat) (p : Packet) (hash : Nat) :
    (s.devRequest basin p hash).pending = s.pending := by
  rw [State.devRequest, pending_issueReq, pending_request]

@[simp] theorem pending_tryRelease (b : Nat) : (s.tryRelease b).pending = s.pending := by simp [State.tryRelease]
@[simp] theorem pending_radioRsvWrite (g : Nat) (v : BitVec 32) :
    (radioRsvWrite g v s).pending = s.pending := by simp [radioRsvWrite]
@[simp] theorem pending_semSignalWrite (g : Nat) (v : BitVec 32) :
    (semSignalWrite g v s).pending = s.pending := by simp [semSignalWrite]
@[simp] theorem pending_semOwnerWrite (g n : Nat) (v : BitVec 32) :
    (semOwnerWrite g n v s).pending = s.pending := by simp [semOwnerWrite]
@[simp] theorem pending_acctSnap (v : Nat) : (acctSnap v s).pending = s.pending := by simp [acctSnap]

/-! CRC units, DSP cores and queue control -/

@[simp] theorem pending_dmaCrcStop (d ch : Nat) : (s.dmaCrcStop d ch).pending = s.pending := by simp [State.dmaCrcStop]

@[simp] theorem pending_dspFree (d : Nat) : (s.dspFree d).pending = s.pending := by
  simp only [State.dspFree]
  (repeat' split) <;> simp

@[simp] theorem pending_taskRerun (d : Nat) (tick : Bool) : (s.taskRerun d tick).pending = s.pending := by
  unfold State.taskRerun
  split <;> simp

@[simp] theorem pending_dspAssert (d k : Nat) : (s.dspAssert d k).pending = s.pending := by simp [State.dspAssert]
@[simp] theorem pending_dspTimerWrite (d : Nat) (v : Word) :
    (dspTimerWrite d v s).pending = s.pending := by simp [dspTimerWrite]
@[simp] theorem pending_dspDoorbellWrite (d : Nat) (v : BitVec 32) :
    (dspDoorbellWrite d v s).pending = s.pending := by simp [dspDoorbellWrite]
@[simp] theorem pending_queueCtrl (q v : Nat) : (queueCtrl q v s).pending = s.pending := by simp [queueCtrl]
@[simp] theorem pending_crcCtrl (u v : Nat) : (crcCtrl u v s).pending = s.pending := by simp [crcCtrl]
@[simp] theorem pending_crcRunWrite (n u : Nat) (v : Word) :
    (crcRunWrite n u v s).pending = s.pending := by simp [crcRunWrite]

/-! Edge dies -/

@[simp] theorem pending_setMac (k : Nat) (l : List MacEnt) : (s.setMac k l).pending = s.pending := by simp [State.setMac]
@[simp] theorem pending_macAdd (k : Nat) (m : MacEnt) : (s.macAdd k m).pending = s.pending := by simp [State.macAdd]

@[simp] theorem pending_macOp (k op : Nat) (f : State → State) :

      (s.macOp k op f).pending = if s.flag F.FHL_MAC_OP.BUSY k then s.pending else (f (s.setFld F.FHL_MAC_OP.OP k op)).pending :=
  apply_ite _ _ _ _

@[simp] theorem pending_macPin (k : Nat) : (macPin k s).pending = s.pending := by
  simp only [macPin, pending_macOp]
  split
  · rfl
  · split
    · simp
    · split <;> simp

@[simp] theorem pending_macDelete (k : Nat) : (macDelete k s).pending = s.pending := by simp [macDelete]

@[simp] theorem pending_macRead (k : Nat) : (macRead k s).pending = s.pending := by
  simp only [macRead, pending_macOp]
  split
  · rfl
  · split <;> simp

@[simp] theorem pending_macFlushAll (k : Nat) : (macFlushAll k s).pending = s.pending := by simp [macFlushAll]
@[simp] theorem pending_macFlushPort (k : Nat) : (macFlushPort k s).pending = s.pending := by simp [macFlushPort]
@[simp] theorem pending_shaperWrite (k p q : Nat) (v : Word) :
    (shaperWrite k p q v s).pending = s.pending := by simp [shaperWrite]
@[simp] theorem pending_policerWrite (k i w : Nat) (v : Word) :
    (policerWrite k i w v s).pending = s.pending := by simp [policerWrite]

/-! The fabric as target and member -/

@[simp] theorem pending_barriersReset (b : Nat) : (s.barriersReset b).pending = s.pending := by simp [State.barriersReset]
@[simp] theorem pending_opDone (t : Txn) (bad : Bool) : (s.opDone t bad).pending = s.pending := by simp [State.opDone]
@[simp] theorem pending_orphan (p : Txn → Bool) (b : Option Nat) :
    (s.orphan p b).pending = s.pending := by simp [State.orphan]
@[simp] theorem pending_endJob (j : Nat) : (s.endJob j).pending = s.pending := by simp [State.endJob]
@[simp] theorem pending_teardownWrite (v : Nat) : (teardownWrite v s).pending = s.pending := by simp [teardownWrite]
@[simp] theorem pending_routeWrite (pod : Bool) (i : Nat) (v : Word) :
    (routeWrite pod i v s).pending = s.pending := by simp [routeWrite]
@[simp] theorem pending_ftidWrite (b : Nat) (v : BitVec 32) : (ftidWrite b v s).pending = s.pending := by simp [ftidWrite]
@[simp] theorem pending_flood (kind : Nat) (data : List Byte) :
    (s.flood kind data).pending = s.pending := by simp [State.flood]
@[simp] theorem pending_learn (dev l st : Nat) : (s.learn dev l st).pending = s.pending := by simp [State.learn]
@[simp] theorem pending_linkChanged (l : Nat) : (s.linkChanged l).pending = s.pending := by simp [State.linkChanged]
@[simp] theorem pending_downLink (l st : Nat) : (s.downLink l st).pending = s.pending := by simp [State.downLink]
@[simp] theorem pending_startTraining (l : Nat) : (s.startTraining l).pending = s.pending := by simp [State.startTraining]
@[simp] theorem pending_linkCtrl (l v : Nat) : (linkCtrl l v s).pending = s.pending := by simp [linkCtrl]

@[simp] theorem pending_unmask (i : Nat) : (s.unmask i).pending = s.pending := by
  unfold State.unmask
  split
  · rfl
  · refine pending_foldl _ _ fun s b u hu => ?_
    dsimp only at hu
    rw [← hu, pending_tryRelease, pending_putRam]

@[simp] theorem pending_expel (i : Nat) : (s.expel i).pending = s.pending := by simp [State.expel]
@[simp] theorem pending_countVote (slot target num : Nat) :
    (s.countVote slot target num).pending = s.pending := by simp [State.countVote]

@[simp] theorem pending_voteWrite (v : Nat) : (voteWrite v s).pending = s.pending := by
  simp only [voteWrite]
  (repeat' split) <;> simp

/-! Basins, the mailbox and the fall-back ring -/

@[simp] theorem pending_basinEvent (b : Nat) : (s.basinEvent b).pending = s.pending := by simp [State.basinEvent]
@[simp] theorem pending_dropBasin (b : Nat) : (s.dropBasin b).pending = s.pending := by simp [State.dropBasin]
@[simp] theorem pending_dropTasks (b : Nat) : (s.dropTasks b).pending = s.pending := by simp [State.dropTasks]
@[simp] theorem pending_basinStop (b st : Nat) (cmd : Bool) :
    (s.basinStop b st cmd).pending = s.pending := by simp [State.basinStop]
@[simp] theorem pending_release (n : Nat) : (s.release n).pending = s.pending := by simp [State.release]
@[simp] theorem pending_emptyWindow (b : Nat) : (s.emptyWindow b).pending = s.pending := by simp [State.emptyWindow]

@[simp] theorem pending_create (b port : Nat) : (s.create b port).pending = s.pending := by
  unfold State.create
  split <;> simp

@[simp] theorem pending_open' (b : Nat) : (s.open' b).pending = s.pending := by simp [State.open']
@[simp] theorem pending_stopCmd (b st : Nat) (from' : List Nat) :
    (s.stopCmd b st from').pending = s.pending := by simp [State.stopCmd]

@[simp] theorem pending_bsnCmd (v : Nat) : (bsnCmd v s).pending = s.pending := by
  unfold bsnCmd
  split <;> simp

@[simp] theorem pending_closeBasin (b : Nat) : (s.closeBasin b).pending = s.pending := by simp [State.closeBasin]
@[simp] theorem pending_closePort (port : Nat) (p : Nat → Bool) :
    (s.closePort port p).pending = s.pending := by simp [State.closePort]
@[simp] theorem pending_vfDisable (port : Nat) (vfe : Bool) (n : Nat) :
    (vfDisable port vfe n s).pending = s.pending := by simp [vfDisable]
@[simp] theorem pending_mbxPut (b o : Nat) (d : List Byte) : (s.mbxPut b o d).pending = s.pending := by simp [State.mbxPut]

@[simp] theorem pending_upBell (b slot ctl : Nat) : (s.upBell b slot ctl).pending = s.pending := by
  unfold State.upBell
  rw [pending_raise, pending_incFld, pending_mbxPut]

@[simp] theorem pending_ringStop (b : Nat) : (s.ringStop b).pending = s.pending := by simp [State.ringStop]
@[simp] theorem pending_downCopy (b slot : Nat) : (s.downCopy b slot).pending = s.pending := by simp [State.downCopy]

@[simp] theorem pending_downBell (b slot ctl : Nat) (fault : Bool) : (s.downBell b slot ctl fault).pending = s.pending := by
  unfold State.downBell
  extract_lets u
  have h : u.pending = s.pending := by rw [pending_incFld, pending_mbxPut]
  rw [← h]
  split
  · rfl
  · split
    · split
      · exact pending_ringStop _ _
      · exact pending_downCopy _ _ _
    · exact pending_msixVf _ _ _

@[simp] theorem pending_mbxDrop (b : Nat) : (s.mbxDrop b).pending = s.pending := by simp [State.mbxDrop]
@[simp] theorem pending_mbxCtlWrite (tenant : Bool) (b slot v : Nat) (fault : Bool) :
    (s.mbxCtlWrite tenant b slot v fault).pending = s.pending := by simp [State.mbxCtlWrite]
@[simp] theorem pending_mbxApply (r : Req) (b o : Nat) (d : List Byte) (fault : Bool) :
    (s.mbxApply r b o d fault).pending = s.pending := by simp [State.mbxApply]

@[simp] theorem pending_mbxWrite (r : Req) (b o : Nat) (d : List Byte) (fault : Bool) :
    (s.mbxWrite r b o d fault).pending = s.pending := by
  unfold State.mbxWrite
  split <;> simp

@[simp] theorem pending_modeWrite (b : Nat) (v : BitVec 32) : (modeWrite b v s).pending = s.pending := by simp [modeWrite]

/-! Host cores' owners and deterministic mode -/

@[simp] theorem pending_hostCoreOwnerWrite (h : Nat) (v : BitVec 32) :
    (hostCoreOwnerWrite h v s).pending = s.pending := by simp [hostCoreOwnerWrite]
@[simp] theorem pending_detWrite (v : Nat) : (detWrite v s).pending = s.pending := by simp [detWrite]

/-! Obsidian's control, lock-step and digests -/

@[simp] theorem pending_obsWrite (v : Nat) : (obsWrite v s).pending = s.pending := by simp [obsWrite]
@[simp] theorem pending_obsidianMark (v : Word) : (obsidianMark v s).pending = s.pending := by simp [obsidianMark]

@[simp] theorem pending_tickSet (v : Word) : (tickSet v s).pending = s.pending := by
  unfold tickSet
  split
  · rfl
  · dsimp only
    rw [pending_setFld]

@[simp] theorem pending_ungate (p : Nat → Nat → Bool) : (s.ungate p).pending = s.pending := by simp [State.ungate]
@[simp] theorem pending_dropGated : (s.dropGated).pending = s.pending := by simp [State.dropGated]
@[simp] theorem pending_lockWrite (v : Nat) : (lockWrite v s).pending = s.pending := by simp [lockWrite]
@[simp] theorem pending_digestClear (g k : Nat) : (digestClear g k s).pending = s.pending := by simp [digestClear]

/-! Timebase, tick generator and time triggers -/

@[simp] theorem pending_setChg (c : Option Nat) : (s.setChg c).pending = s.pending := by simp [State.setChg]
@[simp] theorem pending_setIncr (y : Nat) : (s.setIncr y).pending = s.pending := by simp [State.setIncr]
@[simp] theorem pending_addStep (d : Nat) : (s.addStep d).pending = s.pending := by simp [State.addStep]
@[simp] theorem pending_tmbIncrWrite (v : Word) : (tmbIncrWrite v s).pending = s.pending := by simp [tmbIncrWrite]
@[simp] theorem pending_tmbStepWrite (v : Word) : (tmbStepWrite v s).pending = s.pending := by simp [tmbStepWrite]

@[simp] theorem pending_cfwWrite (n t : Nat) : (s.cfwWrite n t).pending = s.pending := by
  unfold State.cfwWrite
  split
  · exact pending_foldl _ _ fun s j u hu => by rw [← hu, pending_write]
  · rfl

@[simp] theorem pending_latchRd (n : Nat) : (s.latchRd n).pending = s.pending := by simp [State.latchRd]
@[simp] theorem pending_periodRequest (v : Nat) : (s.periodRequest v).pending = s.pending := by simp [State.periodRequest]
@[simp] theorem pending_setRun : (s.setRun).pending = s.pending := by simp [State.setRun]
@[simp] theorem pending_dropReads : (s.dropReads).pending = s.pending := by simp [State.dropReads]
@[simp] theorem pending_clearRun : (s.clearRun).pending = s.pending := by simp [State.clearRun]
@[simp] theorem pending_geyWrite (v : Nat) : (geyWrite v s).pending = s.pending := by simp [geyWrite]

@[simp] theorem pending_frameOfsWrite (v : BitVec 32) : (frameOfsWrite v s).pending = s.pending := by
  simp only [frameOfsWrite]
  (repeat' split) <;> simp

@[simp] theorem pending_fumaroleWrite (v : BitVec 32) : (fumaroleWrite v s).pending = s.pending := by simp [fumaroleWrite]
@[simp] theorem pending_trigFields (n v : Nat) : (trigFields n v s).pending = s.pending := by simp [trigFields]
@[simp] theorem pending_trigArm (n : Nat) (v : BitVec 32) : (trigArm n v s).pending = s.pending := by simp [trigArm]
@[simp] theorem pending_trigEnd (n : Nat) : (trigEnd n s).pending = s.pending := by simp [trigEnd]
@[simp] theorem pending_trigCancel (n : Nat) : (trigCancel n s).pending = s.pending := by simp [trigCancel]
@[simp] theorem pending_trigReset (n : Nat) : (trigReset n s).pending = s.pending := by simp [trigReset]
@[simp] theorem pending_trigDisarm (n : Nat) (v : BitVec 32) : (trigDisarm n v s).pending = s.pending := by simp [trigDisarm]

/-! Replicas, detections, fences, the journal and resets -/

@[simp] theorem pending_fromReplica : (s.fromReplica).pending = s.pending := by simp [State.fromReplica]
@[simp] theorem pending_takeover : (takeover s).pending = s.pending := by simp [takeover]
@[simp] theorem pending_sctlMiss (n : Nat) (inj : Bool) : (s.sctlMiss n inj).pending = s.pending := by simp [State.sctlMiss]
@[simp] theorem pending_tickFault (d : Nat) (inj : Bool) :
    (s.tickFault d inj).pending = s.pending := by simp [State.tickFault]
@[simp] theorem pending_tstopClear : (tstopClear s).pending = s.pending := by simp [tstopClear]
@[simp] theorem pending_unfenceDie (d : Nat) : (s.unfenceDie d).pending = s.pending := by simp [State.unfenceDie]

@[simp] theorem pending_unfence (u : FUnit) : (s.unfence u).pending = s.pending := by
  unfold State.unfence
  (repeat' split) <;> simp

@[simp] theorem pending_releaseFences (u : FUnit) (lvl : Nat) (p : Fence → Bool) :
    (s.releaseFences u lvl p).pending = s.pending := by simp [State.releaseFences]
@[simp] theorem pending_alertClear (v : BitVec 32) : (alertClear v s).pending = s.pending := by simp [alertClear]
@[simp] theorem pending_rungClear : (rungClear s).pending = s.pending := by simp [rungClear]

@[simp] theorem pending_applyMaps : s.applyMaps.pending = s.pending := by
  unfold State.applyMaps
  simp only [pending_foldl, keeps_iff, pending_when, pending_setFld, implies_true, ite_self]
  refine pending_foldl _ _ (keeps_iff.mpr fun s f => ?_)
  split <;> simp

@[simp] theorem pending_fuseOff : (s.fuseOff).pending = s.pending := by simp [State.fuseOff]
@[simp] theorem pending_cleared (regs : RegKind → Nat → Bool) (byte : Nat → Bool) (key0 : Bool) :
    (s.cleared regs byte key0).pending = s.pending := by simp [State.cleared]

@[simp] theorem pending_withIsland (t : State) : (s.withIsland t).pending = t.pending := by
  unfold State.withIsland
  rw [pending_applyMaps, pending_setFld, pending_setFld]

@[simp] theorem pending_keepOff (t : State) : (s.keepOff t).pending = t.pending := by
  simp [State.keepOff]

@[simp] theorem pending_warmReset : (warmReset s).pending = s.pending := by simp [warmReset]
@[simp] theorem pending_powerCycleRequest : (powerCycleRequest s).pending = s.pending := by simp [powerCycleRequest]

@[simp] theorem pending_testStop (u : FUnit) : (s.testStop u).pending = s.pending := by
  unfold State.testStop
  split <;> simp

@[simp] theorem pending_testErr (u : FUnit) (e : Nat) : (s.testErr u e).pending = s.pending := by simp [State.testErr]
@[simp] theorem pending_testSet (u : FUnit) : (s.testSet u).pending = s.pending := by simp [State.testSet]
@[simp] theorem pending_testStart (u : FUnit) : (s.testStart u).pending = s.pending := by simp [State.testStart]

@[simp] theorem pending_testScrub (u : FUnit) : (s.testScrub u).pending = s.pending := by
  unfold State.testScrub
  split <;> simp

@[simp] theorem pending_testUnmap (u : FUnit) : (s.testUnmap u).pending = s.pending := by
  unfold State.testUnmap
  split <;> simp

@[simp] theorem pending_testBack (u : FUnit) (perm : Bool) :
    (s.testBack u perm).pending = s.pending := by simp [State.testBack]

@[simp] theorem pending_testCmd (v : Nat) : (testCmd v s).pending = s.pending := by
  unfold testCmd
  split <;> simp

/-! PCIe, host cores and the event controller -/

@[simp] theorem pending_bar2BaseWrite (port : Nat) (v : Word) :
    (bar2BaseWrite port v s).pending = s.pending := by simp [bar2BaseWrite]
@[simp] theorem pending_hcTrap (h cause tval : Nat) : (s.hcTrap h cause tval).pending = s.pending := by simp [State.hcTrap]
@[simp] theorem pending_hcSet (h : Nat) (on : Bool) : (s.hcSet h on).pending = s.pending := by simp [State.hcSet]
@[simp] theorem pending_hcCtrl (h v : Nat) : (hcCtrl h v s).pending = s.pending := by simp [hcCtrl]
@[simp] theorem pending_timecmp (h v : Nat) : (s.timecmp h v).pending = s.pending := by simp [State.timecmp]
@[simp] theorem pending_iack (h mask : Nat) : (s.iack h mask).pending = s.pending := by simp [State.iack]

@[simp] theorem pending_hsRand (h : Nat) : (s.hsRand h).pending = s.pending := by
  unfold State.hsRand
  split <;> simp

@[simp] theorem pending_evTake (h : Nat) : (s.evTake h).pending = s.pending := by
  unfold State.evTake
  split
  · exact pending_hcTrap _ _ _ _
  · split
    · simp
    · rw [pending_answer, pending_setFld, pending_setFld, pending_setFld, pending_setFld]

@[simp] theorem pending_d2h (h k : Nat) : (s.d2h h k).pending = s.pending := by simp [State.d2h]
@[simp] theorem pending_hcDoorbell (h : Nat) (v : BitVec 32) : (hcDoorbell h v s).pending = s.pending := by simp [hcDoorbell]
@[simp] theorem pending_pairEnable (p : Nat) (v : BitVec 32) : (pairEnable p v s).pending = s.pending := by simp [pairEnable]
@[simp] theorem pending_standby (p : Nat) : (s.standby p).pending = s.pending := by simp [State.standby]
@[simp] theorem pending_pairFail (p : Nat) (inj : Bool) : (s.pairFail p inj).pending = s.pending := by simp [State.pairFail]
@[simp] theorem pending_evSignal (q : Nat) (first : Bool) :
    (s.evSignal q first).pending = s.pending := by simp [State.evSignal]
@[simp] theorem pending_evAppend (n rung time q : Nat) :
    (s.evAppend n rung time q).pending = s.pending := by simp [State.evAppend]
@[simp] theorem pending_eventCompletion (k : Nat) (v : BitVec 32) (hostRefuses : Bool) :
    (eventCompletion k v hostRefuses s).pending = s.pending := by simp [eventCompletion]
@[simp] theorem pending_eventQueueHeadWrite (q : Nat) (v : BitVec 32) :
    (eventQueueHeadWrite q v s).pending = s.pending := by simp [eventQueueHeadWrite]
@[simp] theorem pending_evcCtrl (v : Nat) : (evcCtrl v s).pending = s.pending := by simp [evcCtrl]

/-! Start-up, calibration, throttling and injection -/

@[simp] theorem pending_fwCmd (v : Nat) : (fwCmd v s).pending = s.pending := by simp [fwCmd]
@[simp] theorem pending_fwReady : (fwReady s).pending = s.pending := by simp [fwReady]

@[simp] theorem pending_calUserWrite (i : Nat) (v : Word) : (calUserWrite i v s).pending = s.pending := by
  unfold calUserWrite
  split <;> simp

@[simp] theorem pending_setClk (n : Nat) : (s.setClk n).pending = s.pending := by simp [State.setClk]

@[simp] theorem pending_injectNow (d mech : Nat) (u : FUnit) : (s.injectNow d mech u).pending = s.pending := by
  unfold State.injectNow
  (repeat' split) <;> simp

@[simp] theorem pending_faultInject (d : Nat) (v : BitVec 32) : (faultInject d v s).pending = s.pending := by
  simp only [faultInject]
  (repeat' split) <;> simp

/-! Register writes and the requesters' ways in -/

@[simp] theorem pending_writeField (k : RegKind) (ix j v : Nat) (i : FieldInfo) :
    (writeField k ix j v s i).pending = s.pending := by
  unfold writeField
  split
  · rfl
  · cases i.acc <;> rfl

@[simp] theorem pending_plain (k : RegKind) (ix j v : Nat) : (s.plain k ix j v).pending = s.pending := by
  simp [plain_eq_foldl]

@[simp] theorem pending_clampFld (f : Field) (ix lo hi : Nat) :
    (s.clampFld f ix lo hi).pending = s.pending := by simp [State.clampFld]
@[simp] theorem pending_alignFld (f : Field) (ix n : Nat) :
    (s.alignFld f ix n).pending = s.pending := by simp [State.alignFld]

@[simp] theorem pending_writePkg (r : Req) (k : RegKind) (ix j v : Nat) : (s.writePkg r k ix j v).pending = s.pending := by
  unfold State.writePkg
  split <;> simp

@[simp] theorem pending_writeIsland (k : RegKind) (ix j v : Nat) : (s.writeIsland k ix j v).pending = s.pending := by
  simp only [State.writeIsland]
  split <;> simp

@[simp] theorem pending_writeRing (k : RegKind) (ix j v : Nat) (f : Field) (unit : Nat) :
    (s.writeRing k ix j v f unit).pending = s.pending := by simp [State.writeRing]

@[simp] theorem pending_writeMatrix (k : RegKind) (ix j v : Nat) : (s.writeMatrix k ix j v).pending = s.pending := by
  unfold State.writeMatrix
  split <;> simp

@[simp] theorem pending_macCmd (k v : Nat) : (s.macCmd k v).pending = s.pending := by
  unfold State.macCmd
  (repeat' split) <;> simp

@[simp] theorem pending_writeRadio (k : RegKind) (ix j v : Nat) : (s.writeRadio k ix j v).pending = s.pending := by
  unfold State.writeRadio
  split <;> simp

@[simp] theorem pending_writeFabric (k : RegKind) (ix j v : Nat) : (s.writeFabric k ix j v).pending = s.pending := by
  unfold State.writeFabric
  split <;> simp

@[simp] theorem pending_writeReg (r : Req) (k : RegKind) (ix j v : Nat) :
    (s.writeReg r k ix j v).pending = s.pending := by simp [State.writeReg]
@[simp] theorem pending_unhold (r : Req) (key : Nat) : (s.unhold r key).pending = s.pending := by simp [State.unhold]
@[simp] theorem pending_hold (r : Req) (key v : Nat) : (s.hold r key v).pending = s.pending := by simp [State.hold]
@[simp] theorem pending_writeHigh (r : Req) (k : RegKind) (ix j v : Nat) :
    (s.writeHigh r k ix j v).pending = s.pending := by simp [State.writeHigh]

@[simp] theorem pending_write32 (r : Req) (o v : Nat) : (s.write32 r o v).pending = s.pending := by
  unfold State.write32
  split <;> simp

@[simp] theorem pending_write64 (r : Req) (o v : Nat) : (s.write64 r o v).pending = s.pending := by
  unfold State.write64
  split <;> simp

@[simp] theorem pending_regAccess (r : Req) (o : Nat) (d : List Byte) : (s.regAccess r o d).pending = s.pending := by
  unfold State.regAccess
  split <;> simp

@[simp] theorem pending_regWr (r : Req) (o : Nat) (d : List Byte) : (regWr r o d s).pending = s.pending := by simp [regWr]

@[simp] theorem pending_sysRead (h num : Nat) : (s.sysRead h num).pending = s.pending := by
  unfold State.sysRead
  split <;> simp

@[simp] theorem pending_sysWrite (h num v : Nat) : (s.sysWrite h num v).pending = s.pending := by
  unfold State.sysWrite
  split <;> simp

@[simp] theorem pending_vfWrite (vf off n v : Nat) : (s.vfWrite vf off n v).pending = s.pending := by
  unfold State.vfWrite
  split <;> simp

/-! The register writes that wait: Obsidian's record of a write leaves them -/

@[simp] theorem mmio_when (s : State) (c : Bool) (f : State → State) :
    (s.when c f).mmio = if c then (f s).mmio else s.mmio := by
  cases c <;> rfl

@[simp] theorem mmio_ite (c : Prop) [Decidable c] (s t : State) :
    (if c then s else t).mmio = if c then s.mmio else t.mmio := apply_ite _ _ _ _
@[simp] theorem mmio_foldl {α : Type} {f : State → α → State} (s : State) (l : List α) (h : Keeps State.mmio f) :
    (l.foldl f s).mmio = s.mmio := h.foldl s l
@[simp] theorem mmio_emit (o : OutEv) : (s.emit o).mmio = s.mmio := by simp [State.emit]
@[simp] theorem mmio_journal (kind level src data : Nat) (perm : Bool) :
    (s.journal kind level src data perm).mmio = s.mmio := by simp [State.journal]
@[simp] theorem mmio_recommended (n : Nat) (c : EvCap) (rung : Nat) :
    (s.recommended n c rung).mmio = s.mmio := by simp [State.recommended]
@[simp] theorem mmio_hcAssert (h k : Nat) : (s.hcAssert h k).mmio = s.mmio := by simp [State.hcAssert]
@[simp] theorem mmio_raise (n : Nat) (c : EvCap) (rung : Nat) : (s.raise n c rung).mmio = s.mmio := by simp [State.raise]
@[simp] theorem mmio_report (n : Nat) (c : EvCap) (src rung : Nat) :
    (s.report n c src rung).mmio = s.mmio := by simp [State.report]

@[simp] theorem mmio_countAction (d level : Nat) : (s.countAction d level).mmio = s.mmio := by
  unfold State.countAction
  split <;> simp

@[simp] theorem mmio_lastFault (d mech src level : Nat) (inj : Bool) :
    (s.lastFault d mech src level inj).mmio = s.mmio := by simp [State.lastFault]
@[simp] theorem mmio_queueError (q tag : Nat) : (s.queueError q tag).mmio = s.mmio := by simp [State.queueError]
@[simp] theorem mmio_newTail (q t : Nat) : (s.newTail q t).mmio = s.mmio := by simp [State.newTail]

@[simp] theorem mmio_ring (a n : Nat) : (s.ring a n).mmio = s.mmio := by
  unfold State.ring
  refine mmio_foldl _ _ ?_
  rintro s ⟨q, l⟩ u hu
  rw [← hu]
  refine (proj_when_of _ fun t ht => ?_).trans (proj_when_of _ fun t ht => ?_)
  · rw [← ht, mmio_setQueue]
  · rw [← ht, mmio_newTail]

@[simp] theorem mmio_countPoisonWr (l : Nat) : (s.countPoisonWr l).mmio = s.mmio := by
  unfold State.countPoisonWr
  split <;> simp

@[simp] theorem mmio_writePoison (a n : Nat) (pois : Bool) (l : Nat) :
    (s.writePoison a n pois l).mmio = s.mmio := by simp [State.writePoison]
@[simp] theorem mmio_poisonWrite (a n : Nat) (pois : Bool) :
    (s.poisonWrite a n pois).mmio = s.mmio := by simp [State.poisonWrite]
@[simp] theorem mmio_storeWrite (a : Nat) (d : List Byte) : (s.storeWrite a d).mmio = s.mmio := by simp [State.storeWrite]

@[simp] theorem mmio_rawFill (a n : Nat) : (s.rawFill a n).mmio = s.mmio := by
  unfold State.rawFill
  refine mmio_foldl _ _ (keeps_iff.mpr fun s x => ?_)
  split <;> simp

@[simp] theorem mmio_eccCorrected (cnt : Option (Bool × Nat)) (d mech src : Nat) :
    (s.eccCorrected cnt d mech src).mmio = s.mmio := by
  unfold State.eccCorrected
  split <;> simp

@[simp] theorem mmio_eccLost (cnt : Option (Bool × Nat)) (d mech src line : Nat) :
    (s.eccLost cnt d mech src line).mmio = s.mmio := by
  unfold State.eccLost
  split <;> simp

@[simp] theorem mmio_eccLast (a : Nat) (patrol : Bool) : (s.eccLast a patrol).mmio = s.mmio := by
  unfold State.eccLast
  split <;> simp

@[simp] theorem mmio_eccSilent (a x : Nat) : (s.eccSilent a x).mmio = s.mmio := by
  simp only [State.eccSilent]
  (repeat' split) <;> simp

@[simp] theorem mmio_eccHit (a p : Nat) (patrol : Bool) : (s.eccHit a p patrol).mmio = s.mmio := by
  unfold State.eccHit
  (repeat' split) <;> simp

@[simp] theorem mmio_meet (a n : Nat) (patrol : Bool) : (s.meet a n patrol).mmio = s.mmio := by
  unfold State.meet
  refine mmio_foldl _ _ (keeps_iff.mpr fun s x => ?_)
  split <;> simp

@[simp] theorem mmio_dropFlips (a n : Nat) : (s.dropFlips a n).mmio = s.mmio := by simp [State.dropFlips]
@[simp] theorem mmio_meetMerge (a n : Nat) : (s.meetMerge a n).mmio = s.mmio := by simp [State.meetMerge]

@[simp] theorem mmio_put (basin a : Nat) (d : List Byte) (pois : Bool) (h : ∀ o, place a ≠ .regs o) :
    (s.put basin a d pois).mmio = s.mmio := by
  unfold State.put
  (repeat' split) <;> simp_all

@[simp] theorem mmio_putRam (basin a : Nat) (d : List Byte) (pois : Bool) : (s.putRam basin a d pois).mmio = s.mmio := by
  unfold State.putRam
  (repeat' split) <;> simp_all

@[simp] theorem mmio_lockSend (kind : Nat) (rec : List Byte) :
    (s.lockSend kind rec).mmio = s.mmio := by simp [State.lockSend]

@[simp] theorem mmio_obsFree (f need : Nat) : (State.obsFree f need s).mmio = s.mmio := by
  induction f generalizing s with
  | zero => rfl
  | succ f ih =>
    unfold State.obsFree
    split
    · rfl
    · rw [ih, mmio_setFld]

@[simp] theorem mmio_obsBytes (ofs : Nat) (d : List Byte) : (s.obsBytes ofs d).mmio = s.mmio := by simp [State.obsBytes]
theorem mmio_of_obsd {t : State} {o : Obsidian} (h : { s with obsd := o } = t) : t.mmio = s.mmio := h ▸ rfl

@[simp] theorem mmio_obsAppend (r : List Byte) : (s.obsAppend r).mmio = s.mmio := by
  generalize ht : s.obsAppend r = t
  unfold State.obsAppend at ht
  extract_lets loss d u _ _ v at ht
  have hu : u.mmio = s.mmio := by
    generalize hw : u = w
    simp only [u] at hw
    split at hw
    · rw [← hw, mmio_obsFree]
    · rw [hw]
  have hv : v.mmio = u.mmio := mmio_obsBytes _ _ _
  clear_value u v
  split at ht
  · rw [← hu, mmio_of_obsd _ ht, mmio_incFld]
  · rw [mmio_of_obsd _ ht, hv, hu]

@[simp] theorem mmio_obsOne (kind : Nat) (poison : Bool) (src aux value : Nat) (data : List Byte) (keep : Bool) :
    (s.obsOne kind poison src aux value data keep).mmio = s.mmio := by simp [State.obsOne]
@[simp] theorem mmio_obs (kind src aux value : Nat) (data : List Byte) (poison keep : Bool) :
    (s.obs kind src aux value data poison keep).mmio = s.mmio := by simp [State.obs]

end Sys2Proof.Machine
end

section
/-! SUPPORT. Bytes and numbers, the latches of a requester (R10), reads that clear (R11), and the places of registers. -/

namespace Sys2Proof.Machine
open Sys2Proof.Safety

/-! Bytes -/

@[simp] theorem length_bytesOf (n v : Nat) : (bytesOf n v).length = n := by
  induction n generalizing v with
  | zero => rfl
  | succ n ih => simp [bytesOf, ih]

theorem natOf_bytesOf (n v : Nat) : natOf (bytesOf n v) = v % 256 ^ n := by
  induction n generalizing v with
  | zero => simp [bytesOf, natOf, Nat.mod_one]
  | succ n ih =>
    rw [bytesOf, natOf, ih, BitVec.toNat_ofNat, Nat.pow_succ' (m := 256)]
    exact Nat.mod_mul.symm

theorem bytesOf_mod (n v : Nat) : bytesOf n (v % 256 ^ n) = bytesOf n v := by
  induction n generalizing v with
  | zero => rfl
  | succ n ih =>
    have h8 : BitVec.ofNat 8 (v % 256 ^ (n + 1)) = BitVec.ofNat 8 v := by
      apply BitVec.eq_of_toNat_eq
      rw [BitVec.toNat_ofNat, BitVec.toNat_ofNat, Nat.pow_succ]
      exact Nat.mod_mul_left_mod _ _ _
    rw [bytesOf, bytesOf, h8, Nat.pow_succ', Nat.mod_mul_right_div_self, ih]

theorem bytesOf_natOf (d : List Byte) : bytesOf d.length (natOf d) = d := by
  induction d with
  | nil => rfl
  | cons b d ih =>
    have hb := b.isLt
    have hq : (b.toNat + 256 * natOf d) / 256 = natOf d := by omega
    have hr : BitVec.ofNat 8 (b.toNat + 256 * natOf d) = b := by
      apply BitVec.eq_of_toNat_eq
      rw [BitVec.toNat_ofNat]
      omega
    rw [natOf, List.length_cons, bytesOf, hq, hr, ih]

theorem slice_bytesOf (n v : Nat) : slice (bytesOf n v) 0 n = bytesOf n v := by
  rw [slice, List.drop_zero, List.take_append_of_le_length (by simp), List.take_of_length_le (by simp)]

/-! Latches -/

variable {s u : State} {r : Req}

theorem latched_latch_same (key v : Nat) : (s.latch r key v).latched r key = some v := by
  simp [State.latched, State.latch]

theorem latched_unlatch_ne (s : State) {r r' : Req} {key n : Nat} (h : r' ≠ r ∨ n ≠ key) :
    (s.unlatch r key).latched r' n = s.latched r' n := by
  rw [State.latched, State.latched, State.unlatch, List.find?_filter]
  congr 2
  funext l
  by_cases e : l.req = r' ∧ l.key = n
  · obtain ⟨rfl, rfl⟩ := e
    rcases h with h | h <;> simp [h]
  · have : (l.req == r' && l.key == n) = false := by simpa using e
    simp [this]

theorem latched_latch_ne {r' : Req} {key n : Nat} (v : Nat) (h : r' ≠ r ∨ n ≠ key) :
    (s.latch r key v).latched r' n = s.latched r' n := by
  rw [← latched_unlatch_ne s h]
  have : (r == r' && key == n) = false := by
    rcases h with h | h
    · simp [Ne.symm h]
    · simp [Ne.symm h]
  simp [State.latched, State.latch, State.unlatch, this]

theorem latched_unlatch_same (key : Nat) : (s.unlatch r key).latched r key = none := by
  simp only [State.latched, State.unlatch, Option.map_eq_none_iff, List.find?_eq_none, List.mem_filter]
  rintro l ⟨-, h⟩ e
  rw [e] at h
  cases h

/-! Reads that clear (R11) -/

variable {k : RegKind} {ix hi lo j : Nat}

/-- One field's part of a read that clears. -/
def clearField (k : RegKind) (ix hi lo : Nat) (s : State) (i : FieldInfo) : State :=
  if i.acc = .rc ∧ lo ≤ i.lo ∧ i.lo ≤ hi then s.setFld ⟨k, i.hi, i.lo⟩ ix 0 else s

theorem clearRc_eq_foldl (s : State) (k : RegKind) (ix hi lo : Nat) :
    s.clearRc k ix hi lo = k.fields.foldl (clearField k ix hi lo) s := rfl

theorem mem_rcFields {f : Field} {n : Nat} :
    (f, n) ∈ rcFields k ix lo hi ↔ ∃ i ∈ k.fields, (i.acc = .rc ∧ lo ≤ i.lo ∧ i.lo ≤ hi) ∧ f = ⟨k, i.hi, i.lo⟩ ∧ n = ix := by
  simp only [rcFields, List.mem_map, List.mem_filter, Bool.and_eq_true, beq_iff_eq, decide_eq_true_eq, Prod.mk.injEq]
  constructor
  · rintro ⟨i, ⟨hi, h⟩, rfl, rfl⟩; exact ⟨i, hi, h, rfl, rfl⟩
  · rintro ⟨i, hi, h, rfl, rfl⟩; exact ⟨i, ⟨hi, h⟩, rfl, rfl⟩

/-- A read that clears changes the read-clear fields of its bits only. -/
theorem sameBut_clearRc (s : State) (k : RegKind) (ix hi lo : Nat) : SameBut (rcFields k ix lo hi) s (s.clearRc k ix hi lo) := by
  have h : ∀ (l : List FieldInfo) (t : State), (∀ i ∈ l, i ∈ k.fields) → SameBut (rcFields k ix lo hi) s t →
      SameBut (rcFields k ix lo hi) s (l.foldl (clearField k ix hi lo) t) := by
    intro l
    induction l with
    | nil => exact fun t _ ht => ht
    | cons i l ih =>
      intro t hl ht
      refine ih _ (fun q hq => hl q (List.mem_cons_of_mem i hq)) ?_
      unfold clearField
      split
      · next hc => exact ht.setFld 0 (mem_rcFields.mpr ⟨i, hl i List.mem_cons_self, hc, rfl, rfl⟩)
      · exact ht
  exact h k.fields s (fun _ hi => hi) (SameBut.refl _ s)

/-- A field that reads 0 still does when any field is set to 0. -/
theorem fld_setFld_zero {f g : Field} {n m : Nat} (hf : f.lo < 256) (hg : g.lo < 256) (h : s.fld f n = 0) :
    (s.setFld g m 0).fld f n = 0 := by
  by_cases e : g.key m = f.key n
  · obtain ⟨rfl, hk, hl⟩ := (Field.key_eq_iff hg hf).mp e
    obtain ⟨gk, gh, gl⟩ := g
    obtain ⟨fk, fh, fl⟩ := f
    obtain rfl : gk = fk := hk
    obtain rfl : gl = fl := hl
    exact (fld_setFld_same s ⟨gk, gh, gl⟩ m 0).trans (Nat.zero_mod _)
  · rw [fld_setFld_ne s 0 e, h]

/-- The read-clear fields of the bits read are 0 after the read. -/
theorem fld_clearRc {p : Field × Nat} (hp : p ∈ rcFields k ix lo hi) : (s.clearRc k ix hi lo).fld p.1 p.2 = 0 := by
  obtain ⟨f, n⟩ := p
  obtain ⟨i, hi', hc, rfl, rfl⟩ := mem_rcFields.mp hp
  have hlt := k.fields_lo.2
  have hkeep : ∀ (l : List FieldInfo) (t : State), (∀ q ∈ l, q.lo < 256) → t.fld ⟨k, i.hi, i.lo⟩ n = 0 →
      (l.foldl (clearField k n hi lo) t).fld ⟨k, i.hi, i.lo⟩ n = 0 := by
    intro l
    induction l with
    | nil => exact fun t _ ht => ht
    | cons q l ih =>
      intro t hl ht
      refine ih _ (fun q hq => hl q (List.mem_cons_of_mem _ hq)) ?_
      unfold clearField
      split
      · exact fld_setFld_zero (hlt i hi') (hl q List.mem_cons_self) ht
      · exact ht
  obtain ⟨l₁, l₂, hl⟩ := List.append_of_mem hi'
  rw [clearRc_eq_foldl, hl, List.foldl_append, List.foldl_cons]
  refine hkeep l₂ _ (fun q hq => hlt q (by simp [hl, hq])) ?_
  rw [clearField, if_pos hc, fld_setFld_same, Nat.zero_mod]

@[simp] theorem latches_clearRc (s : State) (k : RegKind) (ix hi lo : Nat) : (s.clearRc k ix hi lo).latches = s.latches := by
  obtain ⟨-, -, -, -, h⟩ := sameBut_clearRc s k ix hi lo
  rw [← h]

theorem latched_clearRc (s : State) (k : RegKind) (ix hi lo : Nat) (r : Req) (n : Nat) :
    (s.clearRc k ix hi lo).latched r n = s.latched r n := by
  rw [State.latched, latches_clearRc, State.latched]

/-! Places -/

theorem RegKind.locate_spec {k' : RegKind} {o i b : Nat} (h : k.locate o = some (k', i, b)) : k' = k ∧ b < k'.width / 8 := by
  obtain ⟨p, -, hp⟩ := List.exists_of_findSome?_eq_some h
  split at hp
  · cases hp
  · obtain ⟨⟨x, y⟩, -, hy⟩ := Option.bind_eq_some_iff.mp hp
    dsimp only at hy
    split at hy
    · next hb => cases hy; exact ⟨rfl, hb⟩
    · cases hy

/-- The byte an offset names lies in its register. -/
theorem byte_lt_of_locate {o i b : Nat} (h : locate o = some (k, i, b)) : b < k.width / 8 := by
  obtain ⟨k', -, hk⟩ := List.exists_of_findSome?_eq_some h
  exact (RegKind.locate_spec hk).2

/-- The two latches of the counter are two. -/
theorem wordKey_ne_fracKey (ix : Nat) {b : Nat} (h : b < RegKind.TMB_NOW.width / 8) : wordKey .TMB_NOW ix (b / 8) ≠ fracKey := by
  have hb : b / 8 = 0 := Nat.div_eq_of_lt h
  have hc : RegKind.TMB_NOW.code = 44 := rfl
  have hf : fracKey = 11520 := by decide
  rw [wordKey, hb, hc, hf]
  omega

end Sys2Proof.Machine
end

section
/-! SUPPORT. Register accesses (R8, R10): what an access of a requester is at a place, case by case, and the command that
makes it. -/

namespace Sys2Proof.Machine
open Sys2Proof.Safety

variable {s u x : State} {r : Req} {j : Instr} {o n i b v : Nat} {k : RegKind} {d : List Byte}

/-! Ends of commands -/

/-- A command that ends in `x` answers a state that reads as `x`, where `x` keeps the queue. -/
theorem same_of_settle (h : exec j s = .next (settle s x)) (hp : x.pending = s.pending) : ∃ t, exec j s = .next t ∧ Same x t :=
  ⟨_, h, (SameBut.refl [] x).settle hp⟩

theorem sameBut_answer {fs : List (Field × Nat)} (h : SameBut fs u x) (hp : u.pending = s.pending) (d : List Byte) :
    SameBut fs { u with resp := d, respPoison := false } (settle s (x.answer d)) := by
  obtain ⟨h1, h2, h3, h4, h5⟩ := h
  refine SameBut.settle ⟨fun f i hf => h1 f i hf, h2, h3, h4, ?_⟩ hp
  exact congrArg (fun t : State => { t with resp := d, respPoison := false }) h5

theorem sameBut_latches {fs : List (Field × Nat)} (h : SameBut fs u x) (l : List Latch) :
    SameBut fs { u with latches := l } { x with latches := l } := by
  obtain ⟨h1, h2, h3, h4, h5⟩ := h
  exact ⟨fun f i hf => h1 f i hf, h2, h3, h4, congrArg (fun t : State => { t with latches := l }) h5⟩

@[simp] theorem pending_applyMmio (s : State) (r : Req) : (s.applyMmio r).pending = s.pending := by
  unfold State.applyMmio
  exact pending_foldl { s with mmio := [] } s.mmio fun s x t ht => by rw [← ht, pending_regWr]

theorem mailboxAt_spec {x : Nat} (h : mailboxAt o = some (b, x)) : o < 0x4000000 := by
  unfold mailboxAt at h
  split at h
  · omega
  · cases h

/-! Requesters -/

theorem wf_of_readComes (h : ReadComes s r) : r.wf = true := by
  rcases h with rfl | ⟨p, hp, rfl⟩ | ⟨h, hh, rfl, -, -⟩
  · rfl
  · exact decide_eq_true hp
  · exact decide_eq_true hh

theorem wf_of_writeComes (h : WriteComes s r o d u) : r.wf = true := by
  rcases h with ⟨-, rfl | ⟨h, hh, rfl, -, -⟩⟩ | ⟨p, hp, rfl, -, -⟩
  · rfl
  · exact decide_eq_true hh
  · exact decide_eq_true hp

/-- The record of a write keeps the queue and the register writes that wait. -/
theorem pending_mmio_of_writeComes (h : WriteComes s r o d u) : u.pending = s.pending ∧ u.mmio = s.mmio := by
  rcases h with ⟨rfl, -⟩ | ⟨p, -, -, -, rfl⟩
  · exact ⟨rfl, rfl⟩
  · split
    · exact ⟨rfl, rfl⟩
    · exact ⟨pending_obs .., mmio_obs ..⟩

/-- A write that comes to the registers is one access on the state that has recorded it (R344). -/
theorem bar0Write_of_writeComes (h : WriteComes s r o d u) (hm : mailboxAt o = none) : s.bar0Write r o d = u.regAccess r o d := by
  rcases h with ⟨rfl, rfl | ⟨h, -, rfl, hr, hb⟩⟩ | ⟨p, -, rfl, hrep, rfl⟩
  · simp only [State.bar0Write, hm, State.pcieIn, pcieId]
  · simp [State.bar0Write, hr, hb]
  · have hrec : ¬((s.replaying && decide (0x100000 ≤ o)) = true) := by
      rcases hrep with hrep | hrep
      · simp [hrep]
      · simp [Nat.not_le.mpr hrep]
    simp only [State.bar0Write, hm, State.pcieIn, pcieId, if_neg hrec]
    split <;> rfl

theorem bar0Read_of_readComes (h : ReadComes s r) (n : Nat) :
    s.bar0Read r o n = (s.regBytes r o n).2.answer (s.regBytes r o n).1 := by
  rcases h with rfl | ⟨p, -, rfl⟩ | ⟨h, -, rfl, hr, hb⟩
  · rfl
  · rfl
  · simp [State.bar0Read, hr, hb]

theorem bar0Write_mailbox_of_readComes {x : Nat} (h : ReadComes s r) (hm : mailboxAt o = some (b, x))
    (ha : s.answers r o = true) : s.bar0Write r o d = s.mbxWrite r b x d := by
  rcases h with rfl | ⟨p, -, rfl⟩ | ⟨h, -, rfl, hr, hb⟩
  · simp [State.bar0Write, hm, ha]
  · simp [State.bar0Write, hm, ha]
  · simp [State.bar0Write, hr, hb, State.regAccess, hm, ha, State.mbxWrite, pcieId]

theorem bar0Write_vf {p b : Nat} (ho : o < 4096) (ha : s.answers (.vf p b) 0x3000000 = true) :
    s.bar0Write (.vf p b) o d = s.mbxWrite (.vf p b) b o d := if_pos ⟨ho, ha⟩

theorem bar0Write_vf_ignored {p b : Nat} (h : 4096 ≤ o ∨ s.answers (.vf p b) 0x3000000 = false) :
    s.bar0Write (.vf p b) o d = s := by
  refine if_neg ?_
  rintro ⟨ho, ha⟩
  rcases h with h | h
  · omega
  · rw [h] at ha; cases ha

/-- A tenant's host core that reaches BAR0 takes an address fault and trap 0x30 (R33). -/
theorem bar0Write_tenant {h : Nat} (hr : s.hcRuns h = true) (hb : s.hcBasin h ≠ 0) (o : Nat) (d : List Byte) :
    s.bar0Write (.hc h) o d = (s.addrFault (s.who (.hc h)) (regAddr o)).hcTrap h 0x30 (regAddr o) := by
  simp [State.bar0Write, hr, hb]

theorem bar0Read_tenant {h : Nat} (hr : s.hcRuns h = true) (hb : s.hcBasin h ≠ 0) (o n : Nat) :
    s.bar0Read (.hc h) o n = (s.addrFault (s.who (.hc h)) (regAddr o)).hcTrap h 0x30 (regAddr o) := by
  simp [State.bar0Read, hr, hb]

/-! Register writes -/

theorem regAccess_wide (hm : mailboxAt o = none) (hw : u.writable r o = true) (v : Word) :
    u.regAccess r o (bytesOf 8 v.toNat) = u.write64 r o v.toNat := by
  have hv : natOf (bytesOf 8 v.toNat) = v.toNat := by rw [natOf_bytesOf]; exact Nat.mod_eq_of_lt v.isLt
  simp [State.regAccess, hm, hw, hv]

theorem regAccess_narrow (hm : mailboxAt o = none) (hw : u.writable r o = true) (v : BitVec 32) :
    u.regAccess r o (bytesOf 4 v.toNat) = u.write32 r o v.toNat := by
  have hv : natOf (bytesOf 4 v.toNat) = v.toNat := by rw [natOf_bytesOf]; exact Nat.mod_eq_of_lt v.isLt
  simp [State.regAccess, hm, hw, hv]

theorem regAccess_ignored (hm : mailboxAt o = none) (hw : u.writable r o = false) (d : List Byte) : u.regAccess r o d = u := by
  simp [State.regAccess, hm, hw]

theorem write64_word (hl : locate o = some (k, i, b)) (hk : 32 < k.width) (hb : b % 8 = 0) (v : Word) :
    u.write64 r o v.toNat = u.writeReg r k (u.inst r k i) (b / 8) v.toNat := by
  have h : (k.width ≤ 32 || b % 8 != 0) = false := by simp [hb, hk]
  rw [State.write64, hl]
  simp only [h, Bool.false_eq_true, if_false, Nat.mod_eq_of_lt v.isLt]

theorem write64_two (h : ∀ k i b, locate o = some (k, i, b) → k.width ≤ 32 ∨ b % 8 ≠ 0) (v : Nat) :
    u.write64 r o v = (u.write32 r o (v % 2 ^ 32)).write32 r (o + 4) (v / 2 ^ 32) := by
  unfold State.write64
  split
  · rfl
  · next k i b hl => rw [if_pos (by simpa using h k i b hl)]

theorem write32_unassigned (hl : locate o = none) (v : Nat) : u.write32 r o v = u := by simp [State.write32, hl]

theorem write32_narrow (hl : locate o = some (k, i, b)) (hk : k.width ≤ 32) (v : BitVec 32) :
    u.write32 r o v.toNat = u.writeReg r k (u.inst r k i) 0 v.toNat := by
  simp only [State.write32, hl, if_pos hk, Nat.mod_eq_of_lt v.isLt]

theorem write32_low (hl : locate o = some (k, i, b)) (hk : 32 < k.width) (hb : b % 8 = 0) (v : BitVec 32) :
    u.write32 r o v.toNat = u.hold r (wordKey k (u.inst r k i) (b / 8)) v.toNat := by
  simp only [State.write32, hl, if_neg (Nat.not_le.mpr hk), if_pos hb, Nat.mod_eq_of_lt v.isLt]

theorem write32_high (hl : locate o = some (k, i, b)) (hk : 32 < k.width) (hb : b % 8 ≠ 0) (v : BitVec 32) {low : Nat}
    (hlow : u.heldHalf r (wordKey k (u.inst r k i) (b / 8)) = some low ∨
      u.heldHalf r (wordKey k (u.inst r k i) (b / 8)) = none ∧ low = u.wordRw k (u.inst r k i) (b / 8) % 2 ^ 32) :
    u.write32 r o v.toNat =
      (u.unhold r (wordKey k (u.inst r k i) (b / 8))).writeReg r k (u.inst r k i) (b / 8) (low + v.toNat * 2 ^ 32) := by
  have hget : (u.heldHalf r (wordKey k (u.inst r k i) (b / 8))).getD (u.wordRw k (u.inst r k i) (b / 8) % 2 ^ 32) = low := by
    rcases hlow with h | ⟨h, rfl⟩ <;> rw [h] <;> rfl
  simp only [State.write32, hl, if_neg (Nat.not_le.mpr hk), if_neg hb, State.writeHigh, hget, Nat.mod_eq_of_lt v.isLt]

/-! Commands that write -/

theorem exec_wideWrite (hr : r.wf = true) (ho : o < 0x4000000 ∧ o % 4 = 0) (v : Word) :
    exec (.registerWrite r (.bar0 o) true v) s = .next (settle s ((s.bar0Write r o (bytesOf 8 v.toNat)).applyMmio r)) :=
  exec_registerWrite r _ true v (by simp [Instr.wf, hr, RegAddr.wf, ho])

theorem exec_writes32 {v : BitVec 32} (h : Writes32 j r o v) :
    exec j s = .next (settle s ((s.bar0Write r o (bytesOf 4 v.toNat)).applyMmio r)) := by
  obtain ⟨hwf, ⟨w, rfl, hw⟩ | rfl | ⟨o', rfl, rfl⟩⟩ := h
  · rw [← hw, show 2 ^ 32 = 256 ^ 4 from rfl, bytesOf_mod]
    exact exec_registerWrite r _ false w hwf
  · exact exec_lowHalfWrite r _ v hwf
  · exact exec_highHalfWrite r _ v hwf

/-- A write answers the effect on the place it names, or on its upper half. -/
theorem exec_writes {a : RegAddr} (h : Writes j r a v) :
    ∃ a' n, (a' = a ∨ a' = upperOf a ∧ ∃ w, j = .highHalfWrite r a w) ∧
      exec j s = .next (settle s ((s.accessWrite r a' n v).applyMmio r)) := by
  obtain ⟨hwf, ⟨w, wide, rfl, rfl⟩ | ⟨w, rfl, rfl | rfl⟩⟩ := h
  · exact ⟨a, _, .inl rfl, exec_registerWrite r a wide w hwf⟩
  · exact ⟨a, _, .inl rfl, exec_lowHalfWrite r a w hwf⟩
  · exact ⟨_, _, .inr ⟨rfl, w, rfl⟩, exec_highHalfWrite r a w hwf⟩

theorem exec_reads {a : RegAddr} (h : Reads j r a) :
    ∃ a' n, (a' = a ∨ a' = upperOf a ∧ j = .highHalfRead r a) ∧ (n = 4 ∨ n = wholeLen a) ∧
      exec j s = .next (settle s (s.accessRead r a' n)) := by
  obtain ⟨hwf, rfl | rfl | rfl⟩ := h
  · exact ⟨a, _, .inl rfl, .inr rfl, exec_registerReadClear r a hwf⟩
  · exact ⟨a, _, .inl rfl, .inl rfl, exec_lowHalfRead r a hwf⟩
  · exact ⟨_, _, .inr ⟨rfl, rfl⟩, .inl rfl, exec_highHalfRead r a hwf⟩

/-! Commands that read -/

theorem exec_reads32 (h : Reads32 j r o) : exec j s = .next (settle s (s.bar0Read r o 4)) := by
  obtain ⟨hwf, ⟨rfl, hl⟩ | rfl | ⟨o', rfl, rfl⟩⟩ := h
  · have := exec_registerReadClear (s := s) r _ hwf
    rw [registerReadClear, hl] at this
    exact this
  · exact exec_lowHalfRead r _ hwf
  · exact exec_highHalfRead r _ hwf

theorem exec_wholeRead (hwf : Instr.wf (.registerReadClear r (.bar0 o)) = true) (hl : wholeLen (.bar0 o) = 8) :
    exec (.registerReadClear r (.bar0 o)) s = .next (settle s (s.bar0Read r o 8)) := by
  have := exec_registerReadClear (s := s) r _ hwf
  rw [registerReadClear, hl] at this
  exact this

theorem aligned_of_reads32 (h : Reads32 j r o) : o % 4 = 0 := by
  obtain ⟨hwf, ⟨rfl, -⟩ | rfl | ⟨o', rfl, rfl⟩⟩ := h <;>
    simp only [Instr.wf, RegAddr.wf, Bool.and_eq_true, decide_eq_true_eq] at hwf <;> omega

theorem aligned_of_wholeLen (h : wholeLen (.bar0 o) = 8) : o % 8 = 0 := by
  refine Decidable.byContradiction fun hn => ?_
  have h4 : wholeLen (.bar0 o) = 4 := by
    simp only [wholeLen, hn, and_false, if_false]
    split <;> rfl
  rw [h4] at h
  cases h

theorem regBytes_four (h : o % 4 = 0) : s.regBytes r o 4 = (bytesOf 4 (s.read32 r o).1, (s.read32 r o).2) := by
  have h1 : o / 4 * 4 = o := by omega
  have h2 : (o + 4 + 3) / 4 * 4 = o + 4 := by omega
  have h3 : spans (4 + 2) o (o + 4) = [(o, 4)] := by simp [spans]
  simp [State.regBytes, h1, h2, h3, slice_bytesOf]

theorem regBytes_eight (h : o % 8 = 0) : s.regBytes r o 8 = (bytesOf 8 (s.read64 r o).1, (s.read64 r o).2) := by
  have h1 : o / 4 * 4 = o := by omega
  have h2 : (o + 8 + 3) / 4 * 4 = o + 8 := by omega
  have h3 : spans (8 + 2) o (o + 8) = [(o, 8)] := by simp [spans, h]
  simp [State.regBytes, h1, h2, h3, slice_bytesOf]

theorem read32_silent (h : s.answers r o = false) : s.read32 r o = (0, s) := by simp [State.read32, h]

theorem read64_silent (h : s.answers r o = false) : s.read64 r o = (0, s) := by simp [State.read64, h]

theorem read32_unassigned (hm : mailboxAt o = none) (hl : locate o = none) : s.read32 r o = (0, s) := by
  unfold State.read32
  split
  · rfl
  · rw [hm, hl]

theorem read32_narrow (ha : s.answers r o = true) (hm : mailboxAt o = none) (hl : locate o = some (k, i, b)) (hk : k.width ≤ 32) :
    s.read32 r o = s.sample32 r k (s.inst r k i) := by
  simp only [State.read32, ha, Bool.not_true, Bool.false_eq_true, if_false, hm, hl, if_pos hk]

theorem read32_low (ha : s.answers r o = true) (hm : mailboxAt o = none) (hl : locate o = some (k, i, b)) (hk : 32 < k.width)
    (hb : b % 8 = 0) : s.read32 r o = s.sampleLow r k (s.inst r k i) (b / 8) := by
  simp only [State.read32, ha, Bool.not_true, Bool.false_eq_true, if_false, hm, hl, if_neg (Nat.not_le.mpr hk), if_pos hb]

theorem read32_high (ha : s.answers r o = true) (hm : mailboxAt o = none) (hl : locate o = some (k, i, b)) (hk : 32 < k.width)
    (hb : b % 8 ≠ 0) : s.read32 r o = s.sampleHigh r k (s.inst r k i) (b / 8) := by
  simp only [State.read32, ha, Bool.not_true, Bool.false_eq_true, if_false, hm, hl, if_neg (Nat.not_le.mpr hk), if_neg hb]

theorem read64_word (ha : s.answers r o = true) (hm : mailboxAt o = none) (hl : locate o = some (k, i, b)) (hk : 32 < k.width)
    (hb : b % 8 = 0) : s.read64 r o = s.sample r k (s.inst r k i) (b / 8) := by
  have h : (decide (k.width ≤ 32) || b % 8 != 0) = false := by simp [hb, hk]
  simp only [State.read64, ha, Bool.not_true, Bool.false_eq_true, if_false, hm, hl, h]

end Sys2Proof.Machine
end

section
open Sys2Proof Sys2Proof.Machine Sys2Proof.Safety

namespace Sys2Proof.Machine
variable {s u x : State} {r : Req} {j : Instr} {o n i b v : Nat} {k : RegKind} {d : List Byte}

/-! What a read leaves -/

theorem sample_snd (s : State) (r : Req) (k : RegKind) (ix j : Nat) :
    (s.sample r k ix j).2 = { s.clearRc k ix (64 * j + 63) (64 * j) with latches := (s.sample r k ix j).2.latches } := by
  unfold State.sample
  dsimp only
  split <;> rfl

theorem sampleLow_snd (s : State) (r : Req) (k : RegKind) (ix j : Nat) :
    (s.sampleLow r k ix j).2 = { s.clearRc k ix (64 * j + 63) (64 * j) with latches := (s.sampleLow r k ix j).2.latches } := by
  exact congrArg (fun x : State => x.latch r (wordKey k ix j) ((s.sample r k ix j).1 / 2 ^ 32)) (sample_snd s r k ix j)

theorem latched_sample_ne (s : State) (k : RegKind) (ix j : Nat) {r' : Req} (h : r' ≠ r ∨ k ≠ .TMB_NOW ∨ n ≠ fracKey) :
    (s.sample r k ix j).2.latched r' n = s.latched r' n := by
  unfold State.sample
  dsimp only
  split
  · next hk => rw [latched_latch_ne _ (h.imp_right fun h => h.resolve_left fun e => e hk), latched_clearRc]
  · rw [latched_clearRc]

theorem latched_sample_frac (s : State) (r : Req) (ix j : Nat) :
    (s.sample r .TMB_NOW ix j).2.latched r fracKey = some (s.fld F.TMB_NOW_FRAC.FRAC) := by
  simp [State.sample, latched_latch_same]

theorem latches_sample (s : State) (r : Req) (ix j : Nat) (h : k ≠ .TMB_NOW) : (s.sample r k ix j).2.latches = s.latches := by
  simp [State.sample, h]

theorem sampleHigh_latched {ix jj : Nat} (h : s.latched r (wordKey k ix jj) = some v) :
    s.sampleHigh r k ix jj = (v, s.unlatch r (wordKey k ix jj)) := by simp only [State.sampleHigh, h]

theorem sampleHigh_current {ix jj : Nat} (h : s.latched r (wordKey k ix jj) = none) :
    s.sampleHigh r k ix jj =
      (bits (s.viewBits k ix) (64 * jj + 63) (64 * jj + 32), s.clearRc k ix (64 * jj + 63) (64 * jj + 32)) := by
  simp only [State.sampleHigh, h]

theorem sample32_current {ix : Nat} (h : k ≠ .TMB_NOW_FRAC ∨ s.latched r fracKey = none) :
    s.sample32 r k ix = (s.viewBits k ix % 2 ^ 32, s.clearRc k ix 31 0) := by
  have hn : (if k = .TMB_NOW_FRAC then s.latched r fracKey else none) = none := by
    split
    · next hk => exact h.resolve_left fun e => e hk
    · rfl
  simp only [State.sample32, hn]

/-- A 32-bit read of registers answers what the place gives and leaves its state. -/
theorem exec_read32 (hj : Reads32 j r o) (hc : ReadComes s r) :
    exec j s = .next (settle s ((s.read32 r o).2.answer (bytesOf 4 (s.read32 r o).1))) := by
  rw [exec_reads32 hj, bar0Read_of_readComes hc, regBytes_four (aligned_of_reads32 hj)]

theorem exec_read64 (hwf : Instr.wf (.registerReadClear r (.bar0 o)) = true) (hl : wholeLen (.bar0 o) = 8) (hc : ReadComes s r) :
    exec (.registerReadClear r (.bar0 o)) s = .next (settle s ((s.read64 r o).2.answer (bytesOf 8 (s.read64 r o).1))) := by
  rw [exec_wholeRead hwf hl, bar0Read_of_readComes hc, regBytes_eight (aligned_of_wholeLen hl)]

theorem same_answer (h : exec j s = .next (settle s (s.answer d))) :
    ∃ t, exec j s = .next t ∧ Same { s with resp := d, respPoison := false } t :=
  ⟨_, h, sameBut_answer (SameBut.refl [] s) rfl d⟩

theorem wholeLen_mailbox {x : Nat} (h : mailboxAt o = some (b, x)) (ho : o % 8 = 0) : wholeLen (.bar0 o) = 8 := by
  simp [wholeLen, h, ho]

theorem wholeLen_word (hm : mailboxAt o = none) (hl : locate o = some (k, i, b)) (hk : 64 ≤ k.width) (ho : o % 8 = 0) :
    wholeLen (.bar0 o) = 8 := by
  simp [wholeLen, hm, hl, hk, ho]

@[simp] theorem length_mbxRead (s : State) (b o n : Nat) : (s.mbxRead b o n).length = n := by simp [State.mbxRead]

theorem bytesOf_mbxRead (s : State) (b o n : Nat) : bytesOf n (natOf (s.mbxRead b o n)) = s.mbxRead b o n := by
  have h := bytesOf_natOf (s.mbxRead b o n)
  rwa [length_mbxRead] at h

theorem read32_mailbox {x : Nat} (hm : mailboxAt o = some (b, x)) (ha : s.answers r o = true) :
    s.read32 r o = (natOf (s.mbxRead b x 4), s) := by simp [State.read32, hm, ha]

theorem read64_mailbox {x : Nat} (hm : mailboxAt o = some (b, x)) (ha : s.answers r o = true) :
    s.read64 r o = (natOf (s.mbxRead b x 8), s) := by simp [State.read64, hm, ha]

/-! What a write leaves -/

/-- A write of 32 bits that comes to the registers. -/
theorem same_write32 {v : BitVec 32} (hj : Writes32 j r o v) (hm : mailboxAt o = none)
    (hc : WriteComes s r o (bytesOf 4 v.toNat) u) (hw : u.writable r o = true) : ∃ t, exec j s = .next t ∧ Same ((u.write32 r o v.toNat).applyMmio r) t := by
  refine same_of_settle ?_ ?_
  · rw [exec_writes32 hj, bar0Write_of_writeComes hc hm, regAccess_narrow hm hw]
  · rw [pending_applyMmio, pending_write32, (pending_mmio_of_writeComes hc).1]

theorem same_write64 {v : Word} (ho : o < 0x4000000 ∧ o % 4 = 0) (hm : mailboxAt o = none)
    (hc : WriteComes s r o (bytesOf 8 v.toNat) u) (hw : u.writable r o = true) :
    ∃ t, exec (.registerWrite r (.bar0 o) true v) s = .next t ∧ Same ((u.write64 r o v.toNat).applyMmio r) t := by
  refine same_of_settle ?_ ?_
  · rw [exec_wideWrite (wf_of_writeComes hc) ho, bar0Write_of_writeComes hc hm, regAccess_wide hm hw]
  · rw [pending_applyMmio, pending_write64, (pending_mmio_of_writeComes hc).1]

/-- A write that no register takes leaves the state that has recorded it. -/
theorem same_ignored (hs : s.mmio = []) (hc : WriteComes s r o d u) (hx : exec j s = .next (settle s (u.applyMmio r))) :
    ∃ t, exec j s = .next t ∧ Same u t := by
  obtain ⟨hp, hu⟩ := pending_mmio_of_writeComes hc
  rw [applyMmio_nil (hu.trans hs)] at hx
  exact same_of_settle hx hp

/-- A command whose write leaves the state as it is. -/
theorem same_nothing (r : Req) (hs : s.mmio = []) (hx : exec j s = .next (settle s (s.applyMmio r))) :
    ∃ t, exec j s = .next t ∧ Same s t := by
  rw [applyMmio_nil hs] at hx
  exact same_of_settle hx rfl

/-- A write of `d` by a requester over a 64-bit or a 32-bit command. -/
theorem exec_bar0Write (hr : r.wf = true) (ho : o < 0x4000000)
    (hj : (∃ v : Word, o % 4 = 0 ∧ j = .registerWrite r (.bar0 o) true v ∧ d = bytesOf 8 v.toNat) ∨
      (∃ v : BitVec 32, Writes32 j r o v ∧ d = bytesOf 4 v.toNat)) :
    exec j s = .next (settle s ((s.bar0Write r o d).applyMmio r)) := by
  obtain ⟨v, h4, rfl, rfl⟩ | ⟨v, hw, rfl⟩ := hj
  · exact exec_wideWrite hr ⟨ho, h4⟩ v
  · exact exec_writes32 hw

theorem regAddr_upper (o : Nat) : regAddr (o + 4) = 0xFF00000004 + o := by
  unfold regAddr
  omega

/-- A place that gives the requester nothing: no command at it does anything. -/
theorem same_of_inert {a : RegAddr} (hs : s.mmio = []) (hj : Writes j r a v ∨ Reads j r a)
    (hw : ∀ n v, s.accessWrite r a n v = s) (hw' : ∀ n v, s.accessWrite r (upperOf a) n v = s)
    (hr : ∀ n, s.accessRead r a n = s) (hr' : ∀ n, s.accessRead r (upperOf a) n = s) :
    ∃ t, exec j s = .next t ∧ Same s t := by
  obtain hj | hj := hj
  · obtain ⟨a', n, ha, hx⟩ := exec_writes (s := s) hj
    refine same_nothing r hs (hx.trans ?_)
    obtain rfl | ⟨rfl, -⟩ := ha
    · rw [hw]
    · rw [hw']
  · obtain ⟨a', n, ha, -, hx⟩ := exec_reads (s := s) hj
    refine same_of_settle (hx.trans ?_) rfl
    obtain rfl | ⟨rfl, -⟩ := ha
    · rw [hr]
    · rw [hr']

/-- A place that a halted host core `h` could reach if it ran. -/
abbrev OwnPlace (h : Nat) (a : RegAddr) : Prop := (∃ o, a = .bar0 o) ∨ ∃ n, a = .sys h n

theorem OwnPlace.upperOf {h : Nat} {a : RegAddr} (ha : OwnPlace h a) : OwnPlace h (upperOf a) := by
  obtain ⟨o, rfl⟩ | ⟨n, rfl⟩ := ha
  · exact .inl ⟨_, rfl⟩
  · exact .inr ⟨n, rfl⟩

theorem accessWrite_halted {h : Nat} {a : RegAddr} (hr : s.hcRuns h = false) (ha : OwnPlace h a) (n v : Nat) :
    s.accessWrite (.hc h) a n v = s := by
  obtain ⟨o, rfl⟩ | ⟨m, rfl⟩ := ha
  · simp [State.accessWrite, State.bar0Write, hr]
  · simp [State.accessWrite, hr]

theorem accessRead_halted {h : Nat} {a : RegAddr} (hr : s.hcRuns h = false) (ha : OwnPlace h a) (n : Nat) :
    s.accessRead (.hc h) a n = s := by
  obtain ⟨o, rfl⟩ | ⟨m, rfl⟩ := ha
  · simp [State.accessRead, State.bar0Read, hr]
  · simp [State.accessRead, hr]

/-- A place that answers another requester than `r`. -/
abbrev StrangePlace (r : Req) (a : RegAddr) : Prop :=
  (∃ h num, a = .sys h num ∧ r ≠ .hc h) ∨ (∃ p, a = .sriov p ∧ r ≠ .pf p) ∨
    (∃ p fn, a = .ats p fn ∧ r ≠ .pf p ∧ ∀ b, r ≠ .vf p b) ∨ (∃ b off, a = .vfBar2 b off ∧ ∀ p, r ≠ .vf p b)

theorem StrangePlace.upperOf {a : RegAddr} (ha : StrangePlace r a) : StrangePlace r (upperOf a) := by
  obtain ⟨h, num, rfl, hr⟩ | ⟨p, rfl, hr⟩ | ⟨p, fn, rfl, hr⟩ | ⟨b, off, rfl, hr⟩ := ha
  · exact .inl ⟨h, num, rfl, hr⟩
  · exact .inr (.inl ⟨p, rfl, hr⟩)
  · exact .inr (.inr (.inl ⟨p, fn, rfl, hr⟩))
  · exact .inr (.inr (.inr ⟨b, off + 4, rfl, hr⟩))

theorem onPort_false {p : Nat} (hp : r ≠ .pf p) (hv : ∀ b, r ≠ .vf p b) : onPort r p = false := by
  cases r with
  | pf q => exact beq_false_of_ne fun e => hp (e ▸ rfl)
  | vf q b => exact beq_false_of_ne fun e => hv b (e ▸ rfl)
  | hc h => rfl
  | caldera => rfl

theorem vfOf_none {b : Nat} (h : ∀ p, r ≠ .vf p b) : vfOf r b = none := by
  cases r with
  | vf p i => exact if_neg fun (e : i = b) => h p (e ▸ rfl)
  | pf _ | hc _ | caldera => rfl

theorem accessWrite_strange {a : RegAddr} (ha : StrangePlace r a) (n v : Nat) : s.accessWrite r a n v = s := by
  obtain ⟨h, num, rfl, hr⟩ | ⟨p, rfl, hr⟩ | ⟨p, fn, rfl, hp, hv⟩ | ⟨b, off, rfl, hr⟩ := ha
  · exact if_neg fun e => hr e.1
  · exact if_neg hr
  · exact if_neg (by simp [onPort_false hp hv])
  · simp only [State.accessWrite, vfOf_none hr]

theorem accessRead_strange {a : RegAddr} (ha : StrangePlace r a) (n : Nat) : s.accessRead r a n = s := by
  obtain ⟨h, num, rfl, hr⟩ | ⟨p, rfl, hr⟩ | ⟨p, fn, rfl, hp, hv⟩ | ⟨b, off, rfl, hr⟩ := ha
  · exact if_neg fun e => hr e.1
  · exact if_neg hr
  · exact if_neg (by simp [onPort_false hp hv])
  · simp only [State.accessRead, vfOf_none hr]

/-- The system registers a host core writes (Table 14-2). -/
theorem sysWrite_cases {h num : Nat}
    (hu : (num = 0xC05 ∧ u = ((s.setFld F.HS_TIMECMP.VALUE h v).hcClear h 4).modHc h fun c => { c with timerOn := true }) ∨
      (num = 0xC07 ∧ u = s.setFld F.HS_IE.VALUE h v) ∨ (num = 0xC08 ∧ u = s.iack h v) ∨ (num = 0xC0A ∧ u = s.d2h h (v % 8)) ∨
      ((num = 0xC0C ∨ num = 0xC0D) ∧ s.hcBasin h ≠ 0 ∧ u = s.hcTrap h 0x33 num) ∨
      ((num = 0xC0C ∨ num = 0xC0D) ∧ s.hcBasin h = 0 ∧ u = s) ∨
      (num ∉ [0xC05, 0xC07, 0xC08, 0xC0A, 0xC0C, 0xC0D] ∧ u = s)) : s.sysWrite h num v = u := by
  obtain ⟨rfl, rfl⟩ | ⟨rfl, rfl⟩ | ⟨rfl, rfl⟩ | ⟨rfl, rfl⟩ | ⟨rfl | rfl, hb, rfl⟩ | ⟨rfl | rfl, hb, rfl⟩ | ⟨hn, rfl⟩ := hu
  · rfl
  · rfl
  · rfl
  · rfl
  · exact if_pos hb
  · exact if_pos hb
  · exact if_neg fun e => e hb
  · exact if_neg fun e => e hb
  · simp only [List.mem_cons, List.not_mem_nil, or_false, not_or] at hn
    unfold State.sysWrite
    split <;> simp_all

/-- The system registers a host core reads (Table 14-2). -/
theorem sysRead_cases {h num : Nat}
    (hu : (∃ v, u = { s with resp := bytesOf 8 v, respPoison := false } ∧
      ((num = 0xC00 ∧ v = h + b2n (s.flag F.PKG_HC_PAIRp.EN (h / 2)) * 64 + (if h % 2 = 0 then h + 1 else h - 1) * 128) ∨
       (num = 0xC01 ∧ v = s.hcBasin h + s.gen (s.hcBasin h) * 256) ∨ (num = 0xC02 ∧ v = s.fld F.TMB_NOW.NS) ∨
       (num = 0xC03 ∧ v = s.fld F.GEY_TICK.TICK) ∨ (num = 0xC04 ∧ v = s.regBits .GEY_POS 0) ∨
       (num = 0xC05 ∧ v = s.fld F.HS_TIMECMP.VALUE h) ∨ (num = 0xC06 ∧ v = s.fld F.HS_IP.VALUE h) ∨
       (num = 0xC07 ∧ v = s.fld F.HS_IE.VALUE h) ∨ (num = 0xC0B ∧ v = s.fld F.HS_TVAL.VALUE h) ∨
       (num = 0xC0D ∧ s.hcBasin h = 0 ∧ v = s.fld F.HS_EVDATA.VALUE h) ∨ ((num = 0xC08 ∨ num = 0xC0A) ∧ v = 0))) ∨
      (num = 0xC09 ∧ u = s.hsRand h) ∨ (num = 0xC0C ∧ u = s.evTake h) ∨
      (num = 0xC0D ∧ s.hcBasin h ≠ 0 ∧ u = s.hcTrap h 0x33 0xC0D)) : s.sysRead h num = u := by
  obtain ⟨v, rfl, hv⟩ | ⟨rfl, rfl⟩ | ⟨rfl, rfl⟩ | ⟨rfl, hb, rfl⟩ := hu
  · obtain ⟨rfl, rfl⟩ | ⟨rfl, rfl⟩ | ⟨rfl, rfl⟩ | ⟨rfl, rfl⟩ | ⟨rfl, rfl⟩ | ⟨rfl, rfl⟩ | ⟨rfl, rfl⟩ | ⟨rfl, rfl⟩ | ⟨rfl, rfl⟩ |
      ⟨rfl, hb, rfl⟩ | ⟨rfl | rfl, rfl⟩ := hv
    case inr.inr.inr.inr.inr.inr.inr.inr.inr.inl => exact if_neg fun e => e hb
    all_goals rfl
  · rfl
  · rfl
  · exact if_pos hb

end Sys2Proof.Machine

/-- Settles O22. A command at a register is one access of its requester at a place (`exec_writes32`, `exec_reads32`, …);
each clause names the requester's way in and what the access is there, and the end of the command (`settle`) keeps the
state as it reads, for no access touches the queue of waiting commands. -/
theorem registerAccessesComplete : Obligations.RegisterAccessesComplete := by
  unfold Obligations.RegisterAccessesComplete
  refine ⟨?_, ?_, ?_, ?_, ?_, ?_, ?_, ?_, ?_, ?_, ?_, ?_, ?_, ?_, ?_, ?_, ?_, ?_, ?_, ?_, ?_, ?_, ?_, ?_, ?_, ?_, ?_⟩
  -- A write of a word, and of 64 bits over two places.
  · rintro s u r o v k i b ⟨ho, h4, hm⟩ ⟨hl, hk, hb⟩ hc hw
    rw [← write64_word hl hk hb v]
    exact same_write64 ⟨ho, h4⟩ hm hc hw
  · rintro s u r o v ⟨ho, h4, hm⟩ hl hc hw
    rw [← write64_two hl]
    exact same_write64 ⟨ho, h4⟩ hm hc hw
  -- A write of 32 bits: a 32-bit register, a lower half, an upper half.
  · rintro s u j r o v k i b hj ⟨hm, hl, hk⟩ hc hw
    rw [← write32_narrow hl hk v]
    exact same_write32 hj hm hc hw
  · rintro s u j r o v k i b hj ⟨hm, hl, hk, hb⟩ hc hw
    have h := same_write32 hj hm hc hw
    rwa [write32_low hl hk hb v] at h
  · rintro s u j r o low v k i b hj ⟨hm, hl, hk, hb⟩ hc hw hlow
    rw [← write32_high hl hk hb v hlow]
    exact same_write32 hj hm hc hw
  -- A write no register takes: not writable, unassigned, or above the package window in a replay.
  · rintro s u r o ⟨hs, hm⟩ hw
    refine ⟨fun v ⟨ho, h4⟩ hc => same_ignored hs hc ?_, fun j v hj hc => same_ignored hs hc ?_⟩
    · rw [exec_wideWrite (wf_of_writeComes hc) ⟨ho, h4⟩, bar0Write_of_writeComes hc hm, regAccess_ignored hm hw]
    · rw [exec_writes32 hj, bar0Write_of_writeComes hc hm, regAccess_ignored hm hw]
  · rintro s u j r o v ⟨hs, hj⟩ ⟨hm, hl⟩ hc
    refine same_ignored hs hc ?_
    rw [exec_writes32 hj, bar0Write_of_writeComes hc hm]
    cases hw : u.writable r o
    · rw [regAccess_ignored hm hw]
    · rw [regAccess_narrow hm hw, write32_unassigned hl]
  · rintro s p o ⟨hs, hm, hrep, ho⟩
    have hn (d : List Byte) : s.bar0Write (.pf p) o d = s := by
      simp [State.bar0Write, hm, State.pcieIn, pcieId, hrep, ho]
    refine ⟨fun v ⟨hp, ho', h4⟩ => same_nothing (.pf p) hs ?_, fun j v hj => same_nothing (.pf p) hs ?_⟩
    · rw [exec_wideWrite (r := .pf p) (decide_eq_true hp) ⟨ho', h4⟩, hn]
    · rw [exec_writes32 hj, hn]
  -- A write of a mailbox: its place in the window, and VF b's own page.
  · rintro s r o b x d j hc hm ha hj
    refine same_of_settle ?_ (by rw [pending_applyMmio, pending_mbxWrite])
    rw [exec_bar0Write (wf_of_readComes hc) (mailboxAt_spec hm) hj, bar0Write_mailbox_of_readComes hc hm ha]
  · rintro s p b o d j ⟨hp, hb, hb', ho⟩ ha hj
    refine same_of_settle ?_ (by rw [pending_applyMmio, pending_mbxWrite])
    rw [exec_bar0Write (r := .vf p b) (decide_eq_true ⟨hp, hb, hb'⟩) (by omega) hj, bar0Write_vf ho ha]
  -- A read of a word, which latches the fraction of the counter beside its nanoseconds.
  · rintro s r o k i b ⟨ho, h8, hm⟩ ⟨hl, hk, hb⟩ hc ha
    have hwf : Instr.wf (.registerReadClear r (.bar0 o)) = true := by
      simp [Instr.wf, wf_of_readComes hc, RegAddr.wf, ho]; omega
    have hx := exec_read64 hwf (wholeLen_word hm hl hk h8) hc
    rw [read64_word ha hm hl (by omega) hb] at hx
    refine ⟨_, hx, rfl, fun p hp => ?_, fun r' n h => ?_, ?_, fun h => latches_sample s r _ _ h, ?_⟩
    · rw [fld_settle, sample_snd]; exact fld_clearRc hp
    · exact latched_sample_ne s k _ _ (h.imp_right .inr)
    · rintro rfl; exact latched_sample_frac s r _ _
    · rw [sample_snd]
      exact sameBut_answer (sameBut_latches (sameBut_clearRc s k _ _ _) _) rfl _
  -- A read of 32 bits: a lower half, an upper half with and without a latch, a 32-bit register.
  · rintro s j r o k i b hj ⟨hm, hl, hk, hb⟩ hc ha
    have hx := exec_read32 hj hc
    rw [read32_low ha hm hl hk hb] at hx
    refine ⟨_, hx, ⟨rfl, latched_latch_same _ _⟩, fun p hp => ?_, fun r' n h => ?_, ?_, ?_⟩
    · rw [fld_settle, sampleLow_snd]; exact fld_clearRc hp
    · exact (latched_latch_ne _ (h.imp_right And.left)).trans (latched_sample_ne s k _ _ (h.imp_right And.right))
    · rintro rfl
      exact (latched_latch_ne _ (.inr (wordKey_ne_fracKey _ (byte_lt_of_locate hl)).symm)).trans (latched_sample_frac s r _ _)
    · rw [sampleLow_snd]
      exact sameBut_answer (sameBut_latches (sameBut_clearRc s k _ _ _) _) rfl _
  · rintro s j r o v k i b hj ⟨hm, hl, hk, hb⟩ hc ha hv
    have hx := exec_read32 hj hc
    rw [read32_high ha hm hl hk hb, sampleHigh_latched hv] at hx
    refine ⟨_, hx, rfl, latched_unlatch_same _, fun r' n h => latched_unlatch_ne s h, ?_⟩
    exact sameBut_answer (sameBut_latches (SameBut.refl [] s) _) rfl _
  · rintro s j r o k i b hj ⟨hm, hl, hk, hb⟩ hc ha hv
    have hx := exec_read32 hj hc
    rw [read32_high ha hm hl hk hb, sampleHigh_current hv] at hx
    exact ⟨_, hx, rfl, fun p hp => fld_clearRc hp, sameBut_answer (sameBut_clearRc s k _ _ _) rfl _⟩
  · rintro s j r o k i b hj ⟨hm, hl, hk⟩ hc ha hf
    have hx := exec_read32 hj hc
    rw [read32_narrow ha hm hl hk, sample32_current hf] at hx
    exact ⟨_, hx, rfl, fun p hp => fld_clearRc hp, sameBut_answer (sameBut_clearRc s k _ _ _) rfl _⟩
  -- A place that gives nothing reads 0.
  · rintro s j r o n hc hj hn
    refine same_answer ?_
    obtain ⟨hj, rfl⟩ | ⟨rfl, hl, hwf, rfl⟩ := hj
    · rw [exec_read32 hj hc]
      rcases hn with ha | ⟨hm, hl⟩
      · rw [read32_silent ha]
      · rw [read32_unassigned hm hl]
    · rw [exec_read64 hwf hl hc]
      rcases hn with ha | ⟨hm, hn⟩
      · rw [read64_silent ha]
      · rw [wholeLen, hm, hn] at hl
        cases hl
  -- A read of a mailbox: its place in the window, and VF b's own page.
  · rintro s r o b x n j hc hm ha hj
    refine same_answer ?_
    obtain ⟨hj, rfl⟩ | ⟨rfl, h8, rfl⟩ := hj
    · rw [exec_read32 hj hc, read32_mailbox hm ha, bytesOf_mbxRead]
    · have hwf : Instr.wf (.registerReadClear r (.bar0 o)) = true := by
        simp [Instr.wf, wf_of_readComes hc, RegAddr.wf, mailboxAt_spec hm]; omega
      rw [exec_read64 hwf (wholeLen_mailbox hm h8) hc, read64_mailbox hm ha, bytesOf_mbxRead]
  · rintro s p b o n j hj
    have hx : exec j s = .next (settle s (s.bar0Read (.vf p b) o n)) := by
      obtain ⟨hj, rfl⟩ | ⟨rfl, hl, hwf, rfl⟩ := hj
      · exact exec_reads32 hj
      · exact exec_wholeRead hwf hl
    refine ⟨fun ⟨ho, hp, ha⟩ => same_answer ?_, fun h => same_answer ?_⟩
    · rw [hx, State.bar0Read, if_pos ⟨ho, hp, ha⟩]
    · have hn : ¬(o < 4096 ∧ p = s.portOf b ∧ s.answers (.vf p b) 0x3000000 = true) := by
        rintro ⟨ho, hp, ha⟩
        rcases h with h | h | h
        · omega
        · exact h hp
        · rw [h] at ha; cases ha
      rw [hx, State.bar0Read, if_neg hn]
  -- A write of a VF outside its page.
  · rintro s p b o v w j hs hj h
    refine same_nothing (.vf p b) hs ?_
    obtain hj | ⟨rfl, hwf⟩ := hj
    · rw [exec_writes32 hj, bar0Write_vf_ignored h]
    · rw [exec_registerWrite _ _ _ _ hwf]
      exact congrArg (fun x => Host.Outcome.next (settle s (State.applyMmio x _))) (bar0Write_vf_ignored h)
  -- A tenant's host core at BAR0 (R33), and a halted host core.
  · rintro s h o v j ⟨hr, hb⟩
    have hp (a : Nat) : ((s.addrFault (s.who (.hc h)) a).hcTrap h 0x30 a).pending = s.pending := by
      rw [pending_hcTrap, pending_addrFault]
    refine ⟨fun hj hne => ?_, fun w e hwf => ?_, fun hwf e => ?_, fun hwf e => ?_⟩
    · obtain ⟨a', n, rfl | ⟨-, w, rfl⟩, hx⟩ := exec_writes (s := s) hj
      · refine same_of_settle (hx.trans ?_) (by rw [pending_applyMmio, hp])
        rw [State.accessWrite, bar0Write_tenant hr hb, regAddr]
      · exact absurd rfl (hne w)
    · subst e
      refine same_of_settle ((exec_highHalfWrite (.hc h) (.bar0 o) w hwf).trans ?_) (by rw [pending_applyMmio, hp])
      rw [highHalfWrite, upperOf, State.accessWrite, bar0Write_tenant hr hb, regAddr_upper]
    · obtain rfl | rfl := e
      · refine same_of_settle ((exec_registerReadClear _ _ hwf).trans ?_) (hp _)
        rw [registerReadClear, State.accessRead, bar0Read_tenant hr hb, regAddr]
      · refine same_of_settle ((exec_lowHalfRead _ _ hwf).trans ?_) (hp _)
        rw [lowHalfRead, State.accessRead, bar0Read_tenant hr hb, regAddr]
    · subst e
      refine same_of_settle ((exec_highHalfRead (.hc h) (.bar0 o) hwf).trans ?_) (hp _)
      rw [highHalfRead, upperOf, State.accessRead, bar0Read_tenant hr hb, regAddr_upper]
  · rintro s h v a j ⟨hs, hr⟩ hj ha
    exact same_of_inert hs hj (accessWrite_halted hr ha) (accessWrite_halted hr (OwnPlace.upperOf ha))
      (accessRead_halted hr ha) (accessRead_halted hr (OwnPlace.upperOf ha))
  -- The system registers of a running host core.
  · rintro s u h num v j hr hj hu
    obtain rfl : s.sysWrite h num v = u := sysWrite_cases hu
    obtain ⟨a', n, ha, hx⟩ := exec_writes (s := s) hj
    obtain rfl : a' = .sys h num := ha.elim id And.left
    rw [State.accessWrite, if_pos ⟨rfl, hr⟩] at hx
    exact same_of_settle hx (by rw [pending_applyMmio, pending_sysWrite])
  · rintro s u h num j hr hj hu
    obtain rfl : s.sysRead h num = u := sysRead_cases hu
    obtain ⟨a', n, ha, -, hx⟩ := exec_reads (s := s) hj
    obtain rfl : a' = .sys h num := ha.elim id And.left
    rw [State.accessRead, if_pos ⟨rfl, hr⟩] at hx
    exact same_of_settle hx (pending_sysRead ..)
  -- The configuration places: SR-IOV control, ATS control, the vectors of VF b.
  · rintro s p v j
    refine ⟨fun hj => ?_, fun hj => ?_⟩
    · obtain ⟨a', n, ha, hx⟩ := exec_writes (s := s) hj
      obtain rfl : a' = .sriov p := ha.elim id And.left
      rw [State.accessWrite, if_pos rfl] at hx
      exact same_of_settle hx (by rw [pending_applyMmio, pending_vfDisable])
    · obtain ⟨a', n, ha, hn, hx⟩ := exec_reads (s := s) hj
      obtain rfl : a' = .sriov p := ha.elim id And.left
      obtain rfl : n = 4 := hn.elim id id
      rw [State.accessRead, if_pos rfl] at hx
      exact same_answer hx
  · rintro s r p fn v j hr
    have hp : onPort r p = true := by
      obtain rfl | ⟨b, rfl⟩ := hr <;> simp [onPort]
    refine ⟨fun hj => ?_, fun hj => ?_⟩
    · obtain ⟨a', n, ha, hx⟩ := exec_writes (s := s) hj
      obtain rfl : a' = .ats p fn := ha.elim id And.left
      rw [State.accessWrite, if_pos hp] at hx
      exact same_of_settle hx (by rw [pending_applyMmio, pending_plain])
    · obtain ⟨a', n, ha, hn, hx⟩ := exec_reads (s := s) hj
      obtain rfl : a' = .ats p fn := ha.elim id And.left
      obtain rfl : n = 4 := hn.elim id id
      rw [State.accessRead, if_pos hp] at hx
      exact same_answer hx
  · rintro s p b off v w wide ⟨hp, hb, hb', ho, h4⟩
    have hr : Req.wf (.vf p b) = true := decide_eq_true ⟨hp, hb, hb'⟩
    have ha : RegAddr.wf (.vfBar2 b off) = true := decide_eq_true ⟨hb, hb', ho, h4⟩
    have hwf : (Req.wf (.vf p b) && RegAddr.wf (.vfBar2 b off)) = true := by rw [hr, ha]; rfl
    have hwr (off n v : Nat) : s.accessWrite (.vf p b) (.vfBar2 b off) n v = s.vfWrite (vfIx p b) off n v := by
      simp [State.accessWrite, vfOf]
    have hrd (off n : Nat) : s.accessRead (.vf p b) (.vfBar2 b off) n = s.vfRead (vfIx p b) off n := by
      simp [State.accessRead, vfOf]
    refine ⟨same_of_settle ((exec_registerWrite _ _ wide v hwf).trans ?_) ?_,
      same_of_settle ((exec_lowHalfWrite _ _ w hwf).trans ?_) ?_,
      same_of_settle ((exec_highHalfWrite _ _ w hwf).trans ?_) ?_, same_of_settle ((exec_registerReadClear _ _ hwf).trans ?_) rfl,
      same_of_settle ((exec_lowHalfRead _ _ hwf).trans ?_) rfl, same_of_settle ((exec_highHalfRead _ _ hwf).trans ?_) rfl⟩
    · rw [registerWrite, hwr]
    · rw [pending_applyMmio, pending_vfWrite]
    · rw [lowHalfWrite, hwr]
    · rw [pending_applyMmio, pending_vfWrite]
    · rw [highHalfWrite, upperOf, hwr]
    · rw [pending_applyMmio, pending_vfWrite]
    · rw [registerReadClear, hrd]; rfl
    · rw [lowHalfRead, hrd]
    · rw [highHalfRead, upperOf, hrd]
  -- A place that answers another requester.
  · rintro s r a v j hs hj ha
    exact same_of_inert hs hj (accessWrite_strange ha) (accessWrite_strange (StrangePlace.upperOf ha))
      (accessRead_strange ha) (accessRead_strange (StrangePlace.upperOf ha))
end

section
/-! SUPPORT. The store map (R151): the third, the page and the place in it that an address names, and the digit of the die. -/

namespace Sys2Proof.Machine

variable {a b : Nat}

/-- The page of an address within its third of store (R151). -/
def thirdPage (a : Nat) : Nat := a % 0x1800000000 / 2 ^ 21

/-- What the digit of the die is shifted by: it depends on the group of four pages alone. -/
def dieSkew (group : Nat) : Nat := bits group 3 2 ^^^ (bits group 7 6 ^^^ bits group 11 10)

theorem bits_lt (v hi lo : Nat) : bits v hi lo < 2 ^ (hi + 1 - lo) := Nat.mod_lt _ (Nat.two_pow_pos _)

theorem dieSkew_lt (group : Nat) : dieSkew group < 2 ^ 2 :=
  Nat.xor_lt_two_pow (bits_lt group 3 2) (Nat.xor_lt_two_pow (bits_lt group 7 6) (bits_lt group 11 10))

theorem bits_div_four (p hi lo : Nat) : bits (p / 4) hi lo = bits p (hi + 2) (lo + 2) := by
  rw [bits, bits, Nat.div_div_eq_div_mul, Nat.pow_add, Nat.mul_comm (2 ^ lo), show hi + 2 + 1 - (lo + 2) = hi + 1 - lo by omega]

theorem storeMap_eq (a : Nat) :
    storeMap a = (4 * (a / 0x1800000000) + (thirdPage a % 4 ^^^ dieSkew (thirdPage a / 4)),
      thirdPage a / 4 * 2 ^ 21 + a % 2 ^ 21) := by
  have hq : a - a / 0x1800000000 * 0x1800000000 = a % 0x1800000000 := by omega
  have ho : a % 0x1800000000 % 2 ^ 21 = a % 2 ^ 21 := by omega
  have hb (p : Nat) : bits p 1 0 = p % 4 := by simp [bits]
  simp only [storeMap, hq, ho, hb, thirdPage, dieSkew, bits_div_four, Nat.xor_assoc]

/-- The digit of the die is one of four. -/
theorem dieDigit_lt (a : Nat) : thirdPage a % 4 ^^^ dieSkew (thirdPage a / 4) < 4 :=
  Nat.xor_lt_two_pow (n := 2) (Nat.mod_lt _ (by decide)) (dieSkew_lt _)

theorem storeMap_fst_div (a : Nat) : (storeMap a).1 / 4 = a / 0x1800000000 := by
  have := dieDigit_lt a
  rw [storeMap_eq]
  omega

theorem storeMap_snd_lt (a : Nat) : (storeMap a).2 < 12288 * 2 ^ 21 := by
  rw [storeMap_eq, thirdPage]
  omega

/-- Within one group of four pages the die tells the page. -/
theorem thirdPage_of_die (hg : thirdPage a / 4 = thirdPage b / 4) (hd : (storeMap a).1 = (storeMap b).1) :
    thirdPage a = thirdPage b := by
  have ha := dieDigit_lt a
  have hb := dieDigit_lt b
  rw [storeMap_eq, storeMap_eq, hg] at hd
  rw [hg] at ha
  have hx : thirdPage a % 4 ^^^ dieSkew (thirdPage b / 4) = thirdPage b % 4 ^^^ dieSkew (thirdPage b / 4) := by
    simp only at hd
    omega
  have hdigit : thirdPage a % 4 = thirdPage b % 4 := by
    have h := congrArg (· ^^^ dieSkew (thirdPage b / 4)) hx
    simpa only [Nat.xor_assoc, Nat.xor_self, Nat.xor_zero] using h
  omega

theorem storeMap_injective (h : storeMap a = storeMap b) : a = b := by
  have hd : (storeMap a).1 = (storeMap b).1 := congrArg Prod.fst h
  have ht : a / 0x1800000000 = b / 0x1800000000 := by rw [← storeMap_fst_div, hd, storeMap_fst_div]
  have hl : thirdPage a / 4 * 2 ^ 21 + a % 2 ^ 21 = thirdPage b / 4 * 2 ^ 21 + b % 2 ^ 21 := by
    simpa only [storeMap_eq] using congrArg Prod.snd h
  have hp : thirdPage a = thirdPage b := thirdPage_of_die (by omega) hd
  simp only [thirdPage] at hl hp
  omega

end Sys2Proof.Machine
end

section
open Sys2Proof.Machine

/-- Settles O55: the die and the die-local address give back the third, the group of four pages and the byte
(`storeMap_eq`), and within a group the die tells the page, for its digit is the page's, shifted by an exclusive or that
is the group's alone (`thirdPage_of_die`). -/
theorem storeMapIsOneToOne : Obligations.StoreMapIsOneToOne := by
  unfold Obligations.StoreMapIsOneToOne
  refine ⟨fun _ _ _ _ => storeMap_injective, fun a _ => ⟨storeMap_fst_div a, storeMap_snd_lt a⟩, ?_, by decide⟩
  intro a b _ _ hg hp hd
  have := thirdPage_of_die (a := a) (b := b) (by simp only [thirdPage]; omega) hd
  simp only [thirdPage] at this
  omega

end

section
/-! SUPPORT. A state and a field at which the release of one page changes more than its statement lists. -/

namespace Sys2Proof.Machine

/-- The state of the counterexample to O25: at reset but for its register map, which lists BUSY of die 2 at 0, its reset
value, and page 0 of that die as one of basin 0. No write of a register lists a field at its reset value, yet the
statement speaks of every state, and BUSY reads 0 in this one as it asks. -/
def busyListedIdle : State :=
  { State.reset with regs := [(F.STR_PAGE_CMD.BUSY.key 2, 0), (F.STR_PAGE_OWNERp.STATE.key (2 * 12288), 1)] }

/-- A field that no register has, past the 256 bits kept for each: as one of FHL_VLANv 1 it reads 31 where the map lists
nothing, and its place in the map is that of BUSY of die 2. -/
def vlanPastRegister : Field := ⟨.FHL_VLANv, 122407, 122407⟩

theorem key_vlanPastRegister : vlanPastRegister.key 1 = F.STR_PAGE_CMD.BUSY.key 2 := by decide

/-- The release of the one page ends and writes BUSY with 0, which takes the entry of BUSY out of the map. -/
theorem fld_vlanPastRegister_released :
    (settle busyListedIdle (busyListedIdle.wr .STR_PAGE_CMD 2 (pageRelease 2 0x4000))).fld vlanPastRegister 1 = 31 := by
  decide

end Sys2Proof.Machine
end

section
open Sys2Proof Sys2Proof.Machine Sys2Proof.Safety

/-- Refutes O25: the clause on the release of one page does not list BUSY among the fields written, and the end of the
release writes it. BUSY itself reads 0 before and after; where the register map listed it at 0, though, the write takes
that entry out, and `vlanPastRegister`, read through the same entry, changes from 0 to 31. `SameBut` speaks of every
field that `Field` can write, those past a register's 256 bits included. -/
theorem not_pageCommandsComplete : ¬ Obligations.PageCommandsComplete := by
  unfold Obligations.PageCommandsComplete
  rintro ⟨-, -, -, -, hrelease, -⟩
  obtain ⟨t, ht, -, -, -, -, -, -, hsame⟩ :=
    hrelease busyListedIdle 2 0x4000 (by decide) (by decide) (by decide) (by decide) (by decide)
  rw [exec_pageRelease 2 0x4000 rfl] at ht
  obtain rfl := Host.Outcome.next.inj ht
  have hkept := hsame.1 vlanPastRegister 1 (by rw [key_vlanPastRegister]; decide)
  rw [fld_vlanPastRegister_released] at hkept
  exact absurd hkept (by decide)

end

section
/-! SUPPORT. Key commands (R166, Table 5-11): what one write of STR_KEY_CMD does, by the operation it names, and what the
end of the operation leaves. -/

namespace Sys2Proof.SMap

variable {ν : Type} [DecidableEq ν]

/-- Of two writes at one key the second stands. -/
theorem set_set (d : ν) (m : SMap ν) (k : Nat) (v w : ν) : set d (set d m k v) k w = set d m k w := by
  have hins (m : SMap ν) : erase (insert k v m) k = erase m k := by
    induction m with
    | nil => simp [insert, erase]
    | cons p m ih =>
      unfold insert
      split
      · simp [erase]
      · simp only [erase, List.filter_cons] at ih ⊢
        rw [ih]
  have he : erase (set d m k v) k = erase m k := by
    unfold set
    split
    · simp [erase]
    · rw [hins]; simp [erase]
  unfold set at he ⊢
  rw [he]

/-- A write at a key that a reading of the entries passes over leaves what it gives. -/
theorem filterMap_set {β : Type} {g : Nat × ν → Option β} {k : Nat} (hg : ∀ v, g (k, v) = none) (d : ν) (m : SMap ν) (v : ν) :
    (set d m k v).filterMap g = m.filterMap g := by
  have hins (m : SMap ν) : (insert k v m).filterMap g = m.filterMap g := by
    induction m with
    | nil => simp [insert, hg]
    | cons p m ih =>
      unfold insert
      split
      · rw [List.filterMap_cons_none (hg v)]
      · simp only [List.filterMap_cons, ih]
  have her : (erase m k).filterMap g = m.filterMap g := by
    induction m with
    | nil => rfl
    | cons p m ih =>
      obtain ⟨a, w⟩ := p
      simp only [erase, List.filter_cons] at ih ⊢
      by_cases h : a = k
      · subst h
        rw [if_neg (by simp), ih, List.filterMap_cons_none (hg w)]
      · rw [if_pos (by simpa using h), List.filterMap_cons, List.filterMap_cons, ih]
  unfold set
  split
  · exact her
  · rw [hins, her]

end Sys2Proof.SMap

namespace Sys2Proof.Machine
open Sys2Proof.Safety

variable {s u : State} {n op b v : Nat} {j : Instr}

/-! Units of the store dies -/

theorem modStore_modStore (s : State) (n : Nat) (f g : Store → Store) :
    (s.modStore n f).modStore n g = s.modStore n fun x => g (f x) := by
  have h : (s.setStore n (f (s.store n))).setStore n (g (f (s.store n))) = s.setStore n (g (f (s.store n))) :=
    congrArg (fun l => { s with stores := l }) (SMap.set_set {} s.stores n _ _)
  rw [modStore_eq, modStore_eq, modStore_eq, store_setStore, if_pos rfl, h]

/-- A change of a store die beside the fields that a command writes. -/
theorem sameBut_modStore {fs : List (Field × Nat)} (h : SameBut fs s u) (n : Nat) (f : Store → Store) :
    SameBut fs (s.modStore n f) (u.modStore n f) := by
  obtain ⟨h1, h2, h3, h4, h5⟩ := h
  exact ⟨h1, h2, h3, h4, congrArg (fun t : State => t.modStore n f) h5⟩

theorem pagesOf_setFld {f : Field} (hk : f.kind ≠ .STR_PAGE_OWNERp) (hf : f.lo < 256) (i w : Nat) :
    (s.setFld f i w).pagesOf n b = s.pagesOf n b := by
  have hkey : f.key i % 131072 ≠ F.STR_PAGE_OWNERp.STATE.key 0 := by
    intro e
    have hq : f.key i = F.STR_PAGE_OWNERp.STATE.key (f.key i / 131072) := by
      simp only [Field.key] at e ⊢
      omega
    exact hk ((Field.key_eq_iff hf (by decide)).mp hq).2.1
  have ho (ix : Nat) : (s.setFld f i w).fld F.STR_PAGE_OWNERp.OWNER ix = s.fld F.STR_PAGE_OWNERp.OWNER ix :=
    fld_setFld_kind s i ix w hf (by decide) hk
  simp only [State.pagesOf, ho]
  exact SMap.filterMap_set (fun v => if_neg fun e => hkey e.1) _ _ _

/-! The command word -/

theorem bits_keyOpWord (v : Nat) (hop : op < 4) : bits (keyOpWord v op) 7 0 = v % 256 ∧ bits (keyOpWord v op) 9 8 = op ∧
    bit (keyOpWord v op) 10 = true ∧ bit (keyOpWord v op) 13 = bit v 13 := by
  have h1 : v / 2 ^ 13 % 2 ^ 1 < 2 := Nat.mod_lt _ (by decide)
  have h13 : (v % 256 + op * 256 + 1024 + v / 2 ^ 13 % 2 ^ 1 * 8192) / 2 ^ 13 % 2 = v / 2 ^ 13 % 2 := by omega
  simp only [keyOpWord, bits, bit, Nat.reduceAdd, Nat.reduceSub, h13, beq_iff_eq]
  refine ⟨?_, ?_, ?_, trivial⟩ <;> omega

/-- What a key command writes before it is judged: BASIN and OP, and ERR where bit 13 clears it. -/
def keyWritten (n op v : Nat) (s : State) : State :=
  ((s.setFld F.STR_KEY_CMD.BASIN n (v % 256)).setFld F.STR_KEY_CMD.OP n op).when (bit v 13) fun s =>
    s.setFld F.STR_KEY_CMD.ERR n 0

theorem fld_keyWritten (hop : op < 4) : (keyWritten n op v s).fld F.STR_KEY_CMD.BASIN n = v % 256 ∧
    (keyWritten n op v s).fld F.STR_KEY_CMD.OP n = op ∧
    (keyWritten n op v s).fld F.STR_KEY_CMD.ERR n = (if bit v 13 then 0 else s.fld F.STR_KEY_CMD.ERR n) ∧
    (keyWritten n op v s).flag F.STR_KEY_CMD.BUSY n = s.flag F.STR_KEY_CMD.BUSY n := by
  have hb : v % 256 % 2 ^ F.STR_KEY_CMD.BASIN.w = v % 256 := Nat.mod_mod v 256
  have ho : op % 2 ^ F.STR_KEY_CMD.OP.w = op := Nat.mod_eq_of_lt hop
  unfold keyWritten
  cases bit v 13 <;> simp (disch := decide) [State.flag, fld_setFld_lo, hb, ho]

theorem sameBut_keyWritten (n op v : Nat) (s : State) :
    SameBut [(F.STR_KEY_CMD.BASIN, n), (F.STR_KEY_CMD.OP, n), (F.STR_KEY_CMD.ERR, n)] s (keyWritten n op v s) :=
  have h := ((SameBut.refl _ s).setFld (v % 256) (by simp)).setFld op (by simp)
  h.when _ (h.setFld 0 (by simp))

theorem keyBad_keyWritten (o b : Nat) : (keyWritten n op v s).keyBad n o b = s.keyBad n o b := by
  have hp : (keyWritten n op v s).pagesOf n b = s.pagesOf n b := by
    unfold keyWritten
    cases bit v 13 <;> simp (disch := decide) only [when_true, when_false, pagesOf_setFld]
  have hs : (keyWritten n op v s).store n = s.store n := by
    unfold keyWritten
    cases bit v 13 <;> rfl
  simp only [State.keyBad, State.keyFull, hp, hs]

/-- A write of STR_KEY_CMD with GO, by what stands in the way of it. -/
theorem keyCmd_keyOpWord (hop : op < 4) : keyCmd n (keyOpWord v op) s =
    (if s.flag F.STR_KEY_CMD.BUSY n then keyWritten n op v s
    else if s.keyBad n op (v % 256) then (keyWritten n op v s).setFld F.STR_KEY_CMD.ERR n 1
    else ((keyWritten n op v s).modStore n fun x => { x with keyOp := some (op, v % 256) }).setFld F.STR_KEY_CMD.BUSY n 1) := by
  obtain ⟨hb, ho, hgo, herr⟩ := bits_keyOpWord v hop
  obtain ⟨-, -, -, hbusy⟩ := fld_keyWritten (n := n) (v := v) (s := s) hop
  rw [← hbusy, ← keyBad_keyWritten (n := n) (op := op) (v := v)]
  simp only [keyCmd, hb, ho, hgo, herr, Bool.not_true, Bool.false_or]
  rfl

/-- `j` writes STR_KEY_CMD of die `n` with operation `op` and the rest of `v`. -/
abbrev KeyCommand (j : Instr) (s : State) (n op v : Nat) : Prop :=
  op < 3 ∧ exec j s = .next (settle s (s.wr .STR_KEY_CMD n (keyCmd n (keyOpWord v op))))

theorem keyCommand_accepted (hj : KeyCommand j s n op v) (hw : s.takesWrite .STR_KEY_CMD n = true)
    (hb : s.flag F.STR_KEY_CMD.BUSY n = false) (hk : s.keyBad n op (v % 256) = false) :
    ∃ t, exec j s = .next t ∧ t.fld F.STR_KEY_CMD.BUSY n = 1 ∧
      t.fld F.STR_KEY_CMD.BASIN n = v % 256 ∧ t.fld F.STR_KEY_CMD.OP n = op ∧
      t.fld F.STR_KEY_CMD.ERR n = (if bit v 13 then 0 else s.fld F.STR_KEY_CMD.ERR n) ∧
      SameBut [(F.STR_KEY_CMD.BASIN, n), (F.STR_KEY_CMD.OP, n), (F.STR_KEY_CMD.ERR, n), (F.STR_KEY_CMD.BUSY, n)]
        (s.modStore n fun x => { x with keyOp := some (op, v % 256) }) t := by
  obtain ⟨hop, hx⟩ := hj
  obtain ⟨hbasin, hopf, herr, -⟩ := fld_keyWritten (n := n) (v := v) (s := s) (show op < 4 by omega)
  rw [wr_of _ hw, keyCmd_keyOpWord (by omega), if_neg (by simp [hb]), if_neg (by simp [hk])] at hx
  refine ⟨_, hx, ?_, ?_, ?_, ?_, ?_⟩
  · rw [fld_settle, fld_setFld_same]; rfl
  · rw [fld_settle, fld_setFld_lo _ _ _ _ (by decide) (by decide) (by decide)]; exact hbasin
  · rw [fld_settle, fld_setFld_lo _ _ _ _ (by decide) (by decide) (by decide)]; exact hopf
  · rw [fld_settle, fld_setFld_lo _ _ _ _ (by decide) (by decide) (by decide)]; exact herr
  · refine (((sameBut_modStore (sameBut_keyWritten n op v s) n _).mono ?_).setFld 1 (by simp)).settle rfl
    simp

theorem keyCommand_refused (hj : KeyCommand j s n op v) (hw : s.takesWrite .STR_KEY_CMD n = true)
    (hb : s.flag F.STR_KEY_CMD.BUSY n = false) (hk : s.keyBad n op (v % 256) = true) :
    ∃ t, exec j s = .next t ∧ t.fld F.STR_KEY_CMD.ERR n = 1 ∧ t.fld F.STR_KEY_CMD.BASIN n = v % 256 ∧
      t.fld F.STR_KEY_CMD.OP n = op ∧
      SameBut [(F.STR_KEY_CMD.BASIN, n), (F.STR_KEY_CMD.OP, n), (F.STR_KEY_CMD.ERR, n)] s t := by
  obtain ⟨hop, hx⟩ := hj
  obtain ⟨hbasin, hopf, -, -⟩ := fld_keyWritten (n := n) (v := v) (s := s) (show op < 4 by omega)
  rw [wr_of _ hw, keyCmd_keyOpWord (by omega), if_neg (by simp [hb]), if_pos hk] at hx
  refine ⟨_, hx, ?_, ?_, ?_, ((sameBut_keyWritten n op v s).setFld 1 (by simp)).settle rfl⟩
  · rw [fld_settle, fld_setFld_same]; rfl
  · rw [fld_settle, fld_setFld_lo _ _ _ _ (by decide) (by decide) (by decide)]; exact hbasin
  · rw [fld_settle, fld_setFld_lo _ _ _ _ (by decide) (by decide) (by decide)]; exact hopf

/-- While an operation runs, GO is ignored; the fields of the command are written all the same. -/
theorem keyCommand_busy (hj : KeyCommand j s n op v) (hw : s.takesWrite .STR_KEY_CMD n = true)
    (hb : s.flag F.STR_KEY_CMD.BUSY n = true) :
    ∃ t, exec j s = .next t ∧ t.fld F.STR_KEY_CMD.BASIN n = v % 256 ∧ t.fld F.STR_KEY_CMD.OP n = op ∧
      t.fld F.STR_KEY_CMD.ERR n = (if bit v 13 then 0 else s.fld F.STR_KEY_CMD.ERR n) ∧
      SameBut [(F.STR_KEY_CMD.BASIN, n), (F.STR_KEY_CMD.OP, n), (F.STR_KEY_CMD.ERR, n)] s t := by
  obtain ⟨hop, hx⟩ := hj
  obtain ⟨hbasin, hopf, herr, -⟩ := fld_keyWritten (n := n) (v := v) (s := s) (show op < 4 by omega)
  rw [wr_of _ hw, keyCmd_keyOpWord (by omega), if_pos hb] at hx
  exact ⟨_, hx, hbasin, hopf, herr, (sameBut_keyWritten n op v s).settle rfl⟩

theorem keyCommand_ignored (hj : KeyCommand j s n op v) (hw : s.takesWrite .STR_KEY_CMD n = false) :
    ∃ t, exec j s = .next t ∧ Same s t := by
  obtain ⟨-, hx⟩ := hj
  rw [wr_ignored _ hw] at hx
  exact same_of_settle hx rfl

theorem keyCommand_keyGenerate (hn : n < 12) (v : BitVec 32) : KeyCommand (.keyGenerate n v) s n 0 v.toNat :=
  ⟨by decide, exec_keyGenerate n v (decide_eq_true hn)⟩

theorem keyCommand_keyLoad (hn : n < 12) (v : BitVec 32) : KeyCommand (.keyLoad n v) s n 1 v.toNat :=
  ⟨by decide, exec_keyLoad n v (decide_eq_true hn)⟩

theorem keyCommand_keyDestroy (hn : n < 12) (v : BitVec 32) : KeyCommand (.keyDestroy n v) s n 2 v.toNat :=
  ⟨by decide, exec_keyDestroy n v (decide_eq_true hn)⟩

/-! Refusals (Table 5-11) -/

/-- Generate and load need a tenant basin with an empty slot. -/
theorem keyBad_fill_iff (hop : op < 2) : s.keyBad n op b = true ↔ b = 0 ∨ s.keyFull n b = true := by
  obtain rfl | rfl : op = 0 ∨ op = 1 := by omega
  all_goals simp [State.keyBad]

theorem keyBad_fill_eq_false (hop : op < 2) (h : b ≠ 0 ∧ s.keyFull n b = false) : s.keyBad n op b = false := by
  rw [← Bool.not_eq_true, keyBad_fill_iff hop, not_or, Bool.not_eq_true]
  exact h

/-- Destroy needs a tenant basin with no page and no running assignment. -/
theorem keyBad_destroy_iff : s.keyBad n 2 b = true ↔
    b = 0 ∨ s.pagesOf n b ≠ [] ∨ ∃ l k, (s.store n).pageOp = some (l, k, some b) := by
  simp [State.keyBad, Option.any_eq_true]

/-! The end of an operation -/

/-- What the operation leaves in the slot: a key drawn, the key loaded, or none. -/
def slotAfter (n op : Nat) (x : Store) : Option Nat :=
  match op with
  | 0 => some (Config.randomKey n x.draws)
  | 1 => some x.keyData
  | _ => none

/-- The store controller after operation `op` on the slot of basin `b` (R166). -/
def keyOpDone (n op b : Nat) (x : Store) : Store :=
  { x with
    keys := SMap.set none x.keys b (slotAfter n op x)
    draws := if op = 0 then x.draws + 1 else x.draws
    keyData := if op = 1 then 0 else x.keyData
    keyOp := none }

theorem keyOpEnd_eq (hop : op < 3) (h : (s.store n).keyOp = some (op, b)) :
    keyOpEnd n s = (s.modStore n (keyOpDone n op b)).setFld F.STR_KEY_CMD.BUSY n 0 := by
  have hdone : keyOpEnd n s = ((s.modStore n fun x => { keyOpDone n op b x with keyOp := x.keyOp }).modStore n fun x =>
      { x with keyOp := none }).setFld F.STR_KEY_CMD.BUSY n 0 := by
    unfold keyOpEnd
    rw [h]
    obtain rfl | rfl | rfl : op = 0 ∨ op = 1 ∨ op = 2 := by omega
    all_goals rfl
  rw [hdone, modStore_modStore]
  rfl

end Sys2Proof.Machine
end

section
open Sys2Proof Sys2Proof.Machine Sys2Proof.Safety

/-- Settles O26: a write of STR_KEY_CMD with GO is ignored, refused or accepted (`keyCmd_keyOpWord`), and the fields it
writes before it is judged change nothing of what it is judged by (`keyBad_keyWritten`); the end of an operation changes
the slot it names (`keyOpEnd_eq`). -/
theorem keyCommandsComplete : Obligations.KeyCommandsComplete := by
  unfold Obligations.KeyCommandsComplete
  refine ⟨?_, ?_, ?_, ?_, ?_, ?_, ?_, ?_, ?_, ?_⟩
  -- Accepted.
  · exact fun s n v hn hw hb hk => keyCommand_accepted (keyCommand_keyGenerate hn v) hw hb (keyBad_fill_eq_false (by decide) hk)
  · exact fun s n v hn hw hb hk => keyCommand_accepted (keyCommand_keyLoad hn v) hw hb (keyBad_fill_eq_false (by decide) hk)
  · rintro s n v hn hw hb ⟨h0, hpages, hrun⟩
    refine keyCommand_accepted (keyCommand_keyDestroy hn v) hw hb ?_
    rw [← Bool.not_eq_true, keyBad_destroy_iff]
    rintro (h | h | ⟨l, k, h⟩)
    · exact h0 h
    · exact h hpages
    · exact hrun l k h
  -- Refused.
  · exact fun s n v hn hw hb hk =>
      keyCommand_refused (keyCommand_keyGenerate hn v) hw hb ((keyBad_fill_iff (by decide)).mpr hk)
  · exact fun s n v hn hw hb hk =>
      keyCommand_refused (keyCommand_keyLoad hn v) hw hb ((keyBad_fill_iff (by decide)).mpr hk)
  · exact fun s n v hn hw hb hk =>
      keyCommand_refused (keyCommand_keyDestroy hn v) hw hb (keyBad_destroy_iff.mpr hk)
  -- While BUSY is 1, and at a die that takes no writes.
  · exact fun s n v hn hw hb => ⟨keyCommand_busy (keyCommand_keyGenerate hn v) hw hb,
      keyCommand_busy (keyCommand_keyLoad hn v) hw hb, keyCommand_busy (keyCommand_keyDestroy hn v) hw hb⟩
  · exact fun s n v hn hw => ⟨keyCommand_ignored (keyCommand_keyGenerate hn v) hw,
      keyCommand_ignored (keyCommand_keyLoad hn v) hw, keyCommand_ignored (keyCommand_keyDestroy hn v) hw⟩
  -- The end of an operation.
  · intro s n op b hn hrun hop
    have hx := exec_keyOpEnd (s := s) n (decide_eq_true hn)
    rw [keyOpEnd_eq hop hrun] at hx
    have hstore : (settle s ((s.modStore n (keyOpDone n op b)).setFld F.STR_KEY_CMD.BUSY n 0)).store n =
        keyOpDone n op b (s.store n) := by
      rw [modStore_eq]
      exact (store_setStore ..).trans (if_pos rfl)
    refine ⟨_, hx, ?_, ?_, fun c hc => ?_, ?_⟩
    · rw [fld_settle, fld_setFld_same]; rfl
    · rw [hstore, keyOpDone, SMap.get_set_same]; rfl
    · rw [hstore, keyOpDone, SMap.get_set_ne _ _ _ _ hc.symm]
    · rw [hstore]
      exact ((SameBut.refl _ _).setFld 0 (by simp)).settle rfl
  · intro s n hn hnone
    have hx := exec_keyOpEnd (s := s) n (decide_eq_true hn)
    simp only [keyOpEnd, hnone] at hx
    exact same_of_settle hx rfl

end

section
/-! SUPPORT. The upkeep of store (R153, R167 to R170): the queue of waiting commands stays through errors, patrol reads and
sparing, and what a refresh and a patrol read do, case by case. -/

namespace Sys2Proof.Machine
open Sys2Proof.Safety

variable {s u : State} {n ch bg : Nat}

@[simp] theorem pending_strike (s : State) (e : Ecc) : (s.strike e).pending = s.pending := by
  unfold State.strike
  split
  · rfl
  · split <;> rfl
  · extract_lets
    split <;> rfl

@[simp] theorem pending_meetCache (s : State) (die line : Nat) : (s.meetCache die line).pending = s.pending := by
  refine pending_foldl _ _ (keeps_iff.mpr fun s x => ?_)
  (repeat' split) <;> simp

@[simp] theorem pending_thirdBlock (s : State) (d mech : Nat) : (s.thirdBlock d mech).pending = s.pending := by
  simp [State.thirdBlock]

@[simp] theorem pending_blockDown (s : State) (d k mech : Nat) (radio : Bool) :
    (s.blockDown d k mech radio).pending = s.pending := by simp [State.blockDown]

theorem pending_tileFenced (s : State) (d k : Nat) {f : State → State} (hf : ∀ t, (f t).pending = t.pending) :
    (s.tileFenced d k f).pending = s.pending := by simp [State.tileFenced, hf]

theorem pending_patrolRead (loc : EccLoc) (e : Ecc) (overtaken last : Bool) (s : State) :
    (patrolRead loc e overtaken last s).pending = s.pending := by
  unfold patrolRead
  (repeat' split) <;> simp

theorem pending_bankGroupSparing (n ch bg : Nat) (s : State) : (bankGroupSparing n ch bg s).pending = s.pending := by
  simp only [bankGroupSparing]
  (repeat' split)
  · simp [State.testStands]
  · rfl
  · simp [pending_tileFenced]
  · simp

/-! Refresh (R153) -/

/-- The interval that runs and the time since its start, from the time since the last tick. -/
theorem refreshIv_of {k i r : Nat} (hk : k = (if s.flag F.GEY_CTRL.TICKING then s.fld F.GEY_TICK.TICK else 0))
    (ht : 4 * (s.fld F.TMB_NOW.NS - if s.flag F.GEY_CTRL.TICKING then s.gey.last else 0) = 15625 * i + r) (hr : r < 15625) :
    s.refreshIv = ((k, i), r) := by
  have hi : (15625 * i + r) / 15625 = i := by omega
  have hm : (15625 * i + r) % 15625 = r := by omega
  simp only [State.refreshIv, State.now, State.tickNo, ht, hi, hm, ← hk]

theorem refresh_down (h : s.dieDown (12 + n) = true) : refresh n ch bg s = s := by
  simp [refresh, h]

/-- On a die in service a bank group takes its refresh when it is due and it has not had it in the interval. -/
theorem refresh_up (h : s.dieDown (12 + n) = false) {iv : Nat × Nat} {r : Nat} (hiv : s.refreshIv = (iv, r)) {done : List Nat}
    (hdone : done = (if (s.store n).refreshIv = iv then (s.store n).refreshed else [])) :
    refresh n ch bg s = (if 8 * ch + bg ∈ done ∨ r < 116 * (8 * ch + bg) then s
      else s.modStore n fun x => { x with refreshIv := iv, refreshed := done ++ [8 * ch + bg] }) := by
  simp [refresh, h, hiv, ← hdone, modStore_eq]

/-! Patrol reads (R167, R168) -/

variable {e : Ecc} {overtaken last : Bool} {a p d die line word : Nat}

/-- With the patrol on, a read of store meets the word's error unless a write overtakes it, and the last of a pass counts. -/
theorem patrolRead_store (hp : place a = .store n p d) (hu : u = s.strike e)
    (hon : u.flag F.STR_CTRL.PATROL_EN n = true ∧ u.dieDown (12 + n) = false) :
    patrolRead (.mem a) e overtaken last s = (if overtaken then u else u.meet a 1 true).when last fun v =>
      v.setFld F.STR_STATUS.PATROL_PASSES n (v.fld F.STR_STATUS.PATROL_PASSES n + 1) := by
  simp [patrolRead, hp, ← hu, hon]

theorem patrolRead_store_off (hp : place a = .store n p d) (hu : u = s.strike e)
    (hoff : u.flag F.STR_CTRL.PATROL_EN n = false ∨ u.dieDown (12 + n) = true) :
    patrolRead (.mem a) e overtaken last s = u := by
  simp only [patrolRead, hp, ← hu]
  exact if_pos (by simpa using hoff)

/-- A read of matrix SRAM needs its die alone. -/
theorem patrolRead_sram (hp : place a = .sram n d) (hu : u = s.strike e) :
    patrolRead (.mem a) e overtaken last s = if overtaken || u.dieDown n then u else u.meet a 1 true := by
  simp [patrolRead, hp, ← hu]

theorem patrolRead_rsram (hp : place a = .rsram n d) (hu : u = s.strike e) :
    patrolRead (.mem a) e overtaken last s = if overtaken || u.dieDown (24 + n) then u else u.meet a 1 true := by
  simp [patrolRead, hp, ← hu]

theorem patrolRead_cache (hu : u = s.strike e) :
    patrolRead (.cache die line word) e overtaken last s = if overtaken || u.dieDown die then u else u.meetCache die line := by
  simp [patrolRead, ← hu]

/-- Nothing patrols an address outside store and the SRAMs. -/
theorem patrolRead_elsewhere (hu : u = s.strike e) (hs : ∀ n p d, place a ≠ .store n p d) (hm : ∀ n d, place a ≠ .sram n d)
    (hr : ∀ n d, place a ≠ .rsram n d) : patrolRead (.mem a) e overtaken last s = u := by
  cases hp : place a with
  | store n p d => exact absurd hp (hs n p d)
  | sram n d => exact absurd hp (hm n d)
  | rsram n d => exact absurd hp (hr n d)
  | dsp | journal | regs | host | none => simp only [patrolRead, hp, ← hu]

/-- The end of a patrol read. -/
theorem same_patrolRead {loc : EccLoc} {x : State} (hw : Instr.wf (.patrolRead loc e overtaken last) = true)
    (hx : patrolRead loc e overtaken last s = x) : ∃ t, exec (.patrolRead loc e overtaken last) s = .next t ∧ Same x t := by
  subst hx
  exact same_of_settle (exec_patrolRead loc e overtaken last hw) (pending_patrolRead ..)

/-! Sparing (R169, R379) -/

/-- The end of a fence of a bank group. -/
theorem same_bankGroupSparing {x : State} (hw : n < 12 ∧ ch < 16 ∧ bg < 8) (hx : bankGroupSparing n ch bg s = x) :
    ∃ t, exec (.bankGroupSparing n ch bg) s = .next t ∧ Same x t := by
  subst hx
  exact same_of_settle (exec_bankGroupSparing n ch bg (decide_eq_true hw)) (pending_bankGroupSparing ..)

end Sys2Proof.Machine
end

section
open Sys2Proof Sys2Proof.Machine Sys2Proof.Safety

/-- Settles O24: each event of the store controllers is one case of its meaning (`refresh_up`, `patrolRead_store` and
its likes, the branches of `bankGroupSparing`), and none of them touches the queue of waiting commands. -/
theorem storeUpkeepCompletes : Obligations.StoreUpkeepCompletes := by
  unfold Obligations.StoreUpkeepCompletes
  refine ⟨?_, ?_, ?_, ?_, ?_, ?_, ?_, ?_, ?_, ?_, ?_, ?_⟩
  -- Refresh.
  · intro s n ch bg k i r done hwf hup hk ⟨ht, hr⟩ hdone
    have hx := exec_refresh (s := s) n ch bg (decide_eq_true hwf)
    rw [refresh_up hup (refreshIv_of hk ht hr) hdone] at hx
    refine ⟨fun ⟨hnew, hdue⟩ => ?_, fun hnot => ?_⟩
    · rw [if_neg (not_or.mpr ⟨hnew, Nat.not_lt.mpr hdue⟩)] at hx
      exact same_of_settle hx rfl
    · rw [if_pos hnot] at hx
      exact same_of_settle hx rfl
  · intro s n ch bg hwf hdown
    have hx := exec_refresh (s := s) n ch bg (decide_eq_true hwf)
    rw [refresh_down hdown] at hx
    exact same_of_settle hx rfl
  -- The patrol: of store, of SRAM, of a cache, and where it reads nothing.
  · intro s u a n p d e overtaken last ha hp hu hon
    exact same_patrolRead (decide_eq_true ha) (patrolRead_store hp hu hon)
  · rintro s u a n d e overtaken last ha hu (⟨hp, hup⟩ | ⟨hp, hup⟩)
    · exact same_patrolRead (decide_eq_true ha) (by rw [patrolRead_sram hp hu, hup, Bool.or_false])
    · exact same_patrolRead (decide_eq_true ha) (by rw [patrolRead_rsram hp hu, hup, Bool.or_false])
  · intro s u die line word e overtaken last hwf hu hup
    exact same_patrolRead (decide_eq_true hwf) (by rw [patrolRead_cache hu, hup, Bool.or_false])
  · rintro s u loc e overtaken last hu (⟨a, rfl, ha, h⟩ | ⟨die, line, word, rfl, hd, hw, hdown⟩)
    · refine same_patrolRead (decide_eq_true ha) ?_
      obtain ⟨n, p, d, hp, hoff⟩ | ⟨n, d, hp, hdown⟩ | ⟨n, d, hp, hdown⟩ | ⟨hs, hm, hr⟩ := h
      · exact patrolRead_store_off hp hu hoff
      · rw [patrolRead_sram hp hu, hdown, Bool.or_true, if_pos rfl]
      · rw [patrolRead_rsram hp hu, hdown, Bool.or_true, if_pos rfl]
      · exact patrolRead_elsewhere hu hs hm hr
    · exact same_patrolRead (decide_eq_true ⟨hd, hw⟩) (by rw [patrolRead_cache hu, hdown, Bool.or_true, if_pos rfl])
  -- A bank group is fenced: with the spare free, with the spare used, fenced already, and under a test fence.
  · intro s n ch bg hwf htest hin hspare
    refine same_bankGroupSparing hwf ?_
    simp only [bankGroupSparing, htest, List.contains_iff_mem, hin, hspare, Bool.not_false, if_true, if_false, Bool.false_eq_true]
    rfl
  · intro s n ch bg hwf htest hin hspare
    refine same_bankGroupSparing hwf ?_
    simp only [bankGroupSparing, htest, List.contains_iff_mem, hin, hspare, Bool.not_true, if_false, Bool.false_eq_true]
    rfl
  · intro s n ch bg hwf htest hin
    refine same_bankGroupSparing hwf ?_
    simp only [bankGroupSparing, htest, List.contains_iff_mem, hin, if_true, if_false, Bool.false_eq_true]
  · intro s n ch bg hwf htest
    refine same_bankGroupSparing hwf ?_
    simp only [bankGroupSparing, htest, if_true, State.testStands, when_true]
    rfl
  -- The end of the copy.
  · intro s n hn hbusy
    have hx := exec_sparingCopyEnd (s := s) n (decide_eq_true hn)
    simp only [sparingCopyEnd, hbusy, Bool.not_true, Bool.false_eq_true, if_false] at hx
    refine ⟨_, hx, ?_, ((SameBut.refl _ _).setFld 0 (by simp)).settle ?_⟩
    · rw [fld_settle, fld_setFld_same]; rfl
    · refine pending_foldl _ _ (keeps_iff.mpr fun s f => ?_)
      split <;> simp
  · intro s n hn hidle
    have hx := exec_sparingCopyEnd (s := s) n (decide_eq_true hn)
    simp only [sparingCopyEnd, hidle, Bool.not_false, if_true] at hx
    exact same_of_settle hx rfl

end

section
/-! SUPPORT. The commit point, and the windows of the matrix cores (R137, R175 to R181): the queue of waiting commands stays, and
what a read of a slot, the start of a window and its hand-back do, case by case. -/

namespace Sys2Proof.Machine
open Sys2Proof.Safety

variable {s u : State} {g : Nat}

/-! The commit point (R137) -/

@[simp] theorem pending_sign (s : State) (a : Nat) (d : List Byte) : (s.sign a d).pending = s.pending := by
  unfold State.sign
  split <;> rfl

@[simp] theorem pending_signStaged (s : State) (x : Staged) : (s.signStaged x).pending = s.pending := by
  cases x <;> simp [State.signStaged]

@[simp] theorem pending_semDrop (s : State) (g : Nat) (rsv : List (Nat × Nat)) : (s.semDrop g rsv).pending = s.pending := by
  simp [State.semDrop]

@[simp] theorem pending_foldDigests (s : State) (g : Nat) (x : Ctx) : (s.foldDigests g x).pending = s.pending := by
  simp [State.foldDigests]

@[simp] theorem pending_setMq (s : State) (q : Nat) (x : MQ) : (s.setMq q x).pending = s.pending := by simp [State.setMq]

@[simp] theorem pending_mqAdvance (f q : Nat) (s : State) : (State.mqAdvance f q s).pending = s.pending := by
  induction f generalizing s with
  | zero => rfl
  | succ f ih =>
    unfold State.mqAdvance
    extract_lets base c
    split
    · rw [ih, pending_putRam, pending_setMq]
    · rfl

@[simp] theorem pending_mqCommit (s : State) (l : List (Nat × Nat)) : (s.mqCommit l).pending = s.pending :=
  pending_foldl _ _ fun s x t ht => by rw [← ht, pending_mqAdvance, pending_setMq]

@[simp] theorem pending_meetSinter (s : State) (g seq : Nat) (l : List Staged) :
    (s.meetSinter g seq l).2.pending = s.pending := by
  refine pending_foldl s _ (keeps_iff.mpr fun s x => ?_)
  (repeat' split) <;> simp

@[simp] theorem pending_commitPoint (g c : Nat) (s : State) : (commitPoint g c s).pending = s.pending := by
  unfold commitPoint
  split
  · rfl
  · simp

/-! Tick programs (R175, R176, R390) -/

/-- Core `g`'s slot for the next frame is due: the core is in service, has not read it, and cycle N_min − 8,192 has come. -/
abbrev ReadDue (s : State) (g : Nat) : Prop :=
  (s.coreOut g = false ∧ (s.core g).read = false ∧ s.flag F.GEY_CTRL.TICKING = true) ∧
    nMin (s.fld F.GEY_CTRL.PERIOD) ≤ s.frameCyc + 8192

/-- A core reads its own slot. -/
theorem tickProgramRead_own (h : ReadDue s g) (hp : s.fencedUnit (coreUnit (g + 1 - 2 * (g % 2))) = false) :
    tickProgramRead g s = (s.readSlot g).2.modCore g fun m => { m with read := true, next := (s.readSlot g).1 } := by
  obtain ⟨⟨hout, hread, htick⟩, hcyc⟩ := h
  simp [tickProgramRead, State.tables, hout, hread, htick, Nat.not_lt.mpr hcyc, hp]

/-- With the other core of the die fenced it reads that one's too. -/
theorem tickProgramRead_both (h : ReadDue s g) (hp : s.fencedUnit (coreUnit (g + 1 - 2 * (g % 2))) = true) :
    tickProgramRead g s = ((s.readSlot g).2.readSlot (g + 1 - 2 * (g % 2))).2.modCore g fun m =>
      { m with read := true, next := (s.readSlot g).1 ++ ((s.readSlot g).2.readSlot (g + 1 - 2 * (g % 2))).1 } := by
  obtain ⟨⟨hout, hread, htick⟩, hcyc⟩ := h
  simp [tickProgramRead, State.tables, hout, hread, htick, Nat.not_lt.mpr hcyc, hp]

theorem tickProgramRead_not_due (h : s.coreOut g = true ∨ (s.core g).read = true ∨ s.flag F.GEY_CTRL.TICKING = false ∨
    s.frameCyc + 8192 < nMin (s.fld F.GEY_CTRL.PERIOD)) : tickProgramRead g s = s :=
  if_pos (by simpa [or_assoc] using h)

/-- A slot that is missing or bad is reported where the core carries the radio: the cells' words and an event. -/
def State.reportSlot (s : State) (g t : Nat) : State :=
  s.when (s.flag F.MXC_TPROG_BASE.RADIO_CORE g) fun s => (s.workCells s.radioDies 0).raise (coreSrc g 0)
    { mech := 13, level := 1, data := t % 2 ^ 16, ext := true, xdata := t }

theorem readSlot_disabled (h : s.flag F.MXC_TPROG_BASE.EN g = false) : s.readSlot g = ([], s) := by
  simp [State.readSlot, h]

section
variable (hen : s.flag F.MXC_TPROG_BASE.EN g = true) (hu : s.meet (s.slotAddr g (s.tickNo + 1)) 64 = u)
include hen hu

theorem readSlot_missing (h : (u.slotAt g (s.tickNo + 1)).2 = none) :
    s.readSlot g = ([], (u.incFld F.MXC_TPROG_STATUS.MISS g).reportSlot g (s.tickNo + 1)) := by
  simp [State.readSlot, State.reportSlot, hen, hu, h]

theorem readSlot_bad (h : (u.slotAt g (s.tickNo + 1)).2 = some false) :
    s.readSlot g = ([], (u.incFld F.MXC_TPROG_STATUS.BAD g).reportSlot g (s.tickNo + 1)) := by
  simp [State.readSlot, State.reportSlot, hen, hu, h]

theorem readSlot_good (h : (u.slotAt g (s.tickNo + 1)).2 = some true) :
    s.readSlot g = (slotWindows (u.slotAt g (s.tickNo + 1)).1 g, u.setFld F.MXC_TPROG_LAST.TICK g (s.tickNo + 1)) := by
  simp [State.readSlot, hen, hu, h]

end

@[simp] theorem pending_readSlot (s : State) (g : Nat) : (s.readSlot g).2.pending = s.pending := by
  unfold State.readSlot
  split
  · rfl
  · extract_lets t u r report
    have hreport (x : State) : (report x).pending = x.pending := by simp [report]
    split <;> simp [hreport, u]

/-! Dies and arrays in service: no field of another register has a part in them -/

theorem dieFld_fst (off : Bool) (d : Nat) : (dieFld off d).1.lo < 256 ∧ (dieFld off d).1.kind = .PKG_DIE_FENCE := by
  unfold dieFld
  (repeat' split) <;> dsimp only <;> decide

theorem dieOut_setFld {f : Field} (hf : f.lo < 256) (hen : f.kind ≠ .PKG_DIE_EN) (hfen : f.kind ≠ .PKG_DIE_FENCE) (i v d : Nat) :
    (s.setFld f i v).dieOut d = s.dieOut d := by
  have hbit (off : Bool) : (s.setFld f i v).fld (dieFld off d).1 = s.fld (dieFld off d).1 :=
    fld_setFld_kind s i 0 v hf (dieFld_fst off d).1 ((dieFld_fst off d).2 ▸ hfen)
  have hmd : (s.setFld f i v).fld F.PKG_DIE_EN.MD_EN = s.fld F.PKG_DIE_EN.MD_EN := fld_setFld_kind s i 0 v hf (by decide) hen
  have hsd : (s.setFld f i v).fld F.PKG_DIE_EN.SD_EN = s.fld F.PKG_DIE_EN.SD_EN := fld_setFld_kind s i 0 v hf (by decide) hen
  have hrd : (s.setFld f i v).fld F.PKG_DIE_EN.RD_EN = s.fld F.PKG_DIE_EN.RD_EN := fld_setFld_kind s i 0 v hf (by decide) hen
  have hed : (s.setFld f i v).fld F.PKG_DIE_EN.ED_EN = s.fld F.PKG_DIE_EN.ED_EN := fld_setFld_kind s i 0 v hf (by decide) hen
  simp only [State.dieOut, State.dieEn, State.dieOff, State.dieFen, hbit, hmd, hsd, hrd, hed]

theorem arraysIn_setFld {f : Field} (hf : f.lo < 256) (hen : f.kind ≠ .PKG_DIE_EN) (hfen : f.kind ≠ .PKG_DIE_FENCE) (i v g : Nat) :
    (s.setFld f i v).arraysIn g = s.arraysIn g := by
  simp only [State.arraysIn, State.arrayOut, State.unitOut, dieOut_setFld hf hen hfen]
  rfl

/-! Windows (R178 to R181) -/

theorem modCore_modCore (s : State) (g : Nat) (f f' : MCore → MCore) :
    (s.modCore g f).modCore g f' = s.modCore g fun m => f' (f m) := by
  have h : (s.setCore g (f (s.core g))).setCore g (f' (f (s.core g))) = s.setCore g (f' (f (s.core g))) :=
    congrArg (fun l => { s with cores := l }) (SMap.set_set {} s.cores g _ _)
  rw [modCore_eq, modCore_eq, modCore_eq, core_setCore, if_pos rfl, h]

theorem windowStart_not_due (h : s.coreOut g = true ∨ (s.core g).run ≠ none ∨ s.flag F.GEY_CTRL.TICKING = false ∨
    (s.core g).wins.find? (fun w => decide (w.start ≤ s.frameCyc)) = none) : windowStart g s = s := by
  have hdue : s.windowDue g = none := by
    refine ite_eq_left_iff.mpr fun hin => ?_
    obtain ⟨hout, hrun, htick⟩ : s.coreOut g = false ∧ (s.core g).run = none ∧ s.flag F.GEY_CTRL.TICKING = true := by
      simpa [and_assoc] using hin
    simpa [hout, hrun, htick] using h
  simp [windowStart, hdue]

theorem windowStart_due {w : Window} (h : s.coreOut g = false ∧ (s.core g).run = none ∧ s.flag F.GEY_CTRL.TICKING = true)
    (hw : (s.core g).wins.find? (fun w => decide (w.start ≤ s.frameCyc)) = some w) : windowStart g s = s.openWindow g w := by
  obtain ⟨hout, hrun, htick⟩ := h
  have hdue : s.windowDue g = some w := by simp [State.windowDue, hout, hrun, htick, hw]
  simp [windowStart, hdue]

/-- The state in which the tenant command whose commit point falls on cycle S has committed. -/
def State.committedAtStart (s : State) (g : Nat) : State :=
  match s.commitAtStart g with
  | some c => commitPoint g c s
  | none => s

theorem committedAtStart_of (h : (s.commitAtStart g = none ∧ u = s) ∨ (∃ c, s.commitAtStart g = some c ∧ u = commitPoint g c s)) :
    s.committedAtStart g = u := by
  obtain ⟨hnone, rfl⟩ | ⟨c, hsome, rfl⟩ := h
  · simp [State.committedAtStart, hnone]
  · simp [State.committedAtStart, hsome]

/-- The start of a window, in the state after that commit point. -/
theorem openWindow_of (h : s.committedAtStart g = u) (w : Window) {k d x : Nat} {ks : List Nat}
    (hk : k = s.gey.frame0 + w.start * 625) (hd : d = if s.tenantPass g k then 1024 else 0)
    (hx : x = if (u.core g).used ∧ !(u.core g).clean ∧ (u.core g).basin ≠ 0 then 512 else 0) (hks : ks = u.tenants g) :
    s.openWindow g w =
      (let v := ks.foldl (fun s c => s.killRerun g c) u
       let v := if ks = [] then v else v.incFld F.MXC_CORE_KILLS.WIN_KILL g ks.length
       ((v.boundary g).wakeUnits fun i => decide (i / 4 = g)).modCore g fun m =>
        { m with scrub := false, wins := m.wins.filter (· != w)
                 run := some { w, left := w.ncmd, issueAt := k + (48 + d + x) * 625 } }) := by
  have hcount (v : State) : (v.when (!ks.isEmpty) fun s => s.incFld F.MXC_CORE_KILLS.WIN_KILL g ks.length) =
      if ks = [] then v else v.incFld F.MXC_CORE_KILLS.WIN_KILL g ks.length := by
    cases ks <;> rfl
  dsimp only
  rw [← hcount]
  subst h hk hd hx hks
  rfl

@[simp] theorem pending_openWindow (s : State) (g : Nat) (w : Window) : (s.openWindow g w).pending = s.pending := by
  have hu : (s.committedAtStart g).pending = s.pending := by
    unfold State.committedAtStart
    split <;> simp
  rw [openWindow_of rfl w rfl rfl rfl rfl]
  simp [hu]

@[simp] theorem pending_windowStart (g : Nat) (s : State) : (windowStart g s).pending = s.pending := by
  unfold windowStart
  split <;> simp

@[simp] theorem pending_handBack (g : Nat) (s : State) : (handBack g s).pending = s.pending := by
  unfold handBack
  split
  · rfl
  · simp

/-- Nothing is handed back: no window runs, its hand-back has begun or is not due, or a held command has been reported. -/
theorem handBack_wait (h : (s.core g).run = none ∨ (∃ r, (s.core g).run = some r ∧
    (r.back = true ∨ s.frameCyc + 559 < r.w.last ∨ r.late = true ∧ s.idle g = false))) : handBack g s = s := by
  obtain hnone | ⟨r, hrun, h⟩ := h
  · simp [handBack, hnone]
  · simp only [handBack, hrun]
    obtain hback | hearly | ⟨hlate, hheld⟩ := h
    · simp [hback]
    · simp [hearly]
    · simp [hlate, hheld]

variable {r : WinRun}

/-- A held command delays the hand-back: the overrun is counted and reported. -/
theorem handBack_overrun (h : (s.core g).run = some r ∧ r.back = false ∧ r.late = false)
    (hheld : r.w.last ≤ s.frameCyc + 559 ∧ s.idle g = false) :
    handBack g s = ((s.incFld F.MXC_TPROG_STATUS.WIN_OVR g).raise (coreSrc g 0)
      { mech := 13, level := 1, data := s.tickNo % 2 ^ 16, ext := true, xdata := s.tickNo }).modCore g fun m =>
        { m with run := some { r with late := true } } := by
  obtain ⟨hrun, hback, hlate⟩ := h
  simp [handBack, hrun, hback, hlate, Nat.not_lt.mpr hheld.1, hheld.2]

/-- An idle core hands the window back: basin 0 is charged for its cycles, and the scrub starts. -/
theorem handBack_idle (h : (s.core g).run = some r ∧ r.back = false) (hidle : r.w.last ≤ s.frameCyc + 559 ∧ s.idle g = true)
    {n : Nat} (hn : n = (if r.late then s.frameCyc + 560 else r.w.last + 1) - r.w.start) :
    handBack g s =
      (let k := s.q0Late g r
       let u := if k = 0 then s else s.incFld F.MXC_TPROG_STATUS.Q0_LATE g k
       (u.charge 0 0 (n * (s.arraysIn g).length)).modCore g fun m => { m with
        run := some { r with back := true }, lane := m.lane + (n - (r.w.last + 1 - r.w.start))
        scrub := true, scrubT := s.gey.arr + 512 * 625, clean := false }) := by
  obtain ⟨hrun, hback⟩ := h
  subst hn
  simp only [handBack, hrun, hback, Nat.not_lt.mpr hidle.1, hidle.2, State.startScrub, modCore_modCore, Bool.false_or,
    decide_false, Bool.false_eq_true, if_false, Bool.not_true]
  by_cases hk : s.q0Late g r = 0
  · rw [hk]
    rfl
  · have harrays : (s.incFld F.MXC_TPROG_STATUS.Q0_LATE g (s.q0Late g r)).arraysIn g = s.arraysIn g :=
      arraysIn_setFld (by decide) (by decide) (by decide) _ _ _
    rw [if_neg hk, bne_iff_ne.mpr hk, when_true, harrays]
    rfl

end Sys2Proof.Machine
end

section
open Sys2Proof Sys2Proof.Machine Sys2Proof.Safety

/-- Settles O28: the read of a slot, the start of a window and the hand-back are each one case of their meaning
(`tickProgramRead_own`, `openWindow_of`, `handBack_idle` and their likes), and none of them touches the queue of waiting
commands; the count of Q0_LATE leaves the arrays in service that the charge goes by. -/
theorem windowCommandsComplete : Obligations.WindowCommandsComplete := by
  unfold Obligations.WindowCommandsComplete
  refine ⟨?_, ?_, ?_, ?_, ?_, ?_, ?_, ?_⟩
  -- The read of a slot: the core's own, that of the fenced core beside it too, and nothing due.
  · intro s g hg hin hdue hfence
    have hx := exec_tickProgramRead (s := s) g (decide_eq_true hg)
    rw [tickProgramRead_own ⟨hin, hdue⟩ hfence] at hx
    have hp : ((s.readSlot g).2.modCore g fun m => { m with read := true, next := (s.readSlot g).1 }).pending = s.pending := by
      simp
    extract_lets k u r report x
    have hread : s.readSlot g = x := by
      cases hen : s.flag F.MXC_TPROG_BASE.EN g with
      | false => simp [x, hen, readSlot_disabled hen]
      | true =>
        simp only [x, hen, Bool.true_eq_false, if_false]
        cases hr : r.2 with
        | none => exact readSlot_missing hen rfl hr
        | some good =>
          cases good with
          | false => exact readSlot_bad hen rfl hr
          | true => exact readSlot_good hen rfl hr
    rw [hread] at hx hp
    exact same_of_settle hx hp
  · rintro s g p hg rfl hin hdue hfence
    have hx := exec_tickProgramRead (s := s) g (decide_eq_true hg)
    rw [tickProgramRead_both ⟨hin, hdue⟩ hfence] at hx
    exact same_of_settle hx (by simp)
  · intro s g hg hnot
    have hx := exec_tickProgramRead (s := s) g (decide_eq_true hg)
    rw [tickProgramRead_not_due hnot] at hx
    exact same_of_settle hx rfl
  -- The start of a window, and none that is due.
  · rintro s u g k d x w ks hg hin hw hu ⟨hk, hd⟩ ⟨hx, hks⟩
    have he := exec_windowStart (s := s) g (decide_eq_true hg)
    have hp := pending_windowStart g s
    rw [windowStart_due hin hw, openWindow_of (committedAtStart_of hu) w hk hd hx hks] at he hp
    exact same_of_settle he hp
  · intro s g hg hnot
    have hx := exec_windowStart (s := s) g (decide_eq_true hg)
    rw [windowStart_not_due hnot] at hx
    exact same_of_settle hx rfl
  -- The hand-back: of an idle core, of one with a held command, and none.
  · intro s g n r hg hrun hidle hn
    have hx := exec_handBack (s := s) g (decide_eq_true hg)
    have hp := pending_handBack g s
    rw [handBack_idle hrun hidle hn] at hx hp
    exact same_of_settle hx hp
  · intro s g r hg hrun hheld
    have hx := exec_handBack (s := s) g (decide_eq_true hg)
    rw [handBack_overrun hrun hheld] at hx
    exact same_of_settle hx (by simp)
  · intro s g hg hnot
    have hx := exec_handBack (s := s) g (decide_eq_true hg)
    rw [handBack_wait hnot] at hx
    exact same_of_settle hx rfl

end

section
/-! SUPPORT. Queue control and the accounting counters (R182 to R184, R194, R195): what one write of MXC_Qq_CTRL does, by the
queue it writes and what it asks for, what one of PKG_ACCT_SNAP does, and what an accrual adds. -/

namespace Sys2Proof.Machine
open Sys2Proof.Safety

variable {s u : State} {q v en : Nat} {j : Instr}

/-! The words written -/

theorem putBit_zero (v : Nat) (b : Bool) : putBit v 0 b = v / 2 * 2 + b2n b := by
  have h : v % 2 = 0 ∨ v % 2 = 1 := by omega
  cases b <;> obtain h | h := h <;> simp [putBit, bit, b2n, h] <;> omega

theorem bits_enWord (v : Nat) (hen : en < 2) :
    bits (v / 2 * 2 + en) 8 1 = bits v 8 1 ∧ bits (v / 2 * 2 + en) 13 9 = bits v 13 9 ∧
      bits (v / 2 * 2 + en) 24 14 = bits v 24 14 ∧ bit (v / 2 * 2 + en) 0 = (en == 1) := by
  have h0 : (v / 2 * 2 + en) / 2 ^ 0 % 2 = en := by omega
  simp only [bits, bit, h0, and_true]
  refine ⟨?_, ?_, ?_⟩ <;> omega

theorem bits_snapWord (v : Nat) : bits (putBit v 8 true) 7 0 = v % 256 ∧ bit (putBit v 8 true) 8 = true := by
  simp only [putBit, bits, bit, if_true]
  split
  · next h => exact ⟨by omega, h⟩
  · next h => rw [beq_iff_eq] at h ⊢; omega

theorem clamp_size_lt (v : Nat) : clamp 4 16 v < 32 := by
  unfold clamp
  (repeat' split) <;> omega

/-! A write of MXC_Qq_CTRL (Table 6-9) -/

theorem wr_unchanged {k : RegKind} {ix : Nat} {f : State → State} (h : f s = s) : s.wr k ix f = s := by
  unfold State.wr State.when
  split
  · exact h
  · rfl

/-- EN of a queue written: 0 clears QERR too (R184). -/
def writeEn (q en : Nat) (s : State) : State :=
  if en = 1 then s.setFld F.MXC_Qq_CTRL.EN q 1 else (s.setFld F.MXC_Qq_CTRL.EN q 0).setFld F.MXC_Qq_STATUS.QERR q 0

theorem fld_writeEn (hen : en < 2) (u : State) : (writeEn q en u).fld F.MXC_Qq_CTRL.EN q = en ∧
    (en = 0 → (writeEn q en u).fld F.MXC_Qq_STATUS.QERR q = 0) ∧
    (en = 1 → (writeEn q en u).fld F.MXC_Qq_STATUS.QERR q = u.fld F.MXC_Qq_STATUS.QERR q) := by
  obtain rfl | rfl : en = 0 ∨ en = 1 := by omega
  · simp (disch := decide) [writeEn, fld_setFld_kind]
  · exact ⟨fld_setFld_same .., nofun, fun _ => fld_setFld_kind _ _ _ _ (by decide) (by decide) (by decide)⟩

/-- The other fields of the register read as before. -/
theorem fld_writeEn_ne {f : Field} (hf : f.lo < 256 ∧ f.lo ≠ 0) (hk : f.kind ≠ .MXC_Qq_STATUS) (u : State) :
    (writeEn q en u).fld f q = u.fld f q := by
  unfold writeEn
  split
  · exact fld_setFld_lo _ _ _ _ (by decide) hf.1 hf.2.symm
  · rw [fld_setFld_kind _ _ _ _ (by decide) hf.1 hk.symm, fld_setFld_lo _ _ _ _ (by decide) hf.1 hf.2.symm]

theorem sameBut_writeEn {fs : List (Field × Nat)} (h : SameBut fs s u) (hen : (F.MXC_Qq_CTRL.EN, q) ∈ fs)
    (hqerr : (F.MXC_Qq_STATUS.QERR, q) ∈ fs) : SameBut fs s (writeEn q en u) := by
  unfold writeEn
  split
  · exact h.setFld 1 hen
  · exact (h.setFld 0 hen).setFld 0 hqerr

/-- Queue 0 of a unit and the engine queues keep their owner and SHARE. -/
theorem queueCtrl_fixed (hq : q % 8 = 0 ∨ 320 ≤ q) (hen : en < 2) : queueCtrl q (v / 2 * 2 + en) s =
    writeEn q en (s.setFld F.MXC_Qq_CTRL.LOG2SIZE q (if 320 ≤ q then 6 else clamp 4 16 (bits v 13 9))) := by
  obtain ⟨-, hsize, -, hbit⟩ := bits_enWord v hen
  have hzero : q < 192 ∧ q % 8 = 0 ∨ 320 ≤ q ∨ 192 ≤ q ∧ q % 8 = 0 := by omega
  simp [queueCtrl, writeEn, hzero, hsize, hbit]

/-- Owner, size and SHARE of a tenant queue written, the owner where it changes. -/
def writeCtrl (q b size share : Nat) (s : State) : State :=
  ((s.when (s.fld F.MXC_Qq_CTRL.BASIN q != b) fun s => s.setFld F.MXC_Qq_CTRL.BASIN q b).setFld
    F.MXC_Qq_CTRL.LOG2SIZE q size).setFld F.MXC_Qq_CTRL.SHARE q share

theorem fld_writeCtrl {b size share : Nat} (hb : b < 256) (hz : size < 32) (hs : share < 2048) (s : State) :
    (writeCtrl q b size share s).fld F.MXC_Qq_CTRL.BASIN q = b ∧
    (writeCtrl q b size share s).fld F.MXC_Qq_CTRL.LOG2SIZE q = size ∧
    (writeCtrl q b size share s).fld F.MXC_Qq_CTRL.SHARE q = share ∧
    (writeCtrl q b size share s).fld F.MXC_Qq_STATUS.QERR q = s.fld F.MXC_Qq_STATUS.QERR q := by
  have hb' : b % 2 ^ F.MXC_Qq_CTRL.BASIN.w = b := Nat.mod_eq_of_lt hb
  have hz' : size % 2 ^ F.MXC_Qq_CTRL.LOG2SIZE.w = size := Nat.mod_eq_of_lt hz
  have hs' : share % 2 ^ F.MXC_Qq_CTRL.SHARE.w = share := Nat.mod_eq_of_lt hs
  unfold writeCtrl
  by_cases h : s.fld F.MXC_Qq_CTRL.BASIN q = b
  · simp (disch := decide) [fld_setFld_lo, h, hz', hs']
  · simp (disch := decide) [bne_iff_ne.mpr h, fld_setFld_lo, hb', hz', hs']

theorem sameBut_writeCtrl (q b size share : Nat) (s : State) :
    SameBut [(F.MXC_Qq_CTRL.BASIN, q), (F.MXC_Qq_CTRL.LOG2SIZE, q), (F.MXC_Qq_CTRL.SHARE, q), (F.MXC_Qq_CTRL.EN, q),
      (F.MXC_Qq_STATUS.QERR, q)] s (writeCtrl q b size share s) :=
  have h := SameBut.refl _ s
  ((h.when _ (h.setFld b (by simp))).setFld size (by simp)).setFld share (by simp)

section
variable (hq : q < 320 ∧ q % 8 ≠ 0) (hen : en < 2) {b share : Nat} (hb : b = bits v 8 1) (hs : share = min (bits v 24 14) 1024)
include hq hen hb hs

/-- A tenant queue takes a write that changes no more than it may: its owner, size and SHARE. -/
theorem queueCtrl_taken
    (howner : s.fld F.MXC_Qq_CTRL.BASIN q = b ∨
      (s.building (s.fld F.MXC_Qq_CTRL.BASIN q) = true ∧ s.queueBusy q = false ∧ s.building b = true))
    (hshare : s.fld F.MXC_Qq_CTRL.SHARE q = share ∨ s.building b = true) :
    queueCtrl q (v / 2 * 2 + en) s = writeEn q en (writeCtrl q b (clamp 4 16 (bits v 13 9)) share s) := by
  obtain ⟨hbasin, hsize, hsh, hbit⟩ := bits_enWord v hen
  have hzero : ¬(q < 192 ∧ q % 8 = 0 ∨ 320 ≤ q ∨ 192 ≤ q ∧ q % 8 = 0) := by omega
  have hsmall : (if 320 ≤ q then 6 else clamp 4 16 (bits v 13 9)) = clamp 4 16 (bits v 13 9) := if_neg (by omega)
  have hmove : ((s.fld F.MXC_Qq_CTRL.BASIN q != b) &&
      (s.queueBusy q || !s.building (s.fld F.MXC_Qq_CTRL.BASIN q) || !s.building b)) = false := by
    obtain h | ⟨h1, h2, h3⟩ := howner
    · simp [h]
    · simp [h1, h2, h3]
  have hset : ((share != s.fld F.MXC_Qq_CTRL.SHARE q) && !s.building b) = false := by
    obtain h | h := hshare <;> simp [h]
  simp only [queueCtrl, writeEn, writeCtrl, hzero, hbasin, hsize, hsh, hbit, ← hb, ← hs, hmove, hset, hsmall,
    decide_false, Bool.not_false, Bool.true_and, Bool.false_eq_true, if_false, when_true, beq_iff_eq]

/-- A write that asks for another change is ignored whole. -/
theorem queueCtrl_refused
    (h : (s.fld F.MXC_Qq_CTRL.BASIN q ≠ b ∧
        (s.building (s.fld F.MXC_Qq_CTRL.BASIN q) = false ∨ s.queueBusy q = true ∨ s.building b = false)) ∨
      (s.fld F.MXC_Qq_CTRL.SHARE q ≠ share ∧ s.building b = false)) : queueCtrl q (v / 2 * 2 + en) s = s := by
  obtain ⟨hbasin, -, hsh, -⟩ := bits_enWord v hen
  have hzero : ¬(q < 192 ∧ q % 8 = 0 ∨ 320 ≤ q ∨ 192 ≤ q ∧ q % 8 = 0) := by omega
  simp only [queueCtrl, hzero, hbasin, hsh, ← hb, ← hs, decide_false, Bool.not_false, Bool.true_and]
  split
  · rfl
  · next hkeep =>
    refine if_pos ?_
    obtain ⟨hmoved, hbar⟩ | ⟨hset, hbar⟩ := h
    · exact absurd (by simpa [hmoved, or_assoc, or_left_comm] using hbar) hkeep
    · simp [hset.symm, hbar]

end

/-- `j` writes MXC_Qq_CTRL of queue `q` with EN `en` and the rest of `v`. -/
abbrev QueueCommand (j : Instr) (s : State) (q en v : Nat) : Prop :=
  en < 2 ∧ exec j s = .next (settle s (s.wr .MXC_Qq_CTRL q (queueCtrl q (v / 2 * 2 + en))))

theorem queueCommand_queueEnable (hq : q < 392) (v : BitVec 32) : QueueCommand (.queueEnable q v) s q 1 v.toNat := by
  refine ⟨by decide, (exec_queueEnable q v (decide_eq_true hq)).trans ?_⟩
  unfold queueEnable
  rw [putBit_zero]
  rfl

theorem queueCommand_queueDisable (hq : q < 392) (v : BitVec 32) : QueueCommand (.queueDisable q v) s q 0 v.toNat := by
  refine ⟨by decide, (exec_queueDisable q v (decide_eq_true hq)).trans ?_⟩
  unfold queueDisable
  rw [putBit_zero]
  rfl

theorem queueCommand_queueBasinWrite (hq : q < 392) (v : BitVec 32) :
    QueueCommand (.queueBasinWrite q v) s q (v.toNat % 2) v.toNat := by
  refine ⟨Nat.mod_lt _ (by decide), (exec_queueBasinWrite q v (decide_eq_true hq)).trans ?_⟩
  rw [Nat.div_add_mod' v.toNat 2]
  rfl

theorem queueCommand_taken (hj : QueueCommand j s q en v) (hw : s.takesWrite .MXC_Qq_CTRL q = true)
    (hq : q < 320 ∧ q % 8 ≠ 0) {b : Nat} (hb : b = bits v 8 1)
    (howner : s.fld F.MXC_Qq_CTRL.BASIN q = b ∨
      (s.building (s.fld F.MXC_Qq_CTRL.BASIN q) = true ∧ s.queueBusy q = false ∧ s.building b = true))
    (hshare : s.fld F.MXC_Qq_CTRL.SHARE q = min (bits v 24 14) 1024 ∨ s.building b = true) :
    ∃ t, exec j s = .next t ∧ t.fld F.MXC_Qq_CTRL.BASIN q = bits v 8 1 ∧
      t.fld F.MXC_Qq_CTRL.LOG2SIZE q = clamp 4 16 (bits v 13 9) ∧ t.fld F.MXC_Qq_CTRL.SHARE q = min (bits v 24 14) 1024 ∧
      (t.fld F.MXC_Qq_CTRL.EN q = en ∧ (en = 0 → t.fld F.MXC_Qq_STATUS.QERR q = 0) ∧
        (en = 1 → t.fld F.MXC_Qq_STATUS.QERR q = s.fld F.MXC_Qq_STATUS.QERR q)) ∧
      SameBut [(F.MXC_Qq_CTRL.BASIN, q), (F.MXC_Qq_CTRL.LOG2SIZE, q), (F.MXC_Qq_CTRL.SHARE, q), (F.MXC_Qq_CTRL.EN, q),
        (F.MXC_Qq_STATUS.QERR, q)] s t := by
  obtain ⟨hen, hx⟩ := hj
  rw [wr_of _ hw, queueCtrl_taken hq hen hb rfl howner hshare] at hx
  have hb256 : bits v 8 1 < 256 := bits_lt v 8 1
  obtain ⟨hbasin, hsize, hsh, hqerr⟩ :=
    fld_writeCtrl (q := q) (hb ▸ hb256) (clamp_size_lt _) (show min (bits v 24 14) 1024 < 2048 by omega) s
  have he := fld_writeEn (q := q) hen (writeCtrl q b (clamp 4 16 (bits v 13 9)) (min (bits v 24 14) 1024) s)
  rw [hqerr] at he
  refine ⟨_, hx, ?_, ?_, ?_, he, (sameBut_writeEn (sameBut_writeCtrl ..) (by simp) (by simp)).settle ?_⟩
  · exact (fld_writeEn_ne (by decide) (by decide) _).trans (hbasin.trans hb)
  · exact (fld_writeEn_ne (by decide) (by decide) _).trans hsize
  · exact (fld_writeEn_ne (by decide) (by decide) _).trans hsh
  · rfl

theorem queueCommand_refused (hj : QueueCommand j s q en v) (hq : q < 320 ∧ q % 8 ≠ 0) {b : Nat} (hb : b = bits v 8 1)
    (h : (s.fld F.MXC_Qq_CTRL.BASIN q ≠ b ∧
        (s.building (s.fld F.MXC_Qq_CTRL.BASIN q) = false ∨ s.queueBusy q = true ∨ s.building b = false)) ∨
      (s.fld F.MXC_Qq_CTRL.SHARE q ≠ min (bits v 24 14) 1024 ∧ s.building b = false)) :
    ∃ t, exec j s = .next t ∧ Same s t := by
  obtain ⟨hen, hx⟩ := hj
  rw [wr_unchanged (queueCtrl_refused hq hen hb rfl h)] at hx
  exact same_of_settle hx rfl

theorem queueCommand_fixed (hj : QueueCommand j s q en v) (hw : s.takesWrite .MXC_Qq_CTRL q = true) (hq : q % 8 = 0 ∨ 320 ≤ q) :
    ∃ t, exec j s = .next t ∧
      t.fld F.MXC_Qq_CTRL.LOG2SIZE q = (if 320 ≤ q then 6 else clamp 4 16 (bits v 13 9)) ∧
      (t.fld F.MXC_Qq_CTRL.EN q = en ∧ (en = 0 → t.fld F.MXC_Qq_STATUS.QERR q = 0) ∧
        (en = 1 → t.fld F.MXC_Qq_STATUS.QERR q = s.fld F.MXC_Qq_STATUS.QERR q)) ∧
      SameBut [(F.MXC_Qq_CTRL.LOG2SIZE, q), (F.MXC_Qq_CTRL.EN, q), (F.MXC_Qq_STATUS.QERR, q)] s t := by
  obtain ⟨hen, hx⟩ := hj
  rw [wr_of _ hw, queueCtrl_fixed hq hen] at hx
  have he := fld_writeEn (q := q) hen
    (s.setFld F.MXC_Qq_CTRL.LOG2SIZE q (if 320 ≤ q then 6 else clamp 4 16 (bits v 13 9)))
  rw [fld_setFld_kind s _ _ _ (by decide) (by decide) (by decide)] at he
  have hsize : (if 320 ≤ q then 6 else clamp 4 16 (bits v 13 9)) < 32 := by
    split
    · decide
    · exact clamp_size_lt _
  refine ⟨_, hx, ?_, he, (sameBut_writeEn ((SameBut.refl _ s).setFld _ (by simp)) (by simp) (by simp)).settle rfl⟩
  rw [fld_settle, fld_writeEn_ne (by decide) (by decide), fld_setFld_same]
  exact Nat.mod_eq_of_lt hsize

/-- Where the die of the queue takes no writes. -/
theorem queueCommand_ignored (hj : QueueCommand j s q en v) (hw : s.takesWrite .MXC_Qq_CTRL q = false) :
    ∃ t, exec j s = .next t ∧ Same s t := by
  obtain ⟨-, hx⟩ := hj
  rw [wr_ignored _ hw] at hx
  exact same_of_settle hx rfl

/-! Accounting -/

/-- A write of PKG_ACCT_SNAP with GO: BASIN is written, and a snapshot starts where none runs. -/
theorem acctSnapshot_eq (v : BitVec 32) : acctSnapshot v s =
    if s.flag F.PKG_ACCT_SNAP.BUSY then s.setFld F.PKG_ACCT_SNAP.BASIN 0 (v.toNat % 256)
    else { (s.setFld F.PKG_ACCT_SNAP.BASIN 0 (v.toNat % 256)).setFld F.PKG_ACCT_SNAP.BUSY 0 1 with snap := some (v.toNat % 256) } := by
  obtain ⟨hbasin, hgo⟩ := bits_snapWord v.toNat
  have hbusy : (s.setFld F.PKG_ACCT_SNAP.BASIN 0 (v.toNat % 256)).flag F.PKG_ACCT_SNAP.BUSY = s.flag F.PKG_ACCT_SNAP.BUSY :=
    flag_setFld_ne s _ (by decide)
  simp only [acctSnapshot, acctSnap, hbasin, hgo, hbusy, Bool.not_true, Bool.false_or]

theorem fld_snap (s : State) (b : Option Nat) (f : Field) (i : Nat) : ({ s with snap := b } : State).fld f i = s.fld f i := rfl

theorem sameBut_snap {fs : List (Field × Nat)} (h : SameBut fs s u) (b : Option Nat) :
    SameBut fs { s with snap := b } { u with snap := b } := by
  obtain ⟨h1, h2, h3, h4, h5⟩ := h
  exact ⟨h1, h2, h3, h4, congrArg (fun t : State => { t with snap := b }) h5⟩

/-- Charges of several basins go to the accounting counters alone. -/
theorem foldl_charge (l : List Nat) (word n : Nat) (s : State) :
    l.foldl (fun s b => s.charge b word n) s = { s with
      acct := l.foldl (fun m b => SMap.set 0 m (b * 8 + word) ((SMap.get 0 m (b * 8 + word) + n) % 2 ^ 64)) s.acct } := by
  induction l generalizing s with
  | nil => rfl
  | cons b l ih => rw [List.foldl_cons, ih]; rfl

end Sys2Proof.Machine
end

section
open Sys2Proof Sys2Proof.Machine Sys2Proof.Safety

/-- Settles O29: the three commands that write MXC_Qq_CTRL are one write with EN 1, EN 0 or the EN of their word
(`QueueCommand`), which a queue takes, takes in part or ignores (`queueCtrl_taken`, `queueCtrl_fixed`, `queueCtrl_refused`);
a snapshot starts where none runs (`acctSnapshot_eq`), and an accrual is a sum of charges (`foldl_charge`). -/
theorem queueCommandsComplete : Obligations.QueueCommandsComplete := by
  unfold Obligations.QueueCommandsComplete
  refine ⟨?_, ?_, ?_, ?_, ?_, ?_, ?_, ?_, ?_, ?_⟩
  -- A doorbell write: a line in SRAM, and one elsewhere.
  · intro s q n o cq v hq hp
    have hx := exec_doorbellWrite (s := s) q cq v (decide_eq_true hq)
    simp only [doorbellWrite, hp] at hx
    exact same_of_settle hx (pending_put ..)
  · intro s q cq v hq hp
    have hx := exec_doorbellWrite (s := s) q cq v (decide_eq_true hq)
    have hnot : doorbellWrite q cq v s = s := by
      unfold doorbellWrite
      extract_lets a
      split
      · next n o h => exact absurd h (hp n o)
      · rfl
    rw [hnot] at hx
    exact same_of_settle hx rfl
  -- A write of MXC_Qq_CTRL: taken, ignored whole, of a queue that keeps its owner, and at a die that takes no writes.
  · intro s q b v hq hw hb howner hshare
    have hq' : q < 392 := by omega
    exact ⟨queueCommand_taken (queueCommand_queueEnable hq' v) hw hq hb howner hshare,
      queueCommand_taken (queueCommand_queueDisable hq' v) hw hq hb howner hshare,
      queueCommand_taken (queueCommand_queueBasinWrite hq' v) hw hq hb howner hshare⟩
  · intro s q b v hq hb h
    have hq' : q < 392 := by omega
    exact ⟨queueCommand_refused (queueCommand_queueEnable hq' v) hq hb h,
      queueCommand_refused (queueCommand_queueDisable hq' v) hq hb h,
      queueCommand_refused (queueCommand_queueBasinWrite hq' v) hq hb h⟩
  · rintro s q v ⟨hq, hfixed⟩ hw
    exact ⟨queueCommand_fixed (queueCommand_queueEnable hq v) hw hfixed,
      queueCommand_fixed (queueCommand_queueDisable hq v) hw hfixed,
      queueCommand_fixed (queueCommand_queueBasinWrite hq v) hw hfixed⟩
  · exact fun s q v hq hw => ⟨queueCommand_ignored (queueCommand_queueEnable hq v) hw,
      queueCommand_ignored (queueCommand_queueDisable hq v) hw, queueCommand_ignored (queueCommand_queueBasinWrite hq v) hw⟩
  -- A snapshot starts, or one runs.
  · intro s v hidle
    have hx := exec_acctSnapshot (s := s) v rfl
    rw [acctSnapshot_eq, hidle, if_neg (by decide)] at hx
    refine ⟨_, hx, ?_, ?_, ?_⟩
    · rw [fld_settle, fld_snap, fld_setFld_ne _ _ (by decide), fld_setFld_same]
      exact Nat.mod_mod v.toNat 256
    · rw [fld_settle, fld_snap, fld_setFld_same]
      rfl
    · exact (sameBut_snap (((SameBut.refl _ s).setFld _ (by simp)).setFld _ (by simp)) _).settle rfl
  · intro s v hbusy
    have hx := exec_acctSnapshot (s := s) v rfl
    rw [acctSnapshot_eq, hbusy, if_pos rfl] at hx
    exact ⟨_, hx, (fld_setFld_same ..).trans (Nat.mod_mod v.toNat 256), ((SameBut.refl _ s).setFld _ (by simp)).settle rfl⟩
  -- An accrual, and none that is due.
  · intro s hdue
    have hx := exec_storeBsAccrual (s := s) rfl
    simp only [storeBsAccrual, if_neg hdue, foldl_charge] at hx
    exact same_of_settle hx rfl
  · intro s hnone
    have hx := exec_storeBsAccrual (s := s) rfl
    simp only [storeBsAccrual, if_pos hnone] at hx
    exact same_of_settle hx rfl

end
